-- ==== Sys2Proof/Word.lean ====
section
/-! DEFINITION. The word types of the Zarim and the plain data shapes that the whole model shares: bit vectors for
what the manual treats as bits, and `SMap`, a list of (key, value) pairs in one canonical form (keys strictly rising, no
entry equal to what an unlisted key reads as; the operations and the form are in Machine/Sparse.lean). -/

namespace Sys2Proof

abbrev Byte := BitVec 8
abbrev W16 := BitVec 16
abbrev W32 := BitVec 32
abbrev W64 := BitVec 64
abbrev W128 := BitVec 128

/-- Sparse data by number: memory bytes, registers, contexts, queues, marks. -/
abbrev SMap (α : Type) := List (Nat × α)

/-- One field of a 32-bit register: the register's physical address and the field's bits `[hi:lo]`. -/
structure Fld where
  addr : Nat
  hi : Nat
  lo : Nat
  deriving DecidableEq, Repr

/-- The access codes of register tables (R8); `rsv` is a reserved bit (R103). -/
inductive Acc where
  | ro | rw | w1c | w1s | wo | rc | rsv
  deriving DecidableEq, Repr

/-- One line of a register table: bits `[hi:lo]`, access code and reset value. -/
structure RegField where
  hi : Nat
  lo : Nat
  acc : Acc
  reset : Nat
  deriving DecidableEq, Repr

/-- Which half of a `_LO`/`_HI` pair under R104 a register is. -/
inductive PairHalf where
  | none | lo | hi
  deriving DecidableEq, Repr

/-- Which count of R2 cuts the first index of an array of registers. -/
inductive Limit where
  | all | core | bank | cell | lane | port | ctxWord
  deriving DecidableEq, Repr

/-- A register, or an array of registers, of one block page: offset in the window, the array's (stride, count) from
the outermost index inwards, which half of a pair it is, and its fields from the highest bit down. -/
structure RegRow where
  off : Nat
  dims : List (Nat × Nat) := []
  lim : Limit := .all
  pair : PairHalf := .none
  fields : List RegField
  deriving DecidableEq, Repr

end Sys2Proof
end

