-- ==== Sys2Proof/Syntax.lean ====
section
/-! DEFINITION. The commands of the machine: `Instr`, one constructor per row of spec/opcode_table.json, in the table's
order, and the small types of their operands. The rows that are syllables of the instruction set carry a `Syl` (which core
issues it, its STOP bit, its unit and its condition, R124) and the operand fields of their form (R140). -/

namespace Sys2Proof

/-- The head of a syllable: the core that issues it, and the fields STOP, UNIT and COND of R124. -/
structure Syl where
  core : Nat
  stop : Bool
  unit : BitVec 2
  cond : BitVec 4
  deriving DecidableEq, Repr

/-- The immediate of forms RI: imm8 with L = 0, or a long-immediate syllable (its own STOP and IMM31, R129). -/
inductive Imm where
  | short (v : BitVec 8)
  | long (stop : Bool) (v : BitVec 31)
  deriving DecidableEq, Repr

/-- The immediate of form PI: CC and imm5 with L = 0, or a long-immediate syllable (CC is then zero, R146). -/
inductive ImmP where
  | short (cc : BitVec 3) (v : BitVec 5)
  | long (stop : Bool) (v : BitVec 31)
  deriving DecidableEq, Repr

/-- The address modes of form M (R140). -/
inductive Addr where
  | off (x : BitVec 7)
  | modulo (pair : BitVec 2) (step : BitVec 5)
  | rev (pair : BitVec 2)
  | long (stop : Bool) (v : BitVec 31)
  deriving DecidableEq, Repr

abbrev CReg := BitVec 5
abbrev PReg := BitVec 3
abbrev AReg := BitVec 2

/-- The ordering variants (R1). -/
inductive Variant where
  | a16 | b8 | c8
  deriving DecidableEq, Repr

/-- A word of 128 bits and its tag: a register image, a capability word, a message word. -/
structure CapW where
  bits : W128
  tag : Bool
  deriving DecidableEq, Repr

/-- Who makes a register access: a core, or the debug unit (R104). -/
inductive Src where
  | core (n : Nat)
  | debug
  deriving DecidableEq, Repr

/-- The requester of an access to memory or to a register page: its block ID, the core when it is one, and the context on
whose behalf the request is made, if any (ERR_CTX, R105). -/
structure Requester where
  blk : Nat
  core : Option Nat
  ctx : Option Nat
  deriving DecidableEq, Repr

/-- The writing domains of R70; `exempt` is the test engine. -/
inductive Dom where
  | compute | network | field | measurement | twin | crypto | exempt
  deriving DecidableEq, Repr

/-- The completion statuses common to every block (R120). -/
inductive Status where
  | ok | disabled | cancelled | aborted | collided | dataErr | notOwner | absent | range
  deriving DecidableEq, Repr

/-- A character received by a UART (R485): the tick of its start bit, its data, whether its stop bit was low and whether its parity failed. -/
structure SerChar where
  start : Nat
  data : Byte
  ferr : Bool
  perr : Bool
  deriving DecidableEq, Repr

/-- An upset that has struck the word an access is about to read: the physical world's part in R68. -/
inductive Upset where
  | none | single | double
  deriving DecidableEq, Repr

/-- What a request at a tile port asks for, within one 16-byte word: a read, or a write of `bytes` at byte `off` with the
tag it presents (set only on a whole word). -/
inductive PortOp where
  | read
  | write (off : Nat) (bytes : List Byte) (tag : Bool)
  deriving DecidableEq, Repr

/-- A request presented at a tile port (R62): the word's physical address, the requester and its writing domain. -/
structure PortReq where
  addr : Nat
  who : Requester
  dom : Dom
  op : PortOp
  deriving DecidableEq, Repr

/-- A tile of a bank (R61). -/
structure TileId where
  bank : Nat
  tile : Nat
  deriving DecidableEq, Repr

/-- A fabric cycle of a tile port (R62–R64): the requests that arrive, how many completions are returned, and an upset that strikes the word
of the request it performs (R68). -/
structure PortCycle where
  reqs : List PortReq
  back : Nat
  upset : Upset
  deriving DecidableEq, Repr

/-- The end of a granule of the MCOPY that a core holds (R203), and a core whose store arrives in the cycle of one of its words (R66). -/
structure GranuleEnd where
  core : Nat
  rival : Option Nat
  deriving DecidableEq, Repr

/-- The read of a record onto a core (R243), and an upset that strikes one of its words (R244). -/
structure RecordRead where
  core : Nat
  word : Nat
  upset : Upset
  deriving DecidableEq, Repr

/-- What the release of a chip reset finds on the board: the level of TESTEN (R583), and the flash device, if one answers: log2 of its size,
and whether it offers the 8D-8D-8D profile (R545). -/
structure Board where
  testen : Bool
  flash : Option (Nat × Bool)
  deriving DecidableEq, Repr

/-- A mark as a checkpoint carries it (R505). -/
structure MarkCk where
  mark : Nat
  coord : W64
  inc : W64
  ctl : W32
  deriving DecidableEq, Repr

/-- A cell as a checkpoint carries it (R505): COUT and words 0x80–0xFC of its block. -/
structure CellCk where
  cell : Nat
  cout : W32
  words : List W32
  deriving DecidableEq, Repr

/-- What a twin-link frame carries (R492 and the rules of its type). The byte layout of bodies other than STORE's is not
stated, so a body is its contents. -/
inductive TwBody where
  | heartbeat (role : Nat) (ready line claim twincl drive : Bool) (axis0 : W64)
  | store (recs : List (Nat × CapW))
  | queueOp (q put get ovf : Nat) (msg : Option (List CapW))
  | queueSync (q put get ovf : Nat) (slots : List (List CapW))
  | record (ctx first : Nat) (words : List CapW)
  | checkpoint (tag age : Nat) (axes : List (Bool × W64)) (marks : List MarkCk) (cells : List CellCk)
  | relinquish
  | triple (core ctx dfcause cause : Nat)
  | join
  | syncDone
  | peerFence
  | peerReset
  | ack (upTo : Nat)
  | nakStore (addr status : Nat)
  | nakQueue (q status : Nat)
  | nakRecord (ctx status : Nat)
  deriving DecidableEq, Repr

/-- A twin-link frame other than HELLO (R492): SEQ, the LAST bit and the body. -/
structure TwFrame where
  seq : Nat
  last : Bool
  body : TwBody
  deriving DecidableEq, Repr

/-- The commands: one constructor per row of the opcode table. -/
inductive Instr where
  /-- INSTRUCTION_FETCH (R127): The core reads a bundle's syllables through the fetch buffer, checking each under R33 and translation. -/
  | instructionFetch (core : Nat)
  /-- NOP (R141): No operation in any unit. -/
  | nop (h : Syl)
  /-- ADD (R152): Writes x + y modulo 2^64. -/
  | add (h : Syl) (rd rs1 rs2 : CReg)
  /-- SUB (R152): Writes x - y modulo 2^64. -/
  | sub (h : Syl) (rd rs1 rs2 : CReg)
  /-- AND (R152): Writes the bitwise AND of x and y. -/
  | and (h : Syl) (rd rs1 rs2 : CReg)
  /-- OR (R152): Writes the bitwise OR of x and y. -/
  | or (h : Syl) (rd rs1 rs2 : CReg)
  /-- XOR (R152): Writes the bitwise XOR of x and y. -/
  | xor (h : Syl) (rd rs1 rs2 : CReg)
  /-- ANDN (R152): Writes x AND NOT y. -/
  | andn (h : Syl) (rd rs1 rs2 : CReg)
  /-- SLL (R152): Shifts x left by bits [5:0] of y. -/
  | sll (h : Syl) (rd rs1 rs2 : CReg)
  /-- SRL (R152): Shifts x right logically by bits [5:0] of y. -/
  | srl (h : Syl) (rd rs1 rs2 : CReg)
  /-- SRA (R152): Shifts x right arithmetically by bits [5:0] of y. -/
  | sra (h : Syl) (rd rs1 rs2 : CReg)
  /-- ROL (R152): Rotates x left by bits [5:0] of y. -/
  | rol (h : Syl) (rd rs1 rs2 : CReg)
  /-- MIN (R152): Writes the signed minimum of x and y. -/
  | min (h : Syl) (rd rs1 rs2 : CReg)
  /-- MAX (R152): Writes the signed maximum of x and y. -/
  | max (h : Syl) (rd rs1 rs2 : CReg)
  /-- MINU (R152): Writes the unsigned minimum of x and y. -/
  | minu (h : Syl) (rd rs1 rs2 : CReg)
  /-- MAXU (R152): Writes the unsigned maximum of x and y. -/
  | maxu (h : Syl) (rd rs1 rs2 : CReg)
  /-- PACK (R152): Packs the low 32 bits of x and of y into one 64-bit result. -/
  | pack (h : Syl) (rd rs1 rs2 : CReg)
  /-- ADDI (R153): Adds a sign-extended immediate to x. -/
  | addi (h : Syl) (rd rs1 : CReg) (imm : Imm)
  /-- ANDI (R153): ANDs x with a zero-extended immediate. -/
  | andi (h : Syl) (rd rs1 : CReg) (imm : Imm)
  /-- ORI (R153): ORs x with a zero-extended immediate. -/
  | ori (h : Syl) (rd rs1 : CReg) (imm : Imm)
  /-- XORI (R153): XORs x with a zero-extended immediate. -/
  | xori (h : Syl) (rd rs1 : CReg) (imm : Imm)
  /-- SHI (R153): Shifts or rotates x by an immediate amount. -/
  | shi (h : Syl) (rd rs1 : CReg) (kind : BitVec 2) (amount : BitVec 6)
  /-- CMP (R155): Compares x with y and writes the result to a predicate. -/
  | cmp (h : Syl) (fn : BitVec 4) (pd : PReg) (rs1 rs2 : CReg)
  /-- CMPI (R155): Compares x with an immediate and writes the result to a predicate. -/
  | cmpi (h : Syl) (pd : PReg) (rs1 : CReg) (imm : ImmP)
  /-- PLOG (R155): Combines two predicates by PAND, POR, PXOR or PANDN. -/
  | plog (h : Syl) (fn : BitVec 4) (pd ps1 ps2 : PReg)
  /-- BR (R156): Transfers control to the bundle address plus a displacement. -/
  | br (h : Syl) (disp : BitVec 19)
  /-- CALL (R157): Makes a local return capability in c31, transfers, and rotates the window. -/
  | call (h : Syl) (disp : BitVec 19)
  /-- JMP (R158): Checks a capability target and sets the PCC to it. -/
  | jmp (h : Syl) (rs1 : CReg)
  /-- CALLR (R158): Calls through a capability target with the window check and rotation of CALL. -/
  | callr (h : Syl) (rs1 : CReg)
  /-- RET (R159): Returns through c15 and rotates the window back. -/
  | ret (h : Syl)
  /-- CALLG (R254): Opens a gate, changes ring, writes the sealed return and rotates the window. -/
  | callg (h : Syl) (rs1 : CReg)
  /-- RETG (R256): Returns through a sealed return, restoring PCC and ring together. -/
  | retg (h : Syl) (rs1 : CReg)
  /-- ERET (R263): Returns from an exception or double fault, with a lazy-state reload where one is due. -/
  | eret (h : Syl)
  /-- REP (R193): Executes the target bundle RCNT times. -/
  | rep (h : Syl)
  /-- REPN (R194): Executes the target bundle a fixed N times, recording progress in PROG. -/
  | repn (h : Syl) (count : BitVec 6)
  /-- TRAP (R161): Raises cause 0x70 with the coded subcode. -/
  | trap (h : Syl) (code : BitVec 7)
  /-- BRK (R161): Raises cause 0x71. -/
  | brk (h : Syl) (code : BitVec 7)
  /-- MFU (R137): Reads user state into a register. -/
  | mfu (h : Syl) (rd : CReg) (u : BitVec 6)
  /-- MTU (R137): Writes user state from a register. -/
  | mtu (h : Syl) (rs1 : CReg) (u : BitVec 6)
  /-- MFS (R171): Reads a system register in ring 0. -/
  | mfs (h : Syl) (rd : CReg) (sys : BitVec 8)
  /-- MTS (R171): Writes a system register in ring 0. -/
  | mts (h : Syl) (rs1 : CReg) (sys : BitVec 8)
  /-- WAIT (R315): Blocks the context until a wake, or collects the wake reasons. -/
  | wait (h : Syl) (rd : CReg)
  /-- YIELD (R317): Gives the core to an equal or higher priority context, or halts issue. -/
  | yield (h : Syl)
  /-- WAITT (R315): Arms a coordinate timeout, then proceeds as WAIT. -/
  | waitt (h : Syl) (rd rs1 rs2 : CReg)
  /-- MUL (R154): Writes the low 64 bits of the product. -/
  | mul (h : Syl) (rd rs1 rs2 : CReg)
  /-- MULH (R154): Writes the high 64 bits of the signed product. -/
  | mulh (h : Syl) (rd rs1 rs2 : CReg)
  /-- MULHU (R154): Writes the high 64 bits of the unsigned product. -/
  | mulhu (h : Syl) (rd rs1 rs2 : CReg)
  /-- MULHSU (R154): Writes the high 64 bits of the signed-by-unsigned product. -/
  | mulhsu (h : Syl) (rd rs1 rs2 : CReg)
  /-- CLZ (R154): Counts leading zeros. -/
  | clz (h : Syl) (rd rs1 : CReg)
  /-- CTZ (R154): Counts trailing zeros. -/
  | ctz (h : Syl) (rd rs1 : CReg)
  /-- POPC (R154): Counts the one bits. -/
  | popc (h : Syl) (rd rs1 : CReg)
  /-- BSWAP (R154): Reverses the byte order. -/
  | bswap (h : Syl) (rd rs1 : CReg)
  /-- SEXTB (R154): Sign-extends bits [7:0]. -/
  | sextb (h : Syl) (rd rs1 : CReg)
  /-- SEXTH (R154): Sign-extends bits [15:0]. -/
  | sexth (h : Syl) (rd rs1 : CReg)
  /-- SEXTW (R154): Sign-extends bits [31:0]. -/
  | sextw (h : Syl) (rd rs1 : CReg)
  /-- ZEXTB (R154): Zero-extends bits [7:0]. -/
  | zextb (h : Syl) (rd rs1 : CReg)
  /-- ZEXTH (R154): Zero-extends bits [15:0]. -/
  | zexth (h : Syl) (rd rs1 : CReg)
  /-- ZEXTW (R154): Zero-extends bits [31:0]. -/
  | zextw (h : Syl) (rd rs1 : CReg)
  /-- LDB (R162): Loads a byte and sign-extends it. -/
  | ldb (h : Syl) (rd cs : CReg) (am : Addr)
  /-- LDBU (R162): Loads a byte and zero-extends it. -/
  | ldbu (h : Syl) (rd cs : CReg) (am : Addr)
  /-- LDH (R162): Loads a halfword and sign-extends it. -/
  | ldh (h : Syl) (rd cs : CReg) (am : Addr)
  /-- LDHU (R162): Loads a halfword and zero-extends it. -/
  | ldhu (h : Syl) (rd cs : CReg) (am : Addr)
  /-- LDW (R162): Loads a word and sign-extends it. -/
  | ldw (h : Syl) (rd cs : CReg) (am : Addr)
  /-- LDWU (R162): Loads a word and zero-extends it. -/
  | ldwu (h : Syl) (rd cs : CReg) (am : Addr)
  /-- LDD (R162): Loads a doubleword. -/
  | ldd (h : Syl) (rd cs : CReg) (am : Addr)
  /-- LDC (R34): Loads a 16-byte capability, keeping its tag only where permitted. -/
  | ldc (h : Syl) (rd cs : CReg) (am : Addr)
  /-- STB (R162): Stores a byte into the store buffer. -/
  | stb (h : Syl) (rs cs : CReg) (am : Addr)
  /-- STH (R162): Stores a halfword. -/
  | sth (h : Syl) (rs cs : CReg) (am : Addr)
  /-- STW (R162): Stores a word. -/
  | stw (h : Syl) (rs cs : CReg) (am : Addr)
  /-- STD (R162): Stores a doubleword. -/
  | std (h : Syl) (rs cs : CReg) (am : Addr)
  /-- STC (R31): Stores a capability with its tag after the R31 checks. -/
  | stc (h : Syl) (rs cs : CReg) (am : Addr)
  /-- STM (R200): Stores the masked registers as capability words, unit by unit with progress. -/
  | stm (h : Syl) (rs1 rs2 : CReg)
  /-- LDM (R200): Loads capability words into the masked registers, unit by unit with progress. -/
  | ldm (h : Syl) (rs1 rs2 : CReg)
  /-- CRCBLK (R201): Computes the CRC of a memory range, unit by unit. -/
  | crcblk (h : Syl) (rd rs1 rs2 : CReg)
  /-- MCOPY (R202): Copies a range through the queue engine in granules and accumulates a report. -/
  | mcopy (h : Syl) (rd rs1 rs2 : CReg)
  /-- MCOPY_GRANULE (R203): An issued MCOPY granule completes with per-word statuses. -/
  | mcopyGranule (granule : GranuleEnd)
  /-- KMOV (R38): Copies a capability with its tag. -/
  | kmov (h : Syl) (rd rs1 : CReg)
  /-- KDROP (R38): Copies a capability with the tag cleared. -/
  | kdrop (h : Syl) (rd rs1 : CReg)
  /-- KPOINT (R38): Sets the cursor of a capability. -/
  | kpoint (h : Syl) (rd rs1 rs2 : CReg)
  /-- KSTEP (R38): Adds a register to the cursor. -/
  | kstep (h : Syl) (rd rs1 rs2 : CReg)
  /-- KSTEPI (R38): Adds an immediate to the cursor. -/
  | kstepi (h : Syl) (rd rs1 : CReg) (imm : Imm)
  /-- KTRIM (R38): Removes permissions from a capability. -/
  | ktrim (h : Syl) (rd rs1 rs2 : CReg)
  /-- KCLIP (R166): Narrows the bounds, widening them outward to an encodable range. -/
  | kclip (h : Syl) (rd rs1 rs2 : CReg)
  /-- KCLIPS (R166): Narrows the bounds only if they can be encoded exactly. -/
  | kclips (h : Syl) (rd rs1 rs2 : CReg)
  /-- KWRAP (R41): Seals a capability with a type named by an authority. -/
  | kwrap (h : Syl) (rd rs1 rs2 : CReg)
  /-- KUNWRAP (R42): Unseals a capability with a matching authority. -/
  | kunwrap (h : Syl) (rd rs1 rs2 : CReg)
  /-- KRCUR (R38): Reads the cursor field. -/
  | krcur (h : Syl) (rd rs1 : CReg)
  /-- KRBASE (R38): Reads the base. -/
  | krbase (h : Syl) (rd rs1 : CReg)
  /-- KRLEN (R38): Reads the length. -/
  | krlen (h : Syl) (rd rs1 : CReg)
  /-- KRPERM (R38): Reads the permission field. -/
  | krperm (h : Syl) (rd rs1 : CReg)
  /-- KRTYPE (R38): Reads the object type. -/
  | krtype (h : Syl) (rd rs1 : CReg)
  /-- KRTAG (R38): Reads the tag. -/
  | krtag (h : Syl) (rd rs1 : CReg)
  /-- QPUT (R168): Checks the queue capability and payload, then offers a message to the queue engine. -/
  | qput (h : Syl) (rd rs1 rs2 : CReg)
  /-- QGET (R169): Takes the head message of a queue into a register group. -/
  | qget (h : Syl) (rd rs1 rs2 : CReg)
  /-- QPUTM (R170): Puts one message to each queue selected by a mask. -/
  | qputm (h : Syl) (rd rs1 rs2 : CReg)
  /-- MBAR (R87): Orders every earlier load and store before every later one. -/
  | mbar (h : Syl)
  /-- SBAR (R221): Waits for earlier stores to complete and raises a pending late-store report. -/
  | sbar (h : Syl)
  /-- LBAR (R186): Waits until every earlier long operation has finished. -/
  | lbar (h : Syl)
  /-- IBAR (R228): Waits for ICINV acknowledgements, then discards and refetches. -/
  | ibar (h : Syl)
  /-- ICINV (R173): Invalidates one line in the instruction cache of every core. -/
  | icinv (h : Syl) (rs1 : CReg)
  /-- TLBINV (R296): Broadcasts a TLB invalidation to every core. -/
  | tlbinv (h : Syl) (rs1 : CReg)
  /-- TLBSYNC (R298): Waits until every core has acknowledged earlier TLBINVs. -/
  | tlbsync (h : Syl)
  /-- MACS (R177): Adds a signed product to an accumulator. -/
  | macs (h : Syl) (ad : AReg) (rs1 rs2 : CReg)
  /-- MACU (R177): Adds an unsigned product to an accumulator. -/
  | macu (h : Syl) (ad : AReg) (rs1 rs2 : CReg)
  /-- MSUS (R177): Subtracts a signed product from an accumulator. -/
  | msus (h : Syl) (ad : AReg) (rs1 rs2 : CReg)
  /-- MSUU (R177): Subtracts an unsigned product from an accumulator. -/
  | msuu (h : Syl) (ad : AReg) (rs1 rs2 : CReg)
  /-- MULS (R177): Sets an accumulator to a signed product. -/
  | muls (h : Syl) (ad : AReg) (rs1 rs2 : CReg)
  /-- MULU (R177): Sets an accumulator to an unsigned product. -/
  | mulu (h : Syl) (ad : AReg) (rs1 rs2 : CReg)
  /-- ACLR (R178): Clears an accumulator. -/
  | aclr (h : Syl) (ad : AReg)
  /-- RDACC (R178): Reads an accumulator with shift and optional saturation. -/
  | rdacc (h : Syl) (rd : CReg) (ad : AReg) (rs2 : CReg)
  /-- WRACC (R178): Writes an accumulator from a register. -/
  | wracc (h : Syl) (ad : AReg) (rs1 : CReg)
  /-- ASHR (R178): Shifts an accumulator right arithmetically. -/
  | ashr (h : Syl) (ad : AReg) (rs2 : CReg)
  /-- CRCSTEP (R179): Feeds 8 to 64 data bits into a reflected CRC. -/
  | crcstep (h : Syl) (size : BitVec 2) (rd rs1 rs2 : CReg)
  /-- PARITY (R180): Writes the parity of x. -/
  | parity (h : Syl) (rd rs1 : CReg)
  /-- BITREV (R180): Reverses the low w bits of x. -/
  | bitrev (h : Syl) (rd rs1 rs2 : CReg)
  /-- FADD (R181): Adds in binary32. -/
  | fadd (h : Syl) (rd rs1 rs2 : CReg)
  /-- FSUB (R181): Subtracts in binary32. -/
  | fsub (h : Syl) (rd rs1 rs2 : CReg)
  /-- FMUL (R181): Multiplies in binary32. -/
  | fmul (h : Syl) (rd rs1 rs2 : CReg)
  /-- FMADD (R181): Fused multiply-add in binary32. -/
  | fmadd (h : Syl) (rd rs1 rs2 : CReg)
  /-- FMIN (R181): Writes the binary32 minimum. -/
  | fmin (h : Syl) (rd rs1 rs2 : CReg)
  /-- FMAX (R181): Writes the binary32 maximum. -/
  | fmax (h : Syl) (rd rs1 rs2 : CReg)
  /-- FABS (R181): Clears the sign bit. -/
  | fabs (h : Syl) (rd rs1 : CReg)
  /-- FNEG (R181): Inverts the sign bit. -/
  | fneg (h : Syl) (rd rs1 : CReg)
  /-- FCVTWS (R181): Converts binary32 to a saturated signed integer. -/
  | fcvtws (h : Syl) (rd rs1 : CReg)
  /-- FCVTSW (R181): Converts a signed integer to binary32. -/
  | fcvtsw (h : Syl) (rd rs1 : CReg)
  /-- FEQ (R182): Writes a predicate for binary32 equality. -/
  | feq (h : Syl) (pd : PReg) (rs1 rs2 : CReg)
  /-- FLT (R182): Writes a predicate for binary32 less-than. -/
  | flt (h : Syl) (pd : PReg) (rs1 rs2 : CReg)
  /-- FLE (R182): Writes a predicate for binary32 less-or-equal. -/
  | fle (h : Syl) (pd : PReg) (rs1 rs2 : CReg)
  /-- FUNORD (R182): Writes a predicate that is true when either operand is NaN. -/
  | funord (h : Syl) (pd : PReg) (rs1 rs2 : CReg)
  /-- DIV (R183): Signed divide issued to the long-operation unit. -/
  | div (h : Syl) (rd rs1 rs2 : CReg)
  /-- DIVU (R183): Unsigned divide issued to the long-operation unit. -/
  | divu (h : Syl) (rd rs1 rs2 : CReg)
  /-- REM (R183): Signed remainder issued to the long-operation unit. -/
  | rem (h : Syl) (rd rs1 rs2 : CReg)
  /-- REMU (R183): Unsigned remainder issued to the long-operation unit. -/
  | remu (h : Syl) (rd rs1 rs2 : CReg)
  /-- FDIV (R183): Binary32 divide issued to the long-operation unit. -/
  | fdiv (h : Syl) (rd rs1 rs2 : CReg)
  /-- FSQRT (R183): Binary32 square root issued to the long-operation unit. -/
  | fsqrt (h : Syl) (rd rs1 : CReg)
  /-- CRCP (R183): Two 64-bit CRC steps issued to the long-operation unit. -/
  | crcp (h : Syl) (rd rs1 rs2 : CReg)
  /-- LONG_OPERATION_FINISH (R214): A long operation finishes and writes its result through its own register port. -/
  | longOperationFinish (core index : Nat)
  /-- LONG_OPERATION_ERROR (R185): A failed long operation is raised as 0x48 at the next bundle boundary. -/
  | longOperationError (core : Nat)
  /-- LOAD_MISS_FILL (R211): The data of an L1 load miss returns and fills the line. -/
  | loadMissFill (core word : Nat) (upset : Upset)
  /-- STORE_BUFFER_SEND (R217): The oldest sendable store-buffer entry is sent to the fabric. -/
  | storeBufferSend (core : Nat)
  /-- STORE_WRITE_COMPLETION (R217): A store-buffer write completes with a status and frees its entry. -/
  | storeWriteCompletion (core index : Nat)
  /-- LATE_STORE_TIMEOUT (R219): A write has no completion within 65536 fabric cycles and becomes a late store error. -/
  | lateStoreTimeout (core index : Nat)
  /-- LATE_STORE_ERROR (R220): A pending late-store report is delivered as 0x58 at a boundary with IE = 1. -/
  | lateStoreError (core : Nat)
  /-- INTERRUPT (R348): A core holding a grant takes 0x50 at the next boundary with IE = 1. -/
  | interrupt (core : Nat)
  /-- TWIN_ALERT (R515): A pending twin alert is taken as 0x60 at a boundary with IE = 1. -/
  | twinAlert (core : Nat)
  /-- TABLE_WALK (R286): A TLB miss walks the space table and four levels and fills the TLBs with a leaf. -/
  | tableWalk (core : Nat)
  /-- TLB_INVALIDATION_RECEIPT (R297): A core removes matching TLB entries, drains the stores it held and acknowledges. -/
  | tlbInvalidationReceipt (core : Nat)
  /-- ICINV_RECEIPT (R228): A core invalidates the named instruction-cache line and acknowledges. -/
  | icinvReceipt (core : Nat)
  /-- TILE_ACCESS (R62): A request granted at a tile port is performed and its completion returned. -/
  | tileAccess (tile : TileId) (portA portB : PortCycle)
  /-- CORRECTED_WORD_WRITE_BACK (R68): The bank rewrites a corrected word in its next idle port B cycle. -/
  | correctedWordWriteBack (word : Nat)
  /-- RESERVED_SPACE_ACCESS (R97): An access to reserved space reads zero or is discarded, and raises event 384. -/
  | reservedSpaceAccess (src : Src) (addr : Nat) (write : Bool)
  /-- ABSENT_UNIT_WRITE (R121): A write to an absent unit's page is ignored and raises event 385. -/
  | absentUnitWrite (src : Src) (addr : Nat) (value : W32)
  /-- BLOCK_ENABLE (R114): A write of ENABLE 0 to 1 checks prerequisites and enters RUNNING. -/
  | blockEnable (src : Src) (block : Nat) (qmode : Bool)
  /-- BLOCK_DISABLE (R116): A write of ENABLE 1 to 0 cancels queued work and drains or aborts started work. -/
  | blockDisable (src : Src) (block : Nat) (qmode : Bool)
  /-- QMODE_WRITE (R117): QMODE = 1 written during DRAINING turns the drain into an abort. -/
  | qmodeWrite (src : Src) (block : Nat) (qmode : Bool)
  /-- DRAIN_COMPLETE (R114): INFLIGHT reaches 0 in DRAINING and the block enters QUIESCED. -/
  | drainComplete (block : Nat)
  /-- SOFT_RESET (R119): A write of SOFT_RESET starts a reset of the block. -/
  | softReset (src : Src) (block : Nat)
  /-- SOFT_RESET_COMPLETE (R119): The block's reset ends in OFF. -/
  | softResetComplete (block : Nat)
  /-- BLOCK_FAULT (R118): An internal fault puts the block in FAULT and stops its operations. -/
  | blockFault (block : Nat)
  /-- FEAT_ACCEPT_WRITE (R111): A write of the accepted feature set is checked for timing and offer. -/
  | featAcceptWrite (src : Src) (block : Nat) (hi : Bool) (value : W32)
  /-- EV_ENABLE_WRITE (R108): Unmasking an event already raw delivers it at once. -/
  | evEnableWrite (src : Src) (block : Nat) (second : Bool) (value : W32)
  /-- EV_PENDING_CLEAR (R108): Writing 1 clears the pending and raw bits of an event. -/
  | evPendingClear (src : Src) (block : Nat) (second : Bool) (value : W32)
  /-- BLOCK_EVENT (R108): An event condition of a block sets EV_RAW and may deliver to the event controller. -/
  | blockEvent (block event : Nat)
  /-- ERR_CODE_READ (R109): A read of ERR_CODE returns and clears the code and count and rearms capture. -/
  | errCodeRead (src : Src) (block : Nat)
  /-- RC_READ (R8): A read of a read-clear field returns it and resets it. -/
  | rcRead (src : Src) (addr : Nat)
  /-- PAIR_LOW_READ (R104): A read of X_LO copies the high word into the requester's read shadow. -/
  | pairLowRead (src : Src) (addr : Nat)
  /-- PAIR_LOW_WRITE (R104): A write of X_LO is held in the requester's write shadow. -/
  | pairLowWrite (src : Src) (addr : Nat) (value : W32)
  /-- PAIR_HIGH_WRITE (R104): A write of X_HI updates both halves in one step. -/
  | pairHighWrite (src : Src) (addr : Nat) (value : W32)
  /-- REGISTER_WRITE (R102): A write to a register without a row of its own takes effect when the block accepts it. -/
  | registerWrite (src : Src) (addr : Nat) (value : W32)
  /-- TYPEREV_WRITE (R58): A revocation-map write takes effect for later KWRAP and KUNWRAP. -/
  | typerevWrite (src : Src) (index : Nat) (value : W32)
  /-- BOWN_WRITE (R74): A write of a new owner starts a bank handover. -/
  | bownWrite (src : Src) (bank : Nat) (dom : BitVec 3)
  /-- HANDOVER_COMPLETE (R74): The last admitted write of the old owner completes and the new owner takes the bank. -/
  | handoverComplete (bank : Nat)
  /-- CREATE (R311): Initialises a FREE context as SUSPENDED. -/
  | create (src : Src) (ctx : BitVec 12) (ev : Bool)
  /-- RESUME (R311): Makes a SUSPENDED or FAULTED context BLOCKED or READY. -/
  | resume (src : Src) (ctx : BitVec 12) (ev : Bool)
  /-- SUSPEND (R311): Stops a context, evicting it if held. -/
  | suspend (src : Src) (ctx : BitVec 12) (ev : Bool)
  /-- RELEASE (R311): Frees a SUSPENDED or FAULTED context. -/
  | release (src : Src) (ctx : BitVec 12) (ev : Bool)
  /-- SETPRIO (R311): Sets a context's priority. -/
  | setprio (src : Src) (ctx : BitVec 12) (ev : Bool)
  /-- SETCORES (R311): Sets a context's core mask and MIGRATE. -/
  | setcores (src : Src) (ctx : BitVec 12) (ev : Bool)
  /-- QUERY (R311): Reports a context's state in CMDSTAT. -/
  | query (src : Src) (ctx : BitVec 12) (ev : Bool)
  /-- RECSAVE (R313): Copies record words to memory. -/
  | recsave (src : Src) (ctx : BitVec 12) (ev : Bool)
  /-- RECLOAD (R313): Copies memory into record words, forcing the safe fields. -/
  | recload (src : Src) (ctx : BitVec 12) (ev : Bool)
  /-- ABORT (R311): Ends a SUSPEND that is waiting for a boundary. -/
  | abort (src : Src) (ctx : BitVec 12) (ev : Bool)
  /-- CORECTL_WRITE (R325): Admits or withdraws a core, evicting its contexts on withdrawal. -/
  | corectlWrite (src : Src) (core : Nat) (admitted : Bool)
  /-- PLACEMENT (R319): The scheduler loads a READY context onto an eligible core. -/
  | placement
  /-- RECORD_LOAD (R243): A record load into a free bank completes; an upset may strike one of the record's words as it is read (R244). -/
  | recordLoad (load : RecordRead)
  /-- BANK_SWITCH (R242): A core switches its current resident bank at a permitted boundary. -/
  | bankSwitch (core : Nat)
  /-- EVICTION (R246): After the context's stores complete, the scheduler spills its windows and saves its record. -/
  | eviction (ctx : Nat)
  /-- QUANTUM_EXPIRY (R320): A context reaches its quantum and is treated as having yielded. -/
  | quantumExpiry (core : Nat)
  /-- TRAF_HALVING (R322): Every 100 microseconds each traffic counter is halved. -/
  | trafHalving
  /-- QUEUE_PUT (R333): The queue engine accepts or refuses a put, writes the slot and wakes the bound context. -/
  | queuePut (queue owner cls axis flags plen : Nat) (payload : List CapW)
  /-- QCMD_WRITE_DESCRIPTOR (R338): Writes QD0 to QD2 to the selected queue's descriptor. -/
  | qcmdWriteDescriptor (src : Src)
  /-- QCMD_READ_DESCRIPTOR (R342): Reads a descriptor and its counts into registers. -/
  | qcmdReadDescriptor (src : Src)
  /-- FLUSH (R342): Sets GETCNT to PUTCNT. -/
  | flush (src : Src)
  /-- EVENT_OCCURRENCE (R345): An occurrence delivered to the event controller sets or merges the source's pending bit. -/
  | eventOccurrence (source : Nat)
  /-- GRANT_REQUEST (R348): The event controller answers a core's request with the source presented, clearing its pending bit. -/
  | grantRequest (core : Nat)
  /-- EVENT_MESSAGE_PUT (R351): The event controller puts one event message for a pending queue-routed source. -/
  | eventMessagePut
  /-- EVENT_PUT_RETRY (R351): A refused event message is retried after 4096 fabric cycles. -/
  | eventPutRetry (source : Nat)
  /-- SWSET (R354): A write sets one occurrence of a software-set source. -/
  | swset (src : Src) (source : BitVec 10)
  /-- PENDW_CLEAR (R345): Writing 1 clears source pending bits. -/
  | pendwClear (src : Src) (word : Nat) (value : W32)
  /-- SRCCFG_WRITE (R355): Configures a source's routing, checked against absent targets. -/
  | srccfgWrite (src : Src) (source : Nat) (value : W32)
  /-- PHASE_TICK (R360): Each phase tick applies updates, advances axes, tests marks and commits pin commands. -/
  | phaseTick
  /-- PIN_ACTION (R379): The field die performs a committed pin command at its target tick. -/
  | pinAction
  /-- MARK_ACTION_ISSUE (R376): A queued mark action is issued to its target and its status recorded. -/
  | markActionIssue
  /-- AXMEAS_WRITE (R365): A write of AXMEAS_HI delivers a software axis update. -/
  | axmeasWrite (src : Src) (axis : Nat) (value : W32)
  /-- AXIS_LOSS (R367): No update for LOSSTIME ticks puts the axis in HOLDOVER. -/
  | axisLoss (axis : Nat)
  /-- AXIS_DEAD (R367): Holdover beyond HOLDMAX puts the axis in DEAD. -/
  | axisDead (axis : Nat)
  /-- AXCTL_WRITE (R386): A write of AXCTL enables or disables an axis, with its source checks. -/
  | axctlWrite (src : Src) (axis : Nat) (value : W32)
  /-- MARKCTL_WRITE (R369): A write of MARKCTL arms or disarms a mark, with its checks. -/
  | markctlWrite (src : Src) (mark : Nat) (value : W32)
  /-- STEP_REQUEST (R389): A mark or chain step request is made pending, merged or refused. -/
  | stepRequest (cell depth : Nat) (late pred chained : Bool)
  /-- STEPREQ (R389): A write of a cell number requests a step without flags. -/
  | stepreq (src : Src) (cell : Nat)
  /-- CELL_STEP (R393): A pending cell steps, computes its output or fallback and delivers it. -/
  | cellStep (upset : Upset)
  /-- TUNE_START (R410): START begins a relay experiment on a PID cell. -/
  | tuneStart (src : Src) (value : W32)
  /-- TUNE_ABORT (R413): ABORT ends a running relay experiment. -/
  | tuneAbort (src : Src)
  /-- GCMD (R415): A write of a cell number requests a commit of the staged gains. -/
  | gcmd (src : Src) (cell : Nat)
  /-- GAIN_COMMIT (R415): The staged gains are copied when no step of the cell is in progress. -/
  | gainCommit
  /-- CCTL_RESUME (R406): A write of RESUME releases a latched fallback. -/
  | cctlResume (src : Src) (cell : Nat)
  /-- BRIDGE_FRAME (R421): A die-bridge frame arrives and is checked by CRC. -/
  | bridgeFrame (crcOk : Bool)
  /-- BRIDGE_LOSS (R421): No valid bridge frame for 8 microseconds puts MEAS in FAULT. -/
  | bridgeLoss
  /-- FIELD_SUPPLY_FAULT (R422): A field supply falls low, outputs go high impedance and MEAS faults. -/
  | fieldSupplyFault
  /-- FIELD_SUPPLY_RECOVERY (R586): The field supplies recover and the field die completes its reset. -/
  | fieldSupplyRecovery (pri : Bool)
  /-- FIELD_REGISTER_ACCESS (R420): An access to the field-die part completes when the field die answers. -/
  | fieldRegisterAccess (core : Nat) (store : Bool)
  /-- SIGMA_DELTA_RESULT (R427): A decimated result updates the channel shadow. -/
  | sigmaDeltaResult (channel : Nat) (code : Int) (overload trig : Bool) (centre : Nat)
  /-- SAMPLE_TRIGGER (R426): A trigger is accepted or refused by each channel named. -/
  | sampleTrigger (mask : BitVec 16) (tick : Nat)
  /-- TRIGSW (R426): A write triggers the named channels. -/
  | trigsw (src : Src) (mask : BitVec 16)
  /-- ENCODER_EDGE (R431): An accepted quadrature edge counts, or an index edge latches the count; the operands are the
  levels that the pins take. -/
  | encoderEdge (enc : Nat) (a b z : Bool)
  /-- SSI_READ (R432): An SSI position word is read and the count updated. -/
  | ssiRead (enc word : Nat) (par ready : Bool)
  /-- DIGITAL_INPUT_SAMPLE (R434): Every microsecond each input is sampled, with threshold tracking and debounce. -/
  | digitalInputSample (levels : List Nat)
  /-- DOCMD (R437): A write of the commanded digital levels. -/
  | docmd (src : Src) (value : W32)
  /-- DOSET (R437): Commands the selected digital outputs high. -/
  | doset (src : Src) (value : W32)
  /-- DOCLR (R437): Commands the selected digital outputs low. -/
  | doclr (src : Src) (value : W32)
  /-- OUTEN_WRITE (R438): Enables or disables outputs. -/
  | outenWrite (src : Src) (second : Bool) (value : W32)
  /-- FIELD_OUTPUT_COMMAND (R392): A PWM or analogue command arrives at the field die and is applied. -/
  | fieldOutputCommand
  /-- OUTPUT_READBACK (R442): Two microseconds after a level change the pin is compared with the commanded level. -/
  | outputReadback (output : Nat) (level : Bool)
  /-- PWM_PERIOD (R441): A PWM period boundary applies new duty and dead time. -/
  | pwmPeriod (timer : Nat)
  /-- TWIN_CLAIM_SEEN (R443): Two rising edges on AUTH_IN within 2 microseconds show the twin's claim. -/
  | twinClaimSeen
  /-- TWIN_CLAIM_ABSENT (R443): No AUTH_IN edge for 2 microseconds makes the twin's claim absent. -/
  | twinClaimAbsent
  /-- AUTHORITY_LINE_CHANGE (R443): The in-package authority line rises or falls at the field die. -/
  | authorityLineChange
  /-- DRIVE_RISE (R443): After 2 microseconds of uncontested claiming, DRIVE rises. -/
  | driveRise
  /-- LANE_FRAME_RECEIVE (R461): A field-link frame is checked, rate-limited and delivered to its partner's queue. The
  samples of its half-bits stand by the parts of R455; only their order on the line counts. -/
  | laneFrameReceive (lane : Nat) (preamble delimiter header payload tag crc : List Int)
  /-- LANE_REQUEST (R467): A lane takes a transmit request, builds the frame and transmits it. -/
  | laneRequest (lane : Nat)
  /-- LANE_TRANSMIT_END (R467): The frame ends; the request completes and the reply window opens. -/
  | laneTransmitEnd (lane : Nat)
  /-- REPLY_WINDOW_EXPIRY (R464): A reply window expires with NOREPLY and counts a miss. -/
  | replyWindowExpiry (lane : Nat)
  /-- MALSEC_CLEAR (R465): Each second the malformed count of every partner is cleared. -/
  | malsecClear
  /-- QUARANTINE_EXPIRY (R465): After QTIME seconds a quarantine ends. -/
  | quarantineExpiry (lane partner : Nat)
  /-- PSTAT_RELEASE (R465): A write of RELEASE ends a quarantine. -/
  | pstatRelease (src : Src) (lane partner : Nat)
  /-- PCFG_WRITE (R460): Enabling or disabling a partner entry, with its checks. -/
  | pcfgWrite (src : Src) (lane partner : Nat) (value : W32)
  /-- ETHERNET_FRAME_RECEIVE (R474): A received frame is storm-checked, classified, forwarded or delivered. -/
  | ethernetFrameReceive (port : Nat) (frame : List Byte)
  /-- WRITE_RULE (R475): Writes a classifier rule. -/
  | writeRule (src : Src)
  /-- READ_RULE (R475): Reads a classifier rule and its hit count. -/
  | readRule (src : Src)
  /-- WRITE_SA (R482): Writes a MACsec SA. -/
  | writeSa (src : Src)
  /-- READ_SA (R482): Reads a MACsec SA. -/
  | readSa (src : Src)
  /-- PORT_TRANSMIT_REQUEST (R478): A port takes a transmit request, checks it and queues the frame. -/
  | portTransmitRequest (port : Nat)
  /-- PORT_TRANSMIT_COMPLETE (R478): A frame leaves the port and its completion message is put. -/
  | portTransmitComplete (port : Nat)
  /-- LINK_CHANGE (R472): An Ethernet port's link goes up or down. -/
  | linkChange (port : Nat) (up half : Bool) (speed : BitVec 2)
  /-- PTPSTEP_WRITE (R480): A write of PTPSTEP_HI steps the PTP clock at the next tick. -/
  | ptpstepWrite (src : Src) (value : W32)
  /-- QBV_CYCLE_START (R483): A gate-control cycle starts and a requested bank swap takes effect. -/
  | qbvCycleStart (port : Nat)
  /-- UART_FRAME_RECEIVE (R485): A serial frame closes after GAP idle and is delivered: of each of its characters the tick of its
  start bit, its data, whether its stop bit was low and whether its parity failed. -/
  | uartFrameReceive (uart : Nat) (start : List Nat) (data : List Byte) (ferr perr : List Bool)
  /-- BREAK (R485): A line held low for longer than a character raises the break event. -/
  | uartBreak (uart : Nat)
  /-- UART_TRANSMIT_REQUEST (R486): A UART takes a request and transmits it with direction control. -/
  | uartTransmitRequest (uart : Nat)
  /-- UART_TRANSMIT_COMPLETE (R486): DE is released and the completion message is put. -/
  | uartTransmitComplete (uart : Nat)
  /-- HELLO (R491): A HELLO is verified and the session keys are derived. -/
  | hello (nonce : W128) (role : BitVec 3) (prio : Bool) (unitmap : W32) (accept : W64) (latency : Nat) (tag : W128)
  /-- LANE_LOSS (R490): A twin-link lane is lost; the link continues or goes down. -/
  | laneLoss (lane : BitVec 2)
  /-- TWIN_FRAME_RECEIVE (R493): A twin frame is authenticated, sequenced and acknowledged. -/
  | twinFrameReceive (frame : TwFrame) (tag : W128)
  /-- STORE (R496): The standby performs replicated stores, returning NAK on failure. -/
  | store
  /-- QUEUE (R500): The standby applies a replicated put or get when the counts match. -/
  | queue
  /-- QUEUE_SYNC_APPLY (R501): A complete queue SYNC is applied and the queue resynchronised. -/
  | queueSyncApply
  /-- RECORD (R502): The standby writes a replicated context record into a suspended context. -/
  | record
  /-- CHECKPOINT (R506): The standby applies a complete checkpoint to its marks and cells. -/
  | checkpoint
  /-- NOTICE (R516): A RELINQUISH or triple-fault notice is received. -/
  | notice
  /-- COMMAND (R517): A received PEERFENCE or PEERRESET is acted on when PEERCMD = 1. -/
  | command
  /-- HEARTBEAT (R507): A received heartbeat updates the peer's role and claim view. -/
  | heartbeat
  /-- ACK (R493): A cumulative acknowledgement frees frames from the transmit buffer. -/
  | ack
  /-- NAK (R496): A NAK raises REPLNAK or triggers a queue SYNC. -/
  | nak
  /-- RETRANSMISSION (R493): Frames are resent from the oldest unacknowledged one after 4 microseconds. -/
  | retransmission
  /-- HEARTBEAT_SEND (R507): Every 10 microseconds a heartbeat is sent. -/
  | heartbeatSend
  /-- PEER_LOSS (R507): 30 microseconds without a heartbeat declares the peer lost. -/
  | peerLoss
  /-- SPLIT (R511): The peer still claims 150 microseconds after loss, and the link is split. -/
  | split
  /-- TAKEOVER (R510): A ready standby hands banks, asserts LINE and drives. -/
  | takeover
  /-- REPLICATED_WRITE_ADMIT (R498): A held write is admitted once the transmit buffer has room for its record. -/
  | replicatedWriteAdmit (core index : Nat)
  /-- GO_SOLO (R508): Moves a FENCED package to SOLO. -/
  | goSolo (src : Src)
  /-- JOIN (R508): Pairs a FENCED package as standby with a SOLO peer. -/
  | join (src : Src)
  /-- SWITCH (R513): A primary checkpoints, fences and hands authority to its standby. -/
  | switch (src : Src) (tag : BitVec 8)
  /-- FENCE (R508): Moves the package to FENCED. -/
  | fence (src : Src)
  /-- TAKE (R510): A ready standby with no valid peer takes over on command. -/
  | take (src : Src)
  /-- SYNCDONE (R508): Marks the standby's state complete. -/
  | syncdone (src : Src)
  /-- PEERFENCE (R517): Sends a COMMAND telling the peer to fence. -/
  | peerfence (src : Src)
  /-- PEERRESET (R517): Sends a COMMAND telling the peer to reset. -/
  | peerreset (src : Src)
  /-- CHECKPOINT_REQUEST (R504): A mark or CKREQ requests a checkpoint with a tag. -/
  | checkpointRequest (src : Src) (tag : BitVec 8)
  /-- CHECKPOINT_CAPTURE (R505): Marks, axes and cells are captured and queued in the stream. -/
  | checkpointCapture
  /-- RFENCE (R499): Starts a replication fence. -/
  | rfence (src : Src)
  /-- RFENCE_COMPLETE (R499): Every earlier replication frame is acknowledged, or the link goes down. -/
  | rfenceComplete
  /-- RECPUSH (R502): Evicts a context and sends its record to the standby. -/
  | recpush (src : Src) (ctx : BitVec 12)
  /-- SYNCCMD (R503): Starts copying a memory range into the replication stream. -/
  | synccmd (src : Src)
  /-- SYNC_DONE (R503): The SYNC copy ends and raises event 920. -/
  | syncDone
  /-- QSYNC (R501): Requests a queue SYNC of one twinned queue. -/
  | qsync (src : Src) (queue : BitVec 14)
  /-- POWER_ON_RESET (R524): A low supply holds the package in power-on reset. -/
  | powerOnReset
  /-- PIN_RESET (R589): RESET_N low for 1 microsecond causes a chip reset. -/
  | pinReset
  /-- CHIP_RESET_RELEASE (R540): After a chip reset, blocks, cores, tags, keys and context 0 are initialised. -/
  | chipResetRelease (rom : Bool) (board : Board)
  /-- SWRST (R539): A keyed write requests a chip or core reset. -/
  | swrst (src : Src) (value : W32)
  /-- CORE_WATCHDOG_EXPIRY (R543): A core watchdog reaches zero or its IE limit and resets the core. -/
  | coreWatchdogExpiry (core : Nat) (ieLimit : Bool)
  /-- CORKICK (R543): A keyed write reloads a core watchdog. -/
  | corkick (src : Src) (core : Nat) (value : W32)
  /-- CHIP_WATCHDOG_EXPIRY (R544): The chip watchdog reaches zero and resets the chip. -/
  | chipWatchdogExpiry
  /-- CHIP_WATCHDOG_HALF (R544): Half the chip watchdog period remains and event 994 is raised. -/
  | chipWatchdogHalf
  /-- CWDKICK (R544): The two-word sequence reloads the chip watchdog. -/
  | cwdkick (src : Src) (value : W32)
  /-- CWDCTL_ENABLE (R544): Enables the chip watchdog irrevocably. -/
  | cwdctlEnable (src : Src) (period : BitVec 16)
  /-- FLCMD (R550): Starts a single flash transaction. -/
  | flcmd (src : Src) (value : W32)
  /-- FLASH_COMMAND_DONE (R550): A flash transaction completes with a status. -/
  | flashCommandDone (data : List Byte)
  /-- BMR_EXTEND (R549): Extends a measurement register with a digest. -/
  | bmrExtend (src : Src) (index : BitVec 2)
  /-- ROLLMIN_WRITE (R556): A larger rollback minimum is burnt into fuse. -/
  | rollminWrite (src : Src) (value : BitVec 16)
  /-- AES_GCM_ENCRYPT (R553): Encrypts and tags data under a key slot. -/
  | aesGcmEncrypt
  /-- AES_GCM_DECRYPT (R553): Verifies and decrypts data under a key slot. -/
  | aesGcmDecrypt
  /-- AES_CMAC (R553): Computes a CMAC tag. -/
  | aesCmac
  /-- SHA_256 (R553): Hashes data with SHA-256. -/
  | sha256
  /-- SHA_384 (R553): Hashes data with SHA-384. -/
  | sha384
  /-- ECDSA_VERIFY (R553): Verifies a P-256 signature. -/
  | ecdsaVerify
  /-- LOAD_KEY (R553): Loads a key into a slot. -/
  | loadKey
  /-- UNWRAP (R553): Unwraps a key with AES-KW into a slot. -/
  | unwrap
  /-- KDF (R553): Derives a key into a slot. -/
  | kdf
  /-- ERASE (R553): Erases a key slot. -/
  | erase
  /-- QUOTE (R553): Signs the measurement registers and a nonce under slot 0. -/
  | quote
  /-- KEY_COMMAND_DONE (R553): A key-store command completes and raises event 984. -/
  | keyCommandDone
  /-- TRNG_READ (R554): Each read returns 32 new random bits. -/
  | trngRead (src : Src)
  /-- TRNG_HEALTH_FAILURE (R554): A health test fails and random output stops. -/
  | trngHealthFailure
  /-- CHALLENGE_READ (R555): A read of DUCHAL0 draws a new challenge. -/
  | challengeRead (src : Src)
  /-- DEBUG_UNLOCK (R555): START checks a signed response and sets the debug level. -/
  | debugUnlock (src : Src) (level : BitVec 2)
  /-- DEBUG_RELOCK (R555): A write of LEVEL = 0 relocks debug. -/
  | debugRelock (src : Src)
  /-- REFCLK_LOSS (R526): No REFCLK edge for 4 microseconds holds the PLL. -/
  | refclkLoss
  /-- REFCLK_RETURN (R526): REFCLK returns for 1 ms and the PLL relocks. -/
  | refclkReturn
  /-- COREOP_WRITE (R528): Requests a new operating point for a core. -/
  | coreopWrite (src : Src) (core : Nat) (value : W32)
  /-- OP_CHANGE_COMPLETE (R528): A core's clock changes to its new operating point. -/
  | opChangeComplete (core : Nat)
  /-- AVS_EVALUATION (R529): Every AVSINT the adaptive loop adjusts VTARGET from monitor slack. -/
  | avsEvaluation (slack : BitVec 8)
  /-- REGULATOR_COMMAND (R535): A voltage command is sent and read back, faulting PWR if it fails. -/
  | regulatorCommand (acknowledged : Bool) (status : BitVec 16) (vout : BitVec 10) (iout : BitVec 16)
  /-- PMB_ALERT (R536): PMB_ALERT_N falling raises event 952. -/
  | pmbAlert
  /-- DROOP_LEVEL_1 (R531): A droop below THR1 halves the quadrant's core clocks. -/
  | droopLevel1 (quadrant : BitVec 2)
  /-- DROOP_LEVEL_2 (R531): A droop below THR2 stops the quadrant's core clocks. -/
  | droopLevel2 (quadrant : BitVec 2)
  /-- DROOP_END (R531): VDD_CORE has held above the threshold for HOLD ns and the level ends. -/
  | droopEnd (quadrant : BitVec 2)
  /-- THERMAL_SENSOR_REPORT (R534): Every 100 microseconds sensors report and throttling is updated. -/
  | thermalSensorReport (readings : List (Option (BitVec 12)))
  /-- SPARE_TEST (R557): Tests the spare tile of every eligible bank. -/
  | spareTest (src : Src) (arg : BitVec 4)
  /-- LOGIC_TEST (R558): Runs logic self-test on an unadmitted idle core. -/
  | logicTest (src : Src) (arg : BitVec 4)
  /-- COMMIT (R560): Commits a pending repair. -/
  | commit (src : Src) (arg : BitVec 4)
  /-- TILE_RELEASE (R560): Releases a failed tile back through copy back and swap back. -/
  | tileRelease (src : Src) (arg : BitVec 4)
  /-- BURN (R563): Burns a bank's repair into fuse. -/
  | burn (src : Src) (arg : BitVec 4)
  /-- TEST_COMMAND_DONE (R576): A TEST command completes into CMDSTAT and raises event 966. -/
  | testCommandDone (result : BitVec 16)
  /-- TILE_TEST (R559): Every TESTINT ms the next tile is mirrored, swapped, tested and restored. -/
  | tileTest
  /-- TILE_TEST_PHASE_END (R559): A phase of a tile test completes and the next begins. -/
  | tileTestPhaseEnd (pass : Bool)
  /-- SCRUB_READ (R564): The scrub reads one word per bank and writes back corrected words. -/
  | scrubRead
  /-- URGENT_WRITE (R561): Lists banks that may not be mirrored or swapped. -/
  | urgentWrite (src : Src) (banks : BitVec 16)
  /-- JTAG_INSTRUCTION (R567): An instruction is loaded into the TAP, subject to the debug level. -/
  | jtagInstruction (ir : BitVec 8)
  /-- DBGACC (R569): Update-DR starts a debug access to the DBG or KEY page. -/
  | dbgacc (word : BitVec 55)
  /-- HALT (R571): Requests the named cores to halt. -/
  | halt (cores : BitVec 16)
  /-- CORE_HALTED (R571): A core stops at its next bundle boundary and event 1008 is raised. -/
  | coreHalted (core : Nat)
  /-- DEBUG_RESUME (R571): Resumes halted cores at their PCC. -/
  | debugResume (cores : BitVec 16)
  /-- STEP (R571): Resumes a core for one bundle or one exception entry. -/
  | step (cores : BitVec 16)
  /-- DH_READ (R572): Reads a register of a halted core. -/
  | dhRead
  /-- DH_WRITE (R572): Writes a register of a halted core at level 2. -/
  | dhWrite
  /-- DM_READ (R573): Reads a physical word and its tag. -/
  | dmRead
  /-- DM_WRITE (R573): Writes a physical word and its tag at level 2. -/
  | dmWrite
  /-- TRACE_DATA_READ (R575): A read of TRDATA3 returns the word and advances TRRD. -/
  | traceDataRead (src : Src)
  /-- TRSW (R574): A software write makes a trace record. -/
  | trsw (src : Src) (value : W32)
  /-- LANE_TRAINED (R490): A twin-link lane completes training, joins the trained lanes and, for the first lane, brings the link towards up with the HELLO exchange. -/
  | laneTrained (lane : BitVec 2)
  /-- TRNG_STARTUP_TESTS_PASS (R554): The TRNG start-up health tests pass, TRNGSTAT.OK rises and random output and challenges resume. -/
  | trngStartupTestsPass
  /-- MRES_READ (R427): A read of MRESn returns the result and copies MTICKn into the requester's read shadow. -/
  | mresRead (src : Src) (channel : Nat)
  /-- MIGLIM_MILLISECOND (R322): Each millisecond the scheduler's count of moves is reset, so MIGLIM and the first-time event 131 apply afresh. -/
  | miglimMillisecond
  deriving DecidableEq, Repr

end Sys2Proof
end

