-- ==== Sys2Proof/Decode.lean ====
section
/-! DEFINITION. The words of the opcode table. The table gives no row any bits: its rows are commands to the block, and no word
spells one (assumption 3). The encoding of the cores' syllables stands in Machine/Syllable.lean. -/

namespace Sys2Proof

/-- The command that a word of the table spells: none, whatever the word. -/
def decodeTableWord (_nbits _w : Nat) : Option Instr := none

end Sys2Proof
end

