-- ==== Sys2Proof/Machine/Sparse.lean ====
section
/-! DEFINITION. The operations of a sparse map with a default: reading, writing in canonical form, and the predicate
that says the form holds. Writing the value an unlisted key reads as removes the entry, so equal maps are equal lists. -/

namespace Sys2Proof.Machine

/-- The entry of key `k`, if it is listed. -/
def mfind {α : Type} (l : SMap α) (k : Nat) : Option α :=
  match l with
  | [] => none
  | (a, v) :: r => if a = k then some v else mfind r k

/-- What key `k` holds: its entry, or the default `d k`. -/
def mget {α : Type} (d : Nat → α) (l : SMap α) (k : Nat) : α :=
  match mfind l k with
  | some v => v
  | none => d k

/-- The list with key `k` set to `v`, keys kept strictly rising. -/
def mins {α : Type} (l : SMap α) (k : Nat) (v : α) : SMap α :=
  match l with
  | [] => [(k, v)]
  | (a, w) :: r => if k < a then (k, v) :: (a, w) :: r else if a = k then (k, v) :: r else (a, w) :: mins r k v

/-- The list without key `k`. -/
def mdel {α : Type} (l : SMap α) (k : Nat) : SMap α :=
  match l with
  | [] => []
  | (a, w) :: r => if a = k then mdel r k else (a, w) :: mdel r k

/-- Key `k` set to `v`, in canonical form. -/
def mput {α : Type} [DecidableEq α] (d : Nat → α) (l : SMap α) (k : Nat) (v : α) : SMap α :=
  if v = d k then mdel l k else mins l k v

/-- Keys strictly rise. -/
def mrising {α : Type} (l : SMap α) : Bool :=
  match l with
  | [] => true
  | (a, _) :: r => r.all (fun p => decide (a < p.1)) && mrising r

/-- The canonical form: keys strictly rising and no entry equal to its default. -/
def mwf {α : Type} [DecidableEq α] (d : Nat → α) (l : SMap α) : Bool :=
  mrising l && l.all (fun p => decide (p.2 ≠ d p.1))

end Sys2Proof.Machine
end

