-- ==== Sys2Proof/Machine/Bits.lean ====
section
/-! DEFINITION. Bit fields, sign extension and byte order: the helpers every other file of the machine uses. -/

namespace Sys2Proof.Machine

/-- `bits(x, hi, lo)`: the field of `x` from bit `hi` down to bit `lo` (notation of chapter 00). -/
def bits (x hi lo : Nat) : Nat := x / 2 ^ lo % 2 ^ (hi + 1 - lo)

/-- Bit `k` of `x`. -/
def bit (x k : Nat) : Bool := x / 2 ^ k % 2 == 1

/-- `x` with its bits `hi` down to `lo` replaced by the low bits of `v`. -/
def withBits (x hi lo v : Nat) : Nat :=
  x % 2 ^ lo + v % 2 ^ (hi + 1 - lo) * 2 ^ lo + x / 2 ^ (hi + 1) * 2 ^ (hi + 1)

/-- A Boolean as a bit. -/
def b2n (b : Bool) : Nat := if b then 1 else 0

/-- `x` taken as an `n`-bit two's-complement number. -/
def signed (n x : Nat) : Int := if x % 2 ^ n < 2 ^ (n - 1) then (x % 2 ^ n : Nat) else (x % 2 ^ n : Nat) - (2 ^ n : Nat)

/-- The low 64 bits of an integer. -/
def wrap64 (i : Int) : W64 := BitVec.ofInt 64 i

/-- `align_down(x, n)` (chapter 00). -/
def alignDown (x n : Nat) : Nat := x / n * n

/-- `align_up(x, m)` (R166). -/
def alignUp (x m : Nat) : Nat := (x + m - 1) / m * m

/-- A saturating increment of a 32-bit counter. -/
def satInc (x : W32) : W32 := if x = 0xFFFFFFFF then x else x + 1

/-- The little-endian value of a list of bytes (R7). -/
def leVal : List Byte → Nat
  | [] => 0
  | b :: r => b.toNat + 256 * leVal r

/-- The `n` bytes of `x`, least significant first (R7). -/
def leBytes : Nat → Nat → List Byte
  | 0, _ => []
  | n + 1, x => BitVec.ofNat 8 x :: leBytes n (x / 256)

/-- The big-endian value of a list of bytes (cryptographic strings). -/
def beVal (l : List Byte) : Nat := leVal l.reverse

/-- The `n` bytes of `x`, most significant first. -/
def beBytes (n x : Nat) : List Byte := (leBytes n x).reverse

/-- The list with element `i` replaced. -/
def setAt {α : Type} (l : List α) (i : Nat) (v : α) : List α := l.set i v

/-- The array with element `i` set to `v`; a list that is too short is first filled up with `d`, what an unlisted element reads
as. -/
def putAt {α : Type} (d : α) (l : List α) (i : Nat) (v : α) : List α :=
  match i, l with
  | 0, [] => [v]
  | 0, _ :: r => v :: r
  | k + 1, [] => d :: putAt d [] k v
  | k + 1, x :: r => x :: putAt d r k v

/-- The list with element `i` changed by `f`. -/
def modAt {α : Type} (l : List α) (i : Nat) (f : α → α) : List α := l.modify i f

/-- `0, 1, …, n - 1`. -/
def upTo (n : Nat) : List Nat := List.range n

/-- An element put into a sorted list, before the first that `le` does not put in front of it. -/
def insertBy {α : Type} (le : α → α → Bool) (x : α) : List α → List α
  | [] => [x]
  | y :: r => if le x y then x :: y :: r else y :: insertBy le x r

/-- A list sorted by `le`, elements that compare equal kept in their order. -/
def sortBy {α : Type} (le : α → α → Bool) : List α → List α
  | [] => []
  | x :: r => insertBy le x (sortBy le r)

/-- The count of ones among the low `n` bits. -/
def popcount (n x : Nat) : Nat := (upTo n).foldl (fun k i => if bit x i then k + 1 else k) 0

/-- Floor of the base-2 logarithm, 0 for 0. -/
def log2 (n : Nat) : Nat := Nat.log2 n

end Sys2Proof.Machine
end

