-- ==== Sys2Proof/Machine/Float.lean ====
section
/-! DEFINITION. IEEE 754-2019 binary32 with roundTiesToEven, subnormals and one quiet NaN (R181, R182): values are
computed exactly as a ratio of integers and rounded once. -/

namespace Sys2Proof.Machine

/-- The quiet NaN of R181. -/
def f32NaN : W32 := 0x7FC00000
def f32Inf (neg : Bool) : W32 := if neg then 0xFF800000 else 0x7F800000
def f32Zero (neg : Bool) : W32 := if neg then 0x80000000 else 0

def f32Neg (x : W32) : Bool := bit x.toNat 31
def f32Exp (x : W32) : Nat := bits x.toNat 30 23
def f32Man (x : W32) : Nat := bits x.toNat 22 0
def f32IsNaN (x : W32) : Bool := f32Exp x == 255 && f32Man x != 0
def f32IsInf (x : W32) : Bool := f32Exp x == 255 && f32Man x == 0
def f32IsZero (x : W32) : Bool := f32Exp x == 0 && f32Man x == 0
def f32Finite (x : W32) : Bool := f32Exp x != 255

/-- The magnitude of a finite number in units of 2^−149. -/
def f32Mag (x : W32) : Nat := if f32Exp x = 0 then f32Man x else (f32Man x + 2 ^ 23) * 2 ^ (f32Exp x - 1)

/-- The signed value of a finite number in units of 2^−149. -/
def f32Val (x : W32) : Int := if f32Neg x then -(f32Mag x : Int) else f32Mag x

/-- `n / d` rounded to the nearest integer, ties to even. -/
def divRne (n d : Nat) : Nat :=
  let q := n / d
  let r := n % d
  if d < 2 * r ∨ (2 * r = d ∧ q % 2 = 1) then q + 1 else q

/-- The binary32 number nearest to the positive ratio `n / d`, in units of 2^−149, with sign `neg` (ties to even). -/
def f32Round (neg : Bool) (n d : Nat) : W32 :=
  if n = 0 then f32Zero neg
  else
    let q := n / d
    -- the exponent of the leading place: normal numbers have 24 significant bits
    let e := if q < 2 ^ 24 then 0 else log2 q - 23
    let m := divRne n (d * 2 ^ e)
    -- m may round up to 2^24: the exponent field then carries by itself
    let mag := if m < 2 ^ 23 then m else (e + 1) * 2 ^ 23 + (m - 2 ^ 23)
    if 0x7F800000 ≤ mag then f32Inf neg else BitVec.ofNat 32 (mag + (if neg then 2 ^ 31 else 0))

/-- An exact signed ratio `i / d` in units of 2^−149 rounded; an exact zero takes sign `zneg`. -/
def f32OfRat (zneg : Bool) (i : Int) (d : Nat) : W32 :=
  if i = 0 then f32Zero zneg else f32Round (decide (i < 0)) i.natAbs d

/-- x + y. -/
def f32Add (x y : W32) : W32 :=
  if f32IsNaN x || f32IsNaN y then f32NaN
  else if f32IsInf x then (if f32IsInf y && f32Neg x != f32Neg y then f32NaN else x)
  else if f32IsInf y then y
  else f32OfRat (f32Neg x && f32Neg y) (f32Val x + f32Val y) 1

/-- The sign bit inverted (FNEG). -/
def f32Negate (x : W32) : W32 := x ^^^ 0x80000000
/-- The sign bit cleared (FABS). -/
def f32Abs (x : W32) : W32 := x &&& 0x7FFFFFFF

/-- x − y. -/
def f32Sub (x y : W32) : W32 := if f32IsNaN y then f32NaN else f32Add x (f32Negate y)

/-- x × y. -/
def f32Mul (x y : W32) : W32 :=
  let neg := f32Neg x != f32Neg y
  if f32IsNaN x || f32IsNaN y then f32NaN
  else if f32IsInf x || f32IsInf y then (if f32IsZero x || f32IsZero y then f32NaN else f32Inf neg)
  else f32OfRat neg (f32Val x * f32Val y) (2 ^ 149)

/-- z + x × y with a single rounding (FMADD). -/
def f32Fma (z x y : W32) : W32 :=
  let neg := f32Neg x != f32Neg y
  if f32IsNaN x || f32IsNaN y || f32IsNaN z then f32NaN
  else if f32IsInf x || f32IsInf y then
    (if f32IsZero x || f32IsZero y then f32NaN
     else if f32IsInf z && f32Neg z != neg then f32NaN
     else f32Inf neg)
  else if f32IsInf z then z
  else f32OfRat (f32Neg z && neg) (f32Val z * (2 ^ 149 : Nat) + f32Val x * f32Val y) (2 ^ 149)

/-- x / y. -/
def f32Div (x y : W32) : W32 :=
  let neg := f32Neg x != f32Neg y
  if f32IsNaN x || f32IsNaN y then f32NaN
  else if f32IsInf x then (if f32IsInf y then f32NaN else f32Inf neg)
  else if f32IsInf y then f32Zero neg
  else if f32IsZero y then (if f32IsZero x then f32NaN else f32Inf neg)
  else if f32IsZero x then f32Zero neg
  else f32Round neg (f32Mag x * 2 ^ 149) (f32Mag y)

/-- The integer square root, bit by bit from bit `k` down. -/
def isqrtFrom (n : Nat) : Nat → Nat → Nat
  | 0, r => if (r + 1) * (r + 1) ≤ n then r + 1 else r
  | k + 1, r => if (r + 2 ^ (k + 1)) * (r + 2 ^ (k + 1)) ≤ n then isqrtFrom n k (r + 2 ^ (k + 1)) else isqrtFrom n k r

/-- The floor of the square root. -/
def isqrt (n : Nat) : Nat := isqrtFrom n (log2 n / 2 + 1) 0

/-- √x: the root of the magnitude, taken with 60 further bits and a sticky bit so that it rounds as the exact root does. -/
def f32Sqrt (x : W32) : W32 :=
  if f32IsNaN x then f32NaN
  else if f32IsZero x then x
  else if f32Neg x then f32NaN
  else if f32IsInf x then x
  else
    -- (mag · 2^−149) = root² ; in units of 2^−149 the root is √(mag · 2^149)
    let n := f32Mag x * 2 ^ 149 * 2 ^ 120
    let r := isqrt n
    f32Round false (2 * r + (if r * r = n then 0 else 1)) (2 ^ 61)

/-- The order of two numbers neither of which is NaN: −0 and +0 are equal, infinities are the ends. -/
def f32Key (x : W32) : Int := if f32Neg x then -((x.toNat % 2 ^ 31 : Nat) : Int) else (x.toNat % 2 ^ 31 : Nat)
def f32Eq (x y : W32) : Bool := !f32IsNaN x && !f32IsNaN y && f32Key x == f32Key y
def f32Lt (x y : W32) : Bool := !f32IsNaN x && !f32IsNaN y && decide (f32Key x < f32Key y)
def f32Le (x y : W32) : Bool := !f32IsNaN x && !f32IsNaN y && decide (f32Key x ≤ f32Key y)

/-- The smaller of two, a NaN giving way to a number and −0 below +0 (FMIN). -/
def f32Min (x y : W32) : W32 :=
  if f32IsNaN x then (if f32IsNaN y then f32NaN else y)
  else if f32IsNaN y then x
  else if f32Key x < f32Key y ∨ (f32Key x = f32Key y ∧ f32Neg x = true) then x else y

/-- The larger of two (FMAX). -/
def f32Max (x y : W32) : W32 :=
  if f32IsNaN x then (if f32IsNaN y then f32NaN else y)
  else if f32IsNaN y then x
  else if f32Key x < f32Key y ∨ (f32Key x = f32Key y ∧ f32Neg x = true) then y else x

/-- FCVTWS: toward zero, saturated to 32 bits, NaN to 0. -/
def f32ToInt (x : W32) : Int :=
  if f32IsNaN x then 0
  else if f32IsInf x then (if f32Neg x then -2147483648 else 2147483647)
  else
    let m : Nat := f32Mag x / 2 ^ 149
    if f32Neg x then max (-2147483648) (-(m : Int)) else min 2147483647 (m : Int)

/-- An integer rounded to binary32 (FCVTSW). -/
def f32OfInt (i : Int) : W32 := f32OfRat false (i * (2 ^ 149 : Nat)) 1

end Sys2Proof.Machine
end

