-- ==== Sys2Proof/Config.lean ====
section
/-! DEFINITION. What the part and its variant fix (R2), and the free values: values the spec leaves open, each an opaque
constant with no body, applied to the counter `State.free` or to the operands it depends on, so that no proof can rest on
a particular value. -/

namespace Sys2Proof.Config

/-- Cores of a variant (R2). -/
def cores : Variant → Nat
  | .a16 => 16
  | .b8 => 8
  | .c8 => 8

/-- Hardware contexts of a variant (R2). -/
def contexts : Variant → Nat
  | .a16 => 4096
  | .b8 => 2048
  | .c8 => 2048

/-- General memory of a variant in bytes (R2). -/
def memBytes : Variant → Nat
  | .a16 => 0x8000000
  | .b8 => 0x4000000
  | .c8 => 0x4000000

/-- Banks of general memory (R2). -/
def memBanks : Variant → Nat
  | .a16 => 16
  | .b8 => 8
  | .c8 => 8

/-- Queues of a variant (R2). -/
def queues : Variant → Nat
  | .a16 => 16384
  | .b8 => 8192
  | .c8 => 8192

/-- Loop cells of a variant (R2). -/
def cells : Variant → Nat
  | .a16 => 512
  | .b8 => 256
  | .c8 => 0

/-- Field-link lanes of a variant (R2). -/
def lanes : Variant → Nat
  | .a16 => 16
  | .b8 => 16
  | .c8 => 8

/-- Ethernet ports of a variant (R2). -/
def ports : Variant → Nat
  | .a16 => 4
  | .b8 => 4
  | .c8 => 2

/-- Whether the field die is fitted (R2). -/
def fieldDie : Variant → Bool
  | .a16 => true
  | .b8 => true
  | .c8 => false

/-- Whether MACsec is offered (R2). -/
def macsec : Variant → Bool
  | .a16 => true
  | .b8 => false
  | .c8 => false

/-- Whether block `b` is present (R106, R121): the loop engine and the measurement front end are absent on the ZS9-C8. -/
def present (v : Variant) (b : Nat) : Bool :=
  decide (b < 20) && (fieldDie v || (b != 8 && b != 9))

/-- UNITMAP (R123). -/
def unitmap : Variant → Nat
  | .a16 => 0xFFFFF
  | .b8 => 0xFFFFF
  | .c8 => 0xFFCFF

/-- The silicon stepping of BLK_VER.STEP, fixed per die and not stated (R105). -/
opaque stepping : Nat → BitVec 8

/-- The choice of a victim among `n` candidates where the spec names a policy but not its state (pseudo-LRU of R211,
not-recently-used of R291, the removal of R82): free value number `k`. -/
opaque victim : Nat → Nat

/-- The contents of the boot ROM, byte by byte (R95, R98): fixed at manufacture and not stated. -/
opaque bootRom : Nat → BitVec 8

/-- The contents of the flash device, byte by byte, after `k` flash transactions (R98, R550): the device is fitted outside
the part, and what its own commands do to it is not stated. -/
opaque flashByte : Nat → Nat → BitVec 8

/-- The error of the estimator's sine and cosine for the angle `n / 2^40` of a cycle, folded into ±2^−20 of a cycle where it is used
(R399). -/
opaque trigError : Nat → Nat

/-- The level, in units of 1/32640 of the nominal amplitude, that a lane's receiver takes a high (`true`) or low decision to stand for, from
the samples and decisions of the frame so far: sign-sign LMS needs it and its making is not stated (R458). -/
opaque lineLevel : List (Int × Bool) → Bool → Int

/-- The device-unique key of slot 0, byte by byte (R552): set in fuses. -/
opaque deviceKey : Nat → BitVec 8

/-- The 16-byte device identifier, the digests of the debug key and of the fuse state's other values, byte by byte: fuses (R555). -/
opaque deviceId : Nat → BitVec 8
opaque debugKeyHash : Nat → BitVec 8

/-- The random bits that draw number `k` of the TRNG gives (R554). -/
opaque random : Nat → BitVec 32

/-- The fused voltage codes of the operating points: OP `j` needs 600 + 2·code mV (OPVLO, OPVHI). -/
opaque opVoltage : Nat → BitVec 8

/-- The fused hashes of the four boot keys, byte by byte, and which of them are revoked (R547). -/
opaque keyHash : Nat → Nat → BitVec 8
opaque keyRevoked : Nat → Bool

/-- The 96 bytes of the ROM's own digest and the digest of the fuse state that extend BMR0 (R545). -/
opaque bootDigest : Nat → BitVec 8

/-- A free 32-bit value (register values the spec calls undefined, random words). -/
opaque word : Nat → BitVec 32

/-- The bytes of a HELLO under its tag, from its nonce, ROLE, PRIO, UNITMAP and FEAT_ACCEPT: R491 states no layout. -/
opaque helloBytes : W128 → BitVec 3 → Bool → W32 → W64 → List Byte

/-- Byte `i` of the body of a twin-link frame whose layout is not stated (R492 gives that of STORE only). -/
opaque twinByte : TwBody → Nat → Byte

end Sys2Proof.Config
end

