-- ==== Sys2Proof/Machine/RegMap.lean ====
section
/-! DEFINITION. The register map: the address of every register, its fields, and the access code and reset value of
every bit, from the register tables of the spec's chapters (04 for the common header, then each block's own). A register
is named BLOCK_REGISTER and a field BLOCK_REGISTER_FIELD; the field lists of the `rows…` tables stand in the order of the
tables, highest bit first. Reset values that depend on the part or on fuses are given in Machine/Regs.lean. -/

namespace Sys2Proof.Machine

/-! ### The common header (R105) -/

/-- Window base of block `b` (R9). -/
def blkBase (b : Nat) : Nat := 0xE0000000 + b * 0x100000

/-- BLK_ID (R105). -/
def BLK_ID (b : Nat) : Nat := blkBase b + 0x0
def BLK_ID_ID (b : Nat) : Fld := ⟨BLK_ID b, 31, 24⟩
def BLK_ID_INST (b : Nat) : Fld := ⟨BLK_ID b, 23, 16⟩
def BLK_ID_GEN (b : Nat) : Fld := ⟨BLK_ID b, 15, 8⟩
def BLK_ID_DESIGN (b : Nat) : Fld := ⟨BLK_ID b, 7, 0⟩
/-- BLK_VER (R105). -/
def BLK_VER (b : Nat) : Nat := blkBase b + 0x4
def BLK_VER_MAJOR (b : Nat) : Fld := ⟨BLK_VER b, 31, 24⟩
def BLK_VER_MINOR (b : Nat) : Fld := ⟨BLK_VER b, 23, 16⟩
def BLK_VER_STEP (b : Nat) : Fld := ⟨BLK_VER b, 7, 0⟩
/-- FEAT_OFFER (R105). -/
def FEAT_OFFER (b : Nat) : Nat := blkBase b + 0x8
def FEAT_OFFER_OFFER (b : Nat) : Fld := ⟨FEAT_OFFER b, 31, 1⟩
def FEAT_OFFER_BASE (b : Nat) : Fld := ⟨FEAT_OFFER b, 0, 0⟩
/-- FEAT_OFFER_HI (R105). -/
def FEAT_OFFER_HI (b : Nat) : Nat := blkBase b + 0xc
def FEAT_OFFER_HI_OFFER (b : Nat) : Fld := ⟨FEAT_OFFER_HI b, 31, 0⟩
/-- FEAT_ACCEPT (R105). -/
def FEAT_ACCEPT (b : Nat) : Nat := blkBase b + 0x10
def FEAT_ACCEPT_ACCEPT (b : Nat) : Fld := ⟨FEAT_ACCEPT b, 31, 1⟩
def FEAT_ACCEPT_BASE (b : Nat) : Fld := ⟨FEAT_ACCEPT b, 0, 0⟩
/-- FEAT_ACCEPT_HI (R105). -/
def FEAT_ACCEPT_HI (b : Nat) : Nat := blkBase b + 0x14
def FEAT_ACCEPT_HI_ACCEPT (b : Nat) : Fld := ⟨FEAT_ACCEPT_HI b, 31, 0⟩
/-- CTRL (R105). -/
def CTRL (b : Nat) : Nat := blkBase b + 0x18
def CTRL_SOFT_RESET (b : Nat) : Fld := ⟨CTRL b, 2, 2⟩
def CTRL_QMODE (b : Nat) : Fld := ⟨CTRL b, 1, 1⟩
def CTRL_ENABLE (b : Nat) : Fld := ⟨CTRL b, 0, 0⟩
/-- STATE (R105). -/
def STATE (b : Nat) : Nat := blkBase b + 0x1c
def STATE_STATE (b : Nat) : Fld := ⟨STATE b, 2, 0⟩
/-- EV_RAW (R105). -/
def EV_RAW (b : Nat) : Nat := blkBase b + 0x20
def EV_RAW_RAW (b : Nat) : Fld := ⟨EV_RAW b, 31, 0⟩
/-- EV_ENABLE (R105). -/
def EV_ENABLE (b : Nat) : Nat := blkBase b + 0x24
def EV_ENABLE_EN (b : Nat) : Fld := ⟨EV_ENABLE b, 31, 0⟩
/-- EV_PENDING (R105). -/
def EV_PENDING (b : Nat) : Nat := blkBase b + 0x28
def EV_PENDING_PEND (b : Nat) : Fld := ⟨EV_PENDING b, 31, 0⟩
/-- ERR_CODE (R105). -/
def ERR_CODE (b : Nat) : Nat := blkBase b + 0x30
def ERR_CODE_COUNT (b : Nat) : Fld := ⟨ERR_CODE b, 15, 8⟩
def ERR_CODE_CODE (b : Nat) : Fld := ⟨ERR_CODE b, 7, 0⟩
/-- ERR_ADDR_LO (R105). -/
def ERR_ADDR_LO (b : Nat) : Nat := blkBase b + 0x34
def ERR_ADDR_LO_ADDR (b : Nat) : Fld := ⟨ERR_ADDR_LO b, 31, 0⟩
/-- ERR_ADDR_HI (R105). -/
def ERR_ADDR_HI (b : Nat) : Nat := blkBase b + 0x38
def ERR_ADDR_HI_ADDR (b : Nat) : Fld := ⟨ERR_ADDR_HI b, 7, 0⟩
/-- ERR_CTX (R105). -/
def ERR_CTX (b : Nat) : Nat := blkBase b + 0x3c
def ERR_CTX_BLKID (b : Nat) : Fld := ⟨ERR_CTX b, 23, 16⟩
def ERR_CTX_NOCTX (b : Nat) : Fld := ⟨ERR_CTX b, 13, 13⟩
def ERR_CTX_CTX (b : Nat) : Fld := ⟨ERR_CTX b, 11, 0⟩
/-- INFLIGHT (R105). -/
def INFLIGHT (b : Nat) : Nat := blkBase b + 0x40
def INFLIGHT_CNT (b : Nat) : Fld := ⟨INFLIGHT b, 31, 0⟩

/-! ### SCHED (block 0x01) -/

/-- SCHED.SCHED_CFG (R327). -/
def SCHED_SCHED_CFG : Nat := 0xe0100100
def SCHED_SCHED_CFG_MIGLIM : Fld := ⟨SCHED_SCHED_CFG, 31, 24⟩
def SCHED_SCHED_CFG_MIGSHIFT : Fld := ⟨SCHED_SCHED_CFG, 19, 16⟩
def SCHED_SCHED_CFG_QUANTUM : Fld := ⟨SCHED_SCHED_CFG, 15, 0⟩
/-- SCHED.CTXCMD (R327). -/
def SCHED_CTXCMD : Nat := 0xe0100104
def SCHED_CTXCMD_OP : Fld := ⟨SCHED_CTXCMD, 31, 28⟩
def SCHED_CTXCMD_EV : Fld := ⟨SCHED_CTXCMD, 24, 24⟩
def SCHED_CTXCMD_CTX : Fld := ⟨SCHED_CTXCMD, 11, 0⟩
/-- SCHED.CTXARG (R327). -/
def SCHED_CTXARG : Nat := 0xe0100108
def SCHED_CTXARG_ARG : Fld := ⟨SCHED_CTXARG, 31, 0⟩
/-- SCHED.CMDSTAT (R327). -/
def SCHED_CMDSTAT : Nat := 0xe010010c
def SCHED_CMDSTAT_BUSY : Fld := ⟨SCHED_CMDSTAT, 31, 31⟩
def SCHED_CMDSTAT_CSTATE : Fld := ⟨SCHED_CMDSTAT, 26, 24⟩
def SCHED_CMDSTAT_STATUS : Fld := ⟨SCHED_CMDSTAT, 23, 20⟩
def SCHED_CMDSTAT_WORDS : Fld := ⟨SCHED_CMDSTAT, 18, 12⟩
def SCHED_CMDSTAT_CTX : Fld := ⟨SCHED_CMDSTAT, 11, 0⟩
/-- SCHED.RECX_ADDR_LO (R327). -/
def SCHED_RECX_ADDR_LO : Nat := 0xe0100110
def SCHED_RECX_ADDR_LO_ADDR : Fld := ⟨SCHED_RECX_ADDR_LO, 31, 4⟩
/-- SCHED.RECX_ADDR_HI (R327). -/
def SCHED_RECX_ADDR_HI : Nat := 0xe0100114
def SCHED_RECX_ADDR_HI_ADDR : Fld := ⟨SCHED_RECX_ADDR_HI, 7, 0⟩
/-- SCHED.FAULTCTX (R327). -/
def SCHED_FAULTCTX : Nat := 0xe0100118
def SCHED_FAULTCTX_FCAUSE : Fld := ⟨SCHED_FAULTCTX, 23, 16⟩
def SCHED_FAULTCTX_CTX : Fld := ⟨SCHED_FAULTCTX, 11, 0⟩
/-- SCHED.DISPATCH_CNT (R327). -/
def SCHED_DISPATCH_CNT : Nat := 0xe010011c
def SCHED_DISPATCH_CNT_CNT : Fld := ⟨SCHED_DISPATCH_CNT, 31, 0⟩
/-- SCHED.MIGR_CNT (R327). -/
def SCHED_MIGR_CNT : Nat := 0xe0100120
def SCHED_MIGR_CNT_CNT : Fld := ⟨SCHED_MIGR_CNT, 31, 0⟩
/-- SCHED.CSCE_CNT (R327). -/
def SCHED_CSCE_CNT : Nat := 0xe0100124
def SCHED_CSCE_CNT_CNT : Fld := ⟨SCHED_CSCE_CNT, 31, 0⟩
/-- SCHED.CORECTL (R327). -/
def SCHED_CORECTL (i : Nat) : Nat := 0xe0100200 + 0x10 * i
def SCHED_CORECTL_PARKED (i : Nat) : Fld := ⟨(SCHED_CORECTL i), 1, 1⟩
def SCHED_CORECTL_ADMIT (i : Nat) : Fld := ⟨(SCHED_CORECTL i), 0, 0⟩
/-- SCHED.CORECUR (R327). -/
def SCHED_CORECUR (i : Nat) : Nat := 0xe0100204 + 0x10 * i
def SCHED_CORECUR_IDLE (i : Nat) : Fld := ⟨(SCHED_CORECUR i), 31, 31⟩
def SCHED_CORECUR_YHALT (i : Nat) : Fld := ⟨(SCHED_CORECUR i), 30, 30⟩
def SCHED_CORECUR_CTX (i : Nat) : Fld := ⟨(SCHED_CORECUR i), 11, 0⟩
/-- SCHED.CORERES01 (R327). -/
def SCHED_CORERES01 (i : Nat) : Nat := 0xe0100208 + 0x10 * i
def SCHED_CORERES01_V1 (i : Nat) : Fld := ⟨(SCHED_CORERES01 i), 31, 31⟩
def SCHED_CORERES01_CTX1 (i : Nat) : Fld := ⟨(SCHED_CORERES01 i), 27, 16⟩
def SCHED_CORERES01_V0 (i : Nat) : Fld := ⟨(SCHED_CORERES01 i), 15, 15⟩
def SCHED_CORERES01_CTX0 (i : Nat) : Fld := ⟨(SCHED_CORERES01 i), 11, 0⟩
/-- SCHED.CORERES23 (R327). -/
def SCHED_CORERES23 (i : Nat) : Nat := 0xe010020c + 0x10 * i
def SCHED_CORERES23_V1 (i : Nat) : Fld := ⟨(SCHED_CORERES23 i), 31, 31⟩
def SCHED_CORERES23_CTX1 (i : Nat) : Fld := ⟨(SCHED_CORERES23 i), 27, 16⟩
def SCHED_CORERES23_V0 (i : Nat) : Fld := ⟨(SCHED_CORERES23 i), 15, 15⟩
def SCHED_CORERES23_CTX0 (i : Nat) : Fld := ⟨(SCHED_CORERES23 i), 11, 0⟩

/-! ### CAP (block 0x02) -/

/-- CAP.CAP_CFG (R57). -/
def CAP_CAP_CFG : Nat := 0xe0200100
def CAP_CAP_CFG_STRIPEV : Fld := ⟨CAP_CAP_CFG, 1, 1⟩
def CAP_CAP_CFG_REVEN : Fld := ⟨CAP_CAP_CFG, 0, 0⟩
/-- CAP.STRIP_CNT (R57). -/
def CAP_STRIP_CNT : Nat := 0xe0200104
def CAP_STRIP_CNT_CNT : Fld := ⟨CAP_STRIP_CNT, 31, 0⟩
/-- CAP.STRIP_ADDR_LO (R57). -/
def CAP_STRIP_ADDR_LO : Nat := 0xe0200108
def CAP_STRIP_ADDR_LO_ADDR : Fld := ⟨CAP_STRIP_ADDR_LO, 31, 4⟩
/-- CAP.STRIP_ADDR_HI (R57). -/
def CAP_STRIP_ADDR_HI : Nat := 0xe020010c
def CAP_STRIP_ADDR_HI_BLKID : Fld := ⟨CAP_STRIP_ADDR_HI, 23, 16⟩
def CAP_STRIP_ADDR_HI_ADDR : Fld := ⟨CAP_STRIP_ADDR_HI, 7, 0⟩
/-- CAP.CAPFLT_CNT (R57). -/
def CAP_CAPFLT_CNT : Nat := 0xe0200110
def CAP_CAPFLT_CNT_CNT : Fld := ⟨CAP_CAPFLT_CNT, 31, 0⟩
/-- CAP.TYPEREV (R57). -/
def CAP_TYPEREV (i : Nat) : Nat := 0xe0200200 + 4 * i
def CAP_TYPEREV_REV (i : Nat) : Fld := ⟨(CAP_TYPEREV i), 31, 0⟩

/-! ### TRANS (block 0x03) -/

/-- TRANS.SPTAB_LO (R304). -/
def TRANS_SPTAB_LO : Nat := 0xe0300100
def TRANS_SPTAB_LO_ADDR : Fld := ⟨TRANS_SPTAB_LO, 31, 15⟩
/-- TRANS.SPTAB_HI (R304). -/
def TRANS_SPTAB_HI : Nat := 0xe0300104
def TRANS_SPTAB_HI_ADDR : Fld := ⟨TRANS_SPTAB_HI, 7, 0⟩
/-- TRANS.WALK_CNT (R304). -/
def TRANS_WALK_CNT : Nat := 0xe030010c
def TRANS_WALK_CNT_CNT : Fld := ⟨TRANS_WALK_CNT, 31, 0⟩
/-- TRANS.INV_CNT (R304). -/
def TRANS_INV_CNT : Nat := 0xe0300110
def TRANS_INV_CNT_CNT : Fld := ⟨TRANS_INV_CNT, 31, 0⟩
/-- TRANS.WFLT_ADDR_LO (R304). -/
def TRANS_WFLT_ADDR_LO : Nat := 0xe0300114
def TRANS_WFLT_ADDR_LO_ADDR : Fld := ⟨TRANS_WFLT_ADDR_LO, 31, 3⟩
/-- TRANS.WFLT_ADDR_HI (R304). -/
def TRANS_WFLT_ADDR_HI : Nat := 0xe0300118
def TRANS_WFLT_ADDR_HI_ADDR : Fld := ⟨TRANS_WFLT_ADDR_HI, 7, 0⟩
/-- TRANS.WFLT_INFO (R304). -/
def TRANS_WFLT_INFO : Nat := 0xe030011c
def TRANS_WFLT_INFO_SPACE : Fld := ⟨TRANS_WFLT_INFO, 31, 20⟩
def TRANS_WFLT_INFO_CORE : Fld := ⟨TRANS_WFLT_INFO, 19, 16⟩
def TRANS_WFLT_INFO_VALID : Fld := ⟨TRANS_WFLT_INFO, 15, 15⟩
def TRANS_WFLT_INFO_LEVEL : Fld := ⟨TRANS_WFLT_INFO, 10, 8⟩
def TRANS_WFLT_INFO_SUBCODE : Fld := ⟨TRANS_WFLT_INFO, 7, 0⟩

/-! ### MEM (block 0x04) -/

/-- MEM.EV2_RAW (R94). -/
def MEM_EV2_RAW : Nat := 0xe0400100
def MEM_EV2_RAW_RAW : Fld := ⟨MEM_EV2_RAW, 31, 0⟩
/-- MEM.EV2_ENABLE (R94). -/
def MEM_EV2_ENABLE : Nat := 0xe0400104
def MEM_EV2_ENABLE_EN : Fld := ⟨MEM_EV2_ENABLE, 31, 0⟩
/-- MEM.EV2_PENDING (R94). -/
def MEM_EV2_PENDING : Nat := 0xe0400108
def MEM_EV2_PENDING_PEND : Fld := ⟨MEM_EV2_PENDING, 31, 0⟩
/-- MEM.MEM_CFG (R94). -/
def MEM_MEM_CFG : Nat := 0xe0400110
def MEM_MEM_CFG_CESHIFT : Fld := ⟨MEM_MEM_CFG, 11, 8⟩
def MEM_MEM_CFG_CEWB : Fld := ⟨MEM_MEM_CFG, 0, 0⟩
/-- MEM.SFBINV_CNT (R94). -/
def MEM_SFBINV_CNT : Nat := 0xe0400114
def MEM_SFBINV_CNT_CNT : Fld := ⟨MEM_SFBINV_CNT, 31, 0⟩
/-- MEM.BCOLL (R94). -/
def MEM_BCOLL : Nat := 0xe0400118
def MEM_BCOLL_CNT : Fld := ⟨MEM_BCOLL, 31, 0⟩
/-- MEM.BOWN (R94). -/
def MEM_BOWN (i : Nat) : Nat := 0xe0400200 + 0x20 * i
def MEM_BOWN_TARGET (i : Nat) : Fld := ⟨(MEM_BOWN i), 10, 8⟩
def MEM_BOWN_PREV (i : Nat) : Fld := ⟨(MEM_BOWN i), 6, 4⟩
def MEM_BOWN_DOM (i : Nat) : Fld := ⟨(MEM_BOWN i), 2, 0⟩
/-- MEM.CECNT (R94). -/
def MEM_CECNT (i : Nat) : Nat := 0xe0400204 + 0x20 * i
def MEM_CECNT_CNT (i : Nat) : Fld := ⟨(MEM_CECNT i), 31, 0⟩
/-- MEM.UECNT (R94). -/
def MEM_UECNT (i : Nat) : Nat := 0xe0400208 + 0x20 * i
def MEM_UECNT_CNT (i : Nat) : Fld := ⟨(MEM_UECNT i), 31, 0⟩
/-- MEM.EADDR (R94). -/
def MEM_EADDR (i : Nat) : Nat := 0xe040020c + 0x20 * i
def MEM_EADDR_VALID (i : Nat) : Fld := ⟨(MEM_EADDR i), 31, 31⟩
def MEM_EADDR_UE (i : Nat) : Fld := ⟨(MEM_EADDR i), 30, 30⟩
def MEM_EADDR_REFUSED (i : Nat) : Fld := ⟨(MEM_EADDR i), 29, 29⟩
def MEM_EADDR_OFFS (i : Nat) : Fld := ⟨(MEM_EADDR i), 22, 4⟩
/-- MEM.ECTX (R94). -/
def MEM_ECTX (i : Nat) : Nat := 0xe0400210 + 0x20 * i
def MEM_ECTX_BLKID (i : Nat) : Fld := ⟨(MEM_ECTX i), 23, 16⟩
def MEM_ECTX_NOCTX (i : Nat) : Fld := ⟨(MEM_ECTX i), 13, 13⟩
def MEM_ECTX_PORT (i : Nat) : Fld := ⟨(MEM_ECTX i), 12, 12⟩
def MEM_ECTX_CTX (i : Nat) : Fld := ⟨(MEM_ECTX i), 11, 0⟩
/-- MEM.BMAP (R94). -/
def MEM_BMAP (i : Nat) : Nat := 0xe0400214 + 0x20 * i
def MEM_BMAP_SWAP (i : Nat) : Fld := ⟨(MEM_BMAP i), 6, 6⟩
def MEM_BMAP_MODE (i : Nat) : Fld := ⟨(MEM_BMAP i), 5, 4⟩
def MEM_BMAP_TILE (i : Nat) : Fld := ⟨(MEM_BMAP i), 2, 0⟩

/-! ### QUE (block 0x05) -/

/-- QUE.QSEL (R342). -/
def QUE_QSEL : Nat := 0xe0500100
def QUE_QSEL_Q : Fld := ⟨QUE_QSEL, 13, 0⟩
/-- QUE.QD0 (R342). -/
def QUE_QD0 : Nat := 0xe0500104
def QUE_QD0_BASE : Fld := ⟨QUE_QD0, 31, 6⟩
/-- QUE.QD1 (R342). -/
def QUE_QD1 : Nat := 0xe0500108
def QUE_QD1_CTX : Fld := ⟨QUE_QD1, 31, 20⟩
def QUE_QD1_BOUND : Fld := ⟨QUE_QD1, 19, 19⟩
def QUE_QD1_OVWR : Fld := ⟨QUE_QD1, 18, 18⟩
def QUE_QD1_TWIN : Fld := ⟨QUE_QD1, 17, 17⟩
def QUE_QD1_EN : Fld := ⟨QUE_QD1, 16, 16⟩
def QUE_QD1_DOM : Fld := ⟨QUE_QD1, 14, 12⟩
def QUE_QD1_SIZE : Fld := ⟨QUE_QD1, 11, 8⟩
def QUE_QD1_BASE : Fld := ⟨QUE_QD1, 7, 0⟩
/-- QUE.QD2 (R342). -/
def QUE_QD2 : Nat := 0xe050010c
def QUE_QD2_CLASSMASK : Fld := ⟨QUE_QD2, 31, 16⟩
def QUE_QD2_HIWAT : Fld := ⟨QUE_QD2, 15, 0⟩
/-- QUE.QCMD (R342). -/
def QUE_QCMD : Nat := 0xe0500110
def QUE_QCMD_OP : Fld := ⟨QUE_QCMD, 1, 0⟩
/-- QUE.QPUTC (R342). -/
def QUE_QPUTC : Nat := 0xe0500114
def QUE_QPUTC_CNT : Fld := ⟨QUE_QPUTC, 31, 0⟩
/-- QUE.QGETC (R342). -/
def QUE_QGETC : Nat := 0xe0500118
def QUE_QGETC_CNT : Fld := ⟨QUE_QGETC, 31, 0⟩
/-- QUE.QOVFC (R342). -/
def QUE_QOVFC : Nat := 0xe050011c
def QUE_QOVFC_CNT : Fld := ⟨QUE_QOVFC, 31, 0⟩
/-- QUE.QEVQ0 (R342). -/
def QUE_QEVQ0 : Nat := 0xe0500120
def QUE_QEVQ0_FULLQ : Fld := ⟨QUE_QEVQ0, 29, 16⟩
def QUE_QEVQ0_HIWQ : Fld := ⟨QUE_QEVQ0, 13, 0⟩
/-- QUE.QEVQ1 (R342). -/
def QUE_QEVQ1 : Nat := 0xe0500124
def QUE_QEVQ1_MERRQ : Fld := ⟨QUE_QEVQ1, 29, 16⟩
def QUE_QEVQ1_OVWQ : Fld := ⟨QUE_QEVQ1, 13, 0⟩
/-- QUE.PUT_CNT (R342). -/
def QUE_PUT_CNT : Nat := 0xe0500128
def QUE_PUT_CNT_CNT : Fld := ⟨QUE_PUT_CNT, 31, 0⟩
/-- QUE.REFUSE_CNT (R342). -/
def QUE_REFUSE_CNT : Nat := 0xe050012c
def QUE_REFUSE_CNT_CNT : Fld := ⟨QUE_REFUSE_CNT, 31, 0⟩

/-! ### EVT (block 0x06) -/

/-- EVT.EVT_CFG (R357). -/
def EVT_EVT_CFG : Nat := 0xe0600100
def EVT_EVT_CFG_MSGCTX : Fld := ⟨EVT_EVT_CFG, 11, 0⟩
/-- EVT.SWSET (R357). -/
def EVT_SWSET : Nat := 0xe0600104
def EVT_SWSET_SRC : Fld := ⟨EVT_SWSET, 9, 0⟩
/-- EVT.GRANT_CNT (R357). -/
def EVT_GRANT_CNT : Nat := 0xe0600108
def EVT_GRANT_CNT_CNT : Fld := ⟨EVT_GRANT_CNT, 31, 0⟩
/-- EVT.QPUT_CNT (R357). -/
def EVT_QPUT_CNT : Nat := 0xe060010c
def EVT_QPUT_CNT_CNT : Fld := ⟨EVT_QPUT_CNT, 31, 0⟩
/-- EVT.QREFUSE_CNT (R357). -/
def EVT_QREFUSE_CNT : Nat := 0xe0600110
def EVT_QREFUSE_CNT_CNT : Fld := ⟨EVT_QREFUSE_CNT, 31, 0⟩
/-- EVT.QFAIL (R357). -/
def EVT_QFAIL : Nat := 0xe0600114
def EVT_QFAIL_STATUS : Fld := ⟨EVT_QFAIL, 31, 28⟩
def EVT_QFAIL_SRC : Fld := ⟨EVT_QFAIL, 25, 16⟩
def EVT_QFAIL_QUEUE : Fld := ⟨EVT_QFAIL, 13, 0⟩
/-- EVT.LINEPEND (R357). -/
def EVT_LINEPEND (i : Nat) : Nat := 0xe0600200 + 4 * i
def EVT_LINEPEND_TOPSRC (i : Nat) : Fld := ⟨(EVT_LINEPEND i), 25, 16⟩
def EVT_LINEPEND_TOPPRIO (i : Nat) : Fld := ⟨(EVT_LINEPEND i), 15, 12⟩
def EVT_LINEPEND_TOPV (i : Nat) : Fld := ⟨(EVT_LINEPEND i), 11, 11⟩
def EVT_LINEPEND_TOPLINE (i : Nat) : Fld := ⟨(EVT_LINEPEND i), 10, 8⟩
def EVT_LINEPEND_PEND (i : Nat) : Fld := ⟨(EVT_LINEPEND i), 7, 0⟩
/-- EVT.PEND (R357). -/
def EVT_PEND (i : Nat) : Nat := 0xe0600800 + 4 * i
def EVT_PEND_PEND (i : Nat) : Fld := ⟨(EVT_PEND i), 31, 0⟩
/-- EVT.SRCCFG (R357). -/
def EVT_SRCCFG (i : Nat) : Nat := 0xe0601000 + 4 * i
def EVT_SRCCFG_EN (i : Nat) : Fld := ⟨(EVT_SRCCFG i), 31, 31⟩
def EVT_SRCCFG_MODE (i : Nat) : Fld := ⟨(EVT_SRCCFG i), 30, 30⟩
def EVT_SRCCFG_PRIO (i : Nat) : Fld := ⟨(EVT_SRCCFG i), 29, 26⟩
def EVT_SRCCFG_TARGET (i : Nat) : Fld := ⟨(EVT_SRCCFG i), 13, 0⟩

/-! ### PHASE (block 0x07) -/

/-- PHASE.EV2_RAW (R94). -/
def PHASE_EV2_RAW : Nat := 0xe0700100
def PHASE_EV2_RAW_RAW : Fld := ⟨PHASE_EV2_RAW, 31, 0⟩
/-- PHASE.EV2_ENABLE (R94). -/
def PHASE_EV2_ENABLE : Nat := 0xe0700104
def PHASE_EV2_ENABLE_EN : Fld := ⟨PHASE_EV2_ENABLE, 31, 0⟩
/-- PHASE.EV2_PENDING (R94). -/
def PHASE_EV2_PENDING : Nat := 0xe0700108
def PHASE_EV2_PENDING_PEND : Fld := ⟨PHASE_EV2_PENDING, 31, 0⟩
/-- PHASE.MEVLAST0 (R386). -/
def PHASE_MEVLAST0 : Nat := 0xe0700110
def PHASE_MEVLAST0_DROPM : Fld := ⟨PHASE_MEVLAST0, 27, 16⟩
def PHASE_MEVLAST0_LATEM : Fld := ⟨PHASE_MEVLAST0, 11, 0⟩
/-- PHASE.MEVLAST1 (R386). -/
def PHASE_MEVLAST1 : Nat := 0xe0700114
def PHASE_MEVLAST1_SKEWM : Fld := ⟨PHASE_MEVLAST1, 27, 16⟩
def PHASE_MEVLAST1_REFM : Fld := ⟨PHASE_MEVLAST1, 11, 0⟩
/-- PHASE.MEVLAST2 (R386). -/
def PHASE_MEVLAST2 : Nat := 0xe0700118
def PHASE_MEVLAST2_EVFM : Fld := ⟨PHASE_MEVLAST2, 11, 0⟩
/-- PHASE.FIRE_CNT (R386). -/
def PHASE_FIRE_CNT : Nat := 0xe070011c
def PHASE_FIRE_CNT_CNT : Fld := ⟨PHASE_FIRE_CNT, 31, 0⟩
/-- PHASE.LATE_CNT (R386). -/
def PHASE_LATE_CNT : Nat := 0xe0700120
def PHASE_LATE_CNT_CNT : Fld := ⟨PHASE_LATE_CNT, 31, 0⟩
/-- PHASE.DROP_CNT (R386). -/
def PHASE_DROP_CNT : Nat := 0xe0700124
def PHASE_DROP_CNT_CNT : Fld := ⟨PHASE_DROP_CNT, 31, 0⟩
/-- PHASE.REFUSE_CNT (R386). -/
def PHASE_REFUSE_CNT : Nat := 0xe0700128
def PHASE_REFUSE_CNT_CNT : Fld := ⟨PHASE_REFUSE_CNT, 31, 0⟩
/-- PHASE.MSGTPLA (R386). -/
def PHASE_MSGTPLA (i : Nat) : Nat := 0xe0700200 + 8 * i
def PHASE_MSGTPLA_FLAGS (i : Nat) : Fld := ⟨(PHASE_MSGTPLA i), 31, 18⟩
def PHASE_MSGTPLA_CLASS (i : Nat) : Fld := ⟨(PHASE_MSGTPLA i), 17, 14⟩
def PHASE_MSGTPLA_QUEUE (i : Nat) : Fld := ⟨(PHASE_MSGTPLA i), 13, 0⟩
/-- PHASE.MSGTPLB (R386). -/
def PHASE_MSGTPLB (i : Nat) : Nat := 0xe0700204 + 8 * i
def PHASE_MSGTPLB_CTX (i : Nat) : Fld := ⟨(PHASE_MSGTPLB i), 11, 0⟩
/-- PHASE.AXCTL (R386). -/
def PHASE_AXCTL (i : Nat) : Nat := 0xe0701000 + 0x80 * i
def PHASE_AXCTL_EN (i : Nat) : Fld := ⟨(PHASE_AXCTL i), 31, 31⟩
def PHASE_AXCTL_SRC (i : Nat) : Fld := ⟨(PHASE_AXCTL i), 30, 28⟩
def PHASE_AXCTL_REVEV (i : Nat) : Fld := ⟨(PHASE_AXCTL i), 27, 27⟩
def PHASE_AXCTL_FRAC (i : Nat) : Fld := ⟨(PHASE_AXCTL i), 26, 26⟩
def PHASE_AXCTL_SEL (i : Nat) : Fld := ⟨(PHASE_AXCTL i), 24, 16⟩
/-- PHASE.AXSTAT (R386). -/
def PHASE_AXSTAT (i : Nat) : Nat := 0xe0701004 + 0x80 * i
def PHASE_AXSTAT_STATE (i : Nat) : Fld := ⟨(PHASE_AXSTAT i), 31, 29⟩
def PHASE_AXSTAT_DIR (i : Nat) : Fld := ⟨(PHASE_AXSTAT i), 28, 28⟩
def PHASE_AXSTAT_LOCK (i : Nat) : Fld := ⟨(PHASE_AXSTAT i), 27, 27⟩
def PHASE_AXSTAT_REV (i : Nat) : Fld := ⟨(PHASE_AXSTAT i), 26, 26⟩
def PHASE_AXSTAT_JUMP (i : Nat) : Fld := ⟨(PHASE_AXSTAT i), 25, 25⟩
def PHASE_AXSTAT_LOSS (i : Nat) : Fld := ⟨(PHASE_AXSTAT i), 24, 24⟩
def PHASE_AXSTAT_DEADF (i : Nat) : Fld := ⟨(PHASE_AXSTAT i), 23, 23⟩
def PHASE_AXSTAT_HOLDT (i : Nat) : Fld := ⟨(PHASE_AXSTAT i), 22, 0⟩
/-- PHASE.AXPOS_LO (R386). -/
def PHASE_AXPOS_LO (i : Nat) : Nat := 0xe0701008 + 0x80 * i
def PHASE_AXPOS_LO_POS (i : Nat) : Fld := ⟨(PHASE_AXPOS_LO i), 31, 0⟩
/-- PHASE.AXPOS_HI (R386). -/
def PHASE_AXPOS_HI (i : Nat) : Nat := 0xe070100c + 0x80 * i
def PHASE_AXPOS_HI_POS (i : Nat) : Fld := ⟨(PHASE_AXPOS_HI i), 31, 0⟩
/-- PHASE.AXVEL (R386). -/
def PHASE_AXVEL (i : Nat) : Nat := 0xe0701010 + 0x80 * i
def PHASE_AXVEL_VEL (i : Nat) : Fld := ⟨(PHASE_AXVEL i), 31, 0⟩
/-- PHASE.AXVELX (R386). -/
def PHASE_AXVELX (i : Nat) : Nat := 0xe0701014 + 0x80 * i
def PHASE_AXVELX_VELX (i : Nat) : Fld := ⟨(PHASE_AXVELX i), 15, 0⟩
/-- PHASE.AXOFF_LO (R386). -/
def PHASE_AXOFF_LO (i : Nat) : Nat := 0xe0701018 + 0x80 * i
def PHASE_AXOFF_LO_OFF (i : Nat) : Fld := ⟨(PHASE_AXOFF_LO i), 31, 0⟩
/-- PHASE.AXOFF_HI (R386). -/
def PHASE_AXOFF_HI (i : Nat) : Nat := 0xe070101c + 0x80 * i
def PHASE_AXOFF_HI_OFF (i : Nat) : Fld := ⟨(PHASE_AXOFF_HI i), 31, 0⟩
/-- PHASE.AXJUMPLIM (R386). -/
def PHASE_AXJUMPLIM (i : Nat) : Nat := 0xe0701020 + 0x80 * i
def PHASE_AXJUMPLIM_LIM (i : Nat) : Fld := ⟨(PHASE_AXJUMPLIM i), 31, 0⟩
/-- PHASE.AXLOSSTIME (R386). -/
def PHASE_AXLOSSTIME (i : Nat) : Nat := 0xe0701024 + 0x80 * i
def PHASE_AXLOSSTIME_TIME (i : Nat) : Fld := ⟨(PHASE_AXLOSSTIME i), 31, 0⟩
/-- PHASE.AXHOLDMAX (R386). -/
def PHASE_AXHOLDMAX (i : Nat) : Nat := 0xe0701028 + 0x80 * i
def PHASE_AXHOLDMAX_MAX (i : Nat) : Fld := ⟨(PHASE_AXHOLDMAX i), 22, 0⟩
/-- PHASE.AXLOOP (R386). -/
def PHASE_AXLOOP (i : Nat) : Nat := 0xe070102c + 0x80 * i
def PHASE_AXLOOP_KP (i : Nat) : Fld := ⟨(PHASE_AXLOOP i), 31, 28⟩
def PHASE_AXLOOP_KI (i : Nat) : Fld := ⟨(PHASE_AXLOOP i), 25, 20⟩
def PHASE_AXLOOP_KV (i : Nat) : Fld := ⟨(PHASE_AXLOOP i), 19, 16⟩
def PHASE_AXLOOP_LOCKN (i : Nat) : Fld := ⟨(PHASE_AXLOOP i), 3, 0⟩
/-- PHASE.AXCPR (R386). -/
def PHASE_AXCPR (i : Nat) : Nat := 0xe0701030 + 0x80 * i
def PHASE_AXCPR_CPR (i : Nat) : Fld := ⟨(PHASE_AXCPR i), 31, 0⟩
/-- PHASE.AXMEAS_LO (R386). -/
def PHASE_AXMEAS_LO (i : Nat) : Nat := 0xe0701034 + 0x80 * i
def PHASE_AXMEAS_LO_MEAS (i : Nat) : Fld := ⟨(PHASE_AXMEAS_LO i), 31, 0⟩
/-- PHASE.AXMEAS_HI (R386). -/
def PHASE_AXMEAS_HI (i : Nat) : Nat := 0xe0701038 + 0x80 * i
def PHASE_AXMEAS_HI_MEAS (i : Nat) : Fld := ⟨(PHASE_AXMEAS_HI i), 31, 0⟩
/-- PHASE.AXCNT (R386). -/
def PHASE_AXCNT (i : Nat) : Nat := 0xe070103c + 0x80 * i
def PHASE_AXCNT_DEADN (i : Nat) : Fld := ⟨(PHASE_AXCNT i), 31, 24⟩
def PHASE_AXCNT_LOSSN (i : Nat) : Fld := ⟨(PHASE_AXCNT i), 23, 16⟩
def PHASE_AXCNT_JUMPN (i : Nat) : Fld := ⟨(PHASE_AXCNT i), 15, 8⟩
def PHASE_AXCNT_REVN (i : Nat) : Fld := ⟨(PHASE_AXCNT i), 7, 0⟩
/-- PHASE.MCOORD_LO (R386). -/
def PHASE_MCOORD_LO (i : Nat) : Nat := 0xe0710000 + 0x20 * i
def PHASE_MCOORD_LO_COORD (i : Nat) : Fld := ⟨(PHASE_MCOORD_LO i), 31, 0⟩
/-- PHASE.MCOORD_HI (R386). -/
def PHASE_MCOORD_HI (i : Nat) : Nat := 0xe0710004 + 0x20 * i
def PHASE_MCOORD_HI_COORD (i : Nat) : Fld := ⟨(PHASE_MCOORD_HI i), 31, 0⟩
/-- PHASE.MINC_LO (R386). -/
def PHASE_MINC_LO (i : Nat) : Nat := 0xe0710008 + 0x20 * i
def PHASE_MINC_LO_INC (i : Nat) : Fld := ⟨(PHASE_MINC_LO i), 31, 0⟩
/-- PHASE.MINC_HI (R386). -/
def PHASE_MINC_HI (i : Nat) : Nat := 0xe071000c + 0x20 * i
def PHASE_MINC_HI_INC (i : Nat) : Fld := ⟨(PHASE_MINC_HI i), 31, 0⟩
/-- PHASE.MARKCTL (R386). -/
def PHASE_MARKCTL (i : Nat) : Nat := 0xe0710010 + 0x20 * i
def PHASE_MARKCTL_ARM (i : Nat) : Fld := ⟨(PHASE_MARKCTL i), 31, 31⟩
def PHASE_MARKCTL_AXIS (i : Nat) : Fld := ⟨(PHASE_MARKCTL i), 30, 27⟩
def PHASE_MARKCTL_DIR (i : Nat) : Fld := ⟨(PHASE_MARKCTL i), 26, 26⟩
def PHASE_MARKCTL_LATEPOL (i : Nat) : Fld := ⟨(PHASE_MARKCTL i), 25, 25⟩
def PHASE_MARKCTL_GATE (i : Nat) : Fld := ⟨(PHASE_MARKCTL i), 24, 24⟩
def PHASE_MARKCTL_EVF (i : Nat) : Fld := ⟨(PHASE_MARKCTL i), 23, 23⟩
def PHASE_MARKCTL_ACTION (i : Nat) : Fld := ⟨(PHASE_MARKCTL i), 19, 16⟩
def PHASE_MARKCTL_ARG (i : Nat) : Fld := ⟨(PHASE_MARKCTL i), 15, 0⟩
/-- PHASE.MSTAT (R386). -/
def PHASE_MSTAT (i : Nat) : Nat := 0xe0710014 + 0x20 * i
def PHASE_MSTAT_COUNT (i : Nat) : Fld := ⟨(PHASE_MSTAT i), 31, 20⟩
def PHASE_MSTAT_STATUS (i : Nat) : Fld := ⟨(PHASE_MSTAT i), 19, 16⟩
def PHASE_MSTAT_SKEW (i : Nat) : Fld := ⟨(PHASE_MSTAT i), 15, 8⟩
def PHASE_MSTAT_NOCROSS (i : Nat) : Fld := ⟨(PHASE_MSTAT i), 7, 7⟩
def PHASE_MSTAT_SUPPRESSED (i : Nat) : Fld := ⟨(PHASE_MSTAT i), 6, 6⟩
def PHASE_MSTAT_DROPPED (i : Nat) : Fld := ⟨(PHASE_MSTAT i), 5, 5⟩
def PHASE_MSTAT_MERGED (i : Nat) : Fld := ⟨(PHASE_MSTAT i), 4, 4⟩
def PHASE_MSTAT_PREDICTED (i : Nat) : Fld := ⟨(PHASE_MSTAT i), 3, 3⟩
def PHASE_MSTAT_LATE (i : Nat) : Fld := ⟨(PHASE_MSTAT i), 2, 2⟩
def PHASE_MSTAT_BACK (i : Nat) : Fld := ⟨(PHASE_MSTAT i), 1, 1⟩
def PHASE_MSTAT_VALID (i : Nat) : Fld := ⟨(PHASE_MSTAT i), 0, 0⟩
/-- PHASE.MFIRE_LO (R386). -/
def PHASE_MFIRE_LO (i : Nat) : Nat := 0xe0710018 + 0x20 * i
def PHASE_MFIRE_LO_COORD (i : Nat) : Fld := ⟨(PHASE_MFIRE_LO i), 31, 0⟩
/-- PHASE.MFIRE_HI (R386). -/
def PHASE_MFIRE_HI (i : Nat) : Nat := 0xe071001c + 0x20 * i
def PHASE_MFIRE_HI_COORD (i : Nat) : Fld := ⟨(PHASE_MFIRE_HI i), 31, 0⟩

/-! ### LOOP (block 0x08) -/

/-- LOOP.LOOP_CFG (R419). -/
def LOOP_LOOP_CFG : Nat := 0xe0800100
def LOOP_LOOP_CFG_PENDTHR : Fld := ⟨LOOP_LOOP_CFG, 9, 0⟩
/-- LOOP.STEPREQ (R419). -/
def LOOP_STEPREQ : Nat := 0xe0800104
def LOOP_STEPREQ_CELL : Fld := ⟨LOOP_STEPREQ, 8, 0⟩
/-- LOOP.GCMD (R419). -/
def LOOP_GCMD : Nat := 0xe0800108
def LOOP_GCMD_BUSY : Fld := ⟨LOOP_GCMD, 31, 31⟩
def LOOP_GCMD_CELL : Fld := ⟨LOOP_GCMD, 8, 0⟩
/-- LOOP.LASTEV (R419). -/
def LOOP_LASTEV : Nat := 0xe080010c
def LOOP_LASTEV_K : Fld := ⟨LOOP_LASTEV, 27, 24⟩
def LOOP_LASTEV_CELL : Fld := ⟨LOOP_LASTEV, 8, 0⟩
/-- LOOP.GSTAGE_KP (ch. 15). -/
def LOOP_GSTAGE_KP : Nat := 0xe0800110
/-- LOOP.GSTAGE_KI (ch. 15). -/
def LOOP_GSTAGE_KI : Nat := 0xe0800114
/-- LOOP.GSTAGE_KD (ch. 15). -/
def LOOP_GSTAGE_KD : Nat := 0xe0800118
/-- LOOP.GSTAGE_KT (ch. 15). -/
def LOOP_GSTAGE_KT : Nat := 0xe080011c
/-- LOOP.STEP_CNT (R419). -/
def LOOP_STEP_CNT : Nat := 0xe0800120
def LOOP_STEP_CNT_CNT : Fld := ⟨LOOP_STEP_CNT, 31, 0⟩
/-- LOOP.MERGE_CNT (R419). -/
def LOOP_MERGE_CNT : Nat := 0xe0800124
def LOOP_MERGE_CNT_CNT : Fld := ⟨LOOP_MERGE_CNT, 31, 0⟩
/-- LOOP.SKIP_CNT (R419). -/
def LOOP_SKIP_CNT : Nat := 0xe0800128
def LOOP_SKIP_CNT_CNT : Fld := ⟨LOOP_SKIP_CNT, 31, 0⟩
/-- LOOP.PEND (R419). -/
def LOOP_PEND : Nat := 0xe080012c
def LOOP_PEND_PENDMAX : Fld := ⟨LOOP_PEND, 25, 16⟩
def LOOP_PEND_PENDNOW : Fld := ⟨LOOP_PEND, 9, 0⟩
/-- LOOP.TUNE_CTL (R419). -/
def LOOP_TUNE_CTL : Nat := 0xe0800200
def LOOP_TUNE_CTL_START : Fld := ⟨LOOP_TUNE_CTL, 31, 31⟩
def LOOP_TUNE_CTL_ABORT : Fld := ⟨LOOP_TUNE_CTL, 30, 30⟩
def LOOP_TUNE_CTL_RULE : Fld := ⟨LOOP_TUNE_CTL, 29, 28⟩
def LOOP_TUNE_CTL_AUTO : Fld := ⟨LOOP_TUNE_CTL, 27, 27⟩
def LOOP_TUNE_CTL_USECUR : Fld := ⟨LOOP_TUNE_CTL, 26, 26⟩
def LOOP_TUNE_CTL_CELL : Fld := ⟨LOOP_TUNE_CTL, 8, 0⟩
/-- LOOP.TUNE_STAT (R419). -/
def LOOP_TUNE_STAT : Nat := 0xe0800204
def LOOP_TUNE_STAT_STATE : Fld := ⟨LOOP_TUNE_STAT, 31, 28⟩
def LOOP_TUNE_STAT_CODE : Fld := ⟨LOOP_TUNE_STAT, 27, 24⟩
def LOOP_TUNE_STAT_CYC : Fld := ⟨LOOP_TUNE_STAT, 23, 16⟩
/-- LOOP.TUNE_U0 (ch. 15). -/
def LOOP_TUNE_U0 : Nat := 0xe0800208
/-- LOOP.TUNE_D (ch. 15). -/
def LOOP_TUNE_D : Nat := 0xe080020c
/-- LOOP.TUNE_H (ch. 15). -/
def LOOP_TUNE_H : Nat := 0xe0800210
/-- LOOP.TUNE_YMIN (ch. 15). -/
def LOOP_TUNE_YMIN : Nat := 0xe0800214
/-- LOOP.TUNE_YMAX (ch. 15). -/
def LOOP_TUNE_YMAX : Nat := 0xe0800218
/-- LOOP.TUNE_CYC (R419). -/
def LOOP_TUNE_CYC : Nat := 0xe080021c
def LOOP_TUNE_CYC_MAXSTEP : Fld := ⟨LOOP_TUNE_CYC, 31, 16⟩
def LOOP_TUNE_CYC_NSET : Fld := ⟨LOOP_TUNE_CYC, 15, 8⟩
def LOOP_TUNE_CYC_NCYC : Fld := ⟨LOOP_TUNE_CYC, 7, 0⟩
/-- LOOP.KPMIN (ch. 15). -/
def LOOP_KPMIN : Nat := 0xe0800220
/-- LOOP.KPMAX (ch. 15). -/
def LOOP_KPMAX : Nat := 0xe0800224
/-- LOOP.KIMIN (ch. 15). -/
def LOOP_KIMIN : Nat := 0xe0800228
/-- LOOP.KIMAX (ch. 15). -/
def LOOP_KIMAX : Nat := 0xe080022c
/-- LOOP.KDMAX (ch. 15). -/
def LOOP_KDMAX : Nat := 0xe0800230
/-- LOOP.TUNE_KU (ch. 15). -/
def LOOP_TUNE_KU : Nat := 0xe0800240
/-- LOOP.TUNE_NU (ch. 15). -/
def LOOP_TUNE_NU : Nat := 0xe0800244
/-- LOOP.TUNE_A (ch. 15). -/
def LOOP_TUNE_A : Nat := 0xe0800248
/-- LOOP.TUNE_KP (ch. 15). -/
def LOOP_TUNE_KP : Nat := 0xe0800250
/-- LOOP.TUNE_KI (ch. 15). -/
def LOOP_TUNE_KI : Nat := 0xe0800254
/-- LOOP.TUNE_KD (ch. 15). -/
def LOOP_TUNE_KD : Nat := 0xe0800258
/-- LOOP.TUNE_KT (ch. 15). -/
def LOOP_TUNE_KT : Nat := 0xe080025c
/-- LOOP.LMSGTPLA (R419). -/
def LOOP_LMSGTPLA (i : Nat) : Nat := 0xe0800400 + 8 * i
def LOOP_LMSGTPLA_FLAGS (i : Nat) : Fld := ⟨(LOOP_LMSGTPLA i), 31, 18⟩
def LOOP_LMSGTPLA_CLASS (i : Nat) : Fld := ⟨(LOOP_LMSGTPLA i), 17, 14⟩
def LOOP_LMSGTPLA_QUEUE (i : Nat) : Fld := ⟨(LOOP_LMSGTPLA i), 13, 0⟩
/-- LOOP.LMSGTPLB (R419). -/
def LOOP_LMSGTPLB (i : Nat) : Nat := 0xe0800404 + 8 * i
def LOOP_LMSGTPLB_AXIS (i : Nat) : Fld := ⟨(LOOP_LMSGTPLB i), 15, 12⟩
def LOOP_LMSGTPLB_CTX (i : Nat) : Fld := ⟨(LOOP_LMSGTPLB i), 11, 0⟩
/-- LOOP.SCHTAB (ch. 15). -/
def LOOP_SCHTAB (i : Nat) (j : Nat) : Nat := 0xe0810000 + 0x100 * i + 4 * j
/-- LOOP.CCTL (R419). -/
def LOOP_CCTL (i : Nat) : Nat := 0xe0820000 + 0x100 * i
def LOOP_CCTL_EN (i : Nat) : Fld := ⟨(LOOP_CCTL i), 31, 31⟩
def LOOP_CCTL_TYPE (i : Nat) : Fld := ⟨(LOOP_CCTL i), 30, 28⟩
def LOOP_CCTL_OPT (i : Nat) : Fld := ⟨(LOOP_CCTL i), 27, 27⟩
def LOOP_CCTL_NSUB (i : Nat) : Fld := ⟨(LOOP_CCTL i), 26, 25⟩
def LOOP_CCTL_LATEPOL (i : Nat) : Fld := ⟨(LOOP_CCTL i), 24, 24⟩
def LOOP_CCTL_AGATE (i : Nat) : Fld := ⟨(LOOP_CCTL i), 23, 23⟩
def LOOP_CCTL_FBMODE (i : Nat) : Fld := ⟨(LOOP_CCTL i), 22, 21⟩
def LOOP_CCTL_AMODE (i : Nat) : Fld := ⟨(LOOP_CCTL i), 20, 19⟩
def LOOP_CCTL_FBLATCH (i : Nat) : Fld := ⟨(LOOP_CCTL i), 18, 18⟩
def LOOP_CCTL_RESUME (i : Nat) : Fld := ⟨(LOOP_CCTL i), 17, 17⟩
/-- LOOP.CSTAT (R419). -/
def LOOP_CSTAT (i : Nat) : Nat := 0xe0820004 + 0x100 * i
def LOOP_CSTAT_OSTAT (i : Nat) : Fld := ⟨(LOOP_CSTAT i), 23, 20⟩
def LOOP_CSTAT_BADIN (i : Nat) : Fld := ⟨(LOOP_CSTAT i), 19, 16⟩
def LOOP_CSTAT_FB (i : Nat) : Fld := ⟨(LOOP_CSTAT i), 15, 15⟩
def LOOP_CSTAT_FBREASON (i : Nat) : Fld := ⟨(LOOP_CSTAT i), 14, 12⟩
def LOOP_CSTAT_SELIDX (i : Nat) : Fld := ⟨(LOOP_CSTAT i), 9, 8⟩
def LOOP_CSTAT_TUNING (i : Nat) : Fld := ⟨(LOOP_CSTAT i), 7, 7⟩
def LOOP_CSTAT_LATE (i : Nat) : Fld := ⟨(LOOP_CSTAT i), 6, 6⟩
def LOOP_CSTAT_PRED (i : Nat) : Fld := ⟨(LOOP_CSTAT i), 5, 5⟩
def LOOP_CSTAT_SKIPPED (i : Nat) : Fld := ⟨(LOOP_CSTAT i), 4, 4⟩
def LOOP_CSTAT_OVR (i : Nat) : Fld := ⟨(LOOP_CSTAT i), 3, 3⟩
def LOOP_CSTAT_OUTERR (i : Nat) : Fld := ⟨(LOOP_CSTAT i), 2, 2⟩
def LOOP_CSTAT_SCHERR (i : Nat) : Fld := ⟨(LOOP_CSTAT i), 1, 1⟩
def LOOP_CSTAT_VALID (i : Nat) : Fld := ⟨(LOOP_CSTAT i), 0, 0⟩
/-- LOOP.INB (R419). -/
def LOOP_INB (i : Nat) (j : Nat) : Nat := 0xe0820008 + 0x100 * i + 4 * j
def LOOP_INB_KIND (i : Nat) (j : Nat) : Fld := ⟨(LOOP_INB i j), 31, 29⟩
def LOOP_INB_SRC (i : Nat) (j : Nat) : Fld := ⟨(LOOP_INB i j), 8, 0⟩
/-- LOOP.OUTB (R419). -/
def LOOP_OUTB (i : Nat) : Nat := 0xe0820018 + 0x100 * i
def LOOP_OUTB_KIND (i : Nat) : Fld := ⟨(LOOP_OUTB i), 31, 29⟩
def LOOP_OUTB_IDX (i : Nat) : Fld := ⟨(LOOP_OUTB i), 4, 0⟩
/-- LOOP.SCHD (R419). -/
def LOOP_SCHD (i : Nat) : Nat := 0xe082001c + 0x100 * i
def LOOP_SCHD_EN (i : Nat) : Fld := ⟨(LOOP_SCHD i), 31, 31⟩
def LOOP_SCHD_TABLE (i : Nat) : Fld := ⟨(LOOP_SCHD i), 29, 24⟩
def LOOP_SCHD_AXIS (i : Nat) : Fld := ⟨(LOOP_SCHD i), 19, 16⟩
/-- LOOP.MINADDR (R419). -/
def LOOP_MINADDR (i : Nat) : Nat := 0xe0820020 + 0x100 * i
def LOOP_MINADDR_ADDR (i : Nat) : Fld := ⟨(LOOP_MINADDR i), 22, 0⟩
/-- LOOP.MOUTADDR (R419). -/
def LOOP_MOUTADDR (i : Nat) : Nat := 0xe0820024 + 0x100 * i
def LOOP_MOUTADDR_ADDR (i : Nat) : Fld := ⟨(LOOP_MOUTADDR i), 22, 0⟩
/-- LOOP.FBPRESET (ch. 15). -/
def LOOP_FBPRESET (i : Nat) : Nat := 0xe0820028 + 0x100 * i
/-- LOOP.FBRATE (ch. 15). -/
def LOOP_FBRATE (i : Nat) : Nat := 0xe082002c + 0x100 * i
/-- LOOP.INAGE (R419). -/
def LOOP_INAGE (i : Nat) : Nat := 0xe0820030 + 0x100 * i
def LOOP_INAGE_MAXAGE (i : Nat) : Fld := ⟨(LOOP_INAGE i), 15, 0⟩
/-- LOOP.NEXT (R419). -/
def LOOP_NEXT (i : Nat) : Nat := 0xe0820034 + 0x100 * i
def LOOP_NEXT_EN (i : Nat) : Fld := ⟨(LOOP_NEXT i), 31, 31⟩
def LOOP_NEXT_CELL (i : Nat) : Fld := ⟨(LOOP_NEXT i), 8, 0⟩
/-- LOOP.STEPCNT (R419). -/
def LOOP_STEPCNT (i : Nat) : Nat := 0xe0820038 + 0x100 * i
def LOOP_STEPCNT_CNT (i : Nat) : Fld := ⟨(LOOP_STEPCNT i), 31, 0⟩
/-- LOOP.COUT (ch. 15). -/
def LOOP_COUT (i : Nat) : Nat := 0xe082003c + 0x100 * i
/-- LOOP.SCALE (ch. 15). -/
def LOOP_SCALE (i : Nat) (j : Nat) : Nat := 0xe0820040 + 0x100 * i + 4 * j
/-- LOOP.OFS (ch. 15). -/
def LOOP_OFS (i : Nat) (j : Nat) : Nat := 0xe0820050 + 0x100 * i + 4 * j
/-- LOOP.OSCALE (ch. 15). -/
def LOOP_OSCALE (i : Nat) : Nat := 0xe0820060 + 0x100 * i
/-- LOOP.OOFS (ch. 15). -/
def LOOP_OOFS (i : Nat) : Nat := 0xe0820064 + 0x100 * i
/-- LOOP.UMIN (ch. 15). -/
def LOOP_UMIN (i : Nat) : Nat := 0xe0820068 + 0x100 * i
/-- LOOP.UMAX (ch. 15). -/
def LOOP_UMAX (i : Nat) : Nat := 0xe082006c + 0x100 * i
/-- LOOP.TYPEW (ch. 15). -/
def LOOP_TYPEW (i : Nat) (j : Nat) : Nat := 0xe0820080 + 0x100 * i + 4 * j

/-! ### MEAS (block 0x09) -/

/-- MEAS.EV2_RAW (R94). -/
def MEAS_EV2_RAW : Nat := 0xe0900100
def MEAS_EV2_RAW_RAW : Fld := ⟨MEAS_EV2_RAW, 31, 0⟩
/-- MEAS.EV2_ENABLE (R94). -/
def MEAS_EV2_ENABLE : Nat := 0xe0900104
def MEAS_EV2_ENABLE_EN : Fld := ⟨MEAS_EV2_ENABLE, 31, 0⟩
/-- MEAS.EV2_PENDING (R94). -/
def MEAS_EV2_PENDING : Nat := 0xe0900108
def MEAS_EV2_PENDING_PEND : Fld := ⟨MEAS_EV2_PENDING, 31, 0⟩
/-- MEAS.BRSTAT (R450). -/
def MEAS_BRSTAT : Nat := 0xe0900110
def MEAS_BRSTAT_UP : Fld := ⟨MEAS_BRSTAT, 31, 31⟩
def MEAS_BRSTAT_FSUP : Fld := ⟨MEAS_BRSTAT, 30, 30⟩
def MEAS_BRSTAT_DOWNN : Fld := ⟨MEAS_BRSTAT, 15, 0⟩
/-- MEAS.BRERR_CNT (R450). -/
def MEAS_BRERR_CNT : Nat := 0xe0900114
def MEAS_BRERR_CNT_CNT : Fld := ⟨MEAS_BRERR_CNT, 31, 0⟩
/-- MEAS.AUTHSTAT (R450). -/
def MEAS_AUTHSTAT : Nat := 0xe0900118
def MEAS_AUTHSTAT_DROP : Fld := ⟨MEAS_AUTHSTAT, 7, 7⟩
def MEAS_AUTHSTAT_PRI : Fld := ⟨MEAS_AUTHSTAT, 4, 4⟩
def MEAS_AUTHSTAT_DRIVE : Fld := ⟨MEAS_AUTHSTAT, 3, 3⟩
def MEAS_AUTHSTAT_CLAIM : Fld := ⟨MEAS_AUTHSTAT, 2, 2⟩
def MEAS_AUTHSTAT_TWINCL : Fld := ⟨MEAS_AUTHSTAT, 1, 1⟩
def MEAS_AUTHSTAT_LINE : Fld := ⟨MEAS_AUTHSTAT, 0, 0⟩
/-- MEAS.CAPCTL (R450). -/
def MEAS_CAPCTL : Nat := 0xe0900120
def MEAS_CAPCTL_EN : Fld := ⟨MEAS_CAPCTL, 31, 31⟩
def MEAS_CAPCTL_SIZE : Fld := ⟨MEAS_CAPCTL, 3, 0⟩
/-- MEAS.CAPBASE_LO (R450). -/
def MEAS_CAPBASE_LO : Nat := 0xe0900124
def MEAS_CAPBASE_LO_ADDR : Fld := ⟨MEAS_CAPBASE_LO, 31, 4⟩
/-- MEAS.CAPBASE_HI (R450). -/
def MEAS_CAPBASE_HI : Nat := 0xe0900128
def MEAS_CAPBASE_HI_ADDR : Fld := ⟨MEAS_CAPBASE_HI, 7, 0⟩
/-- MEAS.CAPWR (R450). -/
def MEAS_CAPWR : Nat := 0xe090012c
def MEAS_CAPWR_CNT : Fld := ⟨MEAS_CAPWR, 31, 0⟩
/-- MEAS.CAPRD (R450). -/
def MEAS_CAPRD : Nat := 0xe0900130
def MEAS_CAPRD_CNT : Fld := ⟨MEAS_CAPRD, 31, 0⟩
/-- MEAS.CAPDROP (R450). -/
def MEAS_CAPDROP : Nat := 0xe0900134
def MEAS_CAPDROP_CNT : Fld := ⟨MEAS_CAPDROP, 31, 0⟩
/-- MEAS.MRES (R450). -/
def MEAS_MRES (i : Nat) : Nat := 0xe0900200 + 0x10 * i
def MEAS_MRES_VALID (i : Nat) : Fld := ⟨(MEAS_MRES i), 31, 31⟩
def MEAS_MRES_OVL (i : Nat) : Fld := ⟨(MEAS_MRES i), 30, 30⟩
def MEAS_MRES_TRG (i : Nat) : Fld := ⟨(MEAS_MRES i), 29, 29⟩
def MEAS_MRES_SEQ (i : Nat) : Fld := ⟨(MEAS_MRES i), 28, 24⟩
/-- MEAS.MTICK_LO (R450). -/
def MEAS_MTICK_LO (i : Nat) : Nat := 0xe0900204 + 0x10 * i
def MEAS_MTICK_LO_TICK (i : Nat) : Fld := ⟨(MEAS_MTICK_LO i), 31, 0⟩
/-- MEAS.MTICK_HI (R450). -/
def MEAS_MTICK_HI (i : Nat) : Nat := 0xe0900208 + 0x10 * i
def MEAS_MTICK_HI_TICK (i : Nat) : Fld := ⟨(MEAS_MTICK_HI i), 31, 0⟩
/-- MEAS.ENCPOS_LO (R450). -/
def MEAS_ENCPOS_LO (i : Nat) : Nat := 0xe0900300 + 0x20 * i
def MEAS_ENCPOS_LO_POS (i : Nat) : Fld := ⟨(MEAS_ENCPOS_LO i), 31, 0⟩
/-- MEAS.ENCPOS_HI (R450). -/
def MEAS_ENCPOS_HI (i : Nat) : Nat := 0xe0900304 + 0x20 * i
def MEAS_ENCPOS_HI_POS (i : Nat) : Fld := ⟨(MEAS_ENCPOS_HI i), 31, 0⟩
/-- MEAS.ENCIDX_LO (R450). -/
def MEAS_ENCIDX_LO (i : Nat) : Nat := 0xe0900308 + 0x20 * i
def MEAS_ENCIDX_LO_POS (i : Nat) : Fld := ⟨(MEAS_ENCIDX_LO i), 31, 0⟩
/-- MEAS.ENCIDX_HI (R450). -/
def MEAS_ENCIDX_HI (i : Nat) : Nat := 0xe090030c + 0x20 * i
def MEAS_ENCIDX_HI_POS (i : Nat) : Fld := ⟨(MEAS_ENCIDX_HI i), 31, 0⟩
/-- MEAS.ENCSTAT (R450). -/
def MEAS_ENCSTAT (i : Nat) : Nat := 0xe0900310 + 0x20 * i
def MEAS_ENCSTAT_VALID (i : Nat) : Fld := ⟨(MEAS_ENCSTAT i), 31, 31⟩
def MEAS_ENCSTAT_ERR (i : Nat) : Fld := ⟨(MEAS_ENCSTAT i), 30, 30⟩
def MEAS_ENCSTAT_IDX (i : Nat) : Fld := ⟨(MEAS_ENCSTAT i), 29, 29⟩
def MEAS_ENCSTAT_ERRCNT (i : Nat) : Fld := ⟨(MEAS_ENCSTAT i), 15, 0⟩
/-- MEAS.DISTATE (R450). -/
def MEAS_DISTATE (i : Nat) : Nat := 0xe0900400 + 4 * i
def MEAS_DISTATE_STATE (i : Nat) : Fld := ⟨(MEAS_DISTATE i), 31, 0⟩
/-- MEAS.DICHG (R450). -/
def MEAS_DICHG (i : Nat) : Nat := 0xe0900408 + 4 * i
def MEAS_DICHG_CHG (i : Nat) : Fld := ⟨(MEAS_DICHG i), 31, 0⟩
/-- MEAS.DIWEAK (R450). -/
def MEAS_DIWEAK (i : Nat) : Nat := 0xe0900410 + 4 * i
def MEAS_DIWEAK_WEAK (i : Nat) : Fld := ⟨(MEAS_DIWEAK i), 31, 0⟩
/-- MEAS.CHCFG (R450). -/
def MEAS_CHCFG (i : Nat) : Nat := 0xe0901000 + 8 * i
def MEAS_CHCFG_EN (i : Nat) : Fld := ⟨(MEAS_CHCFG i), 31, 31⟩
def MEAS_CHCFG_RATE (i : Nat) : Fld := ⟨(MEAS_CHCFG i), 30, 30⟩
def MEAS_CHCFG_CONT (i : Nat) : Fld := ⟨(MEAS_CHCFG i), 29, 29⟩
def MEAS_CHCFG_ZC (i : Nat) : Fld := ⟨(MEAS_CHCFG i), 28, 28⟩
def MEAS_CHCFG_CAP (i : Nat) : Fld := ⟨(MEAS_CHCFG i), 27, 27⟩
/-- MEAS.CHZC (R450). -/
def MEAS_CHZC (i : Nat) : Nat := 0xe0901004 + 8 * i
def MEAS_CHZC_HYST (i : Nat) : Fld := ⟨(MEAS_CHZC i), 23, 0⟩
/-- MEAS.ENCCFG (R450). -/
def MEAS_ENCCFG (i : Nat) : Nat := 0xe0901100 + 0x10 * i
def MEAS_ENCCFG_EN (i : Nat) : Fld := ⟨(MEAS_ENCCFG i), 31, 31⟩
def MEAS_ENCCFG_MODE (i : Nat) : Fld := ⟨(MEAS_ENCCFG i), 30, 30⟩
def MEAS_ENCCFG_INV (i : Nat) : Fld := ⟨(MEAS_ENCCFG i), 29, 29⟩
def MEAS_ENCCFG_FILT (i : Nat) : Fld := ⟨(MEAS_ENCCFG i), 7, 0⟩
/-- MEAS.SSICFG (R450). -/
def MEAS_SSICFG (i : Nat) : Nat := 0xe0901104 + 0x10 * i
def MEAS_SSICFG_NBITS (i : Nat) : Fld := ⟨(MEAS_SSICFG i), 28, 24⟩
def MEAS_SSICFG_GRAY (i : Nat) : Fld := ⟨(MEAS_SSICFG i), 23, 23⟩
def MEAS_SSICFG_PAR (i : Nat) : Fld := ⟨(MEAS_SSICFG i), 22, 22⟩
def MEAS_SSICFG_CLKDIV (i : Nat) : Fld := ⟨(MEAS_SSICFG i), 15, 8⟩
def MEAS_SSICFG_PER (i : Nat) : Fld := ⟨(MEAS_SSICFG i), 7, 0⟩
/-- MEAS.DICFG (R450). -/
def MEAS_DICFG (i : Nat) : Nat := 0xe0901200 + 4 * i
def MEAS_DICFG_ADAPT (i : Nat) : Fld := ⟨(MEAS_DICFG i), 31, 31⟩
def MEAS_DICFG_INV (i : Nat) : Fld := ⟨(MEAS_DICFG i), 30, 30⟩
def MEAS_DICFG_THR (i : Nat) : Fld := ⟨(MEAS_DICFG i), 23, 16⟩
def MEAS_DICFG_DEB (i : Nat) : Fld := ⟨(MEAS_DICFG i), 15, 0⟩
/-- MEAS.DILEVEL (R450). -/
def MEAS_DILEVEL (i : Nat) : Nat := 0xe0901300 + 4 * i
def MEAS_DILEVEL_H (i : Nat) : Fld := ⟨(MEAS_DILEVEL i), 31, 24⟩
def MEAS_DILEVEL_L (i : Nat) : Fld := ⟨(MEAS_DILEVEL i), 23, 16⟩
def MEAS_DILEVEL_THR (i : Nat) : Fld := ⟨(MEAS_DILEVEL i), 15, 8⟩
/-- MEAS.DITHLIM (R450). -/
def MEAS_DITHLIM : Nat := 0xe0901400
def MEAS_DITHLIM_THMIN : Fld := ⟨MEAS_DITHLIM, 31, 24⟩
def MEAS_DITHLIM_THMAX : Fld := ⟨MEAS_DITHLIM, 23, 16⟩
def MEAS_DITHLIM_MINSWING : Fld := ⟨MEAS_DITHLIM, 15, 8⟩
def MEAS_DITHLIM_DECAY : Fld := ⟨MEAS_DITHLIM, 3, 0⟩
/-- MEAS.DOCMD (R450). -/
def MEAS_DOCMD : Nat := 0xe0901500
def MEAS_DOCMD_CMD : Fld := ⟨MEAS_DOCMD, 31, 0⟩
/-- MEAS.DOSET (R450). -/
def MEAS_DOSET : Nat := 0xe0901504
def MEAS_DOSET_BITS : Fld := ⟨MEAS_DOSET, 31, 0⟩
/-- MEAS.DOCLR (R450). -/
def MEAS_DOCLR : Nat := 0xe0901508
def MEAS_DOCLR_BITS : Fld := ⟨MEAS_DOCLR, 31, 0⟩
/-- MEAS.DOSAFE (R450). -/
def MEAS_DOSAFE (i : Nat) : Nat := 0xe090150c + 4 * i
def MEAS_DOSAFE_SAFE (i : Nat) : Fld := ⟨(MEAS_DOSAFE i), 31, 0⟩
/-- MEAS.DOREAD (R450). -/
def MEAS_DOREAD : Nat := 0xe0901514
def MEAS_DOREAD_PIN : Fld := ⟨MEAS_DOREAD, 31, 0⟩
/-- MEAS.DOFLT (R450). -/
def MEAS_DOFLT : Nat := 0xe0901518
def MEAS_DOFLT_FLT : Fld := ⟨MEAS_DOFLT, 31, 0⟩
/-- MEAS.PWMTCFG (R450). -/
def MEAS_PWMTCFG (i : Nat) : Nat := 0xe0901600 + 0x10 * i
def MEAS_PWMTCFG_LOCK (i : Nat) : Fld := ⟨(MEAS_PWMTCFG i), 31, 31⟩
def MEAS_PWMTCFG_AXIS (i : Nat) : Fld := ⟨(MEAS_PWMTCFG i), 27, 24⟩
def MEAS_PWMTCFG_N (i : Nat) : Fld := ⟨(MEAS_PWMTCFG i), 15, 0⟩
/-- MEAS.PWMTPER (R450). -/
def MEAS_PWMTPER (i : Nat) : Nat := 0xe0901604 + 0x10 * i
def MEAS_PWMTPER_PER (i : Nat) : Fld := ⟨(MEAS_PWMTPER i), 19, 0⟩
/-- MEAS.PWMTPH (R450). -/
def MEAS_PWMTPH (i : Nat) : Nat := 0xe0901608 + 0x10 * i
def MEAS_PWMTPH_PH (i : Nat) : Fld := ⟨(MEAS_PWMTPH i), 31, 0⟩
/-- MEAS.PWMPAIR (R450). -/
def MEAS_PWMPAIR (i : Nat) : Nat := 0xe0901640 + 4 * i
def MEAS_PWMPAIR_COMP (i : Nat) : Fld := ⟨(MEAS_PWMPAIR i), 31, 31⟩
def MEAS_PWMPAIR_SAFE (i : Nat) : Fld := ⟨(MEAS_PWMPAIR i), 17, 16⟩
def MEAS_PWMPAIR_DT (i : Nat) : Fld := ⟨(MEAS_PWMPAIR i), 9, 0⟩
/-- MEAS.PWMDUTY (R450). -/
def MEAS_PWMDUTY (i : Nat) : Nat := 0xe0901680 + 4 * i
def MEAS_PWMDUTY_DUTY (i : Nat) : Fld := ⟨(MEAS_PWMDUTY i), 15, 0⟩
/-- MEAS.AOUT (R450). -/
def MEAS_AOUT (i : Nat) : Nat := 0xe0901700 + 4 * i
def MEAS_AOUT_CODE (i : Nat) : Fld := ⟨(MEAS_AOUT i), 15, 0⟩
/-- MEAS.AOSAFE (R450). -/
def MEAS_AOSAFE (i : Nat) : Nat := 0xe0901720 + 4 * i
def MEAS_AOSAFE_SAFE (i : Nat) : Fld := ⟨(MEAS_AOSAFE i), 15, 0⟩
/-- MEAS.OUTEN0 (R450). -/
def MEAS_OUTEN0 : Nat := 0xe0901800
def MEAS_OUTEN0_DO : Fld := ⟨MEAS_OUTEN0, 31, 0⟩
/-- MEAS.OUTEN1 (R450). -/
def MEAS_OUTEN1 : Nat := 0xe0901804
def MEAS_OUTEN1_AO : Fld := ⟨MEAS_OUTEN1, 31, 24⟩
def MEAS_OUTEN1_PWM : Fld := ⟨MEAS_OUTEN1, 23, 0⟩
/-- MEAS.TRIGSW (R450). -/
def MEAS_TRIGSW : Nat := 0xe0901808
def MEAS_TRIGSW_MASK : Fld := ⟨MEAS_TRIGSW, 15, 0⟩

/-! ### FLINK (block 0x0A) -/

/-- FLINK.EV2_RAW (R94). -/
def FLINK_EV2_RAW : Nat := 0xe0a00100
def FLINK_EV2_RAW_RAW : Fld := ⟨FLINK_EV2_RAW, 31, 0⟩
/-- FLINK.EV2_ENABLE (R94). -/
def FLINK_EV2_ENABLE : Nat := 0xe0a00104
def FLINK_EV2_ENABLE_EN : Fld := ⟨FLINK_EV2_ENABLE, 31, 0⟩
/-- FLINK.EV2_PENDING (R94). -/
def FLINK_EV2_PENDING : Nat := 0xe0a00108
def FLINK_EV2_PENDING_PEND : Fld := ⟨FLINK_EV2_PENDING, 31, 0⟩
/-- FLINK.LCFG (R471). -/
def FLINK_LCFG (i : Nat) : Nat := 0xe0a01000 + 0x40 * i
def FLINK_LCFG_EN (i : Nat) : Fld := ⟨(FLINK_LCFG i), 31, 31⟩
def FLINK_LCFG_AGATE (i : Nat) : Fld := ⟨(FLINK_LCFG i), 30, 30⟩
def FLINK_LCFG_TERM (i : Nat) : Fld := ⟨(FLINK_LCFG i), 29, 29⟩
def FLINK_LCFG_ADAPT (i : Nat) : Fld := ⟨(FLINK_LCFG i), 28, 28⟩
def FLINK_LCFG_AXIS (i : Nat) : Fld := ⟨(FLINK_LCFG i), 27, 24⟩
def FLINK_LCFG_DIV (i : Nat) : Fld := ⟨(FLINK_LCFG i), 23, 16⟩
def FLINK_LCFG_LADDR (i : Nat) : Fld := ⟨(FLINK_LCFG i), 13, 8⟩
/-- FLINK.LTXQ (R471). -/
def FLINK_LTXQ (i : Nat) : Nat := 0xe0a01004 + 0x40 * i
def FLINK_LTXQ_QUEUE (i : Nat) : Fld := ⟨(FLINK_LTXQ i), 13, 0⟩
/-- FLINK.LSTAT (R471). -/
def FLINK_LSTAT (i : Nat) : Nat := 0xe0a01008 + 0x40 * i
def FLINK_LSTAT_TXACT (i : Nat) : Fld := ⟨(FLINK_LSTAT i), 31, 31⟩
def FLINK_LSTAT_RXACT (i : Nat) : Fld := ⟨(FLINK_LSTAT i), 30, 30⟩
def FLINK_LSTAT_WIN (i : Nat) : Fld := ⟨(FLINK_LSTAT i), 29, 29⟩
def FLINK_LSTAT_WINP (i : Nat) : Fld := ⟨(FLINK_LSTAT i), 4, 0⟩
/-- FLINK.LCNT0 (R471). -/
def FLINK_LCNT0 (i : Nat) : Nat := 0xe0a0100c + 0x40 * i
def FLINK_LCNT0_CRCERR (i : Nat) : Fld := ⟨(FLINK_LCNT0 i), 31, 16⟩
def FLINK_LCNT0_HDRERR (i : Nat) : Fld := ⟨(FLINK_LCNT0 i), 15, 0⟩
/-- FLINK.LCNT1 (R471). -/
def FLINK_LCNT1 (i : Nat) : Nat := 0xe0a01010 + 0x40 * i
def FLINK_LCNT1_UNKNOWN (i : Nat) : Fld := ⟨(FLINK_LCNT1 i), 31, 16⟩
def FLINK_LCNT1_BADREQ (i : Nat) : Fld := ⟨(FLINK_LCNT1 i), 15, 0⟩
/-- FLINK.LQ (R471). -/
def FLINK_LQ (i : Nat) : Nat := 0xe0a01014 + 0x40 * i
def FLINK_LQ_EYELAST (i : Nat) : Fld := ⟨(FLINK_LQ i), 31, 24⟩
def FLINK_LQ_EYEMIN (i : Nat) : Fld := ⟨(FLINK_LQ i), 23, 16⟩
def FLINK_LQ_SLICE (i : Nat) : Fld := ⟨(FLINK_LQ i), 15, 8⟩
/-- FLINK.LDFE0 (R471). -/
def FLINK_LDFE0 (i : Nat) : Nat := 0xe0a01018 + 0x40 * i
def FLINK_LDFE0_TAPS (i : Nat) : Fld := ⟨(FLINK_LDFE0 i), 31, 0⟩
/-- FLINK.LDFE1 (R471). -/
def FLINK_LDFE1 (i : Nat) : Nat := 0xe0a0101c + 0x40 * i
def FLINK_LDFE1_T4 (i : Nat) : Fld := ⟨(FLINK_LDFE1 i), 7, 0⟩
/-- FLINK.PCFG (R471). -/
def FLINK_PCFG (i : Nat) (j : Nat) : Nat := 0xe0a10000 + 0x800 * i + 0x40 * j
def FLINK_PCFG_EN (i : Nat) (j : Nat) : Fld := ⟨(FLINK_PCFG i j), 31, 31⟩
def FLINK_PCFG_MACREQ (i : Nat) (j : Nat) : Fld := ⟨(FLINK_PCFG i j), 30, 30⟩
def FLINK_PCFG_UNSOL (i : Nat) (j : Nat) : Fld := ⟨(FLINK_PCFG i j), 29, 29⟩
def FLINK_PCFG_SEQSYNC (i : Nat) (j : Nat) : Fld := ⟨(FLINK_PCFG i j), 28, 28⟩
def FLINK_PCFG_ADDR (i : Nat) (j : Nat) : Fld := ⟨(FLINK_PCFG i j), 25, 20⟩
def FLINK_PCFG_RXSZ (i : Nat) (j : Nat) : Fld := ⟨(FLINK_PCFG i j), 17, 16⟩
def FLINK_PCFG_KSLOT (i : Nat) (j : Nat) : Fld := ⟨(FLINK_PCFG i j), 12, 8⟩
/-- FLINK.PID (R471). -/
def FLINK_PID (i : Nat) (j : Nat) : Nat := 0xe0a10004 + 0x800 * i + 0x40 * j
def FLINK_PID_PID (i : Nat) (j : Nat) : Fld := ⟨(FLINK_PID i j), 31, 0⟩
/-- FLINK.PRXQ (R471). -/
def FLINK_PRXQ (i : Nat) (j : Nat) : Nat := 0xe0a10008 + 0x800 * i + 0x40 * j
def FLINK_PRXQ_CTX (i : Nat) (j : Nat) : Fld := ⟨(FLINK_PRXQ i j), 31, 20⟩
def FLINK_PRXQ_CLASS (i : Nat) (j : Nat) : Fld := ⟨(FLINK_PRXQ i j), 17, 14⟩
def FLINK_PRXQ_QUEUE (i : Nat) (j : Nat) : Fld := ⟨(FLINK_PRXQ i j), 13, 0⟩
/-- FLINK.PRXBASE (R471). -/
def FLINK_PRXBASE (i : Nat) (j : Nat) : Nat := 0xe0a1000c + 0x800 * i + 0x40 * j
def FLINK_PRXBASE_ADDR (i : Nat) (j : Nat) : Fld := ⟨(FLINK_PRXBASE i j), 18, 0⟩
/-- FLINK.PTXBASE (R471). -/
def FLINK_PTXBASE (i : Nat) (j : Nat) : Nat := 0xe0a10010 + 0x800 * i + 0x40 * j
def FLINK_PTXBASE_ADDR (i : Nat) (j : Nat) : Fld := ⟨(FLINK_PTXBASE i j), 18, 0⟩
/-- FLINK.PTIME (R471). -/
def FLINK_PTIME (i : Nat) (j : Nat) : Nat := 0xe0a10014 + 0x800 * i + 0x40 * j
def FLINK_PTIME_QTIME (i : Nat) (j : Nat) : Fld := ⟨(FLINK_PTIME i j), 31, 20⟩
def FLINK_PTIME_MISSN (i : Nat) (j : Nat) : Fld := ⟨(FLINK_PTIME i j), 19, 16⟩
def FLINK_PTIME_RESPTO (i : Nat) (j : Nat) : Fld := ⟨(FLINK_PTIME i j), 15, 0⟩
/-- FLINK.PLIMIT (R471). -/
def FLINK_PLIMIT (i : Nat) (j : Nat) : Nat := 0xe0a10018 + 0x800 * i + 0x40 * j
def FLINK_PLIMIT_QTHR (i : Nat) (j : Nat) : Fld := ⟨(FLINK_PLIMIT i j), 31, 24⟩
def FLINK_PLIMIT_BURST (i : Nat) (j : Nat) : Fld := ⟨(FLINK_PLIMIT i j), 23, 16⟩
def FLINK_PLIMIT_RATE (i : Nat) (j : Nat) : Fld := ⟨(FLINK_PLIMIT i j), 15, 0⟩
/-- FLINK.PSTAT (R471). -/
def FLINK_PSTAT (i : Nat) (j : Nat) : Nat := 0xe0a1001c + 0x800 * i + 0x40 * j
def FLINK_PSTAT_STATE (i : Nat) (j : Nat) : Fld := ⟨(FLINK_PSTAT i j), 31, 29⟩
def FLINK_PSTAT_RELEASE (i : Nat) (j : Nat) : Fld := ⟨(FLINK_PSTAT i j), 28, 28⟩
def FLINK_PSTAT_MISS (i : Nat) (j : Nat) : Fld := ⟨(FLINK_PSTAT i j), 19, 16⟩
def FLINK_PSTAT_MALSEC (i : Nat) (j : Nat) : Fld := ⟨(FLINK_PSTAT i j), 15, 8⟩
/-- FLINK.PRXSEQ (R471). -/
def FLINK_PRXSEQ (i : Nat) (j : Nat) : Nat := 0xe0a10020 + 0x800 * i + 0x40 * j
def FLINK_PRXSEQ_SEQ (i : Nat) (j : Nat) : Fld := ⟨(FLINK_PRXSEQ i j), 31, 0⟩
/-- FLINK.PTXSEQ (R471). -/
def FLINK_PTXSEQ (i : Nat) (j : Nat) : Nat := 0xe0a10024 + 0x800 * i + 0x40 * j
def FLINK_PTXSEQ_SEQ (i : Nat) (j : Nat) : Fld := ⟨(FLINK_PTXSEQ i j), 31, 0⟩
/-- FLINK.PCNT0 (R471). -/
def FLINK_PCNT0 (i : Nat) (j : Nat) : Nat := 0xe0a10028 + 0x800 * i + 0x40 * j
def FLINK_PCNT0_MAL (i : Nat) (j : Nat) : Fld := ⟨(FLINK_PCNT0 i j), 31, 16⟩
def FLINK_PCNT0_REPLAY (i : Nat) (j : Nat) : Fld := ⟨(FLINK_PCNT0 i j), 15, 0⟩
/-- FLINK.PCNT1 (R471). -/
def FLINK_PCNT1 (i : Nat) (j : Nat) : Nat := 0xe0a1002c + 0x800 * i + 0x40 * j
def FLINK_PCNT1_TIMEOUT (i : Nat) (j : Nat) : Fld := ⟨(FLINK_PCNT1 i j), 31, 16⟩
def FLINK_PCNT1_RATEDROP (i : Nat) (j : Nat) : Fld := ⟨(FLINK_PCNT1 i j), 15, 0⟩
/-- FLINK.PCNT2 (R471). -/
def FLINK_PCNT2 (i : Nat) (j : Nat) : Nat := 0xe0a10030 + 0x800 * i + 0x40 * j
def FLINK_PCNT2_RXOK (i : Nat) (j : Nat) : Fld := ⟨(FLINK_PCNT2 i j), 31, 16⟩
def FLINK_PCNT2_RXFULL (i : Nat) (j : Nat) : Fld := ⟨(FLINK_PCNT2 i j), 15, 0⟩
/-- FLINK.PDFE0 (R471). -/
def FLINK_PDFE0 (i : Nat) (j : Nat) : Nat := 0xe0a10034 + 0x800 * i + 0x40 * j
def FLINK_PDFE0_TAPS (i : Nat) (j : Nat) : Fld := ⟨(FLINK_PDFE0 i j), 31, 0⟩
/-- FLINK.PDFE1 (R471). -/
def FLINK_PDFE1 (i : Nat) (j : Nat) : Nat := 0xe0a10038 + 0x800 * i + 0x40 * j
def FLINK_PDFE1_SLICE (i : Nat) (j : Nat) : Fld := ⟨(FLINK_PDFE1 i j), 15, 8⟩
def FLINK_PDFE1_T4 (i : Nat) (j : Nat) : Fld := ⟨(FLINK_PDFE1 i j), 7, 0⟩

/-! ### NET (block 0x0B) -/

/-- NET.PTPCTL (R489). -/
def NET_PTPCTL : Nat := 0xe0b00100
def NET_PTPCTL_EN : Fld := ⟨NET_PTPCTL, 31, 31⟩
def NET_PTPCTL_TVALID : Fld := ⟨NET_PTPCTL, 30, 30⟩
/-- NET.PTPRATE (R489). -/
def NET_PTPRATE : Nat := 0xe0b00104
def NET_PTPRATE_RATE : Fld := ⟨NET_PTPRATE, 31, 0⟩
/-- NET.PTPT_LO (R489). -/
def NET_PTPT_LO : Nat := 0xe0b00108
def NET_PTPT_LO_NS : Fld := ⟨NET_PTPT_LO, 29, 0⟩
/-- NET.PTPT_HI (R489). -/
def NET_PTPT_HI : Nat := 0xe0b0010c
def NET_PTPT_HI_SEC : Fld := ⟨NET_PTPT_HI, 31, 0⟩
/-- NET.PTPEPOCH (R489). -/
def NET_PTPEPOCH : Nat := 0xe0b00110
def NET_PTPEPOCH_SEC : Fld := ⟨NET_PTPEPOCH, 15, 0⟩
/-- NET.PTPSTEP_LO (R489). -/
def NET_PTPSTEP_LO : Nat := 0xe0b00114
def NET_PTPSTEP_LO_STEP : Fld := ⟨NET_PTPSTEP_LO, 31, 0⟩
/-- NET.PTPSTEP_HI (R489). -/
def NET_PTPSTEP_HI : Nat := 0xe0b00118
def NET_PTPSTEP_HI_STEP : Fld := ⟨NET_PTPSTEP_HI, 31, 0⟩
/-- NET.RSEL (R489). -/
def NET_RSEL : Nat := 0xe0b00120
def NET_RSEL_RULE : Fld := ⟨NET_RSEL, 11, 0⟩
/-- NET.RULEW (R489). -/
def NET_RULEW (i : Nat) : Nat := 0xe0b00124 + 4 * i
def NET_RULEW_W (i : Nat) : Fld := ⟨(NET_RULEW i), 31, 0⟩
/-- NET.RULEW7 (ch. 18). -/
def NET_RULEW7 : Nat := 0xe0b00140
/-- NET.SASEL (R489). -/
def NET_SASEL : Nat := 0xe0b00144
def NET_SASEL_PORT : Fld := ⟨NET_SASEL, 5, 4⟩
def NET_SASEL_DIR : Fld := ⟨NET_SASEL, 3, 3⟩
def NET_SASEL_SC : Fld := ⟨NET_SASEL, 2, 1⟩
def NET_SASEL_SA : Fld := ⟨NET_SASEL, 0, 0⟩
/-- NET.SACFG (R489). -/
def NET_SACFG : Nat := 0xe0b00148
def NET_SACFG_EN : Fld := ⟨NET_SACFG, 31, 31⟩
def NET_SACFG_XPN : Fld := ⟨NET_SACFG, 30, 30⟩
def NET_SACFG_AN : Fld := ⟨NET_SACFG, 7, 6⟩
def NET_SACFG_KSLOT : Fld := ⟨NET_SACFG, 4, 0⟩
/-- NET.SASCI_LO (R489). -/
def NET_SASCI_LO : Nat := 0xe0b0014c
def NET_SASCI_LO_SCI : Fld := ⟨NET_SASCI_LO, 31, 0⟩
/-- NET.SASCI_HI (R489). -/
def NET_SASCI_HI : Nat := 0xe0b00150
def NET_SASCI_HI_SCI : Fld := ⟨NET_SASCI_HI, 31, 0⟩
/-- NET.SAPN_LO (R489). -/
def NET_SAPN_LO : Nat := 0xe0b00154
def NET_SAPN_LO_PN : Fld := ⟨NET_SAPN_LO, 31, 0⟩
/-- NET.SAPN_HI (R489). -/
def NET_SAPN_HI : Nat := 0xe0b00158
def NET_SAPN_HI_PN : Fld := ⟨NET_SAPN_HI, 31, 0⟩
/-- NET.ICMD (R489). -/
def NET_ICMD : Nat := 0xe0b0015c
def NET_ICMD_OP : Fld := ⟨NET_ICMD, 2, 0⟩
/-- NET.PCFG (R489). -/
def NET_PCFG (i : Nat) : Nat := 0xe0b01000 + 0x40 * i
def NET_PCFG_EN (i : Nat) : Fld := ⟨(NET_PCFG i), 31, 31⟩
def NET_PCFG_MODE (i : Nat) : Fld := ⟨(NET_PCFG i), 30, 29⟩
def NET_PCFG_AN (i : Nat) : Fld := ⟨(NET_PCFG i), 28, 28⟩
def NET_PCFG_SEC (i : Nat) : Fld := ⟨(NET_PCFG i), 27, 27⟩
def NET_PCFG_TXSA (i : Nat) : Fld := ⟨(NET_PCFG i), 26, 26⟩
def NET_PCFG_DEFPCP (i : Nat) : Fld := ⟨(NET_PCFG i), 14, 12⟩
def NET_PCFG_DEFVID (i : Nat) : Fld := ⟨(NET_PCFG i), 11, 0⟩
/-- NET.PSTAT (R489). -/
def NET_PSTAT (i : Nat) : Nat := 0xe0b01004 + 0x40 * i
def NET_PSTAT_LINK (i : Nat) : Fld := ⟨(NET_PSTAT i), 31, 31⟩
def NET_PSTAT_SPEED (i : Nat) : Fld := ⟨(NET_PSTAT i), 30, 29⟩
/-- NET.PTXQ (R489). -/
def NET_PTXQ (i : Nat) : Nat := 0xe0b01008 + 0x40 * i
def NET_PTXQ_QUEUE (i : Nat) : Fld := ⟨(NET_PTXQ i), 13, 0⟩
/-- NET.PSTORM (R489). -/
def NET_PSTORM (i : Nat) : Nat := 0xe0b0100c + 0x40 * i
def NET_PSTORM_BC (i : Nat) : Fld := ⟨(NET_PSTORM i), 31, 24⟩
def NET_PSTORM_MC (i : Nat) : Fld := ⟨(NET_PSTORM i), 23, 16⟩
def NET_PSTORM_RATE (i : Nat) : Fld := ⟨(NET_PSTORM i), 15, 0⟩
/-- NET.PCNT0 (R489). -/
def NET_PCNT0 (i : Nat) : Nat := 0xe0b01010 + 0x40 * i
def NET_PCNT0_RXOK (i : Nat) : Fld := ⟨(NET_PCNT0 i), 31, 0⟩
/-- NET.PCNT1 (R489). -/
def NET_PCNT1 (i : Nat) : Nat := 0xe0b01014 + 0x40 * i
def NET_PCNT1_STORMDROP (i : Nat) : Fld := ⟨(NET_PCNT1 i), 31, 16⟩
def NET_PCNT1_ERRDROP (i : Nat) : Fld := ⟨(NET_PCNT1 i), 15, 0⟩
/-- NET.PCNT2 (R489). -/
def NET_PCNT2 (i : Nat) : Nat := 0xe0b01018 + 0x40 * i
def NET_PCNT2_TXOK (i : Nat) : Fld := ⟨(NET_PCNT2 i), 31, 0⟩
/-- NET.PCNT3 (R489). -/
def NET_PCNT3 (i : Nat) : Nat := 0xe0b0101c + 0x40 * i
def NET_PCNT3_NOMATCH (i : Nat) : Fld := ⟨(NET_PCNT3 i), 31, 16⟩
def NET_PCNT3_EGRDROP (i : Nat) : Fld := ⟨(NET_PCNT3 i), 15, 0⟩
/-- NET.QBVCTL (R489). -/
def NET_QBVCTL (i : Nat) : Nat := 0xe0b01020 + 0x40 * i
def NET_QBVCTL_EN (i : Nat) : Fld := ⟨(NET_QBVCTL i), 31, 31⟩
def NET_QBVCTL_SWAP (i : Nat) : Fld := ⟨(NET_QBVCTL i), 30, 30⟩
def NET_QBVCTL_BANK (i : Nat) : Fld := ⟨(NET_QBVCTL i), 29, 29⟩
/-- NET.QBVCYC (R489). -/
def NET_QBVCYC (i : Nat) : Nat := 0xe0b01024 + 0x40 * i
def NET_QBVCYC_CYC (i : Nat) : Fld := ⟨(NET_QBVCYC i), 31, 0⟩
/-- NET.QBVBASE_LO (R489). -/
def NET_QBVBASE_LO (i : Nat) : Nat := 0xe0b01028 + 0x40 * i
def NET_QBVBASE_LO_BASE (i : Nat) : Fld := ⟨(NET_QBVBASE_LO i), 31, 0⟩
/-- NET.QBVBASE_HI (R489). -/
def NET_QBVBASE_HI (i : Nat) : Nat := 0xe0b0102c + 0x40 * i
def NET_QBVBASE_HI_BASE (i : Nat) : Fld := ⟨(NET_QBVBASE_HI i), 31, 0⟩
/-- NET.RCFG (R489). -/
def NET_RCFG (i : Nat) : Nat := 0xe0b02000 + 0x10 * i
def NET_RCFG_EN (i : Nat) : Fld := ⟨(NET_RCFG i), 31, 31⟩
def NET_RCFG_RXSZ (i : Nat) : Fld := ⟨(NET_RCFG i), 30, 27⟩
def NET_RCFG_CLASS (i : Nat) : Fld := ⟨(NET_RCFG i), 17, 14⟩
def NET_RCFG_QUEUE (i : Nat) : Fld := ⟨(NET_RCFG i), 13, 0⟩
/-- NET.RBASE (R489). -/
def NET_RBASE (i : Nat) : Nat := 0xe0b02004 + 0x10 * i
def NET_RBASE_CTX (i : Nat) : Fld := ⟨(NET_RBASE i), 31, 20⟩
def NET_RBASE_ADDR (i : Nat) : Fld := ⟨(NET_RBASE i), 15, 0⟩
/-- NET.TCFG (R489). -/
def NET_TCFG (i : Nat) : Nat := 0xe0b03000 + 0x10 * i
def NET_TCFG_EN (i : Nat) : Fld := ⟨(NET_TCFG i), 31, 31⟩
def NET_TCFG_VIDEN (i : Nat) : Fld := ⟨(NET_TCFG i), 30, 30⟩
def NET_TCFG_TC (i : Nat) : Fld := ⟨(NET_TCFG i), 29, 27⟩
def NET_TCFG_PORTS (i : Nat) : Fld := ⟨(NET_TCFG i), 26, 23⟩
def NET_TCFG_VID (i : Nat) : Fld := ⟨(NET_TCFG i), 11, 0⟩
/-- NET.TBASE (R489). -/
def NET_TBASE (i : Nat) : Nat := 0xe0b03004 + 0x10 * i
def NET_TBASE_CTX (i : Nat) : Fld := ⟨(NET_TBASE i), 31, 20⟩
def NET_TBASE_ADDR (i : Nat) : Fld := ⟨(NET_TBASE i), 15, 0⟩
/-- NET.TNOTE (R489). -/
def NET_TNOTE (i : Nat) : Nat := 0xe0b03008 + 0x10 * i
def NET_TNOTE_CLASS (i : Nat) : Fld := ⟨(NET_TNOTE i), 17, 14⟩
def NET_TNOTE_QUEUE (i : Nat) : Fld := ⟨(NET_TNOTE i), 13, 0⟩
/-- NET.GATE (R489). -/
def NET_GATE (i : Nat) (j : Nat) (k : Nat) : Nat := 0xe0b08000 + 0x200 * i + 0x100 * j + 4 * k
def NET_GATE_GATES (i : Nat) (j : Nat) (k : Nat) : Fld := ⟨(NET_GATE i j k), 31, 24⟩
def NET_GATE_INTERVAL (i : Nat) (j : Nat) (k : Nat) : Fld := ⟨(NET_GATE i j k), 23, 0⟩

/-! ### SER (block 0x0C) -/

/-- SER.UCFG (R489). -/
def SER_UCFG (i : Nat) : Nat := 0xe0c01000 + 0x40 * i
def SER_UCFG_EN (i : Nat) : Fld := ⟨(SER_UCFG i), 31, 31⟩
def SER_UCFG_PARITY (i : Nat) : Fld := ⟨(SER_UCFG i), 30, 29⟩
def SER_UCFG_STOP2 (i : Nat) : Fld := ⟨(SER_UCFG i), 28, 28⟩
def SER_UCFG_DATA7 (i : Nat) : Fld := ⟨(SER_UCFG i), 27, 27⟩
def SER_UCFG_RS485 (i : Nat) : Fld := ⟨(SER_UCFG i), 26, 26⟩
def SER_UCFG_ECHO (i : Nat) : Fld := ⟨(SER_UCFG i), 25, 25⟩
def SER_UCFG_AGATE (i : Nat) : Fld := ⟨(SER_UCFG i), 24, 24⟩
def SER_UCFG_DIV (i : Nat) : Fld := ⟨(SER_UCFG i), 23, 0⟩
/-- SER.UGAP (R489). -/
def SER_UGAP (i : Nat) : Nat := 0xe0c01004 + 0x40 * i
def SER_UGAP_DEPRE (i : Nat) : Fld := ⟨(SER_UGAP i), 31, 24⟩
def SER_UGAP_DEPOST (i : Nat) : Fld := ⟨(SER_UGAP i), 23, 16⟩
def SER_UGAP_GAP (i : Nat) : Fld := ⟨(SER_UGAP i), 15, 0⟩
/-- SER.URXQ (R489). -/
def SER_URXQ (i : Nat) : Nat := 0xe0c01008 + 0x40 * i
def SER_URXQ_CTX (i : Nat) : Fld := ⟨(SER_URXQ i), 31, 20⟩
def SER_URXQ_CLASS (i : Nat) : Fld := ⟨(SER_URXQ i), 17, 14⟩
def SER_URXQ_QUEUE (i : Nat) : Fld := ⟨(SER_URXQ i), 13, 0⟩
/-- SER.URXBASE (ch. 18). -/
def SER_URXBASE (i : Nat) : Nat := 0xe0c0100c + 0x40 * i
def SER_URXBASE_RXSZ (i : Nat) : Fld := ⟨(SER_URXBASE i), 31, 30⟩
def SER_URXBASE_ADDR (i : Nat) : Fld := ⟨(SER_URXBASE i), 18, 0⟩
/-- SER.UTXBASE (ch. 18). -/
def SER_UTXBASE (i : Nat) : Nat := 0xe0c01010 + 0x40 * i
def SER_UTXBASE_ADDR (i : Nat) : Fld := ⟨(SER_UTXBASE i), 18, 0⟩
/-- SER.UTXQ (R489). -/
def SER_UTXQ (i : Nat) : Nat := 0xe0c01014 + 0x40 * i
def SER_UTXQ_QUEUE (i : Nat) : Fld := ⟨(SER_UTXQ i), 13, 0⟩
/-- SER.UCNT0 (R489). -/
def SER_UCNT0 (i : Nat) : Nat := 0xe0c01018 + 0x40 * i
def SER_UCNT0_FRAMERR (i : Nat) : Fld := ⟨(SER_UCNT0 i), 31, 16⟩
def SER_UCNT0_RXFULL (i : Nat) : Fld := ⟨(SER_UCNT0 i), 15, 0⟩
/-- SER.UCNT1 (R489). -/
def SER_UCNT1 (i : Nat) : Nat := 0xe0c0101c + 0x40 * i
def SER_UCNT1_RXOK (i : Nat) : Fld := ⟨(SER_UCNT1 i), 31, 16⟩
def SER_UCNT1_BADREQ (i : Nat) : Fld := ⟨(SER_UCNT1 i), 15, 0⟩

/-! ### TWIN (block 0x0D) -/

/-- TWIN.TWCFG (R521). -/
def TWIN_TWCFG : Nat := 0xe0d00100
def TWIN_TWCFG_AUTOTAKE : Fld := ⟨TWIN_TWCFG, 31, 31⟩
def TWIN_TWCFG_PEERCMD : Fld := ⟨TWIN_TWCFG, 30, 30⟩
def TWIN_TWCFG_SPLITFENCE : Fld := ⟨TWIN_TWCFG, 29, 29⟩
def TWIN_TWCFG_PRIO : Fld := ⟨TWIN_TWCFG, 28, 28⟩
def TWIN_TWCFG_ALERTEN : Fld := ⟨TWIN_TWCFG, 26, 21⟩
def TWIN_TWCFG_KSLOT : Fld := ⟨TWIN_TWCFG, 20, 16⟩
def TWIN_TWCFG_ALERTCORES : Fld := ⟨TWIN_TWCFG, 15, 0⟩
/-- TWIN.ROLECMD (R521). -/
def TWIN_ROLECMD : Nat := 0xe0d00104
def TWIN_ROLECMD_TAG : Fld := ⟨TWIN_ROLECMD, 15, 8⟩
def TWIN_ROLECMD_OP : Fld := ⟨TWIN_ROLECMD, 3, 0⟩
/-- TWIN.ROLE (R521). -/
def TWIN_ROLE : Nat := 0xe0d00108
def TWIN_ROLE_REASON : Fld := ⟨TWIN_ROLE, 15, 12⟩
def TWIN_ROLE_READY : Fld := ⟨TWIN_ROLE, 11, 11⟩
def TWIN_ROLE_SPLIT : Fld := ⟨TWIN_ROLE, 10, 10⟩
def TWIN_ROLE_LINE : Fld := ⟨TWIN_ROLE, 9, 9⟩
def TWIN_ROLE_PEERVALID : Fld := ⟨TWIN_ROLE, 8, 8⟩
def TWIN_ROLE_PEERROLE : Fld := ⟨TWIN_ROLE, 6, 4⟩
def TWIN_ROLE_ROLE : Fld := ⟨TWIN_ROLE, 2, 0⟩
/-- TWIN.LINKSTAT (R521). -/
def TWIN_LINKSTAT : Nat := 0xe0d0010c
def TWIN_LINKSTAT_UP : Fld := ⟨TWIN_LINKSTAT, 31, 31⟩
def TWIN_LINKSTAT_LANES : Fld := ⟨TWIN_LINKSTAT, 19, 16⟩
def TWIN_LINKSTAT_LATENCY : Fld := ⟨TWIN_LINKSTAT, 15, 0⟩
/-- TWIN.CKREQ (R521). -/
def TWIN_CKREQ : Nat := 0xe0d00110
def TWIN_CKREQ_BUSY : Fld := ⟨TWIN_CKREQ, 31, 31⟩
def TWIN_CKREQ_TAG : Fld := ⟨TWIN_CKREQ, 7, 0⟩
/-- TWIN.CKLAST (R521). -/
def TWIN_CKLAST : Nat := 0xe0d00114
def TWIN_CKLAST_APPLIED : Fld := ⟨TWIN_CKLAST, 23, 16⟩
def TWIN_CKLAST_DISCARDED : Fld := ⟨TWIN_CKLAST, 15, 8⟩
def TWIN_CKLAST_SENT : Fld := ⟨TWIN_CKLAST, 7, 0⟩
/-- TWIN.RFENCE (R521). -/
def TWIN_RFENCE : Nat := 0xe0d00118
def TWIN_RFENCE_FENCE : Fld := ⟨TWIN_RFENCE, 0, 0⟩
/-- TWIN.RECPUSH (R521). -/
def TWIN_RECPUSH : Nat := 0xe0d0011c
def TWIN_RECPUSH_BUSY : Fld := ⟨TWIN_RECPUSH, 31, 31⟩
def TWIN_RECPUSH_STATUS : Fld := ⟨TWIN_RECPUSH, 19, 16⟩
def TWIN_RECPUSH_CTX : Fld := ⟨TWIN_RECPUSH, 11, 0⟩
/-- TWIN.SYNCADDR_LO (R521). -/
def TWIN_SYNCADDR_LO : Nat := 0xe0d00120
def TWIN_SYNCADDR_LO_ADDR : Fld := ⟨TWIN_SYNCADDR_LO, 31, 4⟩
/-- TWIN.SYNCADDR_HI (R521). -/
def TWIN_SYNCADDR_HI : Nat := 0xe0d00124
def TWIN_SYNCADDR_HI_ADDR : Fld := ⟨TWIN_SYNCADDR_HI, 7, 0⟩
/-- TWIN.SYNCLEN (R521). -/
def TWIN_SYNCLEN : Nat := 0xe0d00128
def TWIN_SYNCLEN_WORDS : Fld := ⟨TWIN_SYNCLEN, 22, 0⟩
/-- TWIN.SYNCCMD (R521). -/
def TWIN_SYNCCMD : Nat := 0xe0d0012c
def TWIN_SYNCCMD_BUSY : Fld := ⟨TWIN_SYNCCMD, 31, 31⟩
def TWIN_SYNCCMD_STATUS : Fld := ⟨TWIN_SYNCCMD, 19, 16⟩
def TWIN_SYNCCMD_START : Fld := ⟨TWIN_SYNCCMD, 0, 0⟩
/-- TWIN.TKDOM (ch. 19). -/
def TWIN_TKDOM (i : Nat) : Nat := 0xe0d00130 + 4 * i
def TWIN_TKDOM_DOM7 (i : Nat) : Fld := ⟨(TWIN_TKDOM i), 30, 28⟩
def TWIN_TKDOM_DOM6 (i : Nat) : Fld := ⟨(TWIN_TKDOM i), 26, 24⟩
def TWIN_TKDOM_DOM5 (i : Nat) : Fld := ⟨(TWIN_TKDOM i), 22, 20⟩
def TWIN_TKDOM_DOM4 (i : Nat) : Fld := ⟨(TWIN_TKDOM i), 18, 16⟩
def TWIN_TKDOM_DOM3 (i : Nat) : Fld := ⟨(TWIN_TKDOM i), 14, 12⟩
def TWIN_TKDOM_DOM2 (i : Nat) : Fld := ⟨(TWIN_TKDOM i), 10, 8⟩
def TWIN_TKDOM_DOM1 (i : Nat) : Fld := ⟨(TWIN_TKDOM i), 6, 4⟩
def TWIN_TKDOM_DOM0 (i : Nat) : Fld := ⟨(TWIN_TKDOM i), 2, 0⟩
/-- TWIN.AXMODE (ch. 19). -/
def TWIN_AXMODE : Nat := 0xe0d00138
/-- TWIN.BACKLOG (R521). -/
def TWIN_BACKLOG : Nat := 0xe0d0013c
def TWIN_BACKLOG_BYTES : Fld := ⟨TWIN_BACKLOG, 18, 0⟩
/-- TWIN.TXFR_CNT (R521). -/
def TWIN_TXFR_CNT : Nat := 0xe0d00140
def TWIN_TXFR_CNT_CNT : Fld := ⟨TWIN_TXFR_CNT, 31, 0⟩
/-- TWIN.RXFR_CNT (R521). -/
def TWIN_RXFR_CNT : Nat := 0xe0d00144
def TWIN_RXFR_CNT_CNT : Fld := ⟨TWIN_RXFR_CNT, 31, 0⟩
/-- TWIN.AUTHERR_CNT (R521). -/
def TWIN_AUTHERR_CNT : Nat := 0xe0d00148
def TWIN_AUTHERR_CNT_CNT : Fld := ⟨TWIN_AUTHERR_CNT, 31, 0⟩
/-- TWIN.NAK_CNT (R521). -/
def TWIN_NAK_CNT : Nat := 0xe0d0014c
def TWIN_NAK_CNT_CNT : Fld := ⟨TWIN_NAK_CNT, 31, 0⟩
/-- TWIN.QSYNC (R521). -/
def TWIN_QSYNC : Nat := 0xe0d00150
def TWIN_QSYNC_BUSY : Fld := ⟨TWIN_QSYNC, 31, 31⟩
def TWIN_QSYNC_STATUS : Fld := ⟨TWIN_QSYNC, 19, 16⟩
def TWIN_QSYNC_QUEUE : Fld := ⟨TWIN_QSYNC, 13, 0⟩
/-- TWIN.CKSETA (R521). -/
def TWIN_CKSETA (i : Nat) : Nat := 0xe0d00400 + 8 * i
def TWIN_CKSETA_MCNT (i : Nat) : Fld := ⟨(TWIN_CKSETA i), 23, 12⟩
def TWIN_CKSETA_MFIRST (i : Nat) : Fld := ⟨(TWIN_CKSETA i), 11, 0⟩
/-- TWIN.CKSETB (R521). -/
def TWIN_CKSETB (i : Nat) : Nat := 0xe0d00404 + 8 * i
def TWIN_CKSETB_CCNT (i : Nat) : Fld := ⟨(TWIN_CKSETB i), 18, 9⟩
def TWIN_CKSETB_CFIRST (i : Nat) : Fld := ⟨(TWIN_CKSETB i), 8, 0⟩
/-- TWIN.TWCTXMAP (R521). -/
def TWIN_TWCTXMAP (i : Nat) : Nat := 0xe0d01000 + 4 * i
def TWIN_TWCTXMAP_MAP (i : Nat) : Fld := ⟨(TWIN_TWCTXMAP i), 31, 0⟩

/-! ### PWR (block 0x0E) -/

/-- PWR.REGCFG (R538). -/
def PWR_REGCFG : Nat := 0xe0e00100
def PWR_REGCFG_MODE : Fld := ⟨PWR_REGCFG, 31, 30⟩
def PWR_REGCFG_RAIL : Fld := ⟨PWR_REGCFG, 27, 24⟩
def PWR_REGCFG_ADDR : Fld := ⟨PWR_REGCFG, 22, 16⟩
def PWR_REGCFG_VSETTLE : Fld := ⟨PWR_REGCFG, 15, 0⟩
/-- PWR.REGSTAT (R538). -/
def PWR_REGSTAT : Nat := 0xe0e00104
def PWR_REGSTAT_FAULT : Fld := ⟨PWR_REGSTAT, 31, 31⟩
def PWR_REGSTAT_STATUS : Fld := ⟨PWR_REGSTAT, 15, 0⟩
/-- PWR.REGMEAS (R538). -/
def PWR_REGMEAS : Nat := 0xe0e00108
def PWR_REGMEAS_IOUT : Fld := ⟨PWR_REGMEAS, 31, 16⟩
def PWR_REGMEAS_VOUT : Fld := ⟨PWR_REGMEAS, 9, 0⟩
/-- PWR.VTARGET (R538). -/
def PWR_VTARGET : Nat := 0xe0e0010c
def PWR_VTARGET_VMAX : Fld := ⟨PWR_VTARGET, 25, 16⟩
def PWR_VTARGET_TARGET : Fld := ⟨PWR_VTARGET, 9, 0⟩
/-- PWR.AVSCTL (R538). -/
def PWR_AVSCTL : Nat := 0xe0e00110
def PWR_AVSCTL_EN : Fld := ⟨PWR_AVSCTL, 31, 31⟩
def PWR_AVSCTL_AVSCAP : Fld := ⟨PWR_AVSCTL, 30, 28⟩
def PWR_AVSCTL_VMIN : Fld := ⟨PWR_AVSCTL, 25, 16⟩
def PWR_AVSCTL_MARGIN : Fld := ⟨PWR_AVSCTL, 13, 8⟩
def PWR_AVSCTL_AVSINT : Fld := ⟨PWR_AVSCTL, 7, 0⟩
/-- PWR.DROOPCFG (R538). -/
def PWR_DROOPCFG : Nat := 0xe0e00114
def PWR_DROOPCFG_THR2 : Fld := ⟨PWR_DROOPCFG, 31, 24⟩
def PWR_DROOPCFG_THR1 : Fld := ⟨PWR_DROOPCFG, 23, 16⟩
def PWR_DROOPCFG_HOLD : Fld := ⟨PWR_DROOPCFG, 15, 0⟩
/-- PWR.DROOP_CNT (R538). -/
def PWR_DROOP_CNT : Nat := 0xe0e00118
def PWR_DROOP_CNT_L2 : Fld := ⟨PWR_DROOP_CNT, 31, 16⟩
def PWR_DROOP_CNT_L1 : Fld := ⟨PWR_DROOP_CNT, 15, 0⟩
/-- PWR.THERMCFG (R538). -/
def PWR_THERMCFG : Nat := 0xe0e0011c
def PWR_THERMCFG_TCRIT : Fld := ⟨PWR_THERMCFG, 31, 24⟩
def PWR_THERMCFG_TTHR : Fld := ⟨PWR_THERMCFG, 23, 16⟩
def PWR_THERMCFG_HYST : Fld := ⟨PWR_THERMCFG, 15, 8⟩
def PWR_THERMCFG_TFLOOR : Fld := ⟨PWR_THERMCFG, 2, 0⟩
/-- PWR.THERMSTAT (R538). -/
def PWR_THERMSTAT : Nat := 0xe0e00120
def PWR_THERMSTAT_CAP : Fld := ⟨PWR_THERMSTAT, 31, 29⟩
def PWR_THERMSTAT_CRIT : Fld := ⟨PWR_THERMSTAT, 28, 28⟩
def PWR_THERMSTAT_HOT : Fld := ⟨PWR_THERMSTAT, 27, 24⟩
def PWR_THERMSTAT_TMAX : Fld := ⟨PWR_THERMSTAT, 11, 0⟩
/-- PWR.CLKSTAT (R538). -/
def PWR_CLKSTAT : Nat := 0xe0e00124
def PWR_CLKSTAT_REFOK : Fld := ⟨PWR_CLKSTAT, 31, 31⟩
def PWR_CLKSTAT_LOCK : Fld := ⟨PWR_CLKSTAT, 30, 30⟩
/-- PWR.OPVLO (ch. 20). -/
def PWR_OPVLO : Nat := 0xe0e00128
/-- PWR.OPVHI (ch. 20). -/
def PWR_OPVHI : Nat := 0xe0e0012c
/-- PWR.COREOP (R538). -/
def PWR_COREOP (i : Nat) : Nat := 0xe0e00200 + 4 * i
def PWR_COREOP_BUSY (i : Nat) : Fld := ⟨(PWR_COREOP i), 31, 31⟩
def PWR_COREOP_EV (i : Nat) : Fld := ⟨(PWR_COREOP i), 30, 30⟩
def PWR_COREOP_CUR (i : Nat) : Fld := ⟨(PWR_COREOP i), 18, 16⟩
def PWR_COREOP_REQ (i : Nat) : Fld := ⟨(PWR_COREOP i), 2, 0⟩
/-- PWR.TSENS (R538). -/
def PWR_TSENS (i : Nat) : Nat := 0xe0e00300 + 4 * i
def PWR_TSENS_VALID (i : Nat) : Fld := ⟨(PWR_TSENS i), 31, 31⟩
def PWR_TSENS_TEMP (i : Nat) : Fld := ⟨(PWR_TSENS i), 11, 0⟩

/-! ### TEST (block 0x0F) -/

/-- TEST.TESTCFG (R576). -/
def TEST_TESTCFG : Nat := 0xe0f00100
def TEST_TESTCFG_TESTINT : Fld := ⟨TEST_TESTCFG, 31, 16⟩
def TEST_TESTCFG_AUTOBURN : Fld := ⟨TEST_TESTCFG, 2, 2⟩
def TEST_TESTCFG_AUTOREP : Fld := ⟨TEST_TESTCFG, 1, 1⟩
def TEST_TESTCFG_BGEN : Fld := ⟨TEST_TESTCFG, 0, 0⟩
/-- TEST.URGENT (R576). -/
def TEST_URGENT : Nat := 0xe0f00104
def TEST_URGENT_BANKS : Fld := ⟨TEST_URGENT, 15, 0⟩
/-- TEST.TESTCMD (R576). -/
def TEST_TESTCMD : Nat := 0xe0f00108
def TEST_TESTCMD_OP : Fld := ⟨TEST_TESTCMD, 31, 28⟩
def TEST_TESTCMD_ARG : Fld := ⟨TEST_TESTCMD, 3, 0⟩
/-- TEST.TESTSTAT (R576). -/
def TEST_TESTSTAT : Nat := 0xe0f0010c
def TEST_TESTSTAT_BUSY : Fld := ⟨TEST_TESTSTAT, 31, 31⟩
def TEST_TESTSTAT_PHASE : Fld := ⟨TEST_TESTSTAT, 30, 28⟩
def TEST_TESTSTAT_BANK : Fld := ⟨TEST_TESTSTAT, 27, 24⟩
def TEST_TESTSTAT_TILE : Fld := ⟨TEST_TESTSTAT, 22, 20⟩
def TEST_TESTSTAT_CMDSTAT : Fld := ⟨TEST_TESTSTAT, 19, 16⟩
def TEST_TESTSTAT_LBCORE : Fld := ⟨TEST_TESTSTAT, 15, 12⟩
def TEST_TESTSTAT_LBPASS : Fld := ⟨TEST_TESTSTAT, 11, 11⟩
/-- TEST.SCRUBCFG (R576). -/
def TEST_SCRUBCFG : Nat := 0xe0f00110
def TEST_SCRUBCFG_EN : Fld := ⟨TEST_SCRUBCFG, 31, 31⟩
def TEST_SCRUBCFG_CSEN : Fld := ⟨TEST_SCRUBCFG, 30, 30⟩
def TEST_SCRUBCFG_INT : Fld := ⟨TEST_SCRUBCFG, 15, 0⟩
/-- TEST.SCRUBSTAT (R576). -/
def TEST_SCRUBSTAT : Nat := 0xe0f00114
def TEST_SCRUBSTAT_PASSES : Fld := ⟨TEST_SCRUBSTAT, 31, 16⟩
def TEST_SCRUBSTAT_UECNT : Fld := ⟨TEST_SCRUBSTAT, 15, 0⟩
/-- TEST.SCRUBUE_LO (R576). -/
def TEST_SCRUBUE_LO : Nat := 0xe0f00118
def TEST_SCRUBUE_LO_ADDR : Fld := ⟨TEST_SCRUBUE_LO, 31, 4⟩
/-- TEST.SCRUBUE_HI (R576). -/
def TEST_SCRUBUE_HI : Nat := 0xe0f0011c
def TEST_SCRUBUE_HI_CS : Fld := ⟨TEST_SCRUBUE_HI, 8, 8⟩
def TEST_SCRUBUE_HI_ADDR : Fld := ⟨TEST_SCRUBUE_HI, 7, 0⟩
/-- TEST.SPAREBAD (R576). -/
def TEST_SPAREBAD : Nat := 0xe0f00120
def TEST_SPAREBAD_BANKS : Fld := ⟨TEST_SPAREBAD, 15, 0⟩
/-- TEST.REPAIR (R576). -/
def TEST_REPAIR (i : Nat) : Nat := 0xe0f00200 + 4 * i
def TEST_REPAIR_VALID (i : Nat) : Fld := ⟨(TEST_REPAIR i), 7, 7⟩
def TEST_REPAIR_FUSED (i : Nat) : Fld := ⟨(TEST_REPAIR i), 6, 6⟩
def TEST_REPAIR_TILE (i : Nat) : Fld := ⟨(TEST_REPAIR i), 2, 0⟩

/-! ### BOOT (block 0x10) -/

/-- BOOT.UNITMAP (R123). -/
def BOOT_UNITMAP : Nat := 0xe1000100
def BOOT_UNITMAP_PRESENT : Fld := ⟨BOOT_UNITMAP, 19, 0⟩
/-- BOOT.FABERR_ADDR_LO (R123). -/
def BOOT_FABERR_ADDR_LO : Nat := 0xe1000104
def BOOT_FABERR_ADDR_LO_ADDR : Fld := ⟨BOOT_FABERR_ADDR_LO, 31, 0⟩
/-- BOOT.FABERR_ADDR_HI (R123). -/
def BOOT_FABERR_ADDR_HI : Nat := 0xe1000108
def BOOT_FABERR_ADDR_HI_ADDR : Fld := ⟨BOOT_FABERR_ADDR_HI, 7, 0⟩
/-- BOOT.FABERR_SRC (R123). -/
def BOOT_FABERR_SRC : Nat := 0xe100010c
def BOOT_FABERR_SRC_KIND : Fld := ⟨BOOT_FABERR_SRC, 27, 24⟩
def BOOT_FABERR_SRC_BLKID : Fld := ⟨BOOT_FABERR_SRC, 23, 16⟩
def BOOT_FABERR_SRC_NOCTX : Fld := ⟨BOOT_FABERR_SRC, 13, 13⟩
def BOOT_FABERR_SRC_CTX : Fld := ⟨BOOT_FABERR_SRC, 11, 0⟩
/-- BOOT.FABERR_CNT (R123). -/
def BOOT_FABERR_CNT : Nat := 0xe1000110
def BOOT_FABERR_CNT_CNT : Fld := ⟨BOOT_FABERR_CNT, 31, 0⟩
/-- BOOT.BOOTSTAT (R556). -/
def BOOT_BOOTSTAT : Nat := 0xe1000114
def BOOT_BOOTSTAT_DONE : Fld := ⟨BOOT_BOOTSTAT, 31, 31⟩
def BOOT_BOOTSTAT_SLOT : Fld := ⟨BOOT_BOOTSTAT, 29, 28⟩
def BOOT_BOOTSTAT_CODE : Fld := ⟨BOOT_BOOTSTAT, 23, 16⟩
def BOOT_BOOTSTAT_ROLL : Fld := ⟨BOOT_BOOTSTAT, 15, 0⟩
/-- BOOT.FLSIZE (R556). -/
def BOOT_FLSIZE : Nat := 0xe1000118
def BOOT_FLSIZE_LOG2 : Fld := ⟨BOOT_FLSIZE, 4, 0⟩
/-- BOOT.FLCFG (R556). -/
def BOOT_FLCFG : Nat := 0xe100011c
def BOOT_FLCFG_MODE : Fld := ⟨BOOT_FLCFG, 31, 30⟩
def BOOT_FLCFG_DIV : Fld := ⟨BOOT_FLCFG, 7, 0⟩
/-- BOOT.FLCMD (R556). -/
def BOOT_FLCMD : Nat := 0xe1000120
def BOOT_FLCMD_START : Fld := ⟨BOOT_FLCMD, 31, 31⟩
def BOOT_FLCMD_WRITE : Fld := ⟨BOOT_FLCMD, 30, 30⟩
def BOOT_FLCMD_ADDRN : Fld := ⟨BOOT_FLCMD, 29, 28⟩
def BOOT_FLCMD_LEN : Fld := ⟨BOOT_FLCMD, 24, 16⟩
def BOOT_FLCMD_DUMMY : Fld := ⟨BOOT_FLCMD, 15, 8⟩
def BOOT_FLCMD_OP : Fld := ⟨BOOT_FLCMD, 7, 0⟩
/-- BOOT.FLADDR (R556). -/
def BOOT_FLADDR : Nat := 0xe1000124
def BOOT_FLADDR_ADDR : Fld := ⟨BOOT_FLADDR, 31, 0⟩
/-- BOOT.FLBUF_LO (R450). -/
def BOOT_FLBUF_LO : Nat := 0xe1000128
def BOOT_FLBUF_LO_ADDR : Fld := ⟨BOOT_FLBUF_LO, 31, 4⟩
/-- BOOT.FLBUF_HI (R450). -/
def BOOT_FLBUF_HI : Nat := 0xe100012c
def BOOT_FLBUF_HI_ADDR : Fld := ⟨BOOT_FLBUF_HI, 7, 0⟩
/-- BOOT.FLSTAT (R556). -/
def BOOT_FLSTAT : Nat := 0xe1000130
def BOOT_FLSTAT_STATUS : Fld := ⟨BOOT_FLSTAT, 3, 0⟩
/-- BOOT.BMRCTL (R556). -/
def BOOT_BMRCTL : Nat := 0xe1000134
def BOOT_BMRCTL_EXT : Fld := ⟨BOOT_BMRCTL, 31, 31⟩
def BOOT_BMRCTL_IDX : Fld := ⟨BOOT_BMRCTL, 1, 0⟩
/-- BOOT.EXTADDR_LO (R450). -/
def BOOT_EXTADDR_LO : Nat := 0xe1000138
def BOOT_EXTADDR_LO_ADDR : Fld := ⟨BOOT_EXTADDR_LO, 31, 4⟩
/-- BOOT.EXTADDR_HI (R450). -/
def BOOT_EXTADDR_HI : Nat := 0xe100013c
def BOOT_EXTADDR_HI_ADDR : Fld := ⟨BOOT_EXTADDR_HI, 7, 0⟩
/-- BOOT.BMRDATA (R556). -/
def BOOT_BMRDATA (i : Nat) : Nat := 0xe1000140 + 4 * i
def BOOT_BMRDATA_DATA (i : Nat) : Fld := ⟨(BOOT_BMRDATA i), 31, 0⟩
/-- BOOT.ROLLMIN (R556). -/
def BOOT_ROLLMIN : Nat := 0xe1000170
def BOOT_ROLLMIN_MIN : Fld := ⟨BOOT_ROLLMIN, 15, 0⟩

/-! ### KEY (block 0x11) -/

/-- KEY.KDESC_LO (ch. 21). -/
def KEY_KDESC_LO : Nat := 0xe1100100
def KEY_KDESC_LO_ADDR : Fld := ⟨KEY_KDESC_LO, 31, 6⟩
/-- KEY.KDESC_HI (R450). -/
def KEY_KDESC_HI : Nat := 0xe1100104
def KEY_KDESC_HI_ADDR : Fld := ⟨KEY_KDESC_HI, 7, 0⟩
/-- KEY.KCMD (R556). -/
def KEY_KCMD : Nat := 0xe1100108
def KEY_KCMD_START : Fld := ⟨KEY_KCMD, 31, 31⟩
def KEY_KCMD_STATUS : Fld := ⟨KEY_KCMD, 7, 4⟩
/-- KEY.TRNG (R556). -/
def KEY_TRNG : Nat := 0xe110010c
def KEY_TRNG_RND : Fld := ⟨KEY_TRNG, 31, 0⟩
/-- KEY.TRNGSTAT (R556). -/
def KEY_TRNGSTAT : Nat := 0xe1100110
def KEY_TRNGSTAT_OK : Fld := ⟨KEY_TRNGSTAT, 31, 31⟩
def KEY_TRNGSTAT_FAILN : Fld := ⟨KEY_TRNGSTAT, 15, 0⟩
/-- KEY.DUCHAL (R556). -/
def KEY_DUCHAL (i : Nat) : Nat := 0xe1100120 + 4 * i
def KEY_DUCHAL_CHAL (i : Nat) : Fld := ⟨(KEY_DUCHAL i), 31, 0⟩
/-- KEY.DUCTL (R556). -/
def KEY_DUCTL : Nat := 0xe1100130
def KEY_DUCTL_START : Fld := ⟨KEY_DUCTL, 31, 31⟩
def KEY_DUCTL_TRIES : Fld := ⟨KEY_DUCTL, 5, 4⟩
def KEY_DUCTL_REQ : Fld := ⟨KEY_DUCTL, 3, 2⟩
def KEY_DUCTL_LEVEL : Fld := ⟨KEY_DUCTL, 1, 0⟩
/-- KEY.DURESP (R556). -/
def KEY_DURESP (i : Nat) : Nat := 0xe1100140 + 4 * i
def KEY_DURESP_DATA (i : Nat) : Fld := ⟨(KEY_DURESP i), 31, 0⟩
/-- KEY.SLOTATTR (R556). -/
def KEY_SLOTATTR (i : Nat) : Nat := 0xe1100200 + 4 * i
def KEY_SLOTATTR_VALID (i : Nat) : Fld := ⟨(KEY_SLOTATTR i), 31, 31⟩
def KEY_SLOTATTR_LOCK (i : Nat) : Fld := ⟨(KEY_SLOTATTR i), 30, 30⟩
def KEY_SLOTATTR_L256 (i : Nat) : Fld := ⟨(KEY_SLOTATTR i), 29, 29⟩
def KEY_SLOTATTR_USE (i : Nat) : Fld := ⟨(KEY_SLOTATTR i), 4, 0⟩

/-! ### WDR (block 0x12) -/

/-- WDR.RSTCAUSE (R556). -/
def WDR_RSTCAUSE : Nat := 0xe1200100
def WDR_RSTCAUSE_SRC : Fld := ⟨WDR_RSTCAUSE, 5, 0⟩
/-- WDR.SWRST (R556). -/
def WDR_SWRST : Nat := 0xe1200104
def WDR_SWRST_KEY : Fld := ⟨WDR_SWRST, 31, 16⟩
def WDR_SWRST_CHIP : Fld := ⟨WDR_SWRST, 4, 4⟩
def WDR_SWRST_CORE : Fld := ⟨WDR_SWRST, 3, 0⟩
/-- WDR.CWDCTL (R556). -/
def WDR_CWDCTL : Nat := 0xe1200108
def WDR_CWDCTL_EN : Fld := ⟨WDR_CWDCTL, 31, 31⟩
def WDR_CWDCTL_PERIOD : Fld := ⟨WDR_CWDCTL, 15, 0⟩
/-- WDR.CWDKICK (R556). -/
def WDR_CWDKICK : Nat := 0xe120010c
def WDR_CWDKICK_KEY : Fld := ⟨WDR_CWDKICK, 31, 0⟩
/-- WDR.CWDCNT (R556). -/
def WDR_CWDCNT : Nat := 0xe1200110
def WDR_CWDCNT_LEFT : Fld := ⟨WDR_CWDCNT, 15, 0⟩
/-- WDR.TFREC (R556). -/
def WDR_TFREC : Nat := 0xe1200114
def WDR_TFREC_NEWCAUSE : Fld := ⟨WDR_TFREC, 31, 24⟩
def WDR_TFREC_DFCODE : Fld := ⟨WDR_TFREC, 23, 16⟩
def WDR_TFREC_CORE : Fld := ⟨WDR_TFREC, 15, 12⟩
def WDR_TFREC_CTX : Fld := ⟨WDR_TFREC, 11, 0⟩
/-- WDR.TFCNT (R556). -/
def WDR_TFCNT : Nat := 0xe1200118
def WDR_TFCNT_CRN : Fld := ⟨WDR_TFCNT, 31, 16⟩
def WDR_TFCNT_TFN : Fld := ⟨WDR_TFCNT, 15, 0⟩
/-- WDR.CORWD (R556). -/
def WDR_CORWD (i : Nat) : Nat := 0xe1200200 + 4 * i
def WDR_CORWD_EN (i : Nat) : Fld := ⟨(WDR_CORWD i), 31, 31⟩
def WDR_CORWD_IELIM (i : Nat) : Fld := ⟨(WDR_CORWD i), 27, 16⟩
def WDR_CORWD_PERIOD (i : Nat) : Fld := ⟨(WDR_CORWD i), 15, 0⟩
/-- WDR.CORKICK (R556). -/
def WDR_CORKICK (i : Nat) : Nat := 0xe1200240 + 4 * i
def WDR_CORKICK_KEY (i : Nat) : Fld := ⟨(WDR_CORKICK i), 31, 0⟩

/-! ### DBG (block 0x13) -/

/-- DBG.DBGSTAT (R576). -/
def DBG_DBGSTAT : Nat := 0xe1300100
def DBG_DBGSTAT_LEVEL : Fld := ⟨DBG_DBGSTAT, 17, 16⟩
def DBG_DBGSTAT_HALTED : Fld := ⟨DBG_DBGSTAT, 15, 0⟩
/-- DBG.HALTCTL (R576). -/
def DBG_HALTCTL : Nat := 0xe1300104
def DBG_HALTCTL_OP : Fld := ⟨DBG_HALTCTL, 31, 30⟩
def DBG_HALTCTL_CORES : Fld := ⟨DBG_HALTCTL, 15, 0⟩
/-- DBG.DHSEL (R576). -/
def DBG_DHSEL : Nat := 0xe1300108
def DBG_DHSEL_CORE : Fld := ⟨DBG_DHSEL, 27, 24⟩
def DBG_DHSEL_BANK : Fld := ⟨DBG_DHSEL, 21, 20⟩
def DBG_DHSEL_REG : Fld := ⟨DBG_DHSEL, 9, 0⟩
/-- DBG.DHCMD (R576). -/
def DBG_DHCMD : Nat := 0xe130010c
def DBG_DHCMD_BUSY : Fld := ⟨DBG_DHCMD, 31, 31⟩
def DBG_DHCMD_STATUS : Fld := ⟨DBG_DHCMD, 7, 4⟩
def DBG_DHCMD_OP : Fld := ⟨DBG_DHCMD, 1, 0⟩
/-- DBG.DHDATA (R576). -/
def DBG_DHDATA (i : Nat) : Nat := 0xe1300110 + 4 * i
def DBG_DHDATA_DATA (i : Nat) : Fld := ⟨(DBG_DHDATA i), 31, 0⟩
/-- DBG.DHTAG (R576). -/
def DBG_DHTAG : Nat := 0xe1300120
def DBG_DHTAG_TAG : Fld := ⟨DBG_DHTAG, 0, 0⟩
/-- DBG.DMADDR_LO (R576). -/
def DBG_DMADDR_LO : Nat := 0xe1300124
def DBG_DMADDR_LO_ADDR : Fld := ⟨DBG_DMADDR_LO, 31, 4⟩
/-- DBG.DMADDR_HI (R576). -/
def DBG_DMADDR_HI : Nat := 0xe1300128
def DBG_DMADDR_HI_ADDR : Fld := ⟨DBG_DMADDR_HI, 7, 0⟩
/-- DBG.DMCMD (R576). -/
def DBG_DMCMD : Nat := 0xe130012c
def DBG_DMCMD_BUSY : Fld := ⟨DBG_DMCMD, 31, 31⟩
def DBG_DMCMD_STATUS : Fld := ⟨DBG_DMCMD, 7, 4⟩
def DBG_DMCMD_OP : Fld := ⟨DBG_DMCMD, 1, 0⟩
/-- DBG.DMDATA (R576). -/
def DBG_DMDATA (i : Nat) : Nat := 0xe1300130 + 4 * i
def DBG_DMDATA_DATA (i : Nat) : Fld := ⟨(DBG_DMDATA i), 31, 0⟩
/-- DBG.DMTAG (R576). -/
def DBG_DMTAG : Nat := 0xe1300140
def DBG_DMTAG_TAG : Fld := ⟨DBG_DMTAG, 0, 0⟩
/-- DBG.TRCFG (R576). -/
def DBG_TRCFG : Nat := 0xe1300150
def DBG_TRCFG_EN : Fld := ⟨DBG_TRCFG, 31, 31⟩
def DBG_TRCFG_STOPFULL : Fld := ⟨DBG_TRCFG, 30, 30⟩
def DBG_TRCFG_CORES : Fld := ⟨DBG_TRCFG, 15, 0⟩
/-- DBG.TRFILT (R576). -/
def DBG_TRFILT : Nat := 0xe1300154
def DBG_TRFILT_KINDS : Fld := ⟨DBG_TRFILT, 31, 16⟩
def DBG_TRFILT_CTXEN : Fld := ⟨DBG_TRFILT, 15, 15⟩
def DBG_TRFILT_CTX : Fld := ⟨DBG_TRFILT, 11, 0⟩
/-- DBG.TRWR (R576). -/
def DBG_TRWR : Nat := 0xe1300158
def DBG_TRWR_WRAP : Fld := ⟨DBG_TRWR, 16, 16⟩
def DBG_TRWR_NEXT : Fld := ⟨DBG_TRWR, 15, 0⟩
/-- DBG.TRRD (R576). -/
def DBG_TRRD : Nat := 0xe130015c
def DBG_TRRD_REC : Fld := ⟨DBG_TRRD, 15, 0⟩
/-- DBG.TRDATA (R576). -/
def DBG_TRDATA (i : Nat) : Nat := 0xe1300160 + 4 * i
def DBG_TRDATA_DATA (i : Nat) : Fld := ⟨(DBG_TRDATA i), 31, 0⟩
/-- DBG.TRLOST (R576). -/
def DBG_TRLOST : Nat := 0xe1300170
def DBG_TRLOST_CNT : Fld := ⟨DBG_TRLOST, 31, 0⟩
/-- DBG.TRSW (R576). -/
def DBG_TRSW : Nat := 0xe1300174
def DBG_TRSW_DATA : Fld := ⟨DBG_TRSW, 31, 0⟩
/-- DBG.DEVID (R576). -/
def DBG_DEVID (i : Nat) : Nat := 0xe1300180 + 4 * i
def DBG_DEVID_ID (i : Nat) : Fld := ⟨(DBG_DEVID i), 31, 0⟩

/-! ### The register tables -/

/-- The common header rows (R105, R108, R109, R114). -/
def commonRows : List RegRow := [
  { off := 0x0, fields := [⟨31, 24, .ro, 0⟩, ⟨23, 16, .ro, 0⟩, ⟨15, 8, .ro, 9⟩, ⟨7, 0, .ro, 1⟩] }  ,
  { off := 0x4, fields := [⟨31, 24, .ro, 1⟩, ⟨23, 16, .ro, 0⟩, ⟨15, 8, .rsv, 0⟩, ⟨7, 0, .ro, 0⟩] }  ,
  { off := 0x8, fields := [⟨31, 1, .ro, 0⟩, ⟨0, 0, .ro, 1⟩] }  ,
  { off := 0xc, fields := [⟨31, 0, .ro, 0⟩] }  ,
  { off := 0x10, fields := [⟨31, 1, .rw, 0⟩, ⟨0, 0, .ro, 1⟩] }  ,
  { off := 0x14, fields := [⟨31, 0, .rw, 0⟩] }  ,
  { off := 0x18, fields := [⟨31, 3, .rsv, 0⟩, ⟨2, 2, .w1s, 0⟩, ⟨1, 1, .rw, 0⟩, ⟨0, 0, .rw, 0⟩] }  ,
  { off := 0x1c, fields := [⟨31, 3, .rsv, 0⟩, ⟨2, 0, .ro, 0⟩] }  ,
  { off := 0x20, fields := [⟨31, 0, .ro, 0⟩] }  ,
  { off := 0x24, fields := [⟨31, 0, .rw, 0⟩] }  ,
  { off := 0x28, fields := [⟨31, 0, .w1c, 0⟩] }  ,
  { off := 0x30, fields := [⟨31, 16, .rsv, 0⟩, ⟨15, 8, .rc, 0⟩, ⟨7, 0, .rc, 0⟩] }  ,
  { off := 0x34, pair := .lo, fields := [⟨31, 0, .ro, 0⟩] }  ,
  { off := 0x38, pair := .hi, fields := [⟨31, 8, .rsv, 0⟩, ⟨7, 0, .ro, 0⟩] }  ,
  { off := 0x3c, fields := [⟨31, 24, .rsv, 0⟩, ⟨23, 16, .ro, 0⟩, ⟨15, 14, .rsv, 0⟩, ⟨13, 13, .ro, 0⟩, ⟨12, 12, .rsv, 0⟩, ⟨11, 0, .ro, 0⟩] }  ,
  { off := 0x40, fields := [⟨31, 0, .ro, 0⟩] }  ]

/-- Registers of SCHED, from its chapter's tables. -/
def rowsSCHED : List RegRow := [
  { off := 0x100, fields := [⟨31, 24, .rw, 0⟩, ⟨23, 20, .rsv, 0⟩, ⟨19, 16, .rw, 0⟩, ⟨15, 0, .rw, 0⟩] },
  { off := 0x104, fields := [⟨31, 28, .wo, 0⟩, ⟨27, 25, .rsv, 0⟩, ⟨24, 24, .wo, 0⟩, ⟨23, 12, .rsv, 0⟩, ⟨11, 0, .wo, 0⟩] },
  { off := 0x108, fields := [⟨31, 0, .rw, 0⟩] },
  { off := 0x10c, fields := [⟨31, 31, .ro, 0⟩, ⟨30, 27, .rsv, 0⟩, ⟨26, 24, .ro, 0⟩, ⟨23, 20, .ro, 0⟩, ⟨19, 19, .rsv, 0⟩, ⟨18, 12, .ro, 0⟩, ⟨11, 0, .ro, 0⟩] },
  { off := 0x110, pair := .lo, fields := [⟨31, 4, .rw, 0⟩, ⟨3, 0, .rsv, 0⟩] },
  { off := 0x114, pair := .hi, fields := [⟨31, 8, .rsv, 0⟩, ⟨7, 0, .rw, 0⟩] },
  { off := 0x118, fields := [⟨31, 24, .rsv, 0⟩, ⟨23, 16, .ro, 0⟩, ⟨15, 12, .rsv, 0⟩, ⟨11, 0, .ro, 0⟩] },
  { off := 0x11c, fields := [⟨31, 0, .rc, 0⟩] },
  { off := 0x120, fields := [⟨31, 0, .rc, 0⟩] },
  { off := 0x124, fields := [⟨31, 0, .rc, 0⟩] },
  { off := 0x200, dims := [(0x10, 16)], lim := .core, fields := [⟨31, 2, .rsv, 0⟩, ⟨1, 1, .ro, 0⟩, ⟨0, 0, .rw, 0⟩] },
  { off := 0x204, dims := [(0x10, 16)], lim := .core, fields := [⟨31, 31, .ro, 0⟩, ⟨30, 30, .ro, 0⟩, ⟨29, 12, .rsv, 0⟩, ⟨11, 0, .ro, 0⟩] },
  { off := 0x208, dims := [(0x10, 16)], lim := .core, fields := [⟨31, 31, .ro, 0⟩, ⟨30, 28, .rsv, 0⟩, ⟨27, 16, .ro, 0⟩, ⟨15, 15, .ro, 0⟩, ⟨14, 12, .rsv, 0⟩, ⟨11, 0, .ro, 0⟩] },
  { off := 0x20c, dims := [(0x10, 16)], lim := .core, fields := [⟨31, 31, .ro, 0⟩, ⟨30, 28, .rsv, 0⟩, ⟨27, 16, .ro, 0⟩, ⟨15, 15, .ro, 0⟩, ⟨14, 12, .rsv, 0⟩, ⟨11, 0, .ro, 0⟩] }]

/-- Registers of CAP, from its chapter's tables. -/
def rowsCAP : List RegRow := [
  { off := 0x100, fields := [⟨31, 2, .rsv, 0⟩, ⟨1, 1, .rw, 1⟩, ⟨0, 0, .rw, 0⟩] },
  { off := 0x104, fields := [⟨31, 0, .rc, 0⟩] },
  { off := 0x108, pair := .lo, fields := [⟨31, 4, .ro, 0⟩, ⟨3, 0, .rsv, 0⟩] },
  { off := 0x10c, pair := .hi, fields := [⟨31, 24, .rsv, 0⟩, ⟨23, 16, .ro, 0⟩, ⟨15, 8, .rsv, 0⟩, ⟨7, 0, .ro, 0⟩] },
  { off := 0x110, fields := [⟨31, 0, .rc, 0⟩] },
  { off := 0x200, dims := [(0x4, 128)], fields := [⟨31, 0, .rw, 0⟩] }]

/-- Registers of TRANS, from its chapter's tables. -/
def rowsTRANS : List RegRow := [
  { off := 0x100, pair := .lo, fields := [⟨31, 15, .rw, 0⟩, ⟨14, 0, .rsv, 0⟩] },
  { off := 0x104, pair := .hi, fields := [⟨31, 8, .rsv, 0⟩, ⟨7, 0, .rw, 0⟩] },
  { off := 0x10c, fields := [⟨31, 0, .rc, 0⟩] },
  { off := 0x110, fields := [⟨31, 0, .rc, 0⟩] },
  { off := 0x114, pair := .lo, fields := [⟨31, 3, .ro, 0⟩, ⟨2, 0, .rsv, 0⟩] },
  { off := 0x118, pair := .hi, fields := [⟨31, 8, .rsv, 0⟩, ⟨7, 0, .ro, 0⟩] },
  { off := 0x11c, fields := [⟨31, 20, .ro, 0⟩, ⟨19, 16, .ro, 0⟩, ⟨15, 15, .ro, 0⟩, ⟨14, 11, .rsv, 0⟩, ⟨10, 8, .ro, 0⟩, ⟨7, 0, .ro, 0⟩] }]

/-- Registers of MEM, from its chapter's tables. -/
def rowsMEM : List RegRow := [
  { off := 0x100, fields := [⟨31, 0, .ro, 0⟩] },
  { off := 0x104, fields := [⟨31, 0, .rw, 0⟩] },
  { off := 0x108, fields := [⟨31, 0, .w1c, 0⟩] },
  { off := 0x110, fields := [⟨31, 12, .rsv, 0⟩, ⟨11, 8, .rw, 0⟩, ⟨7, 1, .rsv, 0⟩, ⟨0, 0, .rw, 1⟩] },
  { off := 0x114, fields := [⟨31, 0, .rc, 0⟩] },
  { off := 0x118, fields := [⟨31, 0, .rc, 0⟩] },
  { off := 0x200, dims := [(0x20, 16)], lim := .bank, fields := [⟨31, 11, .rsv, 0⟩, ⟨10, 8, .ro, 0⟩, ⟨7, 7, .rsv, 0⟩, ⟨6, 4, .ro, 0⟩, ⟨3, 3, .rsv, 0⟩, ⟨2, 0, .rw, 0⟩] },
  { off := 0x204, dims := [(0x20, 16)], lim := .bank, fields := [⟨31, 0, .rc, 0⟩] },
  { off := 0x208, dims := [(0x20, 16)], lim := .bank, fields := [⟨31, 0, .rc, 0⟩] },
  { off := 0x20c, dims := [(0x20, 16)], lim := .bank, fields := [⟨31, 31, .ro, 0⟩, ⟨30, 30, .ro, 0⟩, ⟨29, 29, .ro, 0⟩, ⟨28, 23, .rsv, 0⟩, ⟨22, 4, .ro, 0⟩, ⟨3, 0, .rsv, 0⟩] },
  { off := 0x210, dims := [(0x20, 16)], lim := .bank, fields := [⟨31, 24, .rsv, 0⟩, ⟨23, 16, .ro, 0⟩, ⟨15, 14, .rsv, 0⟩, ⟨13, 13, .ro, 0⟩, ⟨12, 12, .ro, 0⟩, ⟨11, 0, .ro, 0⟩] },
  { off := 0x214, dims := [(0x20, 16)], lim := .bank, fields := [⟨31, 7, .rsv, 0⟩, ⟨6, 6, .ro, 0⟩, ⟨5, 4, .ro, 0⟩, ⟨3, 3, .rsv, 0⟩, ⟨2, 0, .ro, 0⟩] }]

/-- Registers of QUE, from its chapter's tables. -/
def rowsQUE : List RegRow := [
  { off := 0x100, fields := [⟨31, 14, .rsv, 0⟩, ⟨13, 0, .rw, 0⟩] },
  { off := 0x104, fields := [⟨31, 6, .rw, 0⟩, ⟨5, 0, .rsv, 0⟩] },
  { off := 0x108, fields := [⟨31, 20, .rw, 0⟩, ⟨19, 19, .rw, 0⟩, ⟨18, 18, .rw, 0⟩, ⟨17, 17, .rw, 0⟩, ⟨16, 16, .rw, 0⟩, ⟨15, 15, .rsv, 0⟩, ⟨14, 12, .rw, 0⟩, ⟨11, 8, .rw, 0⟩, ⟨7, 0, .rw, 0⟩] },
  { off := 0x10c, fields := [⟨31, 16, .rw, 0⟩, ⟨15, 0, .rw, 0⟩] },
  { off := 0x110, fields := [⟨31, 2, .rsv, 0⟩, ⟨1, 0, .wo, 0⟩] },
  { off := 0x114, fields := [⟨31, 0, .ro, 0⟩] },
  { off := 0x118, fields := [⟨31, 0, .ro, 0⟩] },
  { off := 0x11c, fields := [⟨31, 0, .ro, 0⟩] },
  { off := 0x120, fields := [⟨31, 30, .rsv, 0⟩, ⟨29, 16, .ro, 0⟩, ⟨15, 14, .rsv, 0⟩, ⟨13, 0, .ro, 0⟩] },
  { off := 0x124, fields := [⟨31, 30, .rsv, 0⟩, ⟨29, 16, .ro, 0⟩, ⟨15, 14, .rsv, 0⟩, ⟨13, 0, .ro, 0⟩] },
  { off := 0x128, fields := [⟨31, 0, .rc, 0⟩] },
  { off := 0x12c, fields := [⟨31, 0, .rc, 0⟩] }]

/-- Registers of EVT, from its chapter's tables. -/
def rowsEVT : List RegRow := [
  { off := 0x100, fields := [⟨31, 12, .rsv, 0⟩, ⟨11, 0, .rw, 0⟩] },
  { off := 0x104, fields := [⟨31, 10, .rsv, 0⟩, ⟨9, 0, .wo, 0⟩] },
  { off := 0x108, fields := [⟨31, 0, .rc, 0⟩] },
  { off := 0x10c, fields := [⟨31, 0, .rc, 0⟩] },
  { off := 0x110, fields := [⟨31, 0, .rc, 0⟩] },
  { off := 0x114, fields := [⟨31, 28, .ro, 0⟩, ⟨27, 26, .rsv, 0⟩, ⟨25, 16, .ro, 0⟩, ⟨15, 14, .rsv, 0⟩, ⟨13, 0, .ro, 0⟩] },
  { off := 0x200, dims := [(0x4, 16)], lim := .core, fields := [⟨31, 26, .rsv, 0⟩, ⟨25, 16, .ro, 0⟩, ⟨15, 12, .ro, 0⟩, ⟨11, 11, .ro, 0⟩, ⟨10, 8, .ro, 0⟩, ⟨7, 0, .ro, 0⟩] },
  { off := 0x800, dims := [(0x4, 32)], fields := [⟨31, 0, .w1c, 0⟩] },
  { off := 0x1000, dims := [(0x4, 1024)], fields := [⟨31, 31, .rw, 0⟩, ⟨30, 30, .rw, 0⟩, ⟨29, 26, .rw, 0⟩, ⟨25, 14, .rsv, 0⟩, ⟨13, 0, .rw, 0⟩] }]

/-- Registers of PHASE, from its chapter's tables (part 1). -/
def rowsPHASE_1 : List RegRow := [
  { off := 0x100, fields := [⟨31, 0, .ro, 0⟩] },
  { off := 0x104, fields := [⟨31, 0, .rw, 0⟩] },
  { off := 0x108, fields := [⟨31, 0, .w1c, 0⟩] },
  { off := 0x110, fields := [⟨31, 28, .rsv, 0⟩, ⟨27, 16, .ro, 0⟩, ⟨15, 12, .rsv, 0⟩, ⟨11, 0, .ro, 0⟩] },
  { off := 0x114, fields := [⟨31, 28, .rsv, 0⟩, ⟨27, 16, .ro, 0⟩, ⟨15, 12, .rsv, 0⟩, ⟨11, 0, .ro, 0⟩] },
  { off := 0x118, fields := [⟨31, 12, .rsv, 0⟩, ⟨11, 0, .ro, 0⟩] },
  { off := 0x11c, fields := [⟨31, 0, .rc, 0⟩] },
  { off := 0x120, fields := [⟨31, 0, .rc, 0⟩] },
  { off := 0x124, fields := [⟨31, 0, .rc, 0⟩] },
  { off := 0x128, fields := [⟨31, 0, .rc, 0⟩] },
  { off := 0x200, dims := [(0x8, 64)], fields := [⟨31, 18, .rw, 0⟩, ⟨17, 14, .rw, 0⟩, ⟨13, 0, .rw, 0⟩] },
  { off := 0x204, dims := [(0x8, 64)], fields := [⟨31, 12, .rsv, 0⟩, ⟨11, 0, .rw, 0⟩] },
  { off := 0x1000, dims := [(0x80, 16)], fields := [⟨31, 31, .rw, 0⟩, ⟨30, 28, .rw, 0⟩, ⟨27, 27, .rw, 0⟩, ⟨26, 26, .rw, 0⟩, ⟨25, 25, .rsv, 0⟩, ⟨24, 16, .rw, 0⟩, ⟨15, 0, .rsv, 0⟩] },
  { off := 0x1004, dims := [(0x80, 16)], fields := [⟨31, 29, .ro, 0⟩, ⟨28, 28, .ro, 0⟩, ⟨27, 27, .w1c, 0⟩, ⟨26, 26, .w1c, 0⟩, ⟨25, 25, .w1c, 0⟩, ⟨24, 24, .w1c, 0⟩, ⟨23, 23, .w1c, 0⟩, ⟨22, 0, .ro, 0⟩] },
  { off := 0x1008, dims := [(0x80, 16)], pair := .lo, fields := [⟨31, 0, .ro, 0⟩] },
  { off := 0x100c, dims := [(0x80, 16)], pair := .hi, fields := [⟨31, 0, .ro, 0⟩] },
  { off := 0x1010, dims := [(0x80, 16)], fields := [⟨31, 0, .rw, 0⟩] },
  { off := 0x1014, dims := [(0x80, 16)], fields := [⟨31, 16, .rsv, 0⟩, ⟨15, 0, .rw, 0⟩] },
  { off := 0x1018, dims := [(0x80, 16)], pair := .lo, fields := [⟨31, 0, .rw, 0⟩] },
  { off := 0x101c, dims := [(0x80, 16)], pair := .hi, fields := [⟨31, 0, .rw, 0⟩] },
  { off := 0x1020, dims := [(0x80, 16)], fields := [⟨31, 0, .rw, 0x10000000⟩] },
  { off := 0x1024, dims := [(0x80, 16)], fields := [⟨31, 0, .rw, 0⟩] },
  { off := 0x1028, dims := [(0x80, 16)], fields := [⟨31, 23, .rsv, 0⟩, ⟨22, 0, .rw, 0⟩] },
  { off := 0x102c, dims := [(0x80, 16)], fields := [⟨31, 28, .rw, 0⟩, ⟨27, 26, .rsv, 0⟩, ⟨25, 20, .rw, 0x3f⟩, ⟨19, 16, .rw, 4⟩, ⟨15, 4, .rsv, 0⟩, ⟨3, 0, .rw, 0⟩] }]

/-- Registers of PHASE, from its chapter's tables (part 2). -/
def rowsPHASE_2 : List RegRow := [
  { off := 0x1030, dims := [(0x80, 16)], fields := [⟨31, 0, .rw, 0⟩] },
  { off := 0x1034, dims := [(0x80, 16)], pair := .lo, fields := [⟨31, 0, .wo, 0⟩] },
  { off := 0x1038, dims := [(0x80, 16)], pair := .hi, fields := [⟨31, 0, .wo, 0⟩] },
  { off := 0x103c, dims := [(0x80, 16)], fields := [⟨31, 24, .rc, 0⟩, ⟨23, 16, .rc, 0⟩, ⟨15, 8, .rc, 0⟩, ⟨7, 0, .rc, 0⟩] },
  { off := 0x10000, dims := [(0x20, 4096)], pair := .lo, fields := [⟨31, 0, .rw, 0⟩] },
  { off := 0x10004, dims := [(0x20, 4096)], pair := .hi, fields := [⟨31, 0, .rw, 0⟩] },
  { off := 0x10008, dims := [(0x20, 4096)], pair := .lo, fields := [⟨31, 0, .rw, 0⟩] },
  { off := 0x1000c, dims := [(0x20, 4096)], pair := .hi, fields := [⟨31, 0, .rw, 0⟩] },
  { off := 0x10010, dims := [(0x20, 4096)], fields := [⟨31, 31, .rw, 0⟩, ⟨30, 27, .rw, 0⟩, ⟨26, 26, .rw, 0⟩, ⟨25, 25, .rw, 0⟩, ⟨24, 24, .rw, 0⟩, ⟨23, 23, .rw, 0⟩, ⟨22, 20, .rsv, 0⟩, ⟨19, 16, .rw, 0⟩, ⟨15, 0, .rw, 0⟩] },
  { off := 0x10014, dims := [(0x20, 4096)], fields := [⟨31, 20, .ro, 0⟩, ⟨19, 16, .ro, 0⟩, ⟨15, 8, .ro, 0⟩, ⟨7, 7, .ro, 0⟩, ⟨6, 6, .ro, 0⟩, ⟨5, 5, .ro, 0⟩, ⟨4, 4, .ro, 0⟩, ⟨3, 3, .ro, 0⟩, ⟨2, 2, .ro, 0⟩, ⟨1, 1, .ro, 0⟩, ⟨0, 0, .ro, 0⟩] },
  { off := 0x10018, dims := [(0x20, 4096)], pair := .lo, fields := [⟨31, 0, .ro, 0⟩] },
  { off := 0x1001c, dims := [(0x20, 4096)], pair := .hi, fields := [⟨31, 0, .ro, 0⟩] }]

def rowsPHASE : List RegRow := rowsPHASE_1 ++ rowsPHASE_2

/-- Registers of LOOP, from its chapter's tables (part 1). -/
def rowsLOOP_1 : List RegRow := [
  { off := 0x100, fields := [⟨31, 10, .rsv, 0⟩, ⟨9, 0, .rw, 0⟩] },
  { off := 0x104, fields := [⟨31, 9, .rsv, 0⟩, ⟨8, 0, .wo, 0⟩] },
  { off := 0x108, fields := [⟨31, 31, .ro, 0⟩, ⟨30, 9, .rsv, 0⟩, ⟨8, 0, .wo, 0⟩] },
  { off := 0x10c, fields := [⟨31, 28, .rsv, 0⟩, ⟨27, 24, .ro, 0⟩, ⟨23, 9, .rsv, 0⟩, ⟨8, 0, .ro, 0⟩] },
  { off := 0x110, fields := [⟨31, 0, .rw, 0⟩] },
  { off := 0x114, fields := [⟨31, 0, .rw, 0⟩] },
  { off := 0x118, fields := [⟨31, 0, .rw, 0⟩] },
  { off := 0x11c, fields := [⟨31, 0, .rw, 0⟩] },
  { off := 0x120, fields := [⟨31, 0, .rc, 0⟩] },
  { off := 0x124, fields := [⟨31, 0, .rc, 0⟩] },
  { off := 0x128, fields := [⟨31, 0, .rc, 0⟩] },
  { off := 0x12c, fields := [⟨31, 26, .rsv, 0⟩, ⟨25, 16, .rc, 0⟩, ⟨15, 10, .rsv, 0⟩, ⟨9, 0, .ro, 0⟩] },
  { off := 0x200, fields := [⟨31, 31, .w1s, 0⟩, ⟨30, 30, .w1s, 0⟩, ⟨29, 28, .rw, 0⟩, ⟨27, 27, .rw, 0⟩, ⟨26, 26, .rw, 0⟩, ⟨25, 9, .rsv, 0⟩, ⟨8, 0, .rw, 0⟩] },
  { off := 0x204, fields := [⟨31, 28, .ro, 0⟩, ⟨27, 24, .ro, 0⟩, ⟨23, 16, .ro, 0⟩, ⟨15, 0, .rsv, 0⟩] },
  { off := 0x208, fields := [⟨31, 0, .rw, 0⟩] },
  { off := 0x20c, fields := [⟨31, 0, .rw, 0⟩] },
  { off := 0x210, fields := [⟨31, 0, .rw, 0⟩] },
  { off := 0x214, fields := [⟨31, 0, .rw, 0⟩] },
  { off := 0x218, fields := [⟨31, 0, .rw, 0⟩] },
  { off := 0x21c, fields := [⟨31, 16, .rw, 0⟩, ⟨15, 8, .rw, 0⟩, ⟨7, 0, .rw, 0⟩] },
  { off := 0x220, fields := [⟨31, 0, .rw, 0⟩] },
  { off := 0x224, fields := [⟨31, 0, .rw, 0⟩] },
  { off := 0x228, fields := [⟨31, 0, .rw, 0⟩] },
  { off := 0x22c, fields := [⟨31, 0, .rw, 0⟩] }]

/-- Registers of LOOP, from its chapter's tables (part 2). -/
def rowsLOOP_2 : List RegRow := [
  { off := 0x230, fields := [⟨31, 0, .rw, 0⟩] },
  { off := 0x240, fields := [⟨31, 0, .ro, 0⟩] },
  { off := 0x244, fields := [⟨31, 0, .ro, 0⟩] },
  { off := 0x248, fields := [⟨31, 0, .ro, 0⟩] },
  { off := 0x250, fields := [⟨31, 0, .ro, 0⟩] },
  { off := 0x254, fields := [⟨31, 0, .ro, 0⟩] },
  { off := 0x258, fields := [⟨31, 0, .ro, 0⟩] },
  { off := 0x25c, fields := [⟨31, 0, .ro, 0⟩] },
  { off := 0x400, dims := [(0x8, 16)], fields := [⟨31, 18, .rw, 0⟩, ⟨17, 14, .rw, 0⟩, ⟨13, 0, .rw, 0⟩] },
  { off := 0x404, dims := [(0x8, 16)], fields := [⟨31, 16, .rsv, 0⟩, ⟨15, 12, .rw, 0⟩, ⟨11, 0, .rw, 0⟩] },
  { off := 0x10000, dims := [(0x100, 64), (0x4, 40)], fields := [⟨31, 0, .rw, 0⟩] },
  { off := 0x20000, dims := [(0x100, 512)], lim := .cell, fields := [⟨31, 31, .rw, 0⟩, ⟨30, 28, .rw, 0⟩, ⟨27, 27, .rw, 0⟩, ⟨26, 25, .rw, 0⟩, ⟨24, 24, .rw, 0⟩, ⟨23, 23, .rw, 0⟩, ⟨22, 21, .rw, 0⟩, ⟨20, 19, .rw, 0⟩, ⟨18, 18, .rw, 0⟩, ⟨17, 17, .w1s, 0⟩, ⟨16, 0, .rsv, 0⟩] },
  { off := 0x20004, dims := [(0x100, 512)], lim := .cell, fields := [⟨31, 24, .rsv, 0⟩, ⟨23, 20, .ro, 0⟩, ⟨19, 16, .ro, 0⟩, ⟨15, 15, .ro, 0⟩, ⟨14, 12, .ro, 0⟩, ⟨11, 10, .rsv, 0⟩, ⟨9, 8, .ro, 0⟩, ⟨7, 7, .ro, 0⟩, ⟨6, 6, .ro, 0⟩, ⟨5, 5, .ro, 0⟩, ⟨4, 4, .ro, 0⟩, ⟨3, 3, .w1c, 0⟩, ⟨2, 2, .w1c, 0⟩, ⟨1, 1, .ro, 0⟩, ⟨0, 0, .ro, 0⟩] },
  { off := 0x20008, dims := [(0x100, 512), (0x4, 4)], lim := .cell, fields := [⟨31, 29, .rw, 0⟩, ⟨28, 9, .rsv, 0⟩, ⟨8, 0, .rw, 0⟩] },
  { off := 0x20018, dims := [(0x100, 512)], lim := .cell, fields := [⟨31, 29, .rw, 0⟩, ⟨28, 5, .rsv, 0⟩, ⟨4, 0, .rw, 0⟩] },
  { off := 0x2001c, dims := [(0x100, 512)], lim := .cell, fields := [⟨31, 31, .rw, 0⟩, ⟨30, 30, .rsv, 0⟩, ⟨29, 24, .rw, 0⟩, ⟨23, 20, .rsv, 0⟩, ⟨19, 16, .rw, 0⟩, ⟨15, 0, .rsv, 0⟩] },
  { off := 0x20020, dims := [(0x100, 512)], lim := .cell, fields := [⟨31, 23, .rsv, 0⟩, ⟨22, 0, .rw, 0⟩] },
  { off := 0x20024, dims := [(0x100, 512)], lim := .cell, fields := [⟨31, 23, .rsv, 0⟩, ⟨22, 0, .rw, 0⟩] },
  { off := 0x20028, dims := [(0x100, 512)], lim := .cell, fields := [⟨31, 0, .rw, 0⟩] },
  { off := 0x2002c, dims := [(0x100, 512)], lim := .cell, fields := [⟨31, 0, .rw, 0⟩] },
  { off := 0x20030, dims := [(0x100, 512)], lim := .cell, fields := [⟨31, 16, .rsv, 0⟩, ⟨15, 0, .rw, 0⟩] },
  { off := 0x20034, dims := [(0x100, 512)], lim := .cell, fields := [⟨31, 31, .rw, 0⟩, ⟨30, 9, .rsv, 0⟩, ⟨8, 0, .rw, 0⟩] },
  { off := 0x20038, dims := [(0x100, 512)], lim := .cell, fields := [⟨31, 0, .ro, 0⟩] },
  { off := 0x2003c, dims := [(0x100, 512)], lim := .cell, fields := [⟨31, 0, .rw, 0⟩] }]

/-- Registers of LOOP, from its chapter's tables (part 3). -/
def rowsLOOP_3 : List RegRow := [
  { off := 0x20040, dims := [(0x100, 512), (0x4, 4)], lim := .cell, fields := [⟨31, 0, .rw, 0⟩] },
  { off := 0x20050, dims := [(0x100, 512), (0x4, 4)], lim := .cell, fields := [⟨31, 0, .rw, 0⟩] },
  { off := 0x20060, dims := [(0x100, 512)], lim := .cell, fields := [⟨31, 0, .rw, 0⟩] },
  { off := 0x20064, dims := [(0x100, 512)], lim := .cell, fields := [⟨31, 0, .rw, 0⟩] },
  { off := 0x20068, dims := [(0x100, 512)], lim := .cell, fields := [⟨31, 0, .rw, 0⟩] },
  { off := 0x2006c, dims := [(0x100, 512)], lim := .cell, fields := [⟨31, 0, .rw, 0⟩] },
  { off := 0x20080, dims := [(0x100, 512), (0x4, 32)], lim := .cell, fields := [⟨31, 0, .rw, 0⟩] }]

def rowsLOOP : List RegRow := rowsLOOP_1 ++ rowsLOOP_2 ++ rowsLOOP_3

/-- Registers of MEAS, from its chapter's tables (part 1). -/
def rowsMEAS_1 : List RegRow := [
  { off := 0x100, fields := [⟨31, 0, .ro, 0⟩] },
  { off := 0x104, fields := [⟨31, 0, .rw, 0⟩] },
  { off := 0x108, fields := [⟨31, 0, .w1c, 0⟩] },
  { off := 0x110, fields := [⟨31, 31, .ro, 0⟩, ⟨30, 30, .ro, 0⟩, ⟨29, 16, .rsv, 0⟩, ⟨15, 0, .rc, 0⟩] },
  { off := 0x114, fields := [⟨31, 0, .rc, 0⟩] },
  { off := 0x118, fields := [⟨31, 8, .rsv, 0⟩, ⟨7, 7, .w1c, 0⟩, ⟨6, 5, .rsv, 0⟩, ⟨4, 4, .ro, 0⟩, ⟨3, 3, .ro, 0⟩, ⟨2, 2, .ro, 0⟩, ⟨1, 1, .ro, 0⟩, ⟨0, 0, .ro, 0⟩] },
  { off := 0x120, fields := [⟨31, 31, .rw, 0⟩, ⟨30, 4, .rsv, 0⟩, ⟨3, 0, .rw, 0⟩] },
  { off := 0x124, pair := .lo, fields := [⟨31, 4, .rw, 0⟩, ⟨3, 0, .rsv, 0⟩] },
  { off := 0x128, pair := .hi, fields := [⟨31, 8, .rsv, 0⟩, ⟨7, 0, .rw, 0⟩] },
  { off := 0x12c, fields := [⟨31, 0, .ro, 0⟩] },
  { off := 0x130, fields := [⟨31, 0, .rw, 0⟩] },
  { off := 0x134, fields := [⟨31, 0, .rc, 0⟩] },
  { off := 0x200, dims := [(0x10, 16)], fields := [⟨31, 31, .ro, 0⟩, ⟨30, 30, .ro, 0⟩, ⟨29, 29, .ro, 0⟩, ⟨28, 24, .ro, 0⟩, ⟨23, 0, .ro, 0⟩] },
  { off := 0x204, dims := [(0x10, 16)], fields := [⟨31, 0, .ro, 0⟩] },
  { off := 0x208, dims := [(0x10, 16)], fields := [⟨31, 0, .ro, 0⟩] },
  { off := 0x300, dims := [(0x20, 8)], pair := .lo, fields := [⟨31, 0, .ro, 0⟩] },
  { off := 0x304, dims := [(0x20, 8)], pair := .hi, fields := [⟨31, 0, .ro, 0⟩] },
  { off := 0x308, dims := [(0x20, 8)], pair := .lo, fields := [⟨31, 0, .ro, 0⟩] },
  { off := 0x30c, dims := [(0x20, 8)], pair := .hi, fields := [⟨31, 0, .ro, 0⟩] },
  { off := 0x310, dims := [(0x20, 8)], fields := [⟨31, 31, .ro, 0⟩, ⟨30, 30, .w1c, 0⟩, ⟨29, 29, .w1c, 0⟩, ⟨28, 16, .rsv, 0⟩, ⟨15, 0, .rc, 0⟩] },
  { off := 0x400, dims := [(0x4, 2)], fields := [⟨31, 0, .ro, 0⟩] },
  { off := 0x408, dims := [(0x4, 2)], fields := [⟨31, 0, .w1c, 0⟩] },
  { off := 0x410, dims := [(0x4, 2)], fields := [⟨31, 0, .ro, 0⟩] },
  { off := 0x1000, dims := [(0x8, 16)], fields := [⟨31, 31, .rw, 0⟩, ⟨30, 30, .rw, 0⟩, ⟨29, 29, .rw, 0⟩, ⟨28, 28, .rw, 0⟩, ⟨27, 27, .rw, 0⟩, ⟨26, 0, .rsv, 0⟩] }]

/-- Registers of MEAS, from its chapter's tables (part 2). -/
def rowsMEAS_2 : List RegRow := [
  { off := 0x1004, dims := [(0x8, 16)], fields := [⟨31, 24, .rsv, 0⟩, ⟨23, 0, .rw, 0⟩] },
  { off := 0x1100, dims := [(0x10, 8)], fields := [⟨31, 31, .rw, 0⟩, ⟨30, 30, .rw, 0⟩, ⟨29, 29, .rw, 0⟩, ⟨28, 8, .rsv, 0⟩, ⟨7, 0, .rw, 0⟩] },
  { off := 0x1104, dims := [(0x10, 8)], fields := [⟨31, 29, .rsv, 0⟩, ⟨28, 24, .rw, 0⟩, ⟨23, 23, .rw, 0⟩, ⟨22, 22, .rw, 0⟩, ⟨21, 16, .rsv, 0⟩, ⟨15, 8, .rw, 9⟩, ⟨7, 0, .rw, 0⟩] },
  { off := 0x1200, dims := [(0x4, 64)], fields := [⟨31, 31, .rw, 0⟩, ⟨30, 30, .rw, 0⟩, ⟨29, 24, .rsv, 0⟩, ⟨23, 16, .rw, 0x80⟩, ⟨15, 0, .rw, 0⟩] },
  { off := 0x1300, dims := [(0x4, 64)], fields := [⟨31, 24, .ro, 0⟩, ⟨23, 16, .ro, 0⟩, ⟨15, 8, .ro, 0x80⟩, ⟨7, 0, .rsv, 0⟩] },
  { off := 0x1400, fields := [⟨31, 24, .rw, 0x20⟩, ⟨23, 16, .rw, 0xe0⟩, ⟨15, 8, .rw, 0x10⟩, ⟨7, 4, .rsv, 0⟩, ⟨3, 0, .rw, 4⟩] },
  { off := 0x1500, fields := [⟨31, 0, .rw, 0⟩] },
  { off := 0x1504, fields := [⟨31, 0, .wo, 0⟩] },
  { off := 0x1508, fields := [⟨31, 0, .wo, 0⟩] },
  { off := 0x150c, dims := [(0x4, 2)], fields := [⟨31, 0, .rw, 0⟩] },
  { off := 0x1514, fields := [⟨31, 0, .ro, 0⟩] },
  { off := 0x1518, fields := [⟨31, 0, .w1c, 0⟩] },
  { off := 0x1600, dims := [(0x10, 4)], fields := [⟨31, 31, .rw, 0⟩, ⟨30, 28, .rsv, 0⟩, ⟨27, 24, .rw, 0⟩, ⟨23, 16, .rsv, 0⟩, ⟨15, 0, .rw, 1⟩] },
  { off := 0x1604, dims := [(0x10, 4)], fields := [⟨31, 20, .rsv, 0⟩, ⟨19, 0, .rw, 0x4e20⟩] },
  { off := 0x1608, dims := [(0x10, 4)], fields := [⟨31, 0, .rw, 0⟩] },
  { off := 0x1640, dims := [(0x4, 12)], fields := [⟨31, 31, .rw, 0⟩, ⟨30, 18, .rsv, 0⟩, ⟨17, 16, .rw, 0⟩, ⟨15, 10, .rsv, 0⟩, ⟨9, 0, .rw, 0⟩] },
  { off := 0x1680, dims := [(0x4, 24)], fields := [⟨31, 16, .rsv, 0⟩, ⟨15, 0, .rw, 0⟩] },
  { off := 0x1700, dims := [(0x4, 8)], fields := [⟨31, 16, .rsv, 0⟩, ⟨15, 0, .rw, 0⟩] },
  { off := 0x1720, dims := [(0x4, 8)], fields := [⟨31, 16, .rsv, 0⟩, ⟨15, 0, .rw, 0⟩] },
  { off := 0x1800, fields := [⟨31, 0, .rw, 0⟩] },
  { off := 0x1804, fields := [⟨31, 24, .rw, 0⟩, ⟨23, 0, .rw, 0⟩] },
  { off := 0x1808, fields := [⟨31, 16, .rsv, 0⟩, ⟨15, 0, .wo, 0⟩] }]

def rowsMEAS : List RegRow := rowsMEAS_1 ++ rowsMEAS_2

/-- Registers of FLINK, from its chapter's tables (part 1). -/
def rowsFLINK_1 : List RegRow := [
  { off := 0x100, fields := [⟨31, 0, .ro, 0⟩] },
  { off := 0x104, fields := [⟨31, 0, .rw, 0⟩] },
  { off := 0x108, fields := [⟨31, 0, .w1c, 0⟩] },
  { off := 0x1000, dims := [(0x40, 16)], lim := .lane, fields := [⟨31, 31, .rw, 0⟩, ⟨30, 30, .rw, 0⟩, ⟨29, 29, .rw, 0⟩, ⟨28, 28, .rw, 0⟩, ⟨27, 24, .rw, 0⟩, ⟨23, 16, .rw, 0xc8⟩, ⟨15, 14, .rsv, 0⟩, ⟨13, 8, .rw, 0⟩, ⟨7, 0, .rsv, 0⟩] },
  { off := 0x1004, dims := [(0x40, 16)], lim := .lane, fields := [⟨31, 14, .rsv, 0⟩, ⟨13, 0, .rw, 0⟩] },
  { off := 0x1008, dims := [(0x40, 16)], lim := .lane, fields := [⟨31, 31, .ro, 0⟩, ⟨30, 30, .ro, 0⟩, ⟨29, 29, .ro, 0⟩, ⟨28, 5, .rsv, 0⟩, ⟨4, 0, .ro, 0⟩] },
  { off := 0x100c, dims := [(0x40, 16)], lim := .lane, fields := [⟨31, 16, .rc, 0⟩, ⟨15, 0, .rc, 0⟩] },
  { off := 0x1010, dims := [(0x40, 16)], lim := .lane, fields := [⟨31, 16, .rc, 0⟩, ⟨15, 0, .rc, 0⟩] },
  { off := 0x1014, dims := [(0x40, 16)], lim := .lane, fields := [⟨31, 24, .ro, 0⟩, ⟨23, 16, .rc, 0xff⟩, ⟨15, 8, .ro, 0⟩, ⟨7, 0, .rsv, 0⟩] },
  { off := 0x1018, dims := [(0x40, 16)], lim := .lane, fields := [⟨31, 0, .ro, 0⟩] },
  { off := 0x101c, dims := [(0x40, 16)], lim := .lane, fields := [⟨31, 8, .rsv, 0⟩, ⟨7, 0, .ro, 0⟩] },
  { off := 0x10000, dims := [(0x800, 16), (0x40, 32)], lim := .lane, fields := [⟨31, 31, .rw, 0⟩, ⟨30, 30, .rw, 0⟩, ⟨29, 29, .rw, 0⟩, ⟨28, 28, .rw, 0⟩, ⟨27, 26, .rsv, 0⟩, ⟨25, 20, .rw, 0⟩, ⟨19, 18, .rsv, 0⟩, ⟨17, 16, .rw, 0⟩, ⟨15, 13, .rsv, 0⟩, ⟨12, 8, .rw, 0⟩, ⟨7, 0, .rsv, 0⟩] },
  { off := 0x10004, dims := [(0x800, 16), (0x40, 32)], lim := .lane, fields := [⟨31, 0, .rw, 0⟩] },
  { off := 0x10008, dims := [(0x800, 16), (0x40, 32)], lim := .lane, fields := [⟨31, 20, .rw, 0⟩, ⟨19, 18, .rsv, 0⟩, ⟨17, 14, .rw, 0⟩, ⟨13, 0, .rw, 0⟩] },
  { off := 0x1000c, dims := [(0x800, 16), (0x40, 32)], lim := .lane, fields := [⟨31, 19, .rsv, 0⟩, ⟨18, 0, .rw, 0⟩] },
  { off := 0x10010, dims := [(0x800, 16), (0x40, 32)], lim := .lane, fields := [⟨31, 19, .rsv, 0⟩, ⟨18, 0, .rw, 0⟩] },
  { off := 0x10014, dims := [(0x800, 16), (0x40, 32)], lim := .lane, fields := [⟨31, 20, .rw, 0⟩, ⟨19, 16, .rw, 0⟩, ⟨15, 0, .rw, 0⟩] },
  { off := 0x10018, dims := [(0x800, 16), (0x40, 32)], lim := .lane, fields := [⟨31, 24, .rw, 0⟩, ⟨23, 16, .rw, 0⟩, ⟨15, 0, .rw, 0⟩] },
  { off := 0x1001c, dims := [(0x800, 16), (0x40, 32)], lim := .lane, fields := [⟨31, 29, .ro, 0⟩, ⟨28, 28, .w1s, 0⟩, ⟨27, 20, .rsv, 0⟩, ⟨19, 16, .ro, 0⟩, ⟨15, 8, .ro, 0⟩, ⟨7, 0, .rsv, 0⟩] },
  { off := 0x10020, dims := [(0x800, 16), (0x40, 32)], lim := .lane, fields := [⟨31, 0, .rw, 0⟩] },
  { off := 0x10024, dims := [(0x800, 16), (0x40, 32)], lim := .lane, fields := [⟨31, 0, .rw, 0⟩] },
  { off := 0x10028, dims := [(0x800, 16), (0x40, 32)], lim := .lane, fields := [⟨31, 16, .rc, 0⟩, ⟨15, 0, .rc, 0⟩] },
  { off := 0x1002c, dims := [(0x800, 16), (0x40, 32)], lim := .lane, fields := [⟨31, 16, .rc, 0⟩, ⟨15, 0, .rc, 0⟩] },
  { off := 0x10030, dims := [(0x800, 16), (0x40, 32)], lim := .lane, fields := [⟨31, 16, .rc, 0⟩, ⟨15, 0, .rc, 0⟩] }]

/-- Registers of FLINK, from its chapter's tables (part 2). -/
def rowsFLINK_2 : List RegRow := [
  { off := 0x10034, dims := [(0x800, 16), (0x40, 32)], lim := .lane, fields := [⟨31, 0, .rw, 0⟩] },
  { off := 0x10038, dims := [(0x800, 16), (0x40, 32)], lim := .lane, fields := [⟨31, 16, .rsv, 0⟩, ⟨15, 8, .rw, 0⟩, ⟨7, 0, .rw, 0⟩] }]

def rowsFLINK : List RegRow := rowsFLINK_1 ++ rowsFLINK_2

/-- Registers of NET, from its chapter's tables (part 1). -/
def rowsNET_1 : List RegRow := [
  { off := 0x100, fields := [⟨31, 31, .rw, 0⟩, ⟨30, 30, .rw, 0⟩, ⟨29, 0, .rsv, 0⟩] },
  { off := 0x104, fields := [⟨31, 0, .rw, 0⟩] },
  { off := 0x108, pair := .lo, fields := [⟨31, 30, .rsv, 0⟩, ⟨29, 0, .ro, 0⟩] },
  { off := 0x10c, pair := .hi, fields := [⟨31, 0, .ro, 0⟩] },
  { off := 0x110, fields := [⟨31, 16, .rsv, 0⟩, ⟨15, 0, .rw, 0⟩] },
  { off := 0x114, pair := .lo, fields := [⟨31, 0, .wo, 0⟩] },
  { off := 0x118, pair := .hi, fields := [⟨31, 0, .wo, 0⟩] },
  { off := 0x120, fields := [⟨31, 12, .rsv, 0⟩, ⟨11, 0, .rw, 0⟩] },
  { off := 0x124, dims := [(0x4, 7)], fields := [⟨31, 0, .rw, 0⟩] },
  { off := 0x140, fields := [⟨31, 0, .ro, 0⟩] },
  { off := 0x144, fields := [⟨31, 6, .rsv, 0⟩, ⟨5, 4, .rw, 0⟩, ⟨3, 3, .rw, 0⟩, ⟨2, 1, .rw, 0⟩, ⟨0, 0, .rw, 0⟩] },
  { off := 0x148, fields := [⟨31, 31, .rw, 0⟩, ⟨30, 30, .rw, 0⟩, ⟨29, 8, .rsv, 0⟩, ⟨7, 6, .rw, 0⟩, ⟨5, 5, .rsv, 0⟩, ⟨4, 0, .rw, 0⟩] },
  { off := 0x14c, pair := .lo, fields := [⟨31, 0, .rw, 0⟩] },
  { off := 0x150, pair := .hi, fields := [⟨31, 0, .rw, 0⟩] },
  { off := 0x154, pair := .lo, fields := [⟨31, 0, .rw, 0⟩] },
  { off := 0x158, pair := .hi, fields := [⟨31, 0, .rw, 0⟩] },
  { off := 0x15c, fields := [⟨31, 3, .rsv, 0⟩, ⟨2, 0, .wo, 0⟩] },
  { off := 0x1000, dims := [(0x40, 4)], lim := .port, fields := [⟨31, 31, .rw, 0⟩, ⟨30, 29, .rw, 0⟩, ⟨28, 28, .rw, 0⟩, ⟨27, 27, .rw, 0⟩, ⟨26, 26, .rw, 0⟩, ⟨25, 15, .rsv, 0⟩, ⟨14, 12, .rw, 0⟩, ⟨11, 0, .rw, 1⟩] },
  { off := 0x1004, dims := [(0x40, 4)], lim := .port, fields := [⟨31, 31, .ro, 0⟩, ⟨30, 29, .ro, 0⟩, ⟨28, 0, .rsv, 0⟩] },
  { off := 0x1008, dims := [(0x40, 4)], lim := .port, fields := [⟨31, 14, .rsv, 0⟩, ⟨13, 0, .rw, 0⟩] },
  { off := 0x100c, dims := [(0x40, 4)], lim := .port, fields := [⟨31, 24, .rw, 0⟩, ⟨23, 16, .rw, 0⟩, ⟨15, 0, .rw, 0⟩] },
  { off := 0x1010, dims := [(0x40, 4)], lim := .port, fields := [⟨31, 0, .rc, 0⟩] },
  { off := 0x1014, dims := [(0x40, 4)], lim := .port, fields := [⟨31, 16, .rc, 0⟩, ⟨15, 0, .rc, 0⟩] },
  { off := 0x1018, dims := [(0x40, 4)], lim := .port, fields := [⟨31, 0, .rc, 0⟩] }]

/-- Registers of NET, from its chapter's tables (part 2). -/
def rowsNET_2 : List RegRow := [
  { off := 0x101c, dims := [(0x40, 4)], lim := .port, fields := [⟨31, 16, .rc, 0⟩, ⟨15, 0, .rc, 0⟩] },
  { off := 0x1020, dims := [(0x40, 4)], lim := .port, fields := [⟨31, 31, .rw, 0⟩, ⟨30, 30, .w1s, 0⟩, ⟨29, 29, .ro, 0⟩, ⟨28, 0, .rsv, 0⟩] },
  { off := 0x1024, dims := [(0x40, 4)], lim := .port, fields := [⟨31, 0, .rw, 0⟩] },
  { off := 0x1028, dims := [(0x40, 4)], lim := .port, pair := .lo, fields := [⟨31, 0, .rw, 0⟩] },
  { off := 0x102c, dims := [(0x40, 4)], lim := .port, pair := .hi, fields := [⟨31, 0, .rw, 0⟩] },
  { off := 0x2000, dims := [(0x10, 64)], fields := [⟨31, 31, .rw, 0⟩, ⟨30, 27, .rw, 0⟩, ⟨26, 18, .rsv, 0⟩, ⟨17, 14, .rw, 0⟩, ⟨13, 0, .rw, 0⟩] },
  { off := 0x2004, dims := [(0x10, 64)], fields := [⟨31, 20, .rw, 0⟩, ⟨19, 16, .rsv, 0⟩, ⟨15, 0, .rw, 0⟩] },
  { off := 0x3000, dims := [(0x10, 64)], fields := [⟨31, 31, .rw, 0⟩, ⟨30, 30, .rw, 0⟩, ⟨29, 27, .rw, 0⟩, ⟨26, 23, .rw, 0⟩, ⟨22, 12, .rsv, 0⟩, ⟨11, 0, .rw, 0⟩] },
  { off := 0x3004, dims := [(0x10, 64)], fields := [⟨31, 20, .rw, 0⟩, ⟨19, 16, .rsv, 0⟩, ⟨15, 0, .rw, 0⟩] },
  { off := 0x3008, dims := [(0x10, 64)], fields := [⟨31, 18, .rsv, 0⟩, ⟨17, 14, .rw, 0⟩, ⟨13, 0, .rw, 0⟩] },
  { off := 0x8000, dims := [(0x200, 4), (0x100, 2), (0x4, 64)], lim := .port, fields := [⟨31, 24, .rw, 0⟩, ⟨23, 0, .rw, 0⟩] }]

def rowsNET : List RegRow := rowsNET_1 ++ rowsNET_2

/-- Registers of SER, from its chapter's tables. -/
def rowsSER : List RegRow := [
  { off := 0x1000, dims := [(0x40, 8)], fields := [⟨31, 31, .rw, 0⟩, ⟨30, 29, .rw, 0⟩, ⟨28, 28, .rw, 0⟩, ⟨27, 27, .rw, 0⟩, ⟨26, 26, .rw, 0⟩, ⟨25, 25, .rw, 0⟩, ⟨24, 24, .rw, 0⟩, ⟨23, 0, .rw, 0x28b0b⟩] },
  { off := 0x1004, dims := [(0x40, 8)], fields := [⟨31, 24, .rw, 1⟩, ⟨23, 16, .rw, 1⟩, ⟨15, 0, .rw, 0x4d⟩] },
  { off := 0x1008, dims := [(0x40, 8)], fields := [⟨31, 20, .rw, 0⟩, ⟨19, 18, .rsv, 0⟩, ⟨17, 14, .rw, 0⟩, ⟨13, 0, .rw, 0⟩] },
  { off := 0x100c, dims := [(0x40, 8)], fields := [⟨31, 30, .rw, 0⟩, ⟨29, 19, .rsv, 0⟩, ⟨18, 0, .rw, 0⟩] },
  { off := 0x1010, dims := [(0x40, 8)], fields := [⟨31, 19, .rsv, 0⟩, ⟨18, 0, .rw, 0⟩] },
  { off := 0x1014, dims := [(0x40, 8)], fields := [⟨31, 14, .rsv, 0⟩, ⟨13, 0, .rw, 0⟩] },
  { off := 0x1018, dims := [(0x40, 8)], fields := [⟨31, 16, .rc, 0⟩, ⟨15, 0, .rc, 0⟩] },
  { off := 0x101c, dims := [(0x40, 8)], fields := [⟨31, 16, .rc, 0⟩, ⟨15, 0, .rc, 0⟩] }]

/-- Registers of TWIN, from its chapter's tables. -/
def rowsTWIN : List RegRow := [
  { off := 0x100, fields := [⟨31, 31, .rw, 0⟩, ⟨30, 30, .rw, 0⟩, ⟨29, 29, .rw, 0⟩, ⟨28, 28, .rw, 0⟩, ⟨27, 27, .rsv, 0⟩, ⟨26, 21, .rw, 0⟩, ⟨20, 16, .rw, 0⟩, ⟨15, 0, .rw, 0⟩] },
  { off := 0x104, fields := [⟨31, 16, .rsv, 0⟩, ⟨15, 8, .wo, 0⟩, ⟨7, 4, .rsv, 0⟩, ⟨3, 0, .wo, 0⟩] },
  { off := 0x108, fields := [⟨31, 16, .rsv, 0⟩, ⟨15, 12, .ro, 0⟩, ⟨11, 11, .ro, 0⟩, ⟨10, 10, .ro, 0⟩, ⟨9, 9, .ro, 0⟩, ⟨8, 8, .ro, 0⟩, ⟨7, 7, .rsv, 0⟩, ⟨6, 4, .ro, 0⟩, ⟨3, 3, .rsv, 0⟩, ⟨2, 0, .ro, 0⟩] },
  { off := 0x10c, fields := [⟨31, 31, .ro, 0⟩, ⟨30, 20, .rsv, 0⟩, ⟨19, 16, .ro, 0⟩, ⟨15, 0, .ro, 0⟩] },
  { off := 0x110, fields := [⟨31, 31, .ro, 0⟩, ⟨30, 8, .rsv, 0⟩, ⟨7, 0, .wo, 0⟩] },
  { off := 0x114, fields := [⟨31, 24, .rsv, 0⟩, ⟨23, 16, .ro, 0⟩, ⟨15, 8, .ro, 0⟩, ⟨7, 0, .ro, 0⟩] },
  { off := 0x118, fields := [⟨31, 1, .rsv, 0⟩, ⟨0, 0, .w1s, 0⟩] },
  { off := 0x11c, fields := [⟨31, 31, .ro, 0⟩, ⟨30, 20, .rsv, 0⟩, ⟨19, 16, .ro, 0⟩, ⟨15, 12, .rsv, 0⟩, ⟨11, 0, .wo, 0⟩] },
  { off := 0x120, pair := .lo, fields := [⟨31, 4, .rw, 0⟩, ⟨3, 0, .rsv, 0⟩] },
  { off := 0x124, pair := .hi, fields := [⟨31, 8, .rsv, 0⟩, ⟨7, 0, .rw, 0⟩] },
  { off := 0x128, fields := [⟨31, 23, .rsv, 0⟩, ⟨22, 0, .rw, 0⟩] },
  { off := 0x12c, fields := [⟨31, 31, .ro, 0⟩, ⟨30, 20, .rsv, 0⟩, ⟨19, 16, .ro, 0⟩, ⟨15, 1, .rsv, 0⟩, ⟨0, 0, .w1s, 0⟩] },
  { off := 0x130, dims := [(0x4, 2)], fields := [⟨31, 31, .rsv, 0⟩, ⟨30, 28, .rw, 7⟩, ⟨27, 27, .rsv, 0⟩, ⟨26, 24, .rw, 7⟩, ⟨23, 23, .rsv, 0⟩, ⟨22, 20, .rw, 7⟩, ⟨19, 19, .rsv, 0⟩, ⟨18, 16, .rw, 7⟩, ⟨15, 15, .rsv, 0⟩, ⟨14, 12, .rw, 7⟩, ⟨11, 11, .rsv, 0⟩, ⟨10, 8, .rw, 7⟩, ⟨7, 7, .rsv, 0⟩, ⟨6, 4, .rw, 7⟩, ⟨3, 3, .rsv, 0⟩, ⟨2, 0, .rw, 7⟩] },
  { off := 0x138, fields := [⟨31, 0, .rw, 0x55555552⟩] },
  { off := 0x13c, fields := [⟨31, 19, .rsv, 0⟩, ⟨18, 0, .ro, 0⟩] },
  { off := 0x140, fields := [⟨31, 0, .rc, 0⟩] },
  { off := 0x144, fields := [⟨31, 0, .rc, 0⟩] },
  { off := 0x148, fields := [⟨31, 0, .rc, 0⟩] },
  { off := 0x14c, fields := [⟨31, 0, .rc, 0⟩] },
  { off := 0x150, fields := [⟨31, 31, .ro, 0⟩, ⟨30, 20, .rsv, 0⟩, ⟨19, 16, .ro, 0⟩, ⟨15, 14, .rsv, 0⟩, ⟨13, 0, .wo, 0⟩] },
  { off := 0x400, dims := [(0x8, 256)], fields := [⟨31, 24, .rsv, 0⟩, ⟨23, 12, .rw, 0⟩, ⟨11, 0, .rw, 0⟩] },
  { off := 0x404, dims := [(0x8, 256)], fields := [⟨31, 19, .rsv, 0⟩, ⟨18, 9, .rw, 0⟩, ⟨8, 0, .rw, 0⟩] },
  { off := 0x1000, dims := [(0x4, 128)], lim := .ctxWord, fields := [⟨31, 0, .rw, 0⟩] }]

/-- Registers of PWR, from its chapter's tables. -/
def rowsPWR : List RegRow := [
  { off := 0x100, fields := [⟨31, 30, .rw, 0⟩, ⟨29, 28, .rsv, 0⟩, ⟨27, 24, .rw, 0⟩, ⟨23, 23, .rsv, 0⟩, ⟨22, 16, .rw, 0x40⟩, ⟨15, 0, .rw, 0x32⟩] },
  { off := 0x104, fields := [⟨31, 31, .ro, 0⟩, ⟨30, 16, .rsv, 0⟩, ⟨15, 0, .ro, 0⟩] },
  { off := 0x108, fields := [⟨31, 16, .ro, 0⟩, ⟨15, 10, .rsv, 0⟩, ⟨9, 0, .ro, 0⟩] },
  { off := 0x10c, fields := [⟨31, 26, .rsv, 0⟩, ⟨25, 16, .rw, 0x384⟩, ⟨15, 10, .rsv, 0⟩, ⟨9, 0, .ro, 0x320⟩] },
  { off := 0x110, fields := [⟨31, 31, .rw, 0⟩, ⟨30, 28, .ro, 5⟩, ⟨27, 26, .rsv, 0⟩, ⟨25, 16, .rw, 0x258⟩, ⟨15, 14, .rsv, 0⟩, ⟨13, 8, .rw, 0xc⟩, ⟨7, 0, .rw, 0xa⟩] },
  { off := 0x114, fields := [⟨31, 24, .rw, 0x50⟩, ⟨23, 16, .rw, 0x28⟩, ⟨15, 0, .rw, 0xc8⟩] },
  { off := 0x118, fields := [⟨31, 16, .rc, 0⟩, ⟨15, 0, .rc, 0⟩] },
  { off := 0x11c, fields := [⟨31, 24, .rw, 0x76⟩, ⟨23, 16, .rw, 0x69⟩, ⟨15, 8, .rw, 5⟩, ⟨7, 3, .rsv, 0⟩, ⟨2, 0, .rw, 1⟩] },
  { off := 0x120, fields := [⟨31, 29, .ro, 7⟩, ⟨28, 28, .ro, 0⟩, ⟨27, 24, .ro, 0⟩, ⟨23, 12, .rsv, 0⟩, ⟨11, 0, .ro, 0⟩] },
  { off := 0x124, fields := [⟨31, 31, .ro, 0⟩, ⟨30, 30, .ro, 0⟩, ⟨29, 0, .rsv, 0⟩] },
  { off := 0x128, fields := [⟨31, 0, .ro, 0⟩] },
  { off := 0x12c, fields := [⟨31, 0, .ro, 0⟩] },
  { off := 0x200, dims := [(0x4, 16)], lim := .core, fields := [⟨31, 31, .ro, 0⟩, ⟨30, 30, .rw, 0⟩, ⟨29, 19, .rsv, 0⟩, ⟨18, 16, .ro, 3⟩, ⟨15, 3, .rsv, 0⟩, ⟨2, 0, .rw, 3⟩] },
  { off := 0x300, dims := [(0x4, 12)], fields := [⟨31, 31, .ro, 0⟩, ⟨30, 12, .rsv, 0⟩, ⟨11, 0, .ro, 0⟩] }]

/-- Registers of TEST, from its chapter's tables. -/
def rowsTEST : List RegRow := [
  { off := 0x100, fields := [⟨31, 16, .rw, 0⟩, ⟨15, 3, .rsv, 0⟩, ⟨2, 2, .rw, 0⟩, ⟨1, 1, .rw, 0⟩, ⟨0, 0, .rw, 0⟩] },
  { off := 0x104, fields := [⟨31, 16, .rsv, 0⟩, ⟨15, 0, .rw, 0⟩] },
  { off := 0x108, fields := [⟨31, 28, .wo, 0⟩, ⟨27, 4, .rsv, 0⟩, ⟨3, 0, .wo, 0⟩] },
  { off := 0x10c, fields := [⟨31, 31, .ro, 0⟩, ⟨30, 28, .ro, 0⟩, ⟨27, 24, .ro, 0⟩, ⟨23, 23, .rsv, 0⟩, ⟨22, 20, .ro, 0⟩, ⟨19, 16, .ro, 0⟩, ⟨15, 12, .ro, 0⟩, ⟨11, 11, .ro, 0⟩, ⟨10, 0, .rsv, 0⟩] },
  { off := 0x110, fields := [⟨31, 31, .rw, 0⟩, ⟨30, 30, .rw, 0⟩, ⟨29, 16, .rsv, 0⟩, ⟨15, 0, .rw, 0x100⟩] },
  { off := 0x114, fields := [⟨31, 16, .rc, 0⟩, ⟨15, 0, .rc, 0⟩] },
  { off := 0x118, pair := .lo, fields := [⟨31, 4, .ro, 0⟩, ⟨3, 0, .rsv, 0⟩] },
  { off := 0x11c, pair := .hi, fields := [⟨31, 9, .rsv, 0⟩, ⟨8, 8, .ro, 0⟩, ⟨7, 0, .ro, 0⟩] },
  { off := 0x120, fields := [⟨31, 16, .rsv, 0⟩, ⟨15, 0, .ro, 0⟩] },
  { off := 0x200, dims := [(0x4, 16)], lim := .bank, fields := [⟨31, 8, .rsv, 0⟩, ⟨7, 7, .ro, 0⟩, ⟨6, 6, .ro, 0⟩, ⟨5, 3, .rsv, 0⟩, ⟨2, 0, .ro, 0⟩] }]

/-- Registers of BOOT, from its chapter's tables. -/
def rowsBOOT : List RegRow := [
  { off := 0x100, fields := [⟨31, 20, .rsv, 0⟩, ⟨19, 0, .ro, 0⟩] },
  { off := 0x104, pair := .lo, fields := [⟨31, 0, .ro, 0⟩] },
  { off := 0x108, pair := .hi, fields := [⟨31, 8, .rsv, 0⟩, ⟨7, 0, .ro, 0⟩] },
  { off := 0x10c, fields := [⟨31, 28, .rsv, 0⟩, ⟨27, 24, .ro, 0⟩, ⟨23, 16, .ro, 0⟩, ⟨15, 14, .rsv, 0⟩, ⟨13, 13, .ro, 0⟩, ⟨12, 12, .rsv, 0⟩, ⟨11, 0, .ro, 0⟩] },
  { off := 0x110, fields := [⟨31, 0, .rc, 0⟩] },
  { off := 0x114, fields := [⟨31, 31, .ro, 0⟩, ⟨30, 30, .rsv, 0⟩, ⟨29, 28, .ro, 0⟩, ⟨27, 24, .rsv, 0⟩, ⟨23, 16, .ro, 0⟩, ⟨15, 0, .ro, 0⟩] },
  { off := 0x118, fields := [⟨31, 5, .rsv, 0⟩, ⟨4, 0, .ro, 0⟩] },
  { off := 0x11c, fields := [⟨31, 30, .rw, 0⟩, ⟨29, 8, .rsv, 0⟩, ⟨7, 0, .rw, 0x10⟩] },
  { off := 0x120, fields := [⟨31, 31, .w1s, 0⟩, ⟨30, 30, .rw, 0⟩, ⟨29, 28, .rw, 0⟩, ⟨27, 25, .rsv, 0⟩, ⟨24, 16, .rw, 0⟩, ⟨15, 8, .rw, 0⟩, ⟨7, 0, .rw, 0⟩] },
  { off := 0x124, fields := [⟨31, 0, .rw, 0⟩] },
  { off := 0x128, pair := .lo, fields := [⟨31, 4, .rw, 0⟩, ⟨3, 0, .rsv, 0⟩] },
  { off := 0x12c, pair := .hi, fields := [⟨31, 8, .rsv, 0⟩, ⟨7, 0, .rw, 0⟩] },
  { off := 0x130, fields := [⟨31, 4, .rsv, 0⟩, ⟨3, 0, .ro, 0⟩] },
  { off := 0x134, fields := [⟨31, 31, .w1s, 0⟩, ⟨30, 2, .rsv, 0⟩, ⟨1, 0, .rw, 0⟩] },
  { off := 0x138, pair := .lo, fields := [⟨31, 4, .rw, 0⟩, ⟨3, 0, .rsv, 0⟩] },
  { off := 0x13c, pair := .hi, fields := [⟨31, 8, .rsv, 0⟩, ⟨7, 0, .rw, 0⟩] },
  { off := 0x140, dims := [(0x4, 12)], fields := [⟨31, 0, .ro, 0⟩] },
  { off := 0x170, fields := [⟨31, 16, .rsv, 0⟩, ⟨15, 0, .rw, 0⟩] }]

/-- Registers of KEY, from its chapter's tables. -/
def rowsKEY : List RegRow := [
  { off := 0x100, pair := .lo, fields := [⟨31, 6, .rw, 0⟩, ⟨5, 0, .rsv, 0⟩] },
  { off := 0x104, pair := .hi, fields := [⟨31, 8, .rsv, 0⟩, ⟨7, 0, .rw, 0⟩] },
  { off := 0x108, fields := [⟨31, 31, .w1s, 0⟩, ⟨30, 8, .rsv, 0⟩, ⟨7, 4, .ro, 0⟩, ⟨3, 0, .rsv, 0⟩] },
  { off := 0x10c, fields := [⟨31, 0, .ro, 0⟩] },
  { off := 0x110, fields := [⟨31, 31, .ro, 0⟩, ⟨30, 16, .rsv, 0⟩, ⟨15, 0, .rc, 0⟩] },
  { off := 0x120, dims := [(0x4, 4)], fields := [⟨31, 0, .ro, 0⟩] },
  { off := 0x130, fields := [⟨31, 31, .w1s, 0⟩, ⟨30, 6, .rsv, 0⟩, ⟨5, 4, .ro, 0⟩, ⟨3, 2, .rw, 0⟩, ⟨1, 0, .rw, 0⟩] },
  { off := 0x140, dims := [(0x4, 32)], fields := [⟨31, 0, .wo, 0⟩] },
  { off := 0x200, dims := [(0x4, 32)], fields := [⟨31, 31, .ro, 0⟩, ⟨30, 30, .ro, 0⟩, ⟨29, 29, .ro, 0⟩, ⟨28, 5, .rsv, 0⟩, ⟨4, 0, .ro, 0⟩] }]

/-- Registers of WDR, from its chapter's tables. -/
def rowsWDR : List RegRow := [
  { off := 0x100, fields := [⟨31, 6, .rsv, 0⟩, ⟨5, 0, .ro, 0⟩] },
  { off := 0x104, fields := [⟨31, 16, .wo, 0⟩, ⟨15, 5, .rsv, 0⟩, ⟨4, 4, .wo, 0⟩, ⟨3, 0, .wo, 0⟩] },
  { off := 0x108, fields := [⟨31, 31, .w1s, 0⟩, ⟨30, 16, .rsv, 0⟩, ⟨15, 0, .rw, 0x7d0⟩] },
  { off := 0x10c, fields := [⟨31, 0, .wo, 0⟩] },
  { off := 0x110, fields := [⟨31, 16, .rsv, 0⟩, ⟨15, 0, .ro, 0⟩] },
  { off := 0x114, fields := [⟨31, 24, .ro, 0⟩, ⟨23, 16, .ro, 0⟩, ⟨15, 12, .ro, 0⟩, ⟨11, 0, .ro, 0⟩] },
  { off := 0x118, fields := [⟨31, 16, .rc, 0⟩, ⟨15, 0, .rc, 0⟩] },
  { off := 0x200, dims := [(0x4, 16)], lim := .core, fields := [⟨31, 31, .rw, 0⟩, ⟨30, 28, .rsv, 0⟩, ⟨27, 16, .rw, 0⟩, ⟨15, 0, .rw, 0⟩] },
  { off := 0x240, dims := [(0x4, 16)], lim := .core, fields := [⟨31, 0, .wo, 0⟩] }]

/-- Registers of DBG, from its chapter's tables. -/
def rowsDBG : List RegRow := [
  { off := 0x100, fields := [⟨31, 18, .rsv, 0⟩, ⟨17, 16, .ro, 0⟩, ⟨15, 0, .ro, 0⟩] },
  { off := 0x104, fields := [⟨31, 30, .wo, 0⟩, ⟨29, 16, .rsv, 0⟩, ⟨15, 0, .wo, 0⟩] },
  { off := 0x108, fields := [⟨31, 28, .rsv, 0⟩, ⟨27, 24, .rw, 0⟩, ⟨23, 22, .rsv, 0⟩, ⟨21, 20, .rw, 0⟩, ⟨19, 10, .rsv, 0⟩, ⟨9, 0, .rw, 0⟩] },
  { off := 0x10c, fields := [⟨31, 31, .ro, 0⟩, ⟨30, 8, .rsv, 0⟩, ⟨7, 4, .ro, 0⟩, ⟨3, 2, .rsv, 0⟩, ⟨1, 0, .wo, 0⟩] },
  { off := 0x110, dims := [(0x4, 4)], fields := [⟨31, 0, .rw, 0⟩] },
  { off := 0x120, fields := [⟨31, 1, .rsv, 0⟩, ⟨0, 0, .rw, 0⟩] },
  { off := 0x124, pair := .lo, fields := [⟨31, 4, .rw, 0⟩, ⟨3, 0, .rsv, 0⟩] },
  { off := 0x128, pair := .hi, fields := [⟨31, 8, .rsv, 0⟩, ⟨7, 0, .rw, 0⟩] },
  { off := 0x12c, fields := [⟨31, 31, .ro, 0⟩, ⟨30, 8, .rsv, 0⟩, ⟨7, 4, .ro, 0⟩, ⟨3, 2, .rsv, 0⟩, ⟨1, 0, .wo, 0⟩] },
  { off := 0x130, dims := [(0x4, 4)], fields := [⟨31, 0, .rw, 0⟩] },
  { off := 0x140, fields := [⟨31, 1, .rsv, 0⟩, ⟨0, 0, .rw, 0⟩] },
  { off := 0x150, fields := [⟨31, 31, .rw, 0⟩, ⟨30, 30, .rw, 0⟩, ⟨29, 16, .rsv, 0⟩, ⟨15, 0, .rw, 0⟩] },
  { off := 0x154, fields := [⟨31, 16, .rw, 0⟩, ⟨15, 15, .rw, 0⟩, ⟨14, 12, .rsv, 0⟩, ⟨11, 0, .rw, 0⟩] },
  { off := 0x158, fields := [⟨31, 17, .rsv, 0⟩, ⟨16, 16, .ro, 0⟩, ⟨15, 0, .ro, 0⟩] },
  { off := 0x15c, fields := [⟨31, 16, .rsv, 0⟩, ⟨15, 0, .rw, 0⟩] },
  { off := 0x160, dims := [(0x4, 4)], fields := [⟨31, 0, .ro, 0⟩] },
  { off := 0x170, fields := [⟨31, 0, .rc, 0⟩] },
  { off := 0x174, fields := [⟨31, 0, .wo, 0⟩] },
  { off := 0x180, dims := [(0x4, 4)], fields := [⟨31, 0, .ro, 0⟩] }]

end Sys2Proof.Machine
end

