-- ==== Sys2Proof/Machine/Regs.lean ====
section
/-! DEFINITION. What every register reads after a reset of its block: the tables of Machine/RegMap.lean, with the values
that depend on the block, the variant or the instance (R105, R106, R110, and the chapters' own exceptions). -/

namespace Sys2Proof.Machine

/-- The block ID of a register-window address (R9). -/
def blkOf (a : Nat) : Nat := a / 0x100000 - 0xE00

/-- The offset of an address in its window (R9). -/
def offOf (a : Nat) : Nat := a % 0x100000

/-- Whether an address lies in the register windows of blocks 0x00–0x13 (R95). -/
def inWindows (a : Nat) : Bool := decide (0xE0000000 ≤ a) && decide (a < 0xE1400000)

/-- The block-specific rows of a block. -/
def blkRows (b : Nat) : List RegRow :=
  match b with
  | 0x01 => rowsSCHED
  | 0x02 => rowsCAP
  | 0x03 => rowsTRANS
  | 0x04 => rowsMEM
  | 0x05 => rowsQUE
  | 0x06 => rowsEVT
  | 0x07 => rowsPHASE
  | 0x08 => rowsLOOP
  | 0x09 => rowsMEAS
  | 0x0A => rowsFLINK
  | 0x0B => rowsNET
  | 0x0C => rowsSER
  | 0x0D => rowsTWIN
  | 0x0E => rowsPWR
  | 0x0F => rowsTEST
  | 0x10 => rowsBOOT
  | 0x11 => rowsKEY
  | 0x12 => rowsWDR
  | 0x13 => rowsDBG
  | _ => []

/-- The indices that offset `o` (counted from the row's first register) has in an array with these (stride, count)s. -/
def dimIndex : List (Nat × Nat) → Nat → Option (List Nat)
  | [], o => if o = 0 then some [] else none
  | (st, n) :: r, o =>
    if o / st < n then
      match dimIndex r (o % st) with
      | some is => some (o / st :: is)
      | none => none
    else none

/-- The row of a table that holds offset `o`, with the register's indices in its array. -/
def findRow : List RegRow → Nat → Option (RegRow × List Nat)
  | [], _ => none
  | t :: ts, o =>
    if t.off ≤ o then
      match dimIndex t.dims (o - t.off) with
      | some is => some (t, is)
      | none => findRow ts o
    else findRow ts o

/-- The row of a physical address in the register windows. -/
def rowOf (a : Nat) : Option (RegRow × List Nat) :=
  if offOf a < 0x100 then findRow commonRows (offOf a) else findRow (blkRows (blkOf a)) (offOf a)

/-- The reset value of a row, from its fields. -/
def rowReset (t : RegRow) : Nat := t.fields.foldl (fun x f => x + f.reset * 2 ^ f.lo) 0

/-- The bits of a row with access code `acc`, as a mask. -/
def accMask (t : RegRow) (acc : Acc) : Nat :=
  t.fields.foldl (fun x f => if f.acc = acc then x + (2 ^ (f.hi + 1) - 2 ^ f.lo) else x) 0

/-- BLK_ID.INST (R106). -/
def instCount (v : Variant) (b : Nat) : Nat :=
  match b with
  | 0x00 => Config.cores v
  | 0x01 => Config.contexts v / 256
  | 0x04 => Config.memBanks v
  | 0x05 => Config.queues v / 1024
  | 0x07 => 16
  | 0x08 => Config.cells v / 64
  | 0x0A => Config.lanes v
  | 0x0B => Config.ports v
  | 0x0C => 8
  | 0x0D => 4
  | 0x11 => 32
  | _ => 1

/-- FEAT_OFFER of each block (R56, R92, R303, R327, R342, R357, R384, R417, R449, R469, R488, R520, R538, R556, R576).
The core array's chapter defines no feature bit, so its offer is the baseline (R110). -/
def featOffer (v : Variant) (b : Nat) : Nat :=
  match b with
  | 0x01 => 7
  | 0x02 => 7
  | 0x03 => 3
  | 0x04 => 7
  | 0x05 => 0x1F
  | 0x06 => 7
  | 0x07 => if Config.fieldDie v then 0xFF else 0x91
  | 0x08 => 0x7F
  | 0x09 => 0x7F
  | 0x0A => 0xF
  | 0x0B => if Config.macsec v then 0x1F else 0xF
  | 0x0C => 7
  | 0x0D => if Config.fieldDie v then 0x7F else 0x5F
  | 0x0E => 0x1F
  | 0x0F => 0x1F
  | 0x10 => 7
  | 0x11 => 7
  | 0x12 => 3
  | 0x13 => 7
  | _ => 1

/-- Reset values that the tables give by block, variant or instance, or that are fused (taken as zero, assumption 7). -/
def specialReset (v : Variant) (a : Nat) : Option Nat :=
  if a = BLK_ID (blkOf a) then some (blkOf a * 0x1000000 + instCount v (blkOf a) * 0x10000 + 0x0901)
  else if a = BLK_VER (blkOf a) then some (0x01000000 + (Config.stepping (if blkOf a = 9 then 1 else 0)).toNat)
  else if a = FEAT_OFFER (blkOf a) then some (featOffer v (blkOf a))
  else if a = SCHED_CORECTL 0 then some 1
  else if a = SCHED_CORERES01 0 then some 0x8000
  else if a = PHASE_AXCTL 0 then some 0x80000000
  else if a = PHASE_AXCTL 1 then some 0x10000000
  else if a = PHASE_AXCTL 2 then some 0x20000000
  else if a = PHASE_AXSTAT 0 then some 0x40000000
  else if a = PHASE_AXVEL 0 then some 21
  else if a = PHASE_AXVELX 0 then some 0x798F
  else if a = BOOT_UNITMAP then some (Config.unitmap v)
  else if a = KEY_SLOTATTR 0 then some 0xE000000E
  else if a = WDR_RSTCAUSE then some 1
  else if blkOf a = 0x07 && decide (PHASE_AXCTL 3 ≤ a) && decide (a ≤ PHASE_AXCTL 15) && decide (a % 0x80 = 0) then some 0x60000000
  else none

/-- What a register reads after a reset, zero outside the tables (R103). -/
def regReset (v : Variant) (a : Nat) : W32 :=
  match rowOf a with
  | none => 0
  | some (t, _) =>
    match specialReset v a with
    | some x => BitVec.ofNat 32 x
    | none => BitVec.ofNat 32 (rowReset t)

/-- The first source number of a block's range (R343). -/
def firstSource (b : Nat) : Nat :=
  match b with
  | 0x00 => 0
  | 0x01 => 128
  | 0x02 => 192
  | 0x03 => 224
  | 0x04 => 256
  | 0x05 => 320
  | 0x07 => 448
  | 0x08 => 512
  | 0x09 => 640
  | 0x0A => 768
  | 0x0B => 832
  | 0x0C => 880
  | 0x0D => 912
  | 0x0E => 944
  | 0x0F => 960
  | 0x10 => 976
  | 0x11 => 984
  | 0x12 => 992
  | 0x13 => 1008
  | _ => 384

/-- How many instances of the first index of a row the variant has (R3, R122). -/
def limitOf (v : Variant) (l : Limit) : Nat :=
  match l with
  | .all => 0x100000
  | .core => Config.cores v
  | .bank => Config.memBanks v
  | .cell => Config.cells v
  | .lane => Config.lanes v
  | .port => Config.ports v
  | .ctxWord => Config.contexts v / 32

end Sys2Proof.Machine
end

