-- ==== Sys2Proof/Machine/State.lean ====
section
/-! DEFINITION. The state of the machine as plain data, the reasons a step can stop, and the state right after a
power-on reset. A register that a register page shows has its one home in `regs`; the other fields hold what the spec
gives the machine beside its pages. -/

namespace Sys2Proof.Machine

/-- The reasons the machine can stop with a fault. No command of this model raises one: every command the spec gives an
effect has it, and the spec stops no command. `never` is unused (safe). -/
inductive Fault where
  | never
  deriving DecidableEq, Repr

/-- The reasons a command has no meaning. `notModelled` is answered by an arm of Dispatch.lean for a row that has no
meaning yet (safe: a refusal proves nothing of the hardware). -/
inductive Refusal where
  | notModelled (mnemonic : String)
  deriving DecidableEq, Repr

/-! ### The cores -/

/-- The signal-unit state of R138: accumulators, modulo pairs and CRC polynomial. -/
structure Sig where
  acc : List (BitVec 80)
  mb : List W64
  ml : List W32
  crcpoly : W64
  deriving DecidableEq, Repr

/-- A pending late-store report (R219, R220). -/
structure LateReport where
  sub : Nat
  fadr : W64
  finfo : W64
  deriving DecidableEq, Repr

/-- The register state of a context that a resident bank holds (R136, R239). `own` and `pas` hold the ring, register `k`
of window `w` at index `8 w + k`; `glob` holds c1–c7 at index `i - 1`. -/
structure CtxRegs where
  pcc : CapW
  glob : List CapW
  own : List CapW
  pas : List CapW
  preds : BitVec 8
  rcnt : W32
  prog : W64
  winctl : W32
  space : BitVec 12
  status : BitVec 11
  sig : Sig
  late : Option LateReport
  deriving DecidableEq, Repr

/-- A resident bank: the context it holds, its registers, and the sequence number of the moment it was last current
(0: not since its load, R319). -/
structure ResBank where
  ctx : Option Nat
  regs : CtxRegs
  lastCur : Nat
  deriving DecidableEq, Repr

/-- The physical place of a c register: global, own or passed register of a window, or fault bank (R134, R274). -/
inductive RegId where
  | null
  | glob (i : Nat)
  | own (i : Nat)
  | pas (i : Nat)
  | fb (i : Nat)
  deriving DecidableEq, Repr

/-- A cause with the registers it reports (R266, R267), and the space of a translation that was read ahead (R293; none: the current
space). -/
structure Cause where
  code : Nat
  sub : Nat
  fadr : W64
  finfo : W64
  inRep : Bool
  progress : Bool
  async : Bool
  imprecise : Bool
  lopc : W64
  space : Option Nat := none
  deriving DecidableEq, Repr

/-- A leaf of the translation tables (R283): physical page address, log2 of its size, minimum ring and attributes. -/
structure Leaf where
  frame : Nat
  size : Nat
  minring : Nat
  g : Bool
  tw : Bool
  se : Bool
  d : Bool
  a : Bool
  cs : Bool
  cl : Bool
  x : Bool
  w : Bool
  r : Bool
  deriving DecidableEq, Repr

/-- A TLB entry (R291): the leaf, the virtual page it maps, the space it was walked in, and whether it has been used recently. -/
structure TlbEntry where
  space : Nat
  vbase : Nat
  leaf : Leaf
  used : Bool
  deriving DecidableEq, Repr

/-- What a walk ends in (R286): a leaf, or cause, subcode, level and entry address. -/
inductive WalkRes where
  | leaf (l : Leaf)
  | fault (code sub level entry : Nat)
  deriving DecidableEq, Repr

/-- A walk finished for a held bundle: the address and space walked and the result. -/
structure WalkDone where
  va : Nat
  space : Nat
  res : WalkRes
  deriving DecidableEq, Repr

/-- A store-buffer entry (R216). `bytes` are the word's bytes under `mask`, lane by lane; `se` and `tw` are the page's
attributes (R217, R494), `cap` marks an entry of STC, `sent` that it has been sent, `answer` the status that its tile has returned
(R63), `sync` the number of the store under SYNCST that waits for it (R222), and `orphan` that its core has been reset since (R277). -/
structure StoreEntry where
  id : Nat
  word : Nat
  mask : BitVec 16
  data : W128
  tag : Bool
  cap : Bool
  pa : Nat
  va : W64
  ctx : Nat
  se : Bool
  tw : Bool
  sent : Bool
  answer : Option Status
  sync : Option Nat
  orphan : Bool
  deriving DecidableEq, Repr

/-- A long operation in flight (R184): destination, its number and FN for a report, the result (none: an error), and the
address of its bundle (LOPC) and exception level it was issued at (0, 1: EXL, 2: DFL), at which its error falls due (R185). -/
structure LongOp where
  dest : RegId
  rd : Nat
  fn : Nat
  result : Option W64
  lopc : W64
  lvl : Nat
  deriving DecidableEq, Repr

/-- A line of the L1 instruction cache, or of boot ROM or flash in the L1 data cache (R211, R226): its physical line address and its
bytes as they stood at the fill. -/
structure ILine where
  line : Nat
  bytes : List Byte
  deriving DecidableEq, Repr

/-- A bundle in the fetch buffer: the virtual address of its first syllable, the syllables read, and the cause found for it
(raised only if the bundle is reached, R225). -/
structure Fetched where
  addr : W64
  words : List W32
  cause : Option Cause
  deriving DecidableEq, Repr

/-- What holds a bundle in the pipeline. -/
inductive Hold where
  | miss (line : Nat)          -- a load miss: LOAD_MISS_FILL (R211)
  | walk (va : Nat) (fetch : Bool) -- a walk: TABLE_WALK (R286)
  | stores                     -- stores of the buffer must complete first (R87, R88, R217, R218, R221, R222)
  | longs                      -- a long operation must finish first (R184, R186)
  | icinv                      -- IBAR waits for acknowledgements (R228)
  | tlbsync                    -- TLBSYNC waits for acknowledgements (R298)
  | granules                   -- MCOPY waits for granules in flight (R202)
  | flash                      -- a read of the flash window waits for the flash command in progress (R550)
  | field                      -- a field-die register access waits for its answer (R420)
  deriving DecidableEq, Repr

/-- A bundle held in the pipeline, and what has been delivered to it meanwhile: lines filled for it, walks finished, units
of a block instruction or iterations of REPN performed, how its stores under SYNCST completed (the subcode of 0x58, 0 for OK), an answer of the field die,
the words of a repeat target, the operands a block instruction read when it started, the stores of a lazy save already made,
whether the stores under SYNCST of the bundle or of its unit in progress are in the buffer, whether its own long operation has
finished (R186), and the bytes that an ERET's reload has read (R263). `begun` says that a unit, a store or an access of it has been
performed, so that it is not discarded. -/
structure Held where
  words : List W32
  why : Hold
  fills : List Nat
  walks : List WalkDone
  begun : Bool
  done : Nat
  sync : List (Nat × Nat)
  answer : Option W32
  target : List W32
  opnds : List CapW
  lazyDone : Nat
  unitOut : Bool
  longOk : Bool
  sigBytes : List Byte
  deriving DecidableEq, Repr

/-- A part of a granule's source within one page: physical address, length, and the page's capability-load right. -/
structure GranSrc where
  pa : Nat
  len : Nat
  cl : Bool
  deriving DecidableEq, Repr

/-- An MCOPY granule in flight (R202, R203): source parts, destination address and length; `tags` says that the capabilities and
the destination page let tags be copied, `local_` that local ones may be (R51), `desc` that words go in descending order, `tw` that
the destination page is replicated (R495), `cancelled` that the queue engine has been disabled since (R116). -/
structure Granule where
  srcs : List GranSrc
  dst : Nat
  len : Nat
  tags : Bool
  local_ : Bool
  desc : Bool
  tw : Bool
  cancelled : Bool := false
  deriving DecidableEq, Repr

/-- An interrupt grant a core holds (R348): the line and the source granted. -/
structure Grant where
  line : Nat
  source : Nat
  deriving DecidableEq, Repr

/-- A core: its resident banks and the state that is the core's and not a context's (R239). -/
structure Core where
  banks : List ResBank
  cur : Option Nat
  epc : CapW
  kentry : CapW
  dfentry : CapW
  dfepc : CapW
  estat : BitVec 11
  dfstat : BitVec 11
  cause : BitVec 20
  dfcause : BitVec 20
  fadr : W64
  finfo : W64
  lopc : W64
  lazyptr : W64
  fbank : List CapW
  itlb : List TlbEntry
  dtlb : List TlbEntry
  utlb : List TlbEntry
  l1d : List Nat
  l1dRom : List ILine
  l1i : List ILine
  fbuf : List Fetched
  sb : List StoreEntry
  ghosts : List StoreEntry
  longs : List LongOp
  longErrs : List LongOp
  late : List (RegId × CapW)
  lateNew : List (RegId × CapW)
  opened : List W32
  held : Option Held
  granules : List Granule
  grant : Option Grant
  grantReq : Option Nat
  alerts : List Cause
  yhalt : Bool
  halted : Bool
  haltReq : Bool
  stepping : Bool
  loading : List (Nat × Nat)
  icinvRx : List (Nat × Nat)
  icinvWait : Nat
  tlbRx : List (Nat × W64)
  tlbAcks : List (Nat × List Nat × Bool)
  tlbWait : Nat
  deriving DecidableEq, Repr

/-! ### Memory, queues, the scheduler and the event controller -/

/-- What asks for an entry of a tile port (R62, R63): a request, or the write of an entry of core `n`'s store buffer. -/
inductive PortJob where
  | req (q : PortReq)
  | store (n : Nat) (e : StoreEntry)
  deriving DecidableEq, Repr

/-- An entry of a tile port: its job and, once it is performed, its status and the word read (R63). -/
structure PortEntry where
  job : PortJob
  fin : Option (Status × CapW)
  deriving DecidableEq, Repr

/-- A port of a tile (R63, R64): the jobs that wait in the fabric, the entries in use, oldest first, and the requester granted last. -/
structure TilePort where
  wait : List PortJob
  busy : List PortEntry
  last : Nat
  deriving DecidableEq, Repr

/-- The two ports of a tile (R62). -/
structure TileS where
  a : TilePort
  b : TilePort
  deriving DecidableEq, Repr

/-- A queue's descriptor and counts (R329, R338), and whether its twin copy is out of step (R501). -/
structure QDesc where
  base : Nat
  ctx : Nat
  bound : Bool
  ovwr : Bool
  twin : Bool
  en : Bool
  dom : Nat
  size : Nat
  classmask : Nat
  hiwat : Nat
  put : Nat
  get : Nat
  ovf : Nat
  desync : Bool
  deriving DecidableEq, Repr

/-- A SUSPEND waiting for a boundary or an eviction (R311, R314): context, CTXCMD.EV, and whether its eviction started. -/
structure Suspend where
  ctx : Nat
  ev : Bool
  started : Bool
  deriving DecidableEq, Repr



/-! ### The phase engine -/

/-- A stretch of an axis's history: from `tick` on the coordinate (80 bits, 16 of them below the fraction unit) grew by `vel`
a tick. -/
structure AxSeg where
  tick : Nat
  pos : Nat
  vel : Int
  deriving DecidableEq, Repr

/-- An update delivered to a tracking axis for tick `tick` (R364): a fraction only, or a full coordinate. -/
structure AxUpd where
  tick : Nat
  frac : Bool
  pos : Nat
  deriving DecidableEq, Repr

/-- What an axis has beside its registers: the bits below the fraction unit (R358), whether its last nonzero advance was
backward (R359), the updates seen and in a row within JUMPLIM (R367), the tick of the latest mains crossing, ticks without an
update and in HOLDOVER, the coordinate held at entry into DEAD (R368), its history and the updates waiting. -/
structure AxisS where
  sub : Nat
  back : Option Bool
  seen : Nat
  lock : Nat
  cross : Option Nat
  loss : Nat
  hold : Nat
  dead : Option W64
  segs : List AxSeg
  upds : List AxUpd
  deriving DecidableEq, Repr

/-- A mark action queued for issue (R376): the mark, its action, argument and axis, the crossing tick, the coordinate
crossed, and MSTAT[7:0]. -/
structure MarkAct where
  mark : Nat
  action : Nat
  arg : Nat
  axis : Nat
  tick : Nat
  coord : W64
  flags : Nat
  deriving DecidableEq, Repr

/-- A committed pin command (R378). -/
structure PinCmd where
  target : Nat
  mark : Nat
  out : Nat
  action : Nat
  deriving DecidableEq, Repr

/-- A committed crossing watched for SKEW (R379). -/
structure PinWatch where
  mark : Nat
  axis : Nat
  coord : W64
  fwd : Bool
  target : Nat
  deriving DecidableEq, Repr

/-- A pin commit put off to a later tick (R381): direction, lateness, and the tick of the crossing if it is past. -/
structure PinDefer where
  mark : Nat
  fwd : Bool
  late : Bool
  cross : Option Nat
  deriving DecidableEq, Repr

/-- The phase engine beside its page: the axes, marks whose arming check is due (R370), commits put off, queued actions,
pin commands not yet landed, crossings watched, and the pin commands committed in the
latest tick (R381). -/
structure PhaseS where
  axes : List AxisS
  fresh : List Nat
  defer : List PinDefer
  acts : List MarkAct
  pins : List PinCmd
  watch : List PinWatch
  commits : Nat
  deriving DecidableEq, Repr

/-! ### The loop engine -/

/-- A pending step request (R389): its cell and flags, and which step of its chain it asks for (R403). -/
structure LoopReq where
  cell : Nat
  late : Bool
  pred : Bool
  depth : Nat
  deriving DecidableEq, Repr

/-- A relay experiment in progress (R410, R411): its cell, U0, the relay's position, the steps since START, cycles completed,
the steps, least and greatest y of the cycle in progress, and the sums over the measured cycles. -/
structure TuneS where
  cell : Nat
  u0 : W32
  high : Option Bool
  steps : Nat
  cycles : Nat
  inCycle : Bool
  len : Nat
  ymin : W32
  ymax : W32
  lenSum : Nat
  ampSum : W32
  deriving DecidableEq, Repr

/-- The loop engine beside its page: pending requests in the order they are served, the tick of each cell's latest step, the
PID cells that have made a normal step since enable, fallback or tuning (R395), latched fallbacks (1 in force, 2 released by
RESUME, R406), the experiment running and a gain commit not yet made
(R415). -/
structure LoopS where
  reqs : List LoopReq
  startedAt : SMap (Option Nat)
  normal : SMap Bool
  latch : SMap Nat
  tune : Option TuneS
  commit : Option Nat
  deriving DecidableEq, Repr

/-! ### The measurement front end -/

/-- A sigma-delta channel beside its page: results since it was enabled, the centre ticks of accepted triggers (R426), and the
zero-crossing detector's arming and latest valid result (R428). -/
structure ChanS where
  results : Nat
  trigs : List Nat
  zcArmed : Bool
  last : Option (Int × Nat)
  deriving DecidableEq, Repr

/-- An encoder pin (R431): the level it has and the tick since which it has had it, and the level last accepted. -/
structure EncPin where
  level : Bool
  since : Nat
  accepted : Bool
  deriving DecidableEq, Repr

/-- An encoder interface beside its page: its pins, the count with the ticks at which it changed, newest first (R430), and the latest
valid SSI reads with their tick and word (R432). -/
structure EncS where
  a : EncPin
  b : EncPin
  z : EncPin
  count : Int
  hist : List (Nat × Int)
  reads : List (Nat × Int)
  word : Option Nat
  deriving DecidableEq, Repr

/-- A digital input beside its page: consecutive samples that differed from its state, the comparator's output, microseconds
counted towards the next envelope decay, and the hysteresis in use (R434, R435). -/
structure DinS where
  differ : Nat
  comp : Bool
  decay : Nat
  hyst : Nat
  deriving DecidableEq, Repr

/-- A PWM timer (R441): the centre and length of its period, the centre that the phase engine sent last since it
locked, and whether a locked timer runs free because the period it was sent is too short. -/
structure PwmS where
  centre : Nat
  period : Nat
  sent : Option Nat
  free : Bool
  deriving DecidableEq, Repr

/-- A PWM or analogue command on its way to the field die (R392): output kind (1 PWM, 2 analogue), index and code. -/
structure OutCmd where
  kind : Nat
  idx : Nat
  code : Nat
  deriving DecidableEq, Repr

/-- The measurement front end beside its page: channels, encoders, inputs, timers, duty and dead time in use (R441), commands
on their way, and the pin commands landed in the tick in progress with the digital levels commanded beside them (R437). -/
structure MeasS where
  chans : List ChanS
  encs : List EncS
  dins : List DinS
  pwms : List PwmS
  duty : SMap Nat
  dead : SMap Nat
  outs : List OutCmd
  landed : List (Nat × Nat)
  levels : BitVec 32
  deriving DecidableEq, Repr


/-! ### The key store, the boot controller and the reset controller -/

/-- A key-store command running (R553): the address of its descriptor, and its status once its work is done. -/
structure KeyJob where
  desc : Nat
  status : Option Nat
  deriving DecidableEq, Repr

/-- The key store beside its page: the keys of slots 1–31, the salt and SSCI of MACSEC slots, the command running, and whether a
challenge is outstanding (R552–R555). -/
structure KeyS where
  slots : SMap (List Byte)
  salts : SMap (List Byte)
  job : Option KeyJob
  challenge : Bool
  deriving DecidableEq, Repr

/-- The boot controller beside its page: BMR0–BMR3 (R549), whether a flash transaction is running (R550), and whether core 0 waits in
the boot ROM after a failed boot or in a ROM handler (R545). -/
structure BootS where
  bmr : List (List Byte)
  flash : Bool
  wait : Bool
  deriving DecidableEq, Repr

/-- The reset controller beside its page: the first word of the reload sequence has been written, half of the chip watchdog's period
has passed (R544), and a chip reset holds the package, with the sources active (R540); beside them the fuse CWDAUTO (R544), and
of each core watchdog the phase ticks left and the ticks for which its core has issued with IE = 0 (R543). -/
structure WdrS where
  kick : Bool
  half : Bool
  held : Option Nat
  auto : Bool
  left : List Nat
  mute : List Nat
  deriving DecidableEq, Repr

/-! ### The field links -/

/-- A request a lane has taken (R466), with the stamp of its frame (R457). -/
structure FlinkReq where
  entry : Nat
  slot : Nat
  cookie : Nat
  len : Nat
  flags : Nat
  qtag : Nat
  reply : Bool
  stamp : W64
  deriving DecidableEq, Repr

/-- A request in progress on a lane (R467): the tick of its take, its SEQ, the frame's bytes up to the payload's end with STAMP zero, the
key of its tag, and the whole frame after the delimiter once that has left the pins. -/
structure LaneTx where
  req : FlinkReq
  at_ : Nat
  seq : Nat
  body : List Byte
  key : Option (List Byte)
  frame : Option (List Byte)
  deriving DecidableEq, Repr

/-- A lane beside its page: the request in progress; the request that an open window answers; the errors that event 2 counts (R470); the
tick since which its line has been idle, none when it has not been busy; the tick from which its receiver hunts for a frame (R454); and the
tick from which it begins no frame, none when it never stopped (R468). -/
structure LaneS where
  tx : Option LaneTx
  win : Option FlinkReq
  errs : Nat
  idle : Option Nat
  ready : Nat
  stopped : Option Nat
  deriving DecidableEq, Repr

/-- A partner beside its page: its token bucket, in units of 1/(200 × 10^6) token as it stood at tick `at_` (R465), and RXCNT. -/
structure PartS where
  tokens : Nat
  at_ : Nat
  rxcnt : Nat
  deriving DecidableEq, Repr

/-- The field links beside their page. -/
structure FlinkS where
  lanes : List LaneS
  parts : SMap PartS
  deriving DecidableEq, Repr

/-! ### The network switch and the serial ports -/

/-- A transmit request taken (R478). -/
structure NetReq where
  chan : Nat
  slot : Nat
  cookie : Nat
  ts : Bool
  onestep : Bool
  ofs : Nat
  deriving DecidableEq, Repr

/-- A frame in an egress buffer: its bytes up to the FCS, its traffic class, and the request it answers (none: forwarded). -/
structure NetFrame where
  bytes : List Byte
  tc : Nat
  req : Option NetReq
  deriving DecidableEq, Repr

/-- A MACsec SA (R482). -/
structure SaS where
  en : Bool
  xpn : Bool
  an : Nat
  kslot : Nat
  sci : Nat
  pn : Nat
  deriving DecidableEq, Repr

/-- A port beside its page: the egress frames, the frame it sent last, the broadcasts and multicasts of the current 100 µs (its
number), the rate bucket in units of 1/1600 byte as it stood at a tick (R476), the base and cycle a swap asked for, those in use, the
entries in use and the start of the gate cycle that took them, in ns (R483), and the BADREQ it has counted (R478). -/
structure PortS where
  egress : List NetFrame
  wire : List Byte
  window : Nat
  bc : Nat
  mc : Nat
  bucket : Nat
  at_ : Nat
  swap : Option (Nat × Nat)
  inUse : Option (Nat × Nat)
  gates : List W32
  cycle : Option Nat
  badReq : Nat
  deriving DecidableEq, Repr

/-- The network switch beside its page: ports, rules (eight words), SAs, the receive channels' RXCNT and the RXFULL they have counted
(R477), the PTP clock's bits below the nanosecond (in 2^−32 ns), a step not yet applied (R480), and the tick at which it left RUNNING. -/
structure NetS where
  ports : List PortS
  rules : SMap (List W32)
  sas : SMap SaS
  rxcnt : SMap Nat
  rxFull : SMap Nat
  frac : Nat
  step : Option Int
  stopped : Option Nat
  deriving DecidableEq, Repr

/-- A request a UART has taken (R486), with its bytes, and the tick at which DE rises for it. -/
structure SerReq where
  slot : Nat
  cookie : Nat
  len : Nat
  bytes : List Byte
  de : Nat
  deriving DecidableEq, Repr

/-- A UART beside its page: the request being sent, RXCNT, whether a break has been seen since the latest frame, the tick since which its
line has been idle (none: it has not been busy), the ticks at which DE last rose and fell, and the tick at which SER left RUNNING. -/
structure UartS where
  tx : Option SerReq
  rxcnt : Nat
  brk : Bool
  idle : Option Nat
  lastDe : Option (Nat × Nat)
  stopped : Option Nat
  deriving DecidableEq, Repr
/-! ### Power, test and debug -/

/-- The power controller beside its page: the droop level of each quadrant (R531), whether VTARGET is to rise for a droop, the tick at which
the latest stretch ended, the tick since which slack has been ample (R530), consecutive cool reports and whether throttling has
begun (R534), the voltage of a regulator command in progress, and the voltage commanded last and not yet reached with
the tick of its command (R535). -/
structure PwrS where
  levels : List Nat
  bump : Bool
  stretchEnd : Option Nat
  ampleSince : Option Nat
  cool : Nat
  throttling : Bool
  cmd : Option Nat
  want : Option (Nat × Nat)
  deriving DecidableEq, Repr

/-- The test engine beside its page: the next tile of each bank and the bank tested last (R559), banks whose spare stands in for a
failed tile (R560) or waits for the bank to leave URGENT (R561), banks whose permanent repair is due or in its swap (R560, R80), the
command running (OP and ARG), and the scrub's word
counters (R564, R566). -/
structure TestS where
  nextTile : SMap Nat
  lastBank : Nat
  failed : List Nat
  waiting : List Nat
  repairing : List Nat
  cmd : Option (Nat × Nat)
  scrub : Nat
  store : Nat
  deriving DecidableEq, Repr

/-- The debug unit beside its page: the TAP's instruction in force, and the data and status that the next Capture-DR of DBGACC returns
(R567, R569). -/
structure DbgS where
  ir : Nat
  data : W32
  status : Nat
  deriving DecidableEq, Repr
/-! ### The twin link -/

/-- A checkpoint being captured (R505): its tag, the tick that accepted it, the axes (whether each coordinate is valid, and the
coordinate) and the marks as they stood at that tick. -/
structure CapS where
  tag : Nat
  tick : Nat
  axes : List (Bool × W64)
  marks : List MarkCk
  deriving DecidableEq, Repr

/-- The state of TWIN beside its page: the nonces of the HELLO exchange and what the peer's HELLO carried, the session keys,
sequence numbers, the transmit buffer of unacknowledged frames (R493), the frames of the stream that wait for room in it with their
ticks (R493, R501), the frames accepted and not yet acted on with their
ticks of receipt, the parts of records, checkpoints and queue SYNCs not yet complete (R501, R502, R506), the captures and
copies in progress (a switch: its tag, and 0 waiting for its capture, 1 capturing, 2 fencing), a takeover that is due with its
REASON, whether the peer has been declared lost and the receive path is closed, consecutive heartbeats that disagree, the
ticks for which the twin's claim has been absent (up to 400), and the peer's READY. A fence is the last SEQ before it and the number of
waiting frames before it (R499). -/
structure TwinS where
  nonce : Option W128
  peerNonce : Option W128
  peerPrio : Bool
  peerUnitmap : W32
  peerAccept : W64
  keyTx : List Byte
  keyRx : List Byte
  txSeq : Nat
  rxSeq : Nat
  tx : List TwFrame
  waiting : List (Nat × Bool × TwBody)
  rxq : List (Nat × TwFrame)
  recPart : List TwFrame
  ckPart : List TwFrame
  qsPart : List TwFrame
  capture : Option CapS
  fence : Option Nat
  fenceLeft : Nat
  push : Option Nat
  sync : Option (Nat × Nat)
  switching : Option (Nat × Nat)
  take : Option Nat
  lost : Bool
  closed : Bool
  disagree : Nat
  clear : Nat
  peerReady : Bool
  deriving DecidableEq, Repr

/-! ### The whole machine -/

/-- The state of the machine. `pending` is the queue of commands waiting. `variant` is fixed by the part (R1). `free` counts
the free values taken (the model's own field). `tick` counts phase ticks since chip reset (R16). `regs` is every register of
every page by physical address; `rdShadow` and `wrShadow` are the pair shadows of R104, keyed by
`address * 32 + requester`. `answer` is the last word answered to a requester, and `mem`, `tags` and `ecc` are general
memory, its tags and its words struck by upsets (keyed by `address / 16`). `tiles` are the ports of the tiles, tile `t` of bank `n`
at key `8 n + t`; `spare` and `spareEcc` are the words and the upsets of the tile of each bank that serves no access, the spare or the
tile it stands in for, row `r` of bank `n` at key `65536 n + r` (R61, R79). `recs` is the context store (word `w` of context
`n` at key `64 n + w`), `queues` the queue table. -/
structure State where
  pending : List Instr
  variant : Variant
  free : Nat
  seq : Nat
  tick : Nat
  regs : SMap W32
  rdShadow : SMap W32
  wrShadow : SMap (Option W32)
  answer : SMap W32
  mem : List Host.Cell
  tags : SMap Bool
  ecc : SMap Upset
  tiles : SMap TileS
  spare : SMap CapW
  spareEcc : SMap Upset
  done : List (Requester × Status × CapW)
  cores : List Core
  recs : SMap CapW
  recEcc : SMap Upset
  readyAt : SMap Nat
  waitAt : SMap Nat
  suspend : Option Suspend
  quanta : SMap Bool
  queues : SMap QDesc
  evtCount : SMap Nat
  evtFirst : SMap W64
  evtWait : List Nat
  wback : List Nat
  phase : PhaseS
  loop : LoopS
  meas : MeasS
  key : KeyS
  boot : BootS
  wdr : WdrS
  flink : FlinkS
  net : NetS
  ser : List UartS
  flashGen : Nat
  evicts : List Nat
  moves : Nat
  movesNoted : Bool
  trace : SMap W128
  pwr : PwrS
  test : TestS
  dbg : DbgS
  softErr : List (Nat × Requester)
  twin : TwinS

  deriving DecidableEq, Repr

/-! ### Reset -/

/-- A null register: all zeros, untagged (R43). -/
def nullW : CapW := ⟨0, false⟩

/-- The word of a capability from its fields (R23), tagged. -/
def mkCap (perm otype exp baseq lenq cursor : Nat) : CapW :=
  ⟨BitVec.ofNat 128 (perm * 2 ^ 112 + otype * 2 ^ 100 + exp * 2 ^ 92 + baseq * 2 ^ 78 + lenq * 2 ^ 64 + cursor), true⟩

/-- The reset entry address: the boot ROM's first byte (R540; the ROM's entry is its first bundle, assumption 11). -/
def resetEntry : Nat := 0xF0000000

/-- The registers of a bank with nothing loaded (R241). -/
def CtxRegs.zero : CtxRegs :=
  { pcc := nullW, glob := List.replicate 7 nullW, own := List.replicate 64 nullW, pas := List.replicate 64 nullW,
    preds := 1, rcnt := 0, prog := 0, winctl := 0x110, space := 0, status := 0,
    sig := { acc := List.replicate 4 0, mb := List.replicate 4 0, ml := List.replicate 4 0, crcpoly := 0 }, late := none }

/-- The roots of context 0 (R44, R45). -/
def rootRegs (v : Variant) : CtxRegs :=
  { CtxRegs.zero with
    pcc := mkCap 0x2C7F 0 34 0 8191 resetEntry
    glob := [mkCap 0x2C7F 0 34 0 8191 0, mkCap 0x2C7F 0 34 8192 8191 0xFFFF800000000000, mkCap 0x03C0 0 0 0 4095 0,
      (match v with | .a16 => mkCap 0x105B 0 1 0 8191 0 | .b8 => mkCap 0x105B 0 0 0 8191 0 | .c8 => mkCap 0x105B 0 0 0 8191 0),
      nullW, nullW, nullW] }

/-- An empty resident bank. -/
def ResBank.empty : ResBank := { ctx := none, regs := CtxRegs.zero, lastCur := 0 }

/-- A core after reset: nothing resident, its registers, caches, TLBs and buffers empty (R277, R540). -/
def Core.empty : Core :=
  { banks := List.replicate 4 ResBank.empty, cur := none, epc := nullW, kentry := nullW, dfentry := nullW, dfepc := nullW,
    estat := 0, dfstat := 0, cause := 0, dfcause := 0, fadr := 0, finfo := 0, lopc := 0, lazyptr := 0,
    fbank := List.replicate 24 nullW, itlb := [], dtlb := [], utlb := [], l1d := [], l1dRom := [], l1i := [], fbuf := [], sb := [], ghosts := [],
    longs := [], longErrs := [], late := [], lateNew := [], opened := [], held := none, granules := [], grant := none,
    grantReq := none, alerts := [], yhalt := false, halted := false, haltReq := false, stepping := false,
    loading := [], icinvRx := [], icinvWait := 0, tlbRx := [], tlbAcks := [], tlbWait := 0 }

/-- Core 0 after a reset that initialises context 0: the context is resident and current in bank 0 (R307, R540). -/
def Core.boot (v : Variant) : Core :=
  { Core.empty with
    banks := { ctx := some 0, regs := rootRegs v, lastCur := 1 } :: List.replicate 3 ResBank.empty
    cur := some 0 }

/-- The record words of context 0 that are not zero after reset: the roots, WINCTL and predicate words, and its scheduling
words (R44, R245, R307): state RESIDENT, priority 15, CORES 0x0001, MIGRATE 0. -/
def bootRecs (v : Variant) : SMap CapW :=
  [(0, (rootRegs v).pcc), (1, (rootRegs v).glob.getD 0 nullW), (2, (rootRegs v).glob.getD 1 nullW),
   (3, (rootRegs v).glob.getD 2 nullW), (4, (rootRegs v).glob.getD 3 nullW),
   (32, ⟨BitVec.ofNat 128 (0x110 * 2 ^ 64), false⟩), (34, ⟨BitVec.ofNat 128 (2 ^ 64), false⟩),
   (48, ⟨BitVec.ofNat 128 0x00010F03, false⟩)]

/-- The ports of a tile after reset. -/
def TilePort.empty : TilePort := { wait := [], busy := [], last := 0 }
def TileS.empty : TileS := { a := TilePort.empty, b := TilePort.empty }

/-- The twin link after reset: no lane trained, nothing exchanged (R490, R519). -/
def TwinS.empty : TwinS :=
  { nonce := none, peerNonce := none, peerPrio := false, peerUnitmap := 0, peerAccept := 0, keyTx := [], keyRx := [], txSeq := 0,
    rxSeq := 0, tx := [], waiting := [], rxq := [], recPart := [], ckPart := [], qsPart := [], capture := none, fence := none,
    fenceLeft := 0, push := none, sync := none, switching := none, take := none, lost := false, closed := false, disagree := 0, clear := 0, peerReady := false }


/-- An axis after reset. -/
def AxisS.empty : AxisS :=
  { sub := 0, back := none, seen := 0, lock := 0, cross := none, loss := 0, hold := 0, dead := none, segs := [], upds := [] }

/-- The phase engine after reset. -/
def PhaseS.empty : PhaseS :=
  { axes := List.replicate 16 AxisS.empty, fresh := [], defer := [], acts := [], pins := [], watch := [], commits := 0 }

/-- The loop engine after reset. -/
def LoopS.empty : LoopS :=
  { reqs := [], startedAt := [], normal := [], latch := [], tune := none, commit := none }

/-- A channel, an encoder, an input and a timer after reset. -/
def ChanS.empty : ChanS := { results := 0, trigs := [], zcArmed := false, last := none }
/-- An encoder pin after reset. -/
def EncPin.empty : EncPin := { level := false, since := 0, accepted := false }
/-- An encoder interface after reset. -/
def EncS.empty : EncS := { a := EncPin.empty, b := EncPin.empty, z := EncPin.empty, count := 0, hist := [], reads := [], word := none }
/-- A digital input after reset. -/
def DinS.empty : DinS := { differ := 0, comp := false, decay := 0, hyst := 2 }
/-- A PWM timer after reset: PER ticks. -/
def PwmS.empty : PwmS := { centre := 0, period := 20000, sent := none, free := false }

/-- The measurement front end after reset. -/
def MeasS.empty : MeasS :=
  { chans := List.replicate 16 ChanS.empty, encs := List.replicate 8 EncS.empty, dins := List.replicate 64 DinS.empty,
    pwms := List.replicate 4 PwmS.empty, duty := [], dead := [], outs := [], landed := [], levels := 0 }


/-- The key store after reset: slots 1–31 empty (R552). -/
def KeyS.empty : KeyS := { slots := [], salts := [], job := none, challenge := false }
/-- The boot controller after reset: BMR0–BMR3 zero (R540). -/
def BootS.empty : BootS := { bmr := List.replicate 4 (List.replicate 48 0), flash := false, wait := false }
/-- The reset controller after reset. -/
def WdrS.empty : WdrS := { kick := false, half := false, held := none, auto := false, left := List.replicate 16 0, mute := List.replicate 16 0 }
/-- A lane, a partner and the field links after reset. -/
def LaneS.empty : LaneS := { tx := none, win := none, errs := 0, idle := none, ready := 0, stopped := none }
/-- A partner after reset. -/
def PartS.empty : PartS := { tokens := 0, at_ := 0, rxcnt := 0 }
/-- The field links after reset. -/
def FlinkS.empty : FlinkS := { lanes := List.replicate 16 LaneS.empty, parts := [] }

/-- A port after reset; the rate bucket is full. -/
def PortS.empty : PortS :=
  { egress := [], wire := [], window := 0, bc := 0, mc := 0, bucket := 16384 * 1600, at_ := 0, swap := none, inUse := none, gates := [], cycle := none, badReq := 0 }
/-- An SA that has never been written. -/
def SaS.empty : SaS := { en := false, xpn := false, an := 0, kslot := 0, sci := 0, pn := 0 }
/-- The network switch after reset. -/
def NetS.empty : NetS := { ports := List.replicate 4 PortS.empty, rules := [], sas := [], rxcnt := [], rxFull := [], frac := 0, step := none, stopped := none }
/-- A UART after reset. -/
def UartS.empty : UartS := { tx := none, rxcnt := 0, brk := false, idle := none, lastDe := none, stopped := none }
/-- The power controller, the test engine and the debug unit after reset. -/
def PwrS.empty : PwrS :=
  { levels := [0, 0, 0, 0], bump := false, stretchEnd := none, ampleSince := none, cool := 0, throttling := false, cmd := none, want := none }
def TestS.empty : TestS := { nextTile := [], lastBank := 15, failed := [], waiting := [], repairing := [], cmd := none, scrub := 0, store := 0 }
def DbgS.empty : DbgS := { ir := 1, data := 0, status := 0 }
/-- The machine of a variant right after power-on reset is released. -/
def State.resetOf (v : Variant) : State :=
  { pending := [], variant := v, free := 0, seq := 2, tick := 0, regs := [], rdShadow := [], wrShadow := [], answer := [],
    mem := [], tags := [], ecc := [], tiles := [], spare := [], spareEcc := [], done := [], cores := Core.boot v :: List.replicate 15 Core.empty,
    recs := bootRecs v, recEcc := [], readyAt := [], waitAt := [], suspend := none, quanta := [], queues := [], evtCount := [],
    evtFirst := [], evtWait := [],
    wback := [],
    phase := PhaseS.empty,
    loop := LoopS.empty,
    meas := MeasS.empty,
    key := KeyS.empty,
    boot := BootS.empty,
    wdr := WdrS.empty,
    flink := FlinkS.empty,
    net := NetS.empty,
    ser := List.replicate 8 UartS.empty,
    flashGen := 0,
    evicts := [], moves := 0, movesNoted := false, trace := [],
    pwr := PwrS.empty,
    test := TestS.empty,
    dbg := DbgS.empty,
    softErr := [],
    twin := TwinS.empty,

  }

/-- The machine right after reset: a ZS9-A16 (the other variants are `State.resetOf .b8` and `.c8`, assumption 4). -/
def State.reset : State := State.resetOf .a16

end Sys2Proof.Machine
end

