-- ==== Sys2Proof/Machine/Ops.lean ====
section
/-! DEFINITION. The named operations over registers, cores, records and memory that every meaning uses. -/

namespace Sys2Proof.Machine

/-! ### Registers of the pages -/

/-- The word a register holds. -/
def reg (s : State) (a : Nat) : W32 := mget (regReset s.variant) s.regs a

/-- A register set to `v`. -/
def setReg (s : State) (a : Nat) (v : W32) : State := { s with regs := mput (regReset s.variant) s.regs a v }

/-- The value of a field. -/
def fget (s : State) (f : Fld) : Nat := bits (reg s f.addr).toNat f.hi f.lo

/-- Whether a one-bit field is 1. -/
def fon (s : State) (f : Fld) : Bool := fget s f != 0

/-- A field set to (the low bits of) `v`, the register's other bits kept. -/
def fset (s : State) (f : Fld) (v : Nat) : State :=
  setReg s f.addr (BitVec.ofNat 32 (withBits (reg s f.addr).toNat f.hi f.lo v))

/-- A saturating counter register raised by one. -/
def countUp (s : State) (a : Nat) : State := setReg s a (satInc (reg s a))

/-- A saturating counter field raised by `n`. -/
def fcount (s : State) (f : Fld) (n : Nat) : State :=
  fset s f (min (fget s f + n) (2 ^ (f.hi + 1 - f.lo) - 1))

/-- The 64-bit value of a pair of registers. -/
def pair (s : State) (lo hi : Nat) : Nat := (reg s lo).toNat + (reg s hi).toNat * 2 ^ 32

/-- A pair of registers set. -/
def setPair (s : State) (lo hi : Nat) (v : Nat) : State :=
  setReg (setReg s lo (BitVec.ofNat 32 v)) hi (BitVec.ofNat 32 (v / 2 ^ 32))

/-- STATE of block `b` (R114): 0 OFF, 1 RUNNING, 2 DRAINING, 3 QUIESCED, 4 FAULT. -/
def blkState (s : State) (b : Nat) : Nat := fget s (STATE_STATE b)

/-- Whether block `b` is RUNNING, and so accepts new operations (R115). -/
def running (s : State) (b : Nat) : Bool := Config.present s.variant b && blkState s b == 1

/-- Whether feature bit `k` of block `b` is accepted (R110, R113). -/
def accepted (s : State) (b k : Nat) : Bool := bit (reg s (FEAT_ACCEPT b)).toNat k

/-! ### Free values -/

/-- A free value's number is taken. -/
def takeFree (s : State) : State := { s with free := s.free + 1 }

/-- A free 64-bit value, of two numbers of free values. -/
def freeWide (s : State) : W64 := Config.word (s.free + 1) ++ Config.word s.free
def takeWide (s : State) : State := takeFree (takeFree s)

/-- The next sequence number is taken (the order of moments that R319 and R321 compare). -/
def takeSeq (s : State) : State := { s with seq := s.seq + 1 }

/-! ### Cores and contexts -/

/-- Core `n`. -/
def core (s : State) (n : Nat) : Core := s.cores.getD n Core.empty

/-- Core `n` replaced. -/
def setCore (s : State) (n : Nat) (c : Core) : State := { s with cores := s.cores.set n c }

/-- Core `n` changed. -/
def updCore (s : State) (n : Nat) (f : Core → Core) : State := setCore s n (f (core s n))

/-- Whether core `n` is present in the variant (R3). -/
def corePresent (s : State) (n : Nat) : Bool := decide (n < Config.cores s.variant)

/-- Resident bank `b` of a core. -/
def bankOf (c : Core) (b : Nat) : ResBank := c.banks.getD b ResBank.empty

/-- The current bank of a core, if it has one. -/
def curBank (c : Core) : Option ResBank :=
  match c.cur with
  | some b => some (bankOf c b)
  | none => none

/-- The context current on core `n`. -/
def curCtx (s : State) (n : Nat) : Option Nat :=
  match curBank (core s n) with
  | some b => b.ctx
  | none => none

/-- The registers of the current bank (those of a null bank when there is none). -/
def curRegs (s : State) (n : Nat) : CtxRegs :=
  match curBank (core s n) with
  | some b => b.regs
  | none => CtxRegs.zero

/-- The registers of the current bank changed. -/
def updRegs (s : State) (n : Nat) (f : CtxRegs → CtxRegs) : State :=
  match (core s n).cur with
  | some b => updCore s n (fun c => { c with banks := modAt c.banks b (fun r => { r with regs := f r.regs }) })
  | none => s

/-- The requester that core `n` is, on behalf of its current context. -/
def coreReq (s : State) (n : Nat) : Requester := { blk := 0, core := some n, ctx := curCtx s n }

/-- The requester that a register access comes from (R104). -/
def srcReq (s : State) : Src → Requester
  | .core n => coreReq s n
  | .debug => { blk := 0x13, core := none, ctx := none }

/-- A block as a requester, on behalf of context `ctx`. -/
def blkReq (b : Nat) (ctx : Option Nat) : Requester := { blk := b, core := none, ctx := ctx }

/-! ### Context records (R245, R309) -/

/-- Word `w` of the record of context `n`. -/
def recWord (s : State) (n w : Nat) : CapW := mget (fun _ => nullW) s.recs (n * 64 + w)

/-- Word `w` of the record of context `n` set. -/
def setRecWord (s : State) (n w : Nat) (v : CapW) : State :=
  { s with recs := mput (fun _ => nullW) s.recs (n * 64 + w) v }

/-- Bits `[hi:lo]` of the word of the record of context `n` that holds byte offset `off` (off mod 16 = 0 or 8, bits counted
from that offset). -/
def recBits (s : State) (n off hi lo : Nat) : Nat :=
  bits (recWord s n (off / 16)).bits.toNat (hi + 8 * (off % 16)) (lo + 8 * (off % 16))

/-- Those bits set. -/
def setRecBits (s : State) (n off hi lo v : Nat) : State :=
  setRecWord s n (off / 16)
    { recWord s n (off / 16) with
      bits := BitVec.ofNat 128 (withBits (recWord s n (off / 16)).bits.toNat (hi + 8 * (off % 16)) (lo + 8 * (off % 16)) v) }

/-- The state of context `n`, coded as under R306. -/
def ctxState (s : State) (n : Nat) : Nat := recBits s n 0x300 2 0
/-- Its state set. -/
def setCtxState (s : State) (n v : Nat) : State := setRecBits s n 0x300 2 0 v
/-- Its priority. -/
def ctxPrio (s : State) (n : Nat) : Nat := recBits s n 0x300 11 8
/-- Its WAKE bit. -/
def ctxWake (s : State) (n : Nat) : Bool := recBits s n 0x300 3 3 != 0
/-- Its CORES mask. -/
def ctxCores (s : State) (n : Nat) : Nat := recBits s n 0x300 31 16

/-! ### General memory -/

/-- Whether a physical address lies in general memory (R4, R95). -/
def inMem (s : State) (a : Nat) : Bool := decide (a < Config.memBytes s.variant)

/-- A byte of general memory. A byte nothing has written reads 0 (DESIGN CHOICE, assumption 1). -/
def memByte (s : State) (a : Nat) : Byte := mget (fun _ => 0) s.mem a

/-- A byte of general memory written. -/
def setMemByte (s : State) (a : Nat) (v : Byte) : State := { s with mem := mput (fun _ => 0) s.mem a v }

/-- The `n` bytes from address `a`. -/
def memBytes (s : State) (a n : Nat) : List Byte := (upTo n).map (fun i => memByte s (a + i))

/-- Bytes written from address `a` up. -/
def setMemBytes (s : State) (a : Nat) : List Byte → State
  | [] => s
  | b :: r => setMemBytes (setMemByte s a b) (a + 1) r

/-- The tag of the aligned 16-byte word that holds address `a` (R46). -/
def memTag (s : State) (a : Nat) : Bool := mget (fun _ => false) s.tags (a / 16)

/-- That tag set to `t`. -/
def setMemTag (s : State) (a : Nat) (t : Bool) : State := { s with tags := mput (fun _ => false) s.tags (a / 16) t }

/-- The aligned word that holds address `a`, with its tag. -/
def memWord (s : State) (a : Nat) : CapW := ⟨BitVec.ofNat 128 (leVal (memBytes s (a / 16 * 16) 16)), memTag s a⟩

/-- The upset standing in the word that holds address `a` (R68). -/
def eccAt (s : State) (a : Nat) : Upset := mget (fun _ => Upset.none) s.ecc (a / 16)

/-- The upset of that word set. -/
def setEcc (s : State) (a : Nat) (u : Upset) : State := { s with ecc := mput (fun _ => Upset.none) s.ecc (a / 16) u }

/-- The bank of an address (R61). -/
def bankNo (a : Nat) : Nat := a / 0x800000

/-- The quadrant of a bank or of a core (R15). -/
def quadOf (n : Nat) : Nat := n / 4

/-- A word given with a tag by a command, not copied from a word that the machine holds: the tag is kept only on a word that a capability
can be (R25, R26). R25 rules over R49's "as written" (DESIGN CHOICE, assumption 145). -/
def legalTag (w : CapW) : CapW :=
  let v := w.bits.toNat
  ⟨w.bits, w.tag && decide (bits v 97 92 ≤ 47) && bits v 99 98 == 0 && bits v 127 126 == 0 && decide (bits v 111 100 ≤ 0xFC4)⟩

/-! ### Traffic (R322) -/

/-- A port A request of context `n` at address `a` counted (R322). -/
def countTraf (s : State) (ctx : Option Nat) (a : Nat) : State :=
  match ctx with
  | some n =>
    if accepted s 1 1 && inMem s a then
      let off := 0x320 + 4 * quadOf (bankNo a)
      let v := recBits s n (off / 8 * 8) (off % 8 * 8 + 31) (off % 8 * 8)
      setRecBits s n (off / 8 * 8) (off % 8 * 8 + 31) (off % 8 * 8) (min (v + 1) (2 ^ 32 - 1))
    else s
  | none => s

/-- TRAFq of context `n`. -/
def traf (s : State) (n q : Nat) : Nat := bits (recWord s n 50).bits.toNat (32 * (q % 4) + 31) (32 * (q % 4))

/-! ### Statuses -/

/-- The code of a common completion status (R120). -/
def statusCode : Status → Nat
  | .ok => 0
  | .disabled => 1
  | .cancelled => 2
  | .aborted => 3
  | .collided => 4
  | .dataErr => 5
  | .notOwner => 6
  | .absent => 7
  | .range => 8

/-- The code of a writing domain (R72). -/
def domCode : Dom → Nat
  | .compute => 0
  | .network => 1
  | .field => 2
  | .measurement => 3
  | .twin => 4
  | .crypto => 5
  | .exempt => 7

/-- The worse of two statuses: the first that is not OK. -/
def worst (a b : Status) : Status := if a = .ok then b else a

end Sys2Proof.Machine
end

