-- ==== Sys2Proof/Machine/Events.lean ====
section
/-! DEFINITION. Reporting: the event controller's pending bits (R345), a block's event registers (R108), error capture
(R109), and the fabric error record (R97, R121, R123). -/

namespace Sys2Proof.Machine

/-- The coordinate of an axis: its position registers (R386). -/
def axisPos (s : State) (a : Nat) : Nat := pair s (PHASE_AXPOS_LO a) (PHASE_AXPOS_HI a)

/-- Source `n` is pending at the event controller (R345). -/
def evtPending (s : State) (n : Nat) : Bool := bit (reg s (EVT_PEND (n / 32))).toNat (n % 32)

/-- PEND of source `n` set or cleared. -/
def setEvtPending (s : State) (n : Nat) (v : Bool) : State :=
  setReg s (EVT_PEND (n / 32)) (BitVec.ofNat 32 (withBits (reg s (EVT_PEND (n / 32))).toNat (n % 32) (n % 32) (b2n v)))

/-- PEND of source `n` cleared, with the count and first coordinate of the occurrences it merged. -/
def clearEvt (s : State) (n : Nat) : State :=
  { setEvtPending s n false with
    evtCount := mput (fun _ => 0) s.evtCount n 0
    evtFirst := mput (fun _ => 0) s.evtFirst n 0
    evtWait := s.evtWait.filter (fun k => k != n) }

/-- An occurrence of source `n` delivered to the event controller (R345): the pending bit is set, whatever the source's
configuration and the controller's STATE; a pending source only counts one more occurrence, saturating (R352). -/
def evtOccur (s : State) (n : Nat) : State :=
  if evtPending s n then
    { s with evtCount := mput (fun _ => 0) s.evtCount n (min (mget (fun _ => 0) s.evtCount n + 1) 65535) }
  else
    { setEvtPending s n true with
      evtCount := mput (fun _ => 0) s.evtCount n 1
      evtFirst := mput (fun _ => 0) s.evtFirst n (BitVec.ofNat 64 (axisPos s 0)) }

/-- The registers that record event `k` of block `b`: raw, enable, pending, and the bit (R108, R93). -/
def evRegs (b k : Nat) : Nat × Nat × Nat × Nat :=
  if k < 32 then (EV_RAW b, EV_ENABLE b, EV_PENDING b, k)
  else (blkBase b + 0x100, blkBase b + 0x104, blkBase b + 0x108, k % 32)

/-- A bit of a register set. -/
def setRegBit (s : State) (a k : Nat) : State :=
  setReg s a (BitVec.ofNat 32 (withBits (reg s a).toNat k k 1))

/-- Whether block `b` delivers events in its present STATE (R108). -/
def delivers (s : State) (b : Nat) : Bool := blkState s b == 1 || blkState s b == 2 || blkState s b == 4

/-- The condition of event `k` of block `b` occurs (R108). -/
def raise (s : State) (b k : Nat) : State :=
  if Config.present s.variant b then
    match evRegs b k with
    | (raw, en, pend, i) =>
      let s1 := setRegBit s raw i
      if bit (reg s en).toNat i && !bit (reg s pend).toNat i && delivers s b then
        evtOccur (setRegBit s1 pend i) (firstSource b + k)
      else s1
  else s

/-- The events of the bits of `m` that become deliverable when EV_ENABLE changes from `old` to `new` (R108). -/
def unmask (b : Nat) (hi : Nat) (old new : Nat) : List Nat → State → State
  | [], s => s
  | k :: ks, s =>
    match evRegs b (hi + k) with
    | (raw, _, pend, i) =>
      unmask b hi old new ks
        (if !bit old k && bit new k && bit (reg s raw).toNat i && !bit (reg s pend).toNat i && delivers s b then
          evtOccur (setRegBit s pend i) (firstSource b + hi + k)
        else s)

/-- The ERR_CTX word of a requester (R105). -/
def errCtx (r : Requester) : Nat :=
  r.blk * 2 ^ 16 + (match r.ctx with | some c => c % 4096 | none => 2 ^ 13)

/-- An error of a block is captured (R109): the first since the last read sets CODE, ERR_ADDR and ERR_CTX, later ones only
count. -/
def capture (s : State) (b code addr : Nat) (r : Requester) : State :=
  if fget s (ERR_CODE_COUNT b) = 0 then
    setReg (setReg (setReg (setReg s (ERR_CODE b) (BitVec.ofNat 32 (0x100 + code)))
      (ERR_ADDR_LO b) (BitVec.ofNat 32 addr)) (ERR_ADDR_HI b) (BitVec.ofNat 32 (addr / 2 ^ 32 % 256)))
      (ERR_CTX b) (BitVec.ofNat 32 (errCtx r))
  else fset s (ERR_CODE_COUNT b) (min (fget s (ERR_CODE_COUNT b) + 1) 255)

/-- A fabric error (source 384) or absent-unit access (385), recorded in BOOT.FABERR (R97, R121, R123). -/
def fabricError (s : State) (source kind addr : Nat) (r : Requester) : State :=
  evtOccur
    (setReg (setReg (setReg (countUp s BOOT_FABERR_CNT) BOOT_FABERR_ADDR_LO (BitVec.ofNat 32 addr))
      BOOT_FABERR_ADDR_HI (BitVec.ofNat 32 (addr / 2 ^ 32 % 256)))
      BOOT_FABERR_SRC (BitVec.ofNat 32 (kind * 2 ^ 24 + errCtx r)))
    source

end Sys2Proof.Machine
end

