-- ==== Sys2Proof/Machine/TwinStream.lean ====
section
/-! DEFINITION. The sending side of the twin link that the rest of the machine uses: the role, the transmit buffer and the
replication stream (R490, R493–R495, R498). -/

namespace Sys2Proof.Machine

/-- ROLE.ROLE (R508): 0 FENCED, 1 SOLO, 2 PRIMARY, 3 STANDBY. -/
def twRole (s : State) : Nat := fget s TWIN_ROLE_ROLE

/-- The in-package authority line (R13, R509). -/
def authority (s : State) : Bool := fon s TWIN_ROLE_LINE

/-- The bytes of a frame's body. A STORE record has 24 (R492); the other layouts are not stated (DESIGN CHOICE, assumption 93). -/
def bodyBytes : TwBody → Nat
  | .heartbeat _ _ _ _ _ _ _ => 16
  | .store l => 24 * l.length
  | .queueOp _ _ _ _ m => 16 + (match m with | some l => 16 * l.length + 8 | none => 0)
  | .queueSync _ _ _ _ l => 16 + 72 * l.length
  | .record _ _ l => 8 + 24 * l.length
  | .checkpoint _ _ a m c => 8 + 8 * a.length + 20 * m.length + 132 * c.length
  | _ => 16

/-- The bytes a frame occupies in the transmit buffer: header, body and tag (R492). -/
def frameBytes (f : TwFrame) : Nat := 32 + bodyBytes f.body

/-- The bytes held in the transmit buffer (BACKLOG). -/
def backlog (s : State) : Nat := s.twin.tx.foldl (fun n f => n + frameBytes f) 0

/-- Whether the 256 KiB transmit buffer has room for `n` more bytes (R493, R498). -/
def twRoom (s : State) (n : Nat) : Bool := decide (backlog s + n ≤ 262144)

/-- BACKLOG brought up to date. -/
def setBacklog (s : State) : State := fset s TWIN_BACKLOG_BYTES (backlog s)

/-- Whether the link is up (R490). -/
def linkUp (s : State) : Bool := fon s TWIN_LINKSTAT_UP

/-- Whether the stream has room for `n` more bytes: the transmit buffer has, and no frame waits for it (R494, R498). -/
def twFree (s : State) (n : Nat) : Bool := s.twin.waiting.isEmpty && twRoom s n

/-- Whether a body belongs to the replication stream (R494). -/
def inStream : TwBody → Bool
  | .store _ => true
  | .queueOp _ _ _ _ _ => true
  | .queueSync _ _ _ _ _ => true
  | .record _ _ _ => true
  | .checkpoint _ _ _ _ _ => true
  | _ => false

/-- Whether a body is part of a queue SYNC (R501). -/
def isQueueSync : TwBody → Bool
  | .queueSync _ _ _ _ _ => true
  | _ => false

/-- A checkpoint's age grown by the ticks it waited to be sent (R505). -/
def agedBody (ticks : Nat) : TwBody → TwBody
  | .checkpoint t age a m c => .checkpoint t (age + ticks) a m c
  | b => b

/-- A frame sent: it takes the next SEQ and is kept until acknowledged (R493). -/
def twPut (s : State) (last : Bool) (b : TwBody) : State :=
  let f : TwFrame := { seq := s.twin.txSeq + 1, last := last, body := b }
  setBacklog (countUp { s with twin := { s.twin with txSeq := f.seq, tx := s.twin.tx ++ [f] } } TWIN_TXFR_CNT)

/-- A frame for the peer: one of the replication stream waits while the transmit buffer has no room for it, behind those that wait
already (R493, R494). With the link down nothing is sent. -/
def twSend (s : State) (last : Bool) (b : TwBody) : State :=
  if !linkUp s then s
  else if inStream b && !twFree s (32 + bodyBytes b) then { s with twin := { s.twin with waiting := s.twin.waiting ++ [(s.tick, last, b)] } }
  else twPut s last b

/-- QSYNC.BUSY as the frames that wait have it: it reads 1 while a queue SYNC waits to be sent, and its end is the completion with OK
(R501). -/
def setQsyncBusy (s : State) : State :=
  let busy := s.twin.waiting.any (fun p => isQueueSync p.2.2)
  if busy then fset s TWIN_QSYNC_BUSY 1
  else if fon s TWIN_QSYNC_BUSY then fset (fset s TWIN_QSYNC_BUSY 0) TWIN_QSYNC_STATUS 0
  else s

/-- A waiting frame sent at last; a fence that waits for it takes its SEQ (R499). -/
def sendWaiting (s : State) (t : Nat) (last : Bool) (b : TwBody) : State :=
  let s1 := twPut s last (agedBody (s.tick - t) b)
  if s1.twin.fenceLeft = 0 then s1
  else { s1 with twin := { s1.twin with fence := some s1.twin.txSeq, fenceLeft := s1.twin.fenceLeft - 1 } }

/-- Waiting frames sent in turn while the transmit buffer has room. -/
def drainWaiting : List (Nat × Bool × TwBody) → State → State
  | [], s => { s with twin := { s.twin with waiting := [] } }
  | (t, l, b) :: r, s =>
    if twRoom s (32 + bodyBytes b) then drainWaiting r (sendWaiting s t l b) else { s with twin := { s.twin with waiting := (t, l, b) :: r } }

/-- Whether this package replicates operations of feature bit `k` (R495, R520): PRIMARY, link up, feature accepted. -/
def replicates (s : State) (k : Nat) : Bool := running s 0x0D && accepted s 0x0D k && twRole s == 2 && linkUp s

/-- A completed write to a TW page is placed in the stream: the whole word and its tag as they stand (R495). -/
def replStore (s : State) (a : Nat) : State :=
  if replicates s 1 then twSend s false (.store [(a / 16 * 16, memWord s a)]) else s

/-- Whether a TW write must wait for room in the transmit buffer (R498). -/
def replHeld (s : State) : Bool := replicates s 1 && !twFree s 56

end Sys2Proof.Machine
end

