-- ==== Sys2Proof/Machine/Mem.lean ====
section
/-! DEFINITION. General memory at its banks: error correction, ownership, the strip check, the performed write and the spare that is
written with it, and L1 coherence (R53, R68–R72, R79, R83). -/

namespace Sys2Proof.Machine

/-- Event `k` of bank `n` (R93). -/
def bankEvent (s : State) (n k : Nat) : State := raise s 4 (4 * n + k)

/-- EADDRn and ECTXn updated for an error (`ue`) or a refused write (`refused`) at address `a` (R68, R71). -/
def noteBank (s : State) (a : Nat) (ue refused : Bool) (who : Requester) (portB : Bool) : State :=
  setReg (setReg s (MEM_EADDR (bankNo a))
      (BitVec.ofNat 32 (0x80000000 + b2n ue * 0x40000000 + b2n refused * 0x20000000 + bits a 22 4 * 16)))
    (MEM_ECTX (bankNo a)) (BitVec.ofNat 32 (errCtx who + b2n portB * 0x1000))

/-- A corrected error found at `a` (R68): counted and noted, event 256 + 4n when CECNT reaches a multiple of 2^CESHIFT, and
the word listed for the corrected-word write-back where that is accepted and on. -/
def correctedAt (s : State) (a : Nat) (who : Requester) (portB : Bool) : State :=
  let n := bankNo a
  let s1 := noteBank (countUp s (MEM_CECNT n)) a false false who portB
  let s2 := if (reg s1 (MEM_CECNT n)).toNat % 2 ^ fget s1 MEM_MEM_CFG_CESHIFT = 0 then bankEvent s1 n 0 else s1
  if accepted s2 4 1 && fon s2 MEM_MEM_CFG_CEWB && running s2 4 then
    { s2 with wback := if s2.wback.contains (a / 16) then s2.wback else s2.wback ++ [a / 16] }
  else s2

/-- An uncorrectable error found at `a` (R68). -/
def uncorrectableAt (s : State) (a : Nat) (who : Requester) (portB : Bool) : State :=
  bankEvent (noteBank (countUp s (MEM_UECNT (bankNo a))) a true false who portB) (bankNo a) 1

/-- The word at `a` read and checked by a port (R68, R69): the state after the report, the word with its tag (zero and
untagged when uncorrectable), and whether it is uncorrectable. -/
def eccRead (s : State) (a : Nat) (who : Requester) (portB : Bool) : State × CapW × Bool :=
  match eccAt s a with
  | .none => (s, memWord s a, false)
  | .single => (correctedAt s a who portB, memWord s a, false)
  | .double => (uncorrectableAt s a who portB, nullW, true)

/-- A handover ends: DOM reads the new owner and event 256 + 4n + 3 is raised (R74). -/
def completeHandover (s : State) (n : Nat) : State :=
  if fget s (MEM_BOWN_DOM n) = 7 then
    bankEvent (fset s (MEM_BOWN_DOM n) (fget s (MEM_BOWN_TARGET n))) n 3
  else s

/-- Whether a write of domain `d` may be admitted at bank `n` (R70, R74): the test engine's writes are exempt. -/
def ownerAdmits (s : State) (n : Nat) (d : Dom) : Bool := d == .exempt || fget s (MEM_BOWN_DOM n) == domCode d

/-- A write refused by ownership (R71). -/
def refuseWrite (s : State) (a : Nat) (who : Requester) (portB : Bool) : State :=
  capture (bankEvent (noteBank s a false true who portB) (bankNo a) 2) 4 0x13 a who

/-- The requesters whose set tags port B accepts (R53): queue engine, scheduler, twin link, test engine. -/
def mayTag (b : Nat) : Bool := b == 0x05 || b == 0x01 || b == 0x0D || b == 0x0F

/-- A tag stripped at port B (R53). -/
def strip (s : State) (a : Nat) (who : Requester) : State :=
  let s1 := setReg (setReg (countUp s CAP_STRIP_CNT) CAP_STRIP_ADDR_LO (BitVec.ofNat 32 (a / 16 * 16)))
    CAP_STRIP_ADDR_HI (BitVec.ofNat 32 (who.blk * 2 ^ 16 + a / 2 ^ 32 % 256))
  if accepted s1 2 2 && fon s1 CAP_CAP_CFG_STRIPEV && running s1 2 then raise s1 2 0 else s1

/-- Every L1 copy of the line of `a` is invalidated but the writing core's (R83). -/
def snoopWrite (s : State) (a : Nat) (writer : Option Nat) : State :=
  { s with
    cores := s.cores.zipIdx.map (fun p =>
      if writer = some p.2 then p.1 else { p.1 with l1d := p.1.l1d.filter (fun l => l != a / 64) }) }

/-! ### Tiles and spares (R61, R79, R80) -/

/-- The tile and the row of an address, and the word of a row of tile `t` of bank `n` (R61). -/
def tileNo (a : Nat) : Nat := a / 16 % 8
def rowNo (a : Nat) : Nat := a / 128 % 65536
def wordAt (n t r : Nat) : Nat := n * 0x800000 + r * 128 + t * 16

/-- The tile of bank `n` whose writes are performed on the tile and on the spare: while it is mirrored, and while it is copied back
and swapped back (R79, R559). -/
def bothTile (s : State) (n : Nat) : Option Nat :=
  if fget s (MEM_BMAP_MODE n) = 1 ∨
    (fget s (MEM_BMAP_MODE n) = 2 ∧ 4 ≤ fget s TEST_TESTSTAT_PHASE ∧ fget s TEST_TESTSTAT_BANK = n) then some (fget s (MEM_BMAP_TILE n))
  else none

/-- Whether requests to the tile of an address are held by a swap (R80). -/
def stalled (s : State) (a : Nat) : Bool := fon s (MEM_BMAP_SWAP (bankNo a)) && fget s (MEM_BMAP_TILE (bankNo a)) == tileNo a

/-- Where the word of an address lies in the idle tile of its bank. -/
def spareKey (a : Nat) : Nat := bankNo a * 65536 + rowNo a

/-- A word of an idle tile, its upset, and both set. -/
def spareWord (s : State) (k : Nat) : CapW := mget (fun _ => nullW) s.spare k
def spareUpset (s : State) (k : Nat) : Upset := mget (fun _ => Upset.none) s.spareEcc k
def setSpare (s : State) (k : Nat) (w : CapW) (u : Upset) : State :=
  { s with spare := mput (fun _ => nullW) s.spare k w, spareEcc := mput (fun _ => Upset.none) s.spareEcc k u }

/-- The word of `a`, just written, written to the spare as well where the bank performs the write on both (R79). -/
def putBoth (s : State) (a : Nat) : State :=
  if bothTile s (bankNo a) = some (tileNo a) then setSpare s (spareKey a) (memWord s a) .none else s

/-- The bytes of a write within one word performed: bytes, tag, check bits, L1 copies, and the spare (R47, R48, R69, R79, R83). -/
def putWord (s : State) (a : Nat) (bytes : List Byte) (tag : Bool) (writer : Option Nat) : State :=
  putBoth { snoopWrite (setEcc (setMemTag (setMemBytes s a bytes) a tag) a .none) a writer with
    wback := s.wback.filter (fun w => w != a / 16) } a

/-- The merge read of a write of fewer than 16 bytes (R69): the state after the report, and whether the word is
uncorrectable. -/
def mergeCheck (s : State) (a len : Nat) (who : Requester) (portB : Bool) : State × Bool :=
  if len = 16 then (s, false)
  else
    match eccAt s a with
    | .none => (s, false)
    | .single =>
      let s1 := correctedAt s a who portB
      ({ s1 with wback := s.wback }, false)
    | .double => (uncorrectableAt s a who portB, true)

/-- The bank rewrites a corrected word in an idle port B cycle (R68), unless a write has replaced it. -/
def writeBack (s : State) (word : Nat) : State :=
  if s.wback.contains word && running s 4 then
    putBoth { setEcc s (word * 16) .none with wback := s.wback.filter (fun w => w != word) } (word * 16)
  else s

end Sys2Proof.Machine
end

