-- ==== Sys2Proof/Machine/Tile.lean ====
section
/-! DEFINITION. The ports of the tiles: requests that wait, are admitted, performed and returned (R62–R67), writes and reads made in one
step by the other commands, handovers (R74), and transfers of stream-side requesters (R99). -/

namespace Sys2Proof.Machine

/-! ### Tile ports -/

/-- Where the ports of the tile that holds an address are kept. -/
def tileKey (a : Nat) : Nat := bankNo a * 8 + tileNo a

/-- The ports of the tile under a key. -/
def tileAt (s : State) (k : Nat) : TileS := mget (fun _ => TileS.empty) s.tiles k

/-- Port B (`true`) or port A of the tile under a key. -/
def tilePort (s : State) (k : Nat) (b : Bool) : TilePort := if b then (tileAt s k).b else (tileAt s k).a

/-- A port changed. -/
def updTilePort (s : State) (k : Nat) (b : Bool) (f : TilePort → TilePort) : State :=
  let t := tileAt s k
  { s with tiles := mput (fun _ => TileS.empty) s.tiles k (if b then { t with b := f t.b } else { t with a := f t.a }) }

/-- The requester of an entry of core `n`'s store buffer: its context, none once the core has been reset. -/
def storeWho (n : Nat) (e : StoreEntry) : Requester := { blk := 0, core := some n, ctx := if e.orphan then none else some e.ctx }

/-- The word, the requester and the writing domain of a job, and whether it writes. -/
def PortJob.addr : PortJob → Nat
  | .req q => q.addr
  | .store _ e => e.word * 16
def PortJob.who : PortJob → Requester
  | .req q => q.who
  | .store n e => storeWho n e
def PortJob.dom : PortJob → Dom
  | .req q => q.dom
  | .store _ _ => .compute
def PortJob.writes : PortJob → Bool
  | .req q => (match q.op with
    | .read => false
    | .write _ _ _ => true)
  | .store _ _ => true

/-- A write that a handover of bank `n` lets wait: one of the new owner (R74). -/
def newOwner (s : State) (n : Nat) (d : Dom) : Bool :=
  fget s (MEM_BOWN_DOM n) == 7 && d != .exempt && fget s (MEM_BOWN_TARGET n) == domCode d

/-- Whether a job stays in the fabric: a write of the new owner during a handover (R74), or a replicated store without room in the
twin link's transmit buffer (R498). -/
def jobHeld (s : State) (j : PortJob) : Bool :=
  (j.writes && newOwner s (bankNo j.addr) j.dom) ||
    (match j with
     | .req _ => false
     | .store _ e => e.tw && replHeld s)

/-! ### The rotation (R64) -/

/-- A requester's place in the rotation of a port: cores by number, the table walker and blocks by block ID after them. -/
def reqNo (w : Requester) : Nat :=
  match w.core with
  | some n => n
  | none => 32 + w.blk

/-- The jobs that stand at the head of their requesters' queues, those that stay in the fabric aside. -/
def heads (s : State) : List PortJob → List Nat → List PortJob
  | [], _ => []
  | j :: r, seen =>
    if jobHeld s j || seen.contains (reqNo j.who) then heads s r seen else j :: heads s r (reqNo j.who :: seen)

/-- The job a port grants: of the requesters present, the next in rotating order after the one granted last. -/
def granted (s : State) (p : TilePort) : Option PortJob :=
  (upTo 64).findSome? (fun i => (heads s p.wait []).find? (fun j => reqNo j.who == (p.last + 1 + i) % 64))

/-! ### Statuses returned -/

/-- A core's entry takes the status that its tile returns; one reported as timed out is done with. -/
def setAnswer (s : State) (n id : Nat) (st : Status) : State :=
  updCore s n (fun c =>
    { c with
      sb := c.sb.map (fun e => if e.id = id then { e with answer := some st } else e)
      ghosts := c.ghosts.filter (fun e => e.id != id) })

/-- A completion returned to its requester. -/
def answerJob (s : State) (j : PortJob) (st : Status) (w : CapW) : State :=
  match j with
  | .req q => { s with done := s.done ++ [(q.who, st, w)] }
  | .store n e => setAnswer s n e.id st

/-! ### Admission (R63, R64, R70, R71, R74) -/

/-- One grant of a port with a free entry: the job takes an entry, or its write is refused by ownership. -/
def admitOne (s : State) (k : Nat) (b : Bool) : State :=
  if 64 ≤ (tilePort s k b).busy.length then s
  else
    match granted s (tilePort s k b) with
    | none => s
    | some j =>
      let s1 := updTilePort s k b (fun p => { p with wait := p.wait.erase j, last := reqNo j.who })
      let s2 := if b then s1 else countTraf s1 j.who.ctx j.addr
      if j.writes && !ownerAdmits s2 (bankNo j.addr) j.dom then answerJob (refuseWrite s2 j.addr j.who b) j .notOwner nullW
      else updTilePort s2 k b (fun p => { p with busy := p.busy ++ [{ job := j, fin := none }] })

/-! ### Performing a job (R53, R66–R69) -/

/-- A write of `bytes`, all within one word, performed where its domain owns the bank: the strip check, the merge read, the write. -/
def writeAt (s : State) (a : Nat) (bytes : List Byte) (tag : Bool) (who : Requester) (portB : Bool) : State × Status :=
  let strips := tag && portB && !mayTag who.blk
  match mergeCheck (if strips then strip s a who else s) a bytes.length who portB with
  | (s1, true) => (s1, .dataErr)
  | (s1, false) => (putWord s1 a bytes (tag && !strips && bytes.length == 16) (if portB then none else who.core), .ok)

/-- The bytes of a word after an entry's write. -/
def maskedBytes (s : State) (e : StoreEntry) : List Byte :=
  (upTo 16).map (fun i => if bit e.mask.toNat i then BitVec.ofNat 8 (bits e.data.toNat (8 * i + 7) (8 * i)) else memByte s (e.word * 16 + i))

/-- The write of an entry of core `n`'s store buffer performed, and replicated when its page is (R48, R69, R495). -/
def storeAt (s : State) (n : Nat) (e : StoreEntry) : State × Status :=
  let a := e.word * 16
  match mergeCheck s a (if e.mask = 0xFFFF then 16 else 1) (storeWho n e) false with
  | (s1, true) => (s1, .dataErr)
  | (s1, false) =>
    let s2 := putWord s1 a (maskedBytes s1 e) (e.tag && e.mask == 0xFFFF) (some n)
    (if e.tw then replStore s2 a else s2, .ok)

/-- The tag with which a request's bytes are written: a requester that may write set tags presents one only with a word that a capability can
be (`legalTag`). -/
def writeTag (q : PortReq) (bytes : List Byte) (tag : Bool) : Bool :=
  tag && (!mayTag q.who.blk || (legalTag ⟨BitVec.ofNat 128 (leVal bytes), true⟩).tag)

/-- A job performed: the state after it, its status and the word read. -/
def perform (s : State) (j : PortJob) (b : Bool) : State × Status × CapW :=
  match j with
  | .store n e =>
    match storeAt s n e with
    | (s1, st) => (s1, st, nullW)
  | .req q =>
    match q.op with
    | .read =>
      match eccRead s q.addr q.who b with
      | (s1, w, ue) => (s1, if ue then .dataErr else .ok, w)
    | .write off bytes tag =>
      match writeAt s (q.addr / 16 * 16 + off % 16) (bytes.take (16 - off % 16)) (writeTag q bytes tag) q.who b with
      | (s1, st) => (s1, st, nullW)

/-- A port B write that port A's write to the same word discards (R66): its tag is checked as every write's is (R53). -/
def collide (s : State) (j : PortJob) : State :=
  let s1 :=
    match j with
    | .req q =>
      (match q.op with
       | .write _ _ tag => if tag && !mayTag q.who.blk then strip s q.addr q.who else s
       | .read => s)
    | .store _ _ => s
  countUp s1 MEM_BCOLL

/-- The oldest job of a port that is not performed yet. -/
def due (s : State) (k : Nat) (b : Bool) : Option PortJob := ((tilePort s k b).busy.find? (fun x => x.fin.isNone)).map (fun x => x.job)

/-- The first entry not yet performed takes its result. -/
def setFin (r : Status × CapW) : List PortEntry → List PortEntry
  | [] => []
  | x :: l => if x.fin.isNone then { x with fin := some r } :: l else x :: setFin r l

/-- The due job of a port performed. -/
def serveOne (s : State) (k : Nat) (b : Bool) : State :=
  match due s k b with
  | none => s
  | some j =>
    match perform s j b with
    | (s1, r) => updTilePort s1 k b (fun p => { p with busy := setFin r p.busy })

/-- The jobs that one fabric cycle performs at the two ports of a tile (R62, R66, R67): a read sees the word as it was before the
cycle's writes, and port B's write to the word that port A writes is discarded. -/
def serve (s : State) (k : Nat) : State :=
  match due s k false, due s k true with
  | some a, some b =>
    if a.writes && b.writes && a.addr / 16 == b.addr / 16 then
      match perform s a false with
      | (s1, .ok, w) =>
        let s2 := updTilePort s1 k false (fun p => { p with busy := setFin (.ok, w) p.busy })
        updTilePort (collide s2 b) k true (fun p => { p with busy := setFin (.collided, nullW) p.busy })
      | (s1, r) => serveOne (updTilePort s1 k false (fun p => { p with busy := setFin r p.busy })) k true
    else if a.writes then serveOne (serveOne s k true) k false
    else serveOne (serveOne s k false) k true
  | _, _ => serveOne (serveOne s k false) k true

/-- The tile of a key is held by a swap (R80). -/
def tileStalled (s : State) (k : Nat) : Bool := stalled s (wordAt (k / 8) (k % 8) 0)

/-- One fabric cycle of a tile: a grant at each port and, but during a swap, what the ports perform. -/
def tileCycle (s : State) (k : Nat) : State :=
  let s1 := admitOne (admitOne s k false) k true
  if tileStalled s1 k then s1 else serve s1 k

/-! ### Completions (R63) -/

/-- The oldest completed entries of a port, up to `n` of them, are returned to their requesters. -/
def giveBack (k : Nat) (b : Bool) : Nat → State → State
  | 0, s => s
  | n + 1, s =>
    match (tilePort s k b).busy with
    | ⟨j, some (st, w)⟩ :: r => giveBack k b n (answerJob (updTilePort s k b (fun p => { p with busy := r })) j st w)
    | _ => s

/-- Requests arrive at a port of a tile: those to the tile wait for its grant, and port B's outside general memory are refused (R99). -/
def arrive (k : Nat) (b : Bool) : List PortReq → State → State
  | [], s => s
  | q :: r, s =>
    arrive k b r
      (if inMem s q.addr then
        (if tileKey q.addr = k then updTilePort s k b (fun p => { p with wait := p.wait ++ [.req q] }) else s)
      else if b then answerJob (fabricError s 384 7 q.addr q.who) (.req q) .range nullW
      else s)

/-- An upset strikes the word of the job that a port performs. -/
def strike (s : State) (k : Nat) (b : Bool) (u : Upset) : State :=
  match due s k b with
  | some j => if u = .none then s else setEcc s j.addr u
  | none => s

/-- TILE_ACCESS (R62–R67): a fabric cycle of a tile. Requests arrive, each port grants one and performs its oldest, and completions of the
two ports are returned, left in `done`. -/
def tileAccess (s : State) (t : TileId) (pa pb : PortCycle) : State :=
  let k := t.bank * 8 + t.tile % 8
  let s1 := arrive k true pb.reqs (arrive k false pa.reqs { s with done := [] })
  if inMem s (wordAt t.bank (t.tile % 8) 0) then
    let s2 := admitOne (admitOne s1 k false) k true
    let s3 := if tileStalled s2 k then s2 else serve (strike (strike s2 k false pa.upset) k true pb.upset) k
    giveBack k true pb.back (giveBack k false pa.back s3)
  else s1

/-- The requests in flight in every tile port (INFLIGHT of R91). -/
def memInflight (s : State) : Nat := s.tiles.foldl (fun n p => n + p.2.a.busy.length + p.2.b.busy.length) 0

/-! ### Handovers (R74) -/

/-- Whether a write of the old owner of bank `n` is still in flight. -/
def oldWrites (s : State) (n : Nat) : Bool :=
  s.tiles.any (fun p => p.1 / 8 == n &&
    (p.2.a.busy ++ p.2.b.busy).any (fun x => x.job.writes && domCode x.job.dom == fget s (MEM_BOWN_PREV n)))

/-- The jobs a port has admitted performed in turn. -/
def serveAll (k : Nat) (b : Bool) : Nat → State → State
  | 0, s => s
  | n + 1, s => serveAll k b n (serveOne s k b)

/-- What is in flight at a tile completes and is returned. -/
def drainTile (s : State) (k : Nat) : State :=
  giveBack k true 64 (giveBack k false 64 (serveAll k true 64 (serveAll k false 64 s)))

/-- A handover of bank `n` awaited: what its tiles have admitted completes, and the handover ends. -/
def awaitHandover (s : State) (n : Nat) : State :=
  if fget s (MEM_BOWN_DOM n) = 7 then completeHandover ((upTo 8).foldl (fun st t => drainTile st (n * 8 + t)) s) n else s

/-- HANDOVER_COMPLETE: once no write of the old owner is in flight, the new owner takes the bank. -/
def handoverComplete (s : State) (n : Nat) : State := if oldWrites s n then s else completeHandover s n

/-- A handover to domain code `d` starts: DOM reads 0b111 until it ends. One still in progress ends first. -/
def beginHandover (s : State) (n d : Nat) : State :=
  let s1 := awaitHandover s n
  if fget s1 (MEM_BOWN_DOM n) = d then s1
  else fset (fset (fset s1 (MEM_BOWN_PREV n) (fget s1 (MEM_BOWN_DOM n))) (MEM_BOWN_TARGET n) d) (MEM_BOWN_DOM n) 7

/-! ### Writes and reads made in one step -/

/-- A write of `bytes`, all within one word of general memory, made in one step by another command than TILE_ACCESS (R53, R62, R69–R71).
A write of the new owner during a handover waits for its end: the step is the one at which it has ended. A write that its bank refuses by
ownership is not performed, and a set tag of it is no strip (DESIGN CHOICE, assumption 154). -/
def tileWrite (s : State) (a : Nat) (bytes : List Byte) (tag : Bool) (who : Requester) (d : Dom) (portB : Bool) :
    State × Status :=
  let s0 := if newOwner s (bankNo a) d then awaitHandover s (bankNo a) else s
  if ownerAdmits s0 (bankNo a) d then writeAt s0 a bytes tag who portB
  else (refuseWrite s0 a who portB, .notOwner)

/-- A list of bytes cut at the aligned 16-byte words of the addresses they go to. -/
def cutWords (a : Nat) : Nat → List Byte → List (Nat × List Byte)
  | 0, _ => []
  | _ + 1, [] => []
  | fuel + 1, l => (a, l.take (16 - a % 16)) :: cutWords (a + (16 - a % 16)) fuel (l.drop (16 - a % 16))

/-- Pieces within general memory written in turn through port B; the status is the first that is not OK. -/
def portBPieces (who : Requester) (d : Dom) : List (Nat × List Byte) → State → State × Status
  | [], s => (s, .ok)
  | (a, l) :: r, s =>
    match tileWrite s a l false who d true with
    | (s1, st) =>
      match portBPieces who d r s1 with
      | (s2, st2) => (s2, worst st st2)

/-- How many bytes of a transfer of `n` bytes from `a` lie in general memory (R99). -/
def inPart (s : State) (a n : Nat) : Nat := min n (Config.memBytes s.variant - a)

/-- The part of a transfer outside general memory is refused, once: RANGE and event 384 (R99). -/
def refuseRest (s : State) (a n : Nat) (who : Requester) : State × Status :=
  if inPart s a n < n then (fabricError s 384 7 (a + inPart s a n) who, .range) else (s, .ok)

/-- Untagged bytes written from `a` up through port B (R62, R89, R99). -/
def portBWrite (s : State) (a : Nat) (bytes : List Byte) (who : Requester) (d : Dom) : State × Status :=
  match portBPieces who d (cutWords a (bytes.length + 1) (bytes.take (inPart s a bytes.length))) s with
  | (s1, st) =>
    match refuseRest s1 a bytes.length who with
    | (s2, st2) => (s2, worst st st2)

/-- One whole word with a tag written through port B. -/
def portBWord (s : State) (a : Nat) (w : CapW) (who : Requester) (d : Dom) : State × Status :=
  if inMem s a then tileWrite s (a / 16 * 16) (leBytes 16 w.bits.toNat) w.tag who d true
  else (fabricError s 384 7 a who, .range)

/-- One whole word read through port B (R69, R99). -/
def portBReadWord (s : State) (a : Nat) (who : Requester) : State × CapW × Status :=
  if inMem s a then
    match eccRead s a who true with
    | (s1, w, ue) => (s1, w, if ue then .dataErr else .ok)
  else (fabricError s 384 7 a who, nullW, .range)

/-- The words of general memory that cover a range, read in turn. -/
def portBWords (who : Requester) : List Nat → State → State × List Byte × Status
  | [], s => (s, [], .ok)
  | a :: r, s =>
    match portBReadWord s a who with
    | (s1, w, st) =>
      match portBWords who r s1 with
      | (s2, l, st2) => (s2, leBytes 16 w.bits.toNat ++ l, worst st st2)

/-- `n` bytes read from `a` up through port B, with the first status that is not OK; what lies outside general memory reads zero. -/
def portBRead (s : State) (a n : Nat) (who : Requester) : State × List Byte × Status :=
  let m := inPart s a n
  match portBWords who ((upTo (if m = 0 then 0 else (a % 16 + m + 15) / 16)).map (fun i => a / 16 * 16 + 16 * i)) s with
  | (s1, l, st) =>
    match refuseRest s1 a n who with
    | (s2, st2) => (s2, (l.drop (a % 16)).take m ++ List.replicate (n - m) 0, worst st st2)

end Sys2Proof.Machine
end

