-- ==== Sys2Proof/Machine/Wake.lean ====
section
/-! DEFINITION. Axes as coordinates for stamps, the wake of a context, and where contexts are held (R308, R310, R332). -/

namespace Sys2Proof.Machine

/-- Whether an axis holds a valid coordinate: RUN or HOLDOVER (R366). -/
def axisValid (s : State) (a : Nat) : Bool := fget s (PHASE_AXSTAT_STATE a) == 2 || fget s (PHASE_AXSTAT_STATE a) == 3

/-- The bank of a core that holds context `n`. -/
def bankHolding (c : Core) (n : Nat) : Option Nat := c.banks.findIdx? (fun b => b.ctx == some n)

/-- The core and bank that hold context `n` (R318: at most one). -/
def heldAt (s : State) (n : Nat) : Option (Nat × Nat) :=
  match s.cores.findIdx? (fun c => (bankHolding c n).isSome) with
  | some i =>
    match bankHolding (core s i) n with
    | some b => some (i, b)
    | none => none
  | none => none

/-- A runnable context starts to wait for a core (R320: the one that has waited longest has its turn). -/
def noteWait (s : State) (n : Nat) : State := takeSeq { s with waitAt := mput (fun _ => 0) s.waitAt n s.seq }

/-- A context becomes READY, and the moment is kept (R319: the one READY longest is placed first). -/
def makeReady (s : State) (n : Nat) : State :=
  takeSeq { setCtxState s n 2 with readyAt := mput (fun _ => 0) s.readyAt n s.seq }

/-- A wake of context `n` with REASON bit `4 + r` (R310): 0 message, 1 mark, 2 timeout reached, 3 timeout axis lost. -/
def wake (s : State) (n r : Nat) : State :=
  if ctxState s n = 0 then s
  else
    let s1 := setRecBits (setRecBits s n 0x300 3 3 1) n 0x300 (4 + r) (4 + r) 1
    if ctxState s n = 1 then
      match heldAt s1 n with
      | some _ => noteWait (setCtxState s1 n 3) n
      | none => noteWait (makeReady s1 n) n
    else s1

end Sys2Proof.Machine
end

