-- ==== Sys2Proof/Machine/Que.lean ====
section
/-! DEFINITION. The queue engine: descriptors, puts, gets, multicast and FLUSH (R328–R342). A status is its code: those of
R120 and, beyond them, FULL 9, EMPTY 10, NOQUEUE 11, BADLEN 12, CLASS 13 and AXIS 14 (R334). -/

namespace Sys2Proof.Machine

/-- A queue that has never been configured. -/
def QDesc.none : QDesc :=
  { base := 0, ctx := 0, bound := false, ovwr := false, twin := false, en := false, dom := 0, size := 0, classmask := 0,
    hiwat := 0, put := 0, get := 0, ovf := 0, desync := false }

/-- The descriptor of queue `q`. -/
def qdesc (s : State) (q : Nat) : QDesc := mget (fun _ => QDesc.none) s.queues q

/-- The descriptor of queue `q` set. -/
def setQdesc (s : State) (q : Nat) (d : QDesc) : State := { s with queues := mput (fun _ => QDesc.none) s.queues q d }

/-- The number of slots of a ring (R329). -/
def qslots (d : QDesc) : Nat := 2 ^ (d.size + 1)

/-- The messages waiting in a queue: PUTCNT − GETCNT modulo 2^32. -/
def qfill (d : QDesc) : Nat := (d.put + 2 ^ 32 - d.get) % 2 ^ 32

/-- The writing domain a descriptor names (R72). -/
def domOf (n : Nat) : Dom :=
  match n with
  | 0 => .compute
  | 1 => .network
  | 2 => .field
  | 3 => .measurement
  | 4 => .twin
  | _ => .crypto

/-- The address of slot `i` (R329). -/
def slotAddr (d : QDesc) (i : Nat) : Nat := d.base + 64 + 64 * (i % qslots d)

/-- Words written from `a` up through port B, one after another; every one is attempted and the status is the first that is
not OK. -/
def putWords (who : Requester) (dom : Dom) : Nat → List CapW → State → State × Status
  | _, [], s => (s, .ok)
  | a, w :: r, s =>
    match portBWord s a w who dom with
    | (s1, st) =>
      match putWords who dom (a + 16) r s1 with
      | (s2, st2) => (s2, worst st st2)

/-- Words read from `a` up through port B. -/
def getWords (who : Requester) : Nat → Nat → State → State × List CapW × Status
  | _, 0, s => (s, [], .ok)
  | a, n + 1, s =>
    match portBReadWord s a who with
    | (s1, w, st) =>
      match getWords who (a + 16) n s1 with
      | (s2, ws, st2) => (s2, w :: ws, worst st st2)

/-- Event 323 with the queue recorded (R342). -/
def ringError (s : State) (q : Nat) : State := raise (fset s QUE_QEVQ1_MERRQ q) 5 3

/-- The header slot of an enabled queue rewritten with the engine's counts (R329). -/
def rewriteHeader (s : State) (q : Nat) : State :=
  let d := qdesc s q
  if d.en then
    match putWords (blkReq 5 none) (domOf d.dom) d.base
        [⟨BitVec.ofNat 128 (d.put + d.get * 2 ^ 32 + d.ovf * 2 ^ 64), false⟩, nullW, nullW, nullW] s with
    | (s1, st) => if st = .ok then s1 else ringError s1 q
  else s

/-- A put offered to the queue engine: the destination, the context written as sender, the ring of the context that puts
(none: a block), the sender's header fields, the payload words g1–g3, and whether the event controller puts it (R331). -/
structure PutReq where
  queue : Nat
  sender : Nat
  ring : Option Nat
  cls : Nat
  axis : Nat
  flags : Nat
  plen : Nat
  payload : List CapW
  fromEvt : Bool
  deriving DecidableEq, Repr

/-- Payload word `k` (1–3) as the slot holds it: whole with its tag, cut at the payload length and untagged, or zero (R50,
R330). -/
def slotWord (plen k : Nat) (w : CapW) : CapW :=
  if plen ≥ 16 * k then w
  else if plen ≤ 16 * (k - 1) then nullW
  else ⟨BitVec.ofNat 128 (w.bits.toNat % 2 ^ (8 * (plen - 16 * (k - 1)))), false⟩

/-- The four words of a message (R330). -/
def messageWords (r : PutReq) (stamp : Nat) : List CapW :=
  [⟨BitVec.ofNat 128 (r.queue % 2 ^ 14 + r.cls % 16 * 2 ^ 14 + r.sender % 4096 * 2 ^ 18 + r.axis % 16 * 2 ^ 30 +
      r.flags % 2 ^ 14 * 2 ^ 34 + r.plen % 64 * 2 ^ 48 + stamp % 2 ^ 64 * 2 ^ 64), false⟩,
   slotWord r.plen 1 (r.payload.getD 0 nullW), slotWord r.plen 2 (r.payload.getD 1 nullW), slotWord r.plen 3 (r.payload.getD 2 nullW)]

/-- The refusal that the checks before the slot write give, or 0 (R328, R331, R333, R500). -/
def putRefusal (s : State) (r : PutReq) : Nat :=
  let d := qdesc s r.queue
  if !running s 5 then 1
  else if Config.queues s.variant ≤ r.queue then 7
  else if r.queue = 0 ∨ d.en = false ∨ (r.queue ≤ 15 ∧ r.ring.isSome = true ∧ r.ring ≠ some 0) then 11
  else if d.twin ∧ accepted s 5 3 ∧ twRole s = 3 then 11
  else if 48 < r.plen then 12
  else if (r.cls = 15 ∧ r.fromEvt = false) ∨ bit d.classmask r.cls = false then 13
  else if !axisValid s r.axis then 14
  else 0

/-- A put counted as accepted (status 0) or refused. -/
def countPut (s : State) (st : Nat) : State := if st = 0 then countUp s QUE_PUT_CNT else countUp s QUE_REFUSE_CNT

/-- The put of a message with stamp `stamp` (R333). -/
def queuePutAt (s : State) (r : PutReq) (stamp : Nat) : State × Nat :=
  let refusal := putRefusal s r
  if refusal ≠ 0 then (countPut s refusal, refusal)
  else
    let d := qdesc s r.queue
    let full := qfill d = qslots d
    let s1 := if full then setQdesc s r.queue { d with ovf := (d.ovf + 1) % 2 ^ 32 } else s
    if full ∧ (d.ovwr && accepted s 5 2) = false then
      (countPut (raise (fset (rewriteHeader s1 r.queue) QUE_QEVQ0_FULLQ r.queue) 5 1) 9, 9)
    else
      let s2 :=
        if full then
          raise (fset (setQdesc s1 r.queue { qdesc s1 r.queue with get := (d.get + 1) % 2 ^ 32 }) QUE_QEVQ1_OVWQ r.queue) 5 2
        else s1
      let msg := messageWords r stamp
      match putWords (blkReq 5 (some r.sender)) (domOf d.dom) (slotAddr d d.put) msg s2 with
      | (s3, st) =>
        if st ≠ .ok then
          (countPut (ringError (if full then rewriteHeader s3 r.queue else s3) r.queue) (statusCode st), statusCode st)
        else
          let d3 := qdesc s3 r.queue
          let d4 := { d3 with put := (d3.put + 1) % 2 ^ 32 }
          let s4 := rewriteHeader (setQdesc s3 r.queue d4) r.queue
          let s5 := if d.twin ∧ accepted s4 5 3 ∧ replicates s4 2 then twSend s4 false (.queueOp r.queue d4.put d4.get d4.ovf (some msg)) else s4
          let s6 := if d.bound then wake s5 d.ctx 0 else s5
          let s7 :=
            if d.hiwat ≠ 0 ∧ qfill d4 = d.hiwat ∧ accepted s6 5 4 then raise (fset s6 QUE_QEVQ0_HIWQ r.queue) 5 0 else s6
          (countPut s7 0, 0)

/-- A put offered alone: the stamp is the named axis's coordinate now (R332). -/
def queuePut (s : State) (r : PutReq) : State × Nat := queuePutAt s r (axisPos s r.axis)

/-- A get (R335): the status, and the four words of the message taken (zero, untagged on DATAERR). -/
def queueGet (s : State) (q : Nat) (ring : Option Nat) : State × Nat × List CapW :=
  let d := qdesc s q
  if !running s 5 then (s, 1, [])
  else if Config.queues s.variant ≤ q then (s, 7, [])
  else if q = 0 ∨ d.en = false ∨ (q ≤ 15 ∧ ring ≠ some 0) then (s, 11, [])
  else if d.twin ∧ accepted s 5 3 ∧ twRole s = 3 then (s, 11, [])
  else if d.put = d.get then (s, 10, [])
  else
    match getWords (blkReq 5 none) (slotAddr d d.get) 4 s with
    | (s1, ws, st) =>
      let d1 := { d with get := (d.get + 1) % 2 ^ 32 }
      let s2 := rewriteHeader (setQdesc s1 q d1) q
      let s3 := if d.twin ∧ accepted s2 5 3 ∧ replicates s2 2 then twSend s2 false (.queueOp q d1.put d1.get d1.ovf none) else s2
      if st = .ok then (s3, 0, ws) else (ringError s3 q, 5, [nullW, nullW, nullW, nullW])

/-- The destinations of a QPUTM mask: the bits set, in ascending order (R170, R337). -/
def maskBits (m : Nat) : List Nat := (upTo 16).filter (fun k => bit m k)

/-- A multicast put to each selected destination in turn, one stamp for all (R337): OKMASK, FAILMASK and the first refusal
of the report. Without feature bit 1 every destination is refused with ABSENT. -/
def multiput (r : PutReq) (q stamp : Nat) : List Nat → State → Nat → Nat → Nat → State × Nat × Nat × Nat
  | [], s, ok, fail, first => (s, ok, fail, first)
  | k :: ks, s, ok, fail, first =>
    match (if accepted s 5 1 then queuePutAt s { r with queue := q + k } stamp else (countPut s 7, 7)) with
    | (s1, 0) => multiput r q stamp ks s1 (ok + 2 ^ k) fail first
    | (s1, st) => multiput r q stamp ks s1 ok (fail + 2 ^ k) (if fail = 0 then st else first)

/-- The multicast report of R337. -/
def multiReport (ok fail first : Nat) : Nat :=
  fail * 2 ^ 48 + first * 2 ^ 44 + (maskBits ok).length * 2 ^ 16 + ok

/-! ### QCMD -/

/-- The descriptor that QD0–QD2 spell. -/
def stagedDesc (s : State) : QDesc :=
  { QDesc.none with
    base := fget s QUE_QD0_BASE * 64 + fget s QUE_QD1_BASE * 2 ^ 32
    ctx := fget s QUE_QD1_CTX, bound := fon s QUE_QD1_BOUND, ovwr := fon s QUE_QD1_OVWR, twin := fon s QUE_QD1_TWIN
    en := fon s QUE_QD1_EN, dom := fget s QUE_QD1_DOM, size := fget s QUE_QD1_SIZE
    classmask := fget s QUE_QD2_CLASSMASK, hiwat := fget s QUE_QD2_HIWAT }

/-- Whether a ring area lies inside general memory and inside one bank (R329, R338). -/
def ringOk (s : State) (d : QDesc) : Bool :=
  decide (d.base + 64 + 64 * qslots d ≤ Config.memBytes s.variant) && bankNo d.base == bankNo (d.base + 63 + 64 * qslots d)

/-- QCMD 0b01: QD0–QD2 written to the descriptor of queue QSEL (R328, R338, R341). -/
def qcmdWrite (s : State) (who : Requester) : State :=
  let q := fget s QUE_QSEL_Q
  let d := qdesc s q
  let n := stagedDesc s
  if Config.queues s.variant ≤ q then capture s 5 0x11 QUE_QCMD who
  else if q = 0 then capture s 5 0x10 QUE_QCMD who
  else if d.en ∧ (n.base ≠ d.base ∨ n.size ≠ d.size ∨ n.ovwr ≠ d.ovwr ∨ n.twin ≠ d.twin) then capture s 5 0x10 QUE_QCMD who
  else if ringOk s n = false ∨ 6 ≤ n.dom then capture s 5 0x10 QUE_QCMD who
  else if n.en ∧ d.en = false then rewriteHeader (setQdesc s q n) q
  else setQdesc s q { n with put := d.put, get := d.get, ovf := d.ovf, desync := d.desync }

/-- QCMD 0b10: the descriptor of queue QSEL read into QD0–QD2 and its counts into QPUTC–QOVFC (R328, R342). -/
def qcmdRead (s : State) (who : Requester) : State :=
  let q := fget s QUE_QSEL_Q
  if Config.queues s.variant ≤ q then capture s 5 0x11 QUE_QCMD who
  else
    let d := if q = 0 then QDesc.none else qdesc s q
    setReg (setReg (setReg (setReg (setReg (setReg s
      QUE_QD0 (BitVec.ofNat 32 (d.base % 2 ^ 32)))
      QUE_QD1 (BitVec.ofNat 32 (d.ctx * 2 ^ 20 + b2n d.bound * 2 ^ 19 + b2n d.ovwr * 2 ^ 18 + b2n d.twin * 2 ^ 17 +
        b2n d.en * 2 ^ 16 + d.dom * 2 ^ 12 + d.size * 2 ^ 8 + d.base / 2 ^ 32)))
      QUE_QD2 (BitVec.ofNat 32 (d.classmask * 2 ^ 16 + d.hiwat)))
      QUE_QPUTC (BitVec.ofNat 32 d.put)) QUE_QGETC (BitVec.ofNat 32 d.get)) QUE_QOVFC (BitVec.ofNat 32 d.ovf)

/-- QCMD 0b11, FLUSH: GETCNT takes PUTCNT, and the header slot of an enabled queue is rewritten (R328, R342). -/
def qcmdFlush (s : State) (who : Requester) : State :=
  let q := fget s QUE_QSEL_Q
  if Config.queues s.variant ≤ q then capture s 5 0x11 QUE_QCMD who
  else if q = 0 then capture s 5 0x10 QUE_QCMD who
  else rewriteHeader (setQdesc s q { qdesc s q with get := (qdesc s q).put }) q

/-- A write of QCMD (R342). Commands are refused while the engine is not RUNNING (R115). -/
def qcmd (s : State) (op : Nat) (who : Requester) : State :=
  if !running s 5 then s
  else
    match op % 4 with
    | 1 => qcmdWrite s who
    | 2 => qcmdRead s who
    | 3 => qcmdFlush s who
    | _ => s

end Sys2Proof.Machine
end

