-- ==== Sys2Proof/Machine/Cap.lean ====
section
/-! DEFINITION. Capabilities as values: the fields and bounds of a capability word (R23–R30), the derivations, sealing and
field reads of R38–R42 and R166, and the checks of an access that need no translation (R31). -/

namespace Sys2Proof.Machine

def capPerm (c : CapW) : Nat := bits c.bits.toNat 127 112
def capOtype (c : CapW) : Nat := bits c.bits.toNat 111 100
def capExp (c : CapW) : Nat := bits c.bits.toNat 97 92
def capBaseq (c : CapW) : Nat := bits c.bits.toNat 91 78
def capLenq (c : CapW) : Nat := bits c.bits.toNat 77 64
def capCursor (c : CapW) : Nat := c.bits.toNat % 2 ^ 64

/-- The permission bits of R24 by number. -/
def hasPerm (c : CapW) (k : Nat) : Bool := bit (capPerm c) k
def pLOAD : Nat := 0
def pSTORE : Nat := 1
def pEXEC : Nat := 2
def pLOADCAP : Nat := 3
def pSTORECAP : Nat := 4
def pSTORELOCAL : Nat := 5
def pGLOBAL : Nat := 6
def pSEAL : Nat := 7
def pUNSEAL : Nat := 8
def pGATE : Nat := 9
def pSYSREG : Nat := 10
def pDEVICE : Nat := 11
def pQUEUE : Nat := 12
def pTWIN : Nat := 13

/-- The decoded base (R28); an integer, since an untagged word may decode below zero. -/
def capBase (c : CapW) : Int :=
  let window := 2 ^ (capExp c + 14)
  let b := alignDown (capCursor c) window + capBaseq c * 2 ^ capExp c
  if capCursor c < b then (b : Int) - window else b

/-- The decoded top (R28). -/
def capTop (c : CapW) : Int := capBase c + ((capLenq c + 1) * 2 ^ capExp c : Nat)

/-- Whether `v` lies in the representable region (R29). -/
def inRegion (c : CapW) (v : Nat) : Bool :=
  decide (capBase c ≤ v) && decide ((v : Int) < capBase c + (2 ^ (capExp c + 14) : Nat)) && decide (v < 2 ^ 64)

/-- The 128 bits with bits `[hi:lo]` replaced. -/
def capWith (c : CapW) (hi lo v : Nat) : W128 := BitVec.ofNat 128 (withBits c.bits.toNat hi lo v)

/-- CURSOR set to `v`, the tag cleared outside the representable region (R29). -/
def setCursor (c : CapW) (v : Nat) : CapW := ⟨capWith c 63 0 v, c.tag && inRegion c (v % 2 ^ 64)⟩

/-- PERM set, OTYPE set. -/
def setPerm (c : CapW) (v : Nat) : CapW := ⟨capWith c 127 112 v, c.tag⟩
def setOtype (c : CapW) (v : Nat) : CapW := ⟨capWith c 111 100 v, c.tag⟩
/-- GLOBAL cleared. -/
def clearGlobal (c : CapW) : CapW := ⟨capWith c 118 118 0, c.tag⟩

/-- Whether a 64-bit address is canonical: bits 63–48 equal bit 47. -/
def canonical (a : Nat) : Bool := bits a 63 48 == (if bit a 47 then 0xFFFF else 0)

/-- A check's answer: a value, or the cause code and subcode it raises. -/
inductive Chk (α : Type) where
  | ok (v : α)
  | fault (code sub : Nat)
  deriving DecidableEq, Repr

/-- An integer result in a c register (R43). -/
def intW (v : Nat) : CapW := ⟨BitVec.ofNat 128 (v % 2 ^ 64), false⟩

/-! ### Derivation and sealing -/

/-- A tagged sealed source of a derivation (R27, R38). -/
def sealedSrc (c : CapW) : Bool := c.tag && capOtype c != 0

/-- KPOINT, KSTEP, KSTEPI: the cursor set (R38). -/
def kCursor (c : CapW) (v : Nat) : Chk CapW := if sealedSrc c then .fault 0x13 2 else .ok (setCursor c v)

/-- KTRIM (R38). -/
def kTrim (c : CapW) (m : Nat) : Chk CapW :=
  if sealedSrc c then .fault 0x13 2 else .ok (setPerm c (Nat.land (capPerm c) (Nat.land m 0x3FFF)))

/-- The smallest exponent from `e` up, within `fuel` steps, whose units cover `[lo, hi)` in at most 16383 (R166). -/
def clipExp (lo hi : Nat) : Nat → Nat → Nat
  | 0, e => e
  | fuel + 1, e => if 16383 < (alignUp hi (2 ^ e) - alignDown lo (2 ^ e)) / 2 ^ e then clipExp lo hi fuel (e + 1) else e

/-- KCLIP and, with `exact`, KCLIPS (R40, R166). -/
def kClip (c : CapW) (y : Nat) (exact : Bool) : Chk CapW :=
  let len := if y = 0 then 1 else y
  let lo := capCursor c
  let hi := lo + len
  let e := clipExp lo hi 60 0
  let nb := alignDown lo (2 ^ e)
  let nt := alignUp hi (2 ^ e)
  let res : W128 :=
    BitVec.ofNat 128 (withBits (withBits (withBits c.bits.toNat 97 92 e) 91 78 (nb / 2 ^ e)) 77 64 ((nt - nb) / 2 ^ e - 1))
  if c.tag then
    if capOtype c ≠ 0 then .fault 0x13 2
    else if 47 < e ∨ 2 ^ 64 < hi ∨ (nb : Int) < capBase c ∨ capTop c < (nt : Int) then .fault 0x11 3
    else if exact ∧ (nb ≠ lo ∨ nt ≠ hi) then .fault 0x11 4
    else .ok ⟨res, true⟩
  else if 47 < e then .ok nullW
  else .ok ⟨res, false⟩

/-- Whether software type `t` is revoked, as the capability and tag unit holds it (R56, R57, R58). -/
def typeRevoked (s : State) (t : Nat) : Bool :=
  running s 2 && accepted s 2 1 && fon s CAP_CAP_CFG_REVEN && decide (1 ≤ t) && decide (t ≤ 4031) &&
    bit (reg s (CAP_TYPEREV (t / 32))).toNat (t % 32)

/-- Whether the cursor of an authority lies in its bounds. -/
def cursorIn (c : CapW) : Bool := decide (capBase c ≤ capCursor c) && decide ((capCursor c : Int) < capTop c)

/-- KWRAP (R41). -/
def kWrap (s : State) (cs ca : CapW) : Chk CapW :=
  let t := capCursor ca
  let gate := decide (0xFC0 ≤ t) && decide (t ≤ 0xFC3)
  let soft := decide (1 ≤ t) && decide (t ≤ 4031)
  if sealedSrc cs then .fault 0x13 2
  else if !ca.tag then .fault 0x10 3
  else if capOtype ca ≠ 0 then .fault 0x13 3
  else if !hasPerm ca pSEAL then .fault 0x12 8
  else if !cursorIn ca then .fault 0x11 5
  else if !(soft || gate) then .fault 0x14 2
  else if gate && cs.tag && !hasPerm cs pEXEC then .fault 0x14 2
  else if gate && !hasPerm ca pGATE then .fault 0x12 0x0A
  else if soft && typeRevoked s t then .fault 0x14 4
  else .ok (setOtype cs t)

/-- KUNWRAP (R42). -/
def kUnwrap (s : State) (cs ca : CapW) : Chk CapW :=
  let t := capCursor ca
  if !ca.tag then .fault 0x10 3
  else if capOtype ca ≠ 0 then .fault 0x13 3
  else if !hasPerm ca pUNSEAL then .fault 0x12 9
  else if !cursorIn ca then .fault 0x11 5
  else if cs.tag && !(decide (1 ≤ capOtype cs) && decide (capOtype cs ≤ 4031)) then .fault 0x14 3
  else if cs.tag && t != capOtype cs then .fault 0x14 1
  else if typeRevoked s t then .fault 0x14 4
  else
    let r := setOtype cs 0
    .ok (if hasPerm cs pGLOBAL && hasPerm ca pGLOBAL then r else clearGlobal r)

/-- The integer that KRCUR, KRBASE, KRLEN, KRPERM, KRTYPE and KRTAG read (R38), by the FN of R143. -/
def kRead (c : CapW) (fn : Nat) : Nat :=
  match fn with
  | 0 => capCursor c
  | 1 => (capBase c % (2 ^ 64 : Nat)).toNat
  | 2 => min (capTop c - capBase c).toNat (2 ^ 64 - 1)
  | 3 => capPerm c
  | 4 => capOtype c
  | _ => b2n c.tag

/-! ### The capability checks of an access -/

/-- The kinds of data access (R31), with their code in the access descriptor (R268). -/
inductive Kind where
  | load | store | capload | capstore
  deriving DecidableEq, Repr

def Kind.code : Kind → Nat
  | .load => 0
  | .store => 1
  | .capload => 2
  | .capstore => 3

def Kind.isStore : Kind → Bool
  | .load => false
  | .store => true
  | .capload => false
  | .capstore => true

def Kind.isCap : Kind → Bool
  | .load => false
  | .store => false
  | .capload => true
  | .capstore => true

/-- The checks of R31 from the tag check to the bounds check, over `[a, a + n)`; `v` is the value of a capability store
when its STORECAP and STORELOCAL checks are part of this step. -/
def capCheck (c : CapW) (k : Kind) (v : Option CapW) (a n : Nat) : Option (Nat × Nat) :=
  if !c.tag then some (0x10, 1)
  else if capOtype c ≠ 0 then some (0x13, 1)
  else if hasPerm c pQUEUE then some (0x12, 0x0D)
  else if !k.isStore && !hasPerm c pLOAD then some (0x12, 1)
  else if k.isStore && !hasPerm c pSTORE then some (0x12, 2)
  else
    match (match v with
      | some w =>
        if w.tag then
          if !hasPerm c pSTORECAP then some (0x12, 4)
          else if !hasPerm w pGLOBAL && !hasPerm c pSTORELOCAL then some (0x12, 5)
          else none
        else none
      | none => (none : Option (Nat × Nat))) with
    | some f => some f
    | none =>
      if !canonical a || !canonical (if n = 0 then a else a + n - 1) then some (0x11, 2)
      else if (a : Int) < capBase c ∨ capTop c < (a + n : Nat) then some (0x11, 1)
      else none

end Sys2Proof.Machine
end

