-- ==== Sys2Proof/Machine/Translate.lean ====
section
/-! DEFINITION. Translation (chapter 11): the identity space, table entries, the walk, the TLBs, the page checks of R289, and
the access check of R31, R163 and R164 built from them. -/

namespace Sys2Proof.Machine

/-! ### The identity space -/

/-- Whether a physical address lies in the flash window or the boot ROM (R95). -/
def inFlash (a : Nat) : Bool := decide (0x80000000 ≤ a) && decide (a < 0x90000000)
def inRom (a : Nat) : Bool := decide (0xF0000000 ≤ a) && decide (a < 0xF0010000)

/-- Whether a flash device answers reads of its first `n` bytes (R98): the boot controller runs, and the device fitted is that large
(LOG2 = 0: none). -/
def flashHas (s : State) (n : Nat) : Bool := running s 0x10 && fget s BOOT_FLSIZE_LOG2 != 0 && decide (n ≤ 2 ^ fget s BOOT_FLSIZE_LOG2)

/-- Whether a read of the flash window waits: a flash command is in progress (R550). -/
def flashWaits (s : State) (a : Nat) : Bool := inFlash a && s.boot.flash

/-- The bytes of the flash window, zero with event 384 where the device does not answer (R98). -/
def flashRead (s : State) (a len : Nat) (who : Requester) : State × Nat :=
  if !flashHas s (a % 0x10000000 + len) then (fabricError s 384 5 a who, 0)
  else (s, leVal ((upTo len).map (fun i => Config.flashByte s.flashGen (a % 0x10000000 + i))))

/-- The page of SPACE 0 that holds `va` (R281): all rights, A and D set, minimum ring 0, SE outside memory and ROM. -/
def identityLeaf (s : State) (va : Nat) : Leaf :=
  { frame := alignDown va 4096, size := 12, minring := 0, g := false, tw := false
    se := !(inMem s va || inFlash va || inRom va)
    d := true, a := true, cs := true, cl := true, x := true, w := true, r := true }

/-! ### Table entries -/

/-- The leaf an entry spells (R283). -/
def leafOf (e : Nat) : Leaf :=
  { frame := bits e 39 12 * 4096, size := bits e 47 42, minring := bits e 41 40, g := bit e 11, tw := bit e 10, se := bit e 9
    d := bit e 8, a := bit e 7, cs := bit e 6, cl := bit e 5, x := bit e 4, w := bit e 3, r := bit e 2 }

/-- Whether a leaf is well formed at level `l` (R284). -/
def leafOk (e l : Nat) : Bool :=
  let sz := bits e 47 42
  (match l with
   | 1 => sz == 39
   | 2 => decide (30 ≤ sz) && decide (sz ≤ 38)
   | 3 => decide (21 ≤ sz) && decide (sz ≤ 29)
   | _ => decide (12 ≤ sz) && decide (sz ≤ 20)) && (bits e 39 12 * 4096) % 2 ^ sz == 0

/-- Whether a reserved bit of a valid entry at level `l` (0: the space table) is 1 (R282, R283). -/
def entryReserved (e l : Nat) : Bool :=
  if l = 0 then bits e 63 40 != 0 || bits e 11 1 != 0
  else if bit e 1 then bits e 55 48 != 0
  else bits e 55 40 != 0 || bits e 11 2 != 0

/-- log2 of the granule of level `l` (R282). -/
def granuleLog (l : Nat) : Nat := 39 - 9 * (l - 1)

/-- Whether the walker reads entries: TRANS is RUNNING, or drains a walk of a core started before the disable (R116, R286, R302). -/
def walkServed (s : State) (portB : Bool) : Bool := running s 3 || (!portB && blkState s 3 == 2 && !fon s (CTRL_QMODE 3))

/-- The 8 bytes of an entry, read by the walker with its ECC check (R286): `inr` is the subcode of 0x28. -/
def readEntry (s : State) (p : Nat) (who : Requester) (portB : Bool) : State × (Nat ⊕ Nat) :=
  if !inMem s p then (s, .inr 1)
  else if !walkServed s portB then (s, .inr 4)
  else
    match eccRead (if portB then s else countTraf s who.ctx p) p who portB with
    | (s1, w, ue) => if ue then (s1, .inr 2) else (s1, .inl (w.bits.toNat / 2 ^ (8 * (p % 16 / 8 * 8)) % 2 ^ 64))

/-- The levels of a walk from level `l`, table `t` (R286). `fuel` is the levels left. -/
def walkLevels (who : Requester) (portB : Bool) (va : Nat) : Nat → Nat → Nat → State → State × WalkRes
  | 0, l, t, s => (s, .fault 0x28 3 (l - 1) t)
  | fuel + 1, l, t, s =>
    let p := t + 8 * bits va (granuleLog l + 8) (granuleLog l)
    match readEntry s p who portB with
    | (s1, .inr sub) => (s1, .fault 0x28 sub l p)
    | (s1, .inl e) =>
      if !bit e 0 then (s1, .fault 0x20 (l + 1) l p)
      else if entryReserved e l then (s1, .fault 0x28 3 l p)
      else if bit e 1 then (if leafOk e l then (s1, .leaf (leafOf e)) else (s1, .fault 0x28 3 l p))
      else if l = 4 then (s1, .fault 0x28 3 l p)
      else walkLevels who portB va fuel (l + 1) (bits e 39 12 * 4096) s1

/-- A walk fault captured in WFLT, with events 224–226 (R303, R304). -/
def walkFault (s : State) (space coreNo sub level entry : Nat) : State :=
  if accepted s 3 1 ∧ 1 ≤ sub ∧ sub ≤ 3 then
    raise (setReg (setReg (setReg s TRANS_WFLT_ADDR_LO (BitVec.ofNat 32 (entry / 8 * 8)))
      TRANS_WFLT_ADDR_HI (BitVec.ofNat 32 (entry / 2 ^ 32)))
      TRANS_WFLT_INFO (BitVec.ofNat 32 (space * 2 ^ 20 + coreNo * 2 ^ 16 + 0x8000 + level * 2 ^ 8 + sub))) 3 (sub - 1)
  else s

/-- The walk of R286 for `va` in `space` (1–4095), counted in WALK_CNT; `coreNo` is the core WFLT_INFO names. -/
def walk (s : State) (coreNo : Nat) (who : Requester) (portB : Bool) (space va : Nat) : State × WalkRes :=
  let s0 := countUp s TRANS_WALK_CNT
  let sptab := pair s0 TRANS_SPTAB_LO TRANS_SPTAB_HI
  let p := sptab + 8 * space
  match (match readEntry s0 p who portB with
    | (s1, .inr sub) => (s1, WalkRes.fault 0x28 sub 0 p)
    | (s1, .inl e) =>
      if !bit e 0 then (s1, WalkRes.fault 0x20 1 0 p)
      else if entryReserved e 0 then (s1, WalkRes.fault 0x28 3 0 p)
      else walkLevels who portB va 4 1 (bits e 39 12 * 4096) s1) with
  | (s2, .fault code sub l entry) =>
    (if code = 0x28 then walkFault s2 space coreNo sub l entry else s2, .fault code sub l entry)
  | (s2, r) => (s2, r)

/-! ### TLBs -/

/-- Whether an entry gives the translation of `va` in `space` (R291). -/
def tlbMatch (e : TlbEntry) (space va : Nat) : Bool :=
  (e.leaf.g || e.space == space) && va / 2 ^ e.leaf.size == e.vbase / 2 ^ e.leaf.size

/-- Whether the pages of two entries overlap. -/
def tlbOverlap (a b : TlbEntry) : Bool :=
  a.vbase / 2 ^ max a.leaf.size b.leaf.size == b.vbase / 2 ^ max a.leaf.size b.leaf.size

/-- Whether entry `e` must go when `new` is made (R292): it matches an address of the new page in the walking space, or, for
a global leaf, in any space. -/
def tlbEvicts (new e : TlbEntry) : Bool := tlbOverlap new e && (new.leaf.g || e.leaf.g || e.space == new.space)

/-- Whether two entries are the same translation. -/
def tlbSame (a b : TlbEntry) : Bool := a.space == b.space && a.vbase == b.vbase && a.leaf == b.leaf

/-- The entries that `p` names marked as used; once every entry is, only they stay marked (R291). -/
def tlbMark (p : TlbEntry → Bool) (l : List TlbEntry) : List TlbEntry :=
  if l.any p then
    let m := l.map (fun e => if p e then { e with used := true } else e)
    if m.all (fun e => e.used) then m.map (fun e => { e with used := p e }) else m
  else l

/-- The indices of the entries not recently used. -/
def tlbIdle (l : List TlbEntry) : List Nat :=
  (upTo l.length).filter (fun i => match l[i]? with
    | some e => !e.used
    | none => false)

/-- An entry put into a TLB of `n` entries, marked as used; in a full one an entry not recently used gives way (R291; which of
them is a free value). -/
def tlbInsert (n k : Nat) (l : List TlbEntry) (e : TlbEntry) : List TlbEntry :=
  let v := match tlbIdle l with
    | [] => Config.victim k % n
    | i :: r => (i :: r).getD (Config.victim k % (r.length + 1)) i
  tlbMark (tlbSame e) ((if l.length < n then l else l.eraseIdx v) ++ [e])

/-- The entries of a core that hold `p` removed from all three TLBs (R291). -/
def tlbFilter (c : Core) (p : TlbEntry → Bool) : Core :=
  { c with itlb := c.itlb.filter (fun e => !p e), dtlb := c.dtlb.filter (fun e => !p e), utlb := c.utlb.filter (fun e => !p e) }

/-- The TLB entries of a core confined to what its unified TLB holds (R291). -/
def tlbConfine (c : Core) : Core :=
  { c with itlb := c.itlb.filter (fun e => c.utlb.any (tlbSame e)), dtlb := c.dtlb.filter (fun e => c.utlb.any (tlbSame e)) }

/-- The leaf of a walk entered into the unified TLB and the ITLB or DTLB of core `n`, when its A bit is set (R292). -/
def tlbEnter (s : State) (n : Nat) (fetch : Bool) (space va : Nat) (l : Leaf) : State :=
  if l.a then
    let e : TlbEntry := { space := space, vbase := alignDown va (2 ^ l.size), leaf := l, used := true }
    let c := tlbFilter (core s n) (tlbEvicts e)
    let c1 := tlbConfine { c with utlb := tlbInsert 256 s.free c.utlb e }
    let c2 :=
      if fetch then { c1 with itlb := tlbInsert 16 s.free c1.itlb e } else { c1 with dtlb := tlbInsert 32 s.free c1.dtlb e }
    takeFree (setCore s n c2)
  else s

/-- The translation of `va` in the current space used by an access of core `n`: its entries count as recently used (R291). -/
def tlbUse (s : State) (n : Nat) (fetch : Bool) (va : Nat) : State :=
  let sp := (curRegs s n).space.toNat
  let p (e : TlbEntry) : Bool := tlbMatch e sp (va % 2 ^ 48)
  if sp = 0 then s
  else
    updCore s n (fun c =>
      { c with
        utlb := tlbMark p c.utlb
        itlb := if fetch then tlbMark p c.itlb else c.itlb
        dtlb := if fetch then c.dtlb else tlbMark p c.dtlb })

/-- The entry that gave the translation of `va` removed from core `n` (R293). -/
def tlbDrop (s : State) (n space va : Nat) : State := updCore s n (fun c => tlbFilter c (fun e => tlbMatch e space va))

/-- The entries that a TLBINV operand names (R296). -/
def invMatches (x : Nat) (e : TlbEntry) : Bool :=
  let sp := bits x 59 48
  let va := bits x 47 12 * 4096
  let hit := va / 2 ^ e.leaf.size == (e.vbase % 2 ^ 48) / 2 ^ e.leaf.size
  match bits x 63 62 with
  | 0 => hit && (e.leaf.g || e.space == sp)
  | 1 => !e.leaf.g && e.space == sp
  | 2 => true
  | _ => hit

/-- The cores present. -/
def presentCores (s : State) : List Nat := upTo (Config.cores s.variant)

/-- An invalidation sent to every core by core `who`; 16: by the translation control block (R296, R302). -/
def sendInvs (s : State) (who : Nat) (x : W64) : State :=
  (presentCores s).foldl (fun t k => updCore t k (fun c => { c with tlbRx := c.tlbRx ++ [(who, x)] })) s

/-- Whether some core still owes the translation control block an acknowledgement (R302). -/
def transOwed (s : State) : Bool := s.cores.any (fun c => c.tlbRx.any (fun p => p.1 == 16) || c.tlbAcks.any (fun p => p.1 == 16))

/-! ### A translation of a core -/

/-- What a translation comes to: a page, a cause with FINFO[63:32], or a walk still to be made. -/
inductive Xlate where
  | page (l : Leaf) (pa : Nat)
  | fault (code sub hi : Nat)
  | need (va : Nat)
  deriving DecidableEq, Repr

/-- The physical address of `va` in a page (R286). -/
def physIn (l : Leaf) (va : Nat) : Nat := l.frame / 2 ^ l.size * 2 ^ l.size + va % 2 ^ l.size

/-- FINFO[63:32] of a 0x28 walk fault (R288). -/
def walkInfo (level space : Nat) : Nat := level + space * 16

/-- A walk already finished for this bundle. -/
def walkDone (ws : List WalkDone) (space va : Nat) : Option WalkRes :=
  match ws.find? (fun w => w.va == va && w.space == space) with
  | some w => some w.res
  | none => none

/-- The translation of a 48-bit virtual address for core `n` (R281, R286, R291). -/
def translate (s : State) (n : Nat) (ws : List WalkDone) (space va : Nat) : Xlate :=
  if space = 0 then
    if va < 2 ^ 40 then .page (identityLeaf s va) va else .fault 0x20 6 0
  else
    match walkDone ws space va with
    | some (.leaf l) => .page l (physIn l va)
    | some (.fault code sub level _) => .fault code sub (if code = 0x28 then walkInfo level space else 0)
    | none =>
      match (core s n).utlb.find? (fun e => tlbMatch e space va) with
      | some e => .page e.leaf (physIn e.leaf va)
      | none =>
        if running s 3 || !inMem s (pair s TRANS_SPTAB_LO TRANS_SPTAB_HI + 8 * space) then .need va
        else .fault 0x28 4 (walkInfo 0 space)

/-- Whether a physical address has tag storage (R35, R95): general memory only. -/
def tagStorage (s : State) (pa : Nat) : Bool := inMem s pa

/-- The page checks of R289 for a data access, with those of R31 and R163 that follow them: ring, right, capability store,
unaligned SE, DEVICE, TWIN, accessed, dirty. `v` is the value of a capability store. -/
def pageCheck (s : State) (ring : Nat) (c : CapW) (k : Kind) (v : Option CapW) (misaligned : Bool) (l : Leaf) (pa : Nat) :
    Option (Nat × Nat) :=
  let tagged := match v with
    | some w => w.tag
    | none => false
  if l.minring < ring then some (0x15, 1)
  else if !k.isStore && !l.r then some (0x21, 1)
  else if k.isStore && !l.w then some (0x21, 2)
  else if tagged && !l.cs then some (0x21, 4)
  else if tagged && !tagStorage s pa then some (0x21, 5)
  else if misaligned && l.se then some (0x08, 1)
  else if l.se && !hasPerm c pDEVICE then some (0x12, 6)
  else if k.isStore && l.tw && !hasPerm c pTWIN then some (0x12, 7)
  else if !l.a then some (0x24, 0)
  else if k.isStore && !l.d then some (0x25, 0)
  else none

/-! ### The access check -/

/-- One half of an access that has passed its checks: virtual and physical address, length, and the page. -/
structure Piece where
  va : Nat
  pa : Nat
  len : Nat
  leaf : Leaf
  deriving DecidableEq, Repr

/-- What the checks of an access come to: the pieces to perform, a fault (code, subcode, faulting address, upper half,
FINFO[63:32]), or a walk still to be made. -/
inductive Access where
  | go (ps : List Piece)
  | fault (code sub fadr : Nat) (half : Bool) (hi : Nat)
  | need (va : Nat)
  deriving DecidableEq, Repr

/-- The translation and page checks of one half (R164 step 2 or 3). -/
def checkHalf (s : State) (n : Nat) (ws : List WalkDone) (space ring : Nat) (c : CapW) (k : Kind) (v : Option CapW)
    (misaligned half : Bool) (va len : Nat) : Access :=
  match translate s n ws space (va % 2 ^ 48) with
  | .need a => .need a
  | .fault code sub hi => .fault code sub va half hi
  | .page l pa =>
    match pageCheck s ring c k v misaligned l pa with
    | some (code, sub) => .fault code sub va half 0
    | none => .go [{ va := va, pa := pa, len := len, leaf := l }]

/-- The checks of an access of `len` bytes at `a` whose capability checks have passed (R163, R164). -/
def checkPages (s : State) (n : Nat) (ws : List WalkDone) (space ring : Nat) (c : CapW) (k : Kind) (v : Option CapW)
    (a len : Nat) : Access :=
  let mis := a % len != 0
  if a % 16 + len ≤ 16 then checkHalf s n ws space ring c k v mis false a len
  else
    let w := alignDown a 16 + 16
    match checkHalf s n ws space ring c k v mis false a (w - a) with
    | .go p1 =>
      match checkHalf s n ws space ring c k v mis true w (a + len - w) with
      | .go p2 => .go (p1 ++ p2)
      | r => r
    | r => r

/-- The checks of R31, R163 and R164 for one access, in their order. -/
def checkAccess (s : State) (n : Nat) (ws : List WalkDone) (space ring : Nat) (c : CapW) (k : Kind) (v : Option CapW)
    (a len : Nat) : Access :=
  match capCheck c k v a len with
  | some (code, sub) => .fault code sub a false 0
  | none =>
    if k.isCap && a % 16 != 0 then .fault 0x08 2 a false 0
    else checkPages s n ws space ring c k v a len

end Sys2Proof.Machine
end

