-- ==== Sys2Proof/Machine/Record.lean ====
section
/-! DEFINITION. Context records (R244–R249): the image of a resident bank in the record's words, and back. -/

namespace Sys2Proof.Machine

/-- The 96 bytes of the signal-unit state (R249). -/
def sigBytes (g : Sig) : List Byte :=
  (g.acc.map (fun a => leBytes 10 a.toNat)).flatten ++ (g.mb.map (fun a => leBytes 8 a.toNat)).flatten ++
    (g.ml.map (fun a => leBytes 4 a.toNat)).flatten ++ leBytes 8 g.crcpoly.toNat

/-- The signal-unit state that 96 bytes spell (R249). -/
def bytesSig (l : List Byte) : Sig :=
  { acc := (upTo 4).map (fun k => BitVec.ofNat 80 (leVal ((l.drop (10 * k)).take 10)))
    mb := (upTo 4).map (fun k => BitVec.ofNat 64 (leVal ((l.drop (40 + 8 * k)).take 8)))
    ml := (upTo 4).map (fun k => BitVec.ofNat 32 (leVal ((l.drop (72 + 4 * k)).take 4)))
    crcpoly := BitVec.ofNat 64 (leVal ((l.drop 88).take 8)) }

/-- Two 8-byte slots as one untagged record word. -/
def slots (lo hi : Nat) : CapW := ⟨BitVec.ofNat 128 (lo % 2 ^ 64 + hi % 2 ^ 64 * 2 ^ 64), false⟩

/-- The current window of WINCTL, its occupied count, its guard window and SDEPTH (R230). -/
def winCur (w : W32) : Nat := bits w.toNat 2 0
def winOcc (w : W32) : Nat := bits w.toNat 6 4
def winGuard (w : W32) : Nat := bits w.toNat 10 8
def winSdepth (w : W32) : Nat := bits w.toNat 31 16

/-- A WINCTL word from its fields. -/
def mkWin (sdepth guard occ cur : Nat) : W32 :=
  BitVec.ofNat 32 (sdepth % 65536 * 65536 + guard % 8 * 256 + occ % 8 * 16 + cur % 8)

/-- The ring register under index `8 w + k`. -/
def ringGet (l : List CapW) (w k : Nat) : CapW := l.getD (w % 8 * 8 + k % 8) nullW

/-- The late-store report's words (R245). -/
def lateWords (l : Option LateReport) : CapW × Nat :=
  match l with
  | some r => (slots r.fadr.toNat r.finfo.toNat, 1 + r.sub * 256)
  | none => (nullW, 0)

/-- The record words 0–47 of a bank's registers with SPILLERR `spill` (R245). -/
def recordImage (r : CtxRegs) (spill : Nat) : List CapW :=
  let c := winCur r.winctl
  [r.pcc] ++ r.glob ++ (upTo 8).map (fun k => ringGet r.pas (c + 7) k) ++ (upTo 8).map (fun k => ringGet r.own c k) ++
    (upTo 8).map (fun k => ringGet r.pas c k) ++
    [slots r.status.toNat r.winctl.toNat, slots r.rcnt.toNat r.prog.toNat, slots r.space.toNat r.preds.toNat] ++
    (upTo 6).map (fun k => ⟨BitVec.ofNat 128 (leVal (((sigBytes r.sig).drop (16 * k)).take 16)), false⟩) ++
    [(lateWords r.late).1, slots (lateWords r.late).2 spill] ++ List.replicate 5 nullW

/-- The ring with the eight registers of window `w` taken from `l`, every other register null (R241). -/
def ringOf (w : Nat) (l : List CapW) : List CapW :=
  (upTo 64).map (fun i => if i / 8 = w % 8 then l.getD (i % 8) nullW else nullW)

/-- The low and the high slot of a record word. -/
def loSlot (w : CapW) : Nat := w.bits.toNat % 2 ^ 64
def hiSlot (w : CapW) : Nat := w.bits.toNat / 2 ^ 64

/-- The passed registers of the loaded window, and its received registers (R241). -/
def pasOf (c : Nat) (received passed : List CapW) : List CapW :=
  (upTo 64).map (fun i =>
    if i / 8 = c % 8 then passed.getD (i % 8) nullW
    else if i / 8 = (c + 7) % 8 then received.getD (i % 8) nullW
    else nullW)

/-- The registers that record words 0–47 spell, every register the record does not supply cleared (R241, R245). -/
def imageRegs (l : List CapW) : CtxRegs :=
  let wd (k : Nat) : CapW := l.getD k nullW
  let win : W32 := BitVec.ofNat 32 (hiSlot (wd 32))
  let c := winCur win
  { pcc := wd 0, glob := (upTo 7).map (fun k => wd (1 + k))
    own := ringOf c ((upTo 8).map (fun k => wd (16 + k)))
    pas := pasOf c ((upTo 8).map (fun k => wd (8 + k))) ((upTo 8).map (fun k => wd (24 + k)))
    status := BitVec.ofNat 11 (loSlot (wd 32)), winctl := win
    rcnt := BitVec.ofNat 32 (loSlot (wd 33)), prog := BitVec.ofNat 64 (hiSlot (wd 33))
    space := BitVec.ofNat 12 (loSlot (wd 34)), preds := BitVec.ofNat 8 (hiSlot (wd 34) / 2 * 2 + 1)
    sig := bytesSig (((upTo 6).map (fun k => leBytes 16 (wd (35 + k)).bits.toNat)).flatten)
    late :=
      if bit (loSlot (wd 42)) 0 then
        some { sub := bits (loSlot (wd 42)) 15 8, fadr := BitVec.ofNat 64 (loSlot (wd 41)), finfo := BitVec.ofNat 64 (hiSlot (wd 41)) }
      else none }

/-- A record word written, with its check bits. -/
def putRec (s : State) (n w : Nat) (v : CapW) : State :=
  { setRecWord s n w v with recEcc := mput (fun _ => Upset.none) s.recEcc (n * 64 + w) .none }

/-- Record words written from word `w` up. -/
def putRecs (s : State) (n : Nat) : Nat → List CapW → State
  | _, [] => s
  | w, v :: r => putRecs (putRec s n w v) n (w + 1) r

/-- The words 0–47 of a record. -/
def recImage (s : State) (n : Nat) : List CapW := (upTo 48).map (fun w => recWord s n w)

/-- The upset standing in a record word (R244). -/
def recUpset (s : State) (n w : Nat) : Upset := mget (fun _ => Upset.none) s.recEcc (n * 64 + w)

/-- An upset strikes word `w` of the record of context `n`. -/
def strikeRec (s : State) (n w : Nat) (u : Upset) : State :=
  if u = .none ∨ 64 ≤ w then s else { s with recEcc := mput (fun _ => Upset.none) s.recEcc (n * 64 + w) u }

/-- The words of a record read with their check (R244): single errors are corrected, counted and reported by event 138;
whether a word is uncorrectable. -/
def recCheck (n : Nat) : List Nat → State → State × Bool
  | [], s => (s, false)
  | w :: r, s =>
    match recUpset s n w with
    | .none => recCheck n r s
    | .single => recCheck n r (raise (countUp { s with recEcc := mput (fun _ => Upset.none) s.recEcc (n * 64 + w) .none } SCHED_CSCE_CNT) 1 10)
    | .double =>
      match recCheck n r s with
      | (s1, _) => (s1, true)

/-- The record of context `n` after CREATE (R309). -/
def createRecord (s : State) (n : Nat) : State :=
  let s0 := putRecs s n 0 (List.replicate 64 nullW)
  putRec (putRec (putRec s0 n 32 (slots 7 0x110)) n 34 (slots 0 1)) n 48
    ⟨BitVec.ofNat 128 (4 + 2 ^ 12 + (2 ^ Config.cores s.variant - 1) * 2 ^ 16), false⟩

end Sys2Proof.Machine
end

