-- ==== Sys2Proof/Machine/Trace.lean ====
section
/-! DEFINITION. The trace buffer (R574, R575). -/

namespace Sys2Proof.Machine

/-- Whether DBG records KIND `k` for core `n` with context `ctx` current (R115, R574). -/
def traced (s : State) (n : Nat) (ctx : Option Nat) (k : Nat) : Bool :=
  running s 0x13 && fon s DBG_TRCFG_EN && accepted s 0x13 1 && bit (fget s DBG_TRCFG_CORES) n && bit (fget s DBG_TRFILT_KINDS) k &&
    (!fon s DBG_TRFILT_CTXEN || ctx == some (fget s DBG_TRFILT_CTX))

/-- A record put into the buffer (R575): with STOPFULL, recording stops when TRWR wraps. -/
def traceAppend (s : State) (r : W128) : State :=
  let i := fget s DBG_TRWR_NEXT
  let s1 := { s with trace := mput (fun _ => 0) s.trace i r }
  if i = 65535 then
    let s2 := fset (fset s1 DBG_TRWR_NEXT 0) DBG_TRWR_WRAP 1
    if fon s DBG_TRCFG_STOPFULL then raise (fset s2 DBG_TRCFG_EN 0) 0x13 1 else s2
  else fset s1 DBG_TRWR_NEXT (i + 1)

/-- The record of an occurrence (R574). -/
def traceWord (s : State) (n : Nat) (ctx k payload : Nat) : W128 :=
  BitVec.ofNat 128 (payload % 2 ^ 52 * 2 ^ 76 + ctx % 4096 * 2 ^ 64 + k % 16 * 2 ^ 60 + n % 16 * 2 ^ 56 + axisPos s 0 % 2 ^ 56)

/-- An occurrence of KIND `k` on core `n` recorded if DBG records it. -/
def traceRec (s : State) (n k payload : Nat) : State :=
  let ctx := curCtx s n
  if traced s n ctx k then traceAppend s (traceWord s n (ctx.getD 0) k payload) else s

end Sys2Proof.Machine
end

