-- ==== Sys2Proof/Machine/CoreRegs.lean ====
section
/-! DEFINITION. The registers of a core as its bundles name them (R133, R134, R274), STATUS and WINCTL, late load results
(R208, R209) and the long operations in flight (R184, R187). -/

namespace Sys2Proof.Machine

/-! ### STATUS (R252) -/

def stIE (x : BitVec 11) : Bool := bit x.toNat 0
def stRING (x : BitVec 11) : Nat := bits x.toNat 2 1
def stEXL (x : BitVec 11) : Bool := bit x.toNat 3
def stDFL (x : BitVec 11) : Bool := bit x.toNat 4
def stSYNCST (x : BitVec 11) : Bool := bit x.toNat 5
def stPRECLONG (x : BitVec 11) : Bool := bit x.toNat 6
def stLAZYP (x : BitVec 11) : Bool := bit x.toNat 7

/-- A STATUS word from its fields. -/
def mkStatus (lazyp preclong syncst dfl exl : Bool) (ring : Nat) (ie : Bool) : BitVec 11 :=
  BitVec.ofNat 11 (b2n lazyp * 128 + b2n preclong * 64 + b2n syncst * 32 + b2n dfl * 16 + b2n exl * 8 + ring % 4 * 2 + b2n ie)

/-- STATUS of the context current on core `n`. -/
def status (s : State) (n : Nat) : BitVec 11 := (curRegs s n).status

/-- STATUS set. -/
def setStatus (s : State) (n : Nat) (v : BitVec 11) : State := updRegs s n (fun r => { r with status := v })

/-- The PCC of the current context, and the address of the bundle it stands at. -/
def pcc (s : State) (n : Nat) : CapW := (curRegs s n).pcc
def pcAddr (s : State) (n : Nat) : Nat := capCursor (pcc s n)
def setPcc (s : State) (n : Nat) (c : CapW) : State := updRegs s n (fun r => { r with pcc := c })

/-- WINCTL with CUR changed: GUARD follows while EXL = 0 (R231). -/
def moveCur (w : W32) (cur occ : Nat) (exl : Bool) : W32 :=
  mkWin (winSdepth w) (if exl then winGuard w else (cur + 1) % 8) occ cur

/-! ### c0–c31 -/

/-- The place that register number `r` names in window `cur`, or in the fault bank while DFL = 1 (R134, R274). -/
def regPlace (dfl : Bool) (cur r : Nat) : RegId :=
  if r = 0 then .null
  else if r < 8 then .glob (r - 1)
  else if dfl then .fb (r - 8)
  else if r < 16 then .pas ((cur + 7) % 8 * 8 + (r - 8))
  else if r < 24 then .own (cur % 8 * 8 + (r - 16))
  else .pas (cur % 8 * 8 + (r - 24))

/-- The place that register number `r` names on core `n`. -/
def regIdOf (s : State) (n r : Nat) : RegId :=
  regPlace (stDFL (status s n)) (winCur (curRegs s n).winctl) r

/-- What a place holds. -/
def getReg (s : State) (n : Nat) (id : RegId) : CapW :=
  match id with
  | .null => nullW
  | .glob i => (curRegs s n).glob.getD i nullW
  | .own i => (curRegs s n).own.getD i nullW
  | .pas i => (curRegs s n).pas.getD i nullW
  | .fb i => (core s n).fbank.getD i nullW

/-- A place written; c0 discards the write (R43). -/
def putReg (s : State) (n : Nat) (id : RegId) (w : CapW) : State :=
  match id with
  | .null => s
  | .glob i => updRegs s n (fun r => { r with glob := putAt nullW r.glob i w })
  | .own i => updRegs s n (fun r => { r with own := putAt nullW r.own i w })
  | .pas i => updRegs s n (fun r => { r with pas := putAt nullW r.pas i w })
  | .fb i => updCore s n (fun c => { c with fbank := putAt nullW c.fbank i w })

/-- Register `r` of core `n` as its bundles name it. -/
def readC (s : State) (n r : Nat) : CapW := getReg s n (regIdOf s n r)

/-- Register `r` written. -/
def writeC (s : State) (n r : Nat) (w : CapW) : State := putReg s n (regIdOf s n r) w

/-- Writes performed in order. -/
def putRegs (n : Nat) : List (RegId × CapW) → State → State
  | [], s => s
  | (id, w) :: r, s => putRegs n r (putReg s n id w)

/-- The load results not yet written reach their registers (R208, R209). -/
def applyLate (s : State) (n : Nat) : State :=
  let l := (core s n).late
  putRegs n l (updCore s n (fun c => { c with late := [] }))

/-! ### Predicates -/

def predOf (r : CtxRegs) (k : Nat) : Bool := k % 8 == 0 || bit r.preds.toNat (k % 8)

/-- A predicate written; p0 discards the write (R135). -/
def setPred (s : State) (n k : Nat) (v : Bool) : State :=
  if k % 8 = 0 then s
  else updRegs s n (fun r => { r with preds := BitVec.ofNat 8 (withBits r.preds.toNat (k % 8) (k % 8) (b2n v)) })

/-! ### Long operations (R184, R185, R187) -/

/-- The long operation under index `i` finishes: it writes its result, or its error is kept for the next boundary. -/
def finishLong (s : State) (n i : Nat) : State :=
  match (core s n).longs[i]? with
  | none => s
  | some op =>
    let s1 := updCore s n (fun c => { c with longs := c.longs.eraseIdx i })
    match op.result with
    | some v => putReg s1 n op.dest (intW v.toNat)
    | none => updCore s1 n (fun c => { c with longErrs := c.longErrs ++ [op] })

/-- Every long operation in flight finishes, oldest first (R187). -/
def drainLongs (n : Nat) : Nat → State → State
  | 0, s => s
  | k + 1, s => drainLongs n k (finishLong s n 0)

/-- The long-operation unit of a core drained. -/
def drain (s : State) (n : Nat) : State := drainLongs n (core s n).longs.length s

/-- The exception level that STATUS gives: 0, 1 with EXL, 2 with DFL. -/
def stLevel (x : BitVec 11) : Nat := if stDFL x then 2 else if stEXL x then 1 else 0

/-- The oldest long-operation error that is due: one left over from code that an exception has interrupted waits for the
return (R185). -/
def dueError (s : State) (n : Nat) : Option LongOp :=
  (core s n).longErrs.find? (fun op => decide (stLevel (status s n) ≤ op.lvl))

/-- The report of a failed long operation (R185). -/
def longCause (op : LongOp) (imprecise : Bool) : Cause :=
  { code := 0x48, sub := 1, fadr := 0, finfo := BitVec.ofNat 64 (op.rd + op.fn * 32), inRep := false, progress := false,
    async := false, imprecise := imprecise, lopc := op.lopc }

end Sys2Proof.Machine
end

