-- ==== Sys2Proof/Machine/StoreBuf.lean ====
section
/-! DEFINITION. The store buffer (R216–R222): entering a store, forwarding, sending an entry to its tile, and its status. -/

namespace Sys2Proof.Machine

/-- The mask of the bytes `[off, off + len)` of a word. -/
def byteMask (off len : Nat) : BitVec 16 := BitVec.ofNat 16 ((2 ^ len - 1) * 2 ^ off)

/-- Bytes placed from byte `off` of a word up, the others kept. -/
def mergeWord (old : W128) (off : Nat) (bytes : List Byte) : W128 :=
  BitVec.ofNat 128 (withBits old.toNat (8 * (off + bytes.length) - 1) (8 * off) (leVal bytes))

/-- A store to enter the buffer: virtual and physical address, bytes (within one word), tag, whether it is a capability store,
the page's SE and TW, and the number of a store under SYNCST. -/
structure StoreReq where
  va : Nat
  pa : Nat
  bytes : List Byte
  tag : Bool
  cap : Bool
  se : Bool
  tw : Bool
  sync : Option Nat
  deriving DecidableEq, Repr

/-- Whether entry `e` takes in an integer store to word `w` of context `ctx` (R216). -/
def mergeable (e : StoreEntry) (w : Nat) (ctx : Option Nat) : Bool :=
  e.word == w && !e.sent && !e.cap && !e.se && !e.orphan && e.sync.isNone && ctx == some e.ctx

/-- The index of the youngest entry for word `w`. -/
def youngest (l : List StoreEntry) (w : Nat) : Option Nat :=
  ((upTo l.length).filter (fun i => (l[i]?.map (fun e => e.word)) == some w)).getLast?

/-- A store enters the buffer of core `n` (R216): merged into the youngest entry for its word, or in an entry of its own. -/
def enterStore (st : State) (n : Nat) (q : StoreReq) : State :=
  let s := tlbUse st n false q.va
  let c := core s n
  let w := q.pa / 16
  let ctx := curCtx s n
  let own : StoreEntry :=
    { id := s.seq, word := w, mask := byteMask (q.pa % 16) q.bytes.length, data := mergeWord 0 (q.pa % 16) q.bytes
      tag := q.tag, cap := q.cap, pa := q.pa, va := BitVec.ofNat 64 q.va, ctx := ctx.getD 0, se := q.se, tw := q.tw
      sent := false, answer := none, sync := q.sync, orphan := false }
  match youngest c.sb w with
  | some i =>
    match c.sb[i]? with
    | some e =>
      if !q.cap && !q.se && q.sync.isNone && mergeable e w ctx then
        setCore s n
          { c with
            sb := c.sb.set i
              { e with
                mask := e.mask ||| byteMask (q.pa % 16) q.bytes.length
                data := mergeWord e.data (q.pa % 16) q.bytes
                tw := e.tw || q.tw } }
      else takeSeq (setCore s n { c with sb := c.sb ++ [own] })
    | none => takeSeq (setCore s n { c with sb := c.sb ++ [own] })
  | none => takeSeq (setCore s n { c with sb := c.sb ++ [own] })

/-- Stores entered in order. -/
def enterStores (n : Nat) : List StoreReq → State → State
  | [], s => s
  | q :: r, s => enterStores n r (enterStore s n q)

/-- What the buffer answers to a load of `[pa, pa + len)` within one word (R218): nothing of it is buffered, the bytes with
the tag of an entry that holds them all, or a wait. -/
inductive Forward where
  | clear
  | bytes (w : CapW)
  | wait
  deriving DecidableEq, Repr

def forward (l : List StoreEntry) (pa len : Nat) : Forward :=
  let m := byteMask (pa % 16) len
  if !(l.any (fun e => e.word == pa / 16 && (e.mask &&& m) != 0)) then .clear
  else
    match youngest l (pa / 16) with
    | some i =>
      match l[i]? with
      | some e => if (e.mask &&& m) = m then .bytes ⟨e.data, e.tag⟩ else .wait
      | none => .wait
    | none => .wait

/-- Whether the entry under index `i` may be sent (R217). -/
def sendable (l : List StoreEntry) (i : Nat) : Bool :=
  match l[i]? with
  | some e => !e.sent && !((l.take i).any (fun o => o.word == e.word)) && (!e.se || i == 0)
  | none => false

/-- Entry `i` of core `n` is sent (R217): to general memory it arrives at its tile, in a fabric cycle of that tile. -/
def sendEntry (s : State) (n i : Nat) : State :=
  match (core s n).sb[i]? with
  | none => s
  | some e =>
    let s1 := updCore s n (fun c => { c with sb := modAt c.sb i (fun x => { x with sent := true }) })
    if inMem s (e.word * 16) then
      tileCycle (updTilePort s1 (tileKey (e.word * 16)) false (fun p => { p with wait := p.wait ++ [.store n { e with sent := true }] }))
        (tileKey (e.word * 16))
    else s1

/-- The oldest entry that may be sent is sent. -/
def sendOldest (s : State) (n : Nat) : State :=
  match (upTo (core s n).sb.length).find? (fun i => sendable (core s n).sb i) with
  | some i => sendEntry s n i
  | none => s

/-- Every entry that may be sent is sent, oldest first. -/
def sendEntries (n : Nat) : Nat → State → State
  | 0, s => s
  | k + 1, s => sendEntries n k (sendOldest s n)

/-- Whether a job is the write of entry `id` of core `n`. -/
def isEntry (n id : Nat) (j : PortJob) : Bool :=
  match j with
  | .store m e => m == n && e.id == id
  | .req _ => false

/-- The status of a sent entry to general memory, once there is one: returned by its tile, or of its write performed there. -/
def entryStatus (s : State) (n : Nat) (e : StoreEntry) : Option Status :=
  match e.answer with
  | some st => some st
  | none =>
    match (tilePort s (tileKey (e.word * 16)) false).busy.find? (fun x => isEntry n e.id x.job) with
    | some x => x.fin.map (fun r => r.1)
    | none => none

/-- An entry's job leaves its tile port. -/
def leavePort (s : State) (n : Nat) (e : StoreEntry) : State :=
  updTilePort s (tileKey (e.word * 16)) false (fun p =>
    { p with wait := p.wait.filter (fun j => !isEntry n e.id j), busy := p.busy.filter (fun x => !isEntry n e.id x.job) })

/-- The write of an entry made in one step, wherever it stands: admitted, performed, and its status (R48, R62, R70, R71, R74). -/
def writeEntry (s : State) (n : Nat) (e : StoreEntry) : State × Status :=
  let a := e.word * 16
  let s0 := if newOwner s (bankNo a) .compute then awaitHandover s (bankNo a) else s
  let s1 := countTraf s0 (storeWho n e).ctx a
  if ownerAdmits s1 (bankNo a) .compute then storeAt s1 n e else (refuseWrite s1 a (storeWho n e) false, .notOwner)

/-- The context that holds a late-store report notes a further one as lost, or takes it (R219, R220). -/
def noteLate (l : Option LateReport) (sub : Nat) (e : StoreEntry) : Option LateReport :=
  match l with
  | some r => some { r with finfo := r.finfo ||| (1#64 <<< 40) }
  | none => some { sub := sub, fadr := e.va, finfo := BitVec.ofNat 64 (e.pa % 2 ^ 40) }

/-- The failed write of an entry becomes the report of its context, in the bank that holds it. -/
def lateStore (s : State) (n sub : Nat) (e : StoreEntry) : State :=
  if e.orphan then s
  else
    match bankHolding (core s n) e.ctx with
    | some b =>
      updCore s n (fun c =>
        { c with banks := modAt c.banks b (fun r => { r with regs := { r.regs with late := noteLate r.regs.late sub e } }) })
    | none => s

/-- The subcode of 0x58 for a status (R219). -/
def lateSub (st : Status) : Nat := if st = .notOwner then 2 else 1

/-- The store of a core that is being reset, to general memory, completes (R277): its write is performed if it has not been. -/
def flushEntry (s : State) (n : Nat) (e : StoreEntry) : State :=
  match entryStatus s n e with
  | some _ => leavePort s n e
  | none => (writeEntry (leavePort s n e) n { e with orphan := true }).1

/-- The stores of a core that is being reset: those to general memory complete and are not reported, the others stay as
orphans until the fabric has carried them out (R277 step 1). -/
def flushEntries (n : Nat) : List StoreEntry → State → State × List StoreEntry
  | [], s => (s, [])
  | e :: r, s =>
    if inMem s (e.word * 16) then flushEntries n r (flushEntry s n e)
    else
      match flushEntries n r s with
      | (s1, l) => (s1, { e with orphan := true, sync := none } :: l)

/-- The store-buffer entries of a context on a core. -/
def entriesOf (c : Core) (ctx : Nat) : List StoreEntry := c.sb.filter (fun e => e.ctx == ctx && !e.orphan)

end Sys2Proof.Machine
end

