-- ==== Sys2Proof/Machine/Evt.lean ====
section
/-! DEFINITION. The event controller (chapter 13): lines and grants, event messages, software-set sources and the
configuration of a source. -/

namespace Sys2Proof.Machine

def srcEN (s : State) (n : Nat) : Bool := fon s (EVT_SRCCFG_EN n)
def srcMODE (s : State) (n : Nat) : Nat := fget s (EVT_SRCCFG_MODE n)
def srcPRIO (s : State) (n : Nat) : Nat := fget s (EVT_SRCCFG_PRIO n)
def srcTARGET (s : State) (n : Nat) : Nat := fget s (EVT_SRCCFG_TARGET n)

/-- The sources with PEND set, ascending. -/
def pendingSources (s : State) : List Nat :=
  ((upTo 32).filter (fun w => reg s (EVT_PEND w) != 0)).flatMap (fun w =>
    ((upTo 32).map (fun b => 32 * w + b)).filter (fun n => evtPending s n))

/-- Whether source `n` is presented on line `l` of core `c` (R346, R347). -/
def onLine (s : State) (c l n : Nat) : Bool :=
  srcEN s n && srcMODE s n == 0 && srcTARGET s n == c * 8 + l

/-- The better of two sources: higher PRIO, then the lower number (`a` is the lower). -/
def betterSrc (s : State) (a : Option Nat) (n : Nat) : Option Nat :=
  match a with
  | some m => if srcPRIO s m < srcPRIO s n then some n else some m
  | none => some n

/-- The source that line `l` of core `c` presents, if the line is pending (R347). -/
def lineSource (s : State) (c l : Nat) : Option Nat :=
  if running s 6 then ((pendingSources s).filter (fun n => onLine s c l n)).foldl (betterSrc s) none else none

/-- The better of two pending lines, as (line, source): higher PRIO, then the lower line. -/
def betterLine (s : State) (a : Option (Nat × Nat)) (b : Option (Nat × Nat)) : Option (Nat × Nat) :=
  match a, b with
  | some p, some q => if srcPRIO s p.2 < srcPRIO s q.2 then some q else some p
  | none, q => q
  | p, none => p

/-- The highest-ranked pending line of core `c`, with its source (R347). -/
def topLine (s : State) (c : Nat) : Option (Nat × Nat) :=
  (upTo 8).foldl (fun a l => betterLine s a ((lineSource s c l).map (fun n => (l, n)))) none

/-- LINEPENDn. -/
def linePend (s : State) (c : Nat) : W32 :=
  let p := (upTo 8).foldl (fun x l => if (lineSource s c l).isSome then x + 2 ^ l else x) 0
  BitVec.ofNat 32
    (match topLine s c with
     | some (l, n) => n * 2 ^ 16 + srcPRIO s n * 2 ^ 12 + 2 ^ 11 + l * 2 ^ 8 + p
     | none => 0)

/-- Whether core `c` issues: a context runs on it, and it is admitted (R323, R349). -/
def issues (s : State) (c : Nat) : Bool :=
  match curCtx s c with
  | some n => ctxState s n == 3 && !(core s c).halted && fon s (SCHED_CORECTL_ADMIT c)
  | none => false

/-- The request a core makes at a bundle boundary with IE = 1 (R348). -/
def requestGrant (s : State) (c : Nat) : State :=
  if issues s c && (core s c).held.isNone && stIE (status s c) && (core s c).grant.isNone && (core s c).grantReq.isNone then
    match topLine s c with
    | some (l, _) => updCore s c (fun k => { k with grantReq := some l })
    | none => s
  else s

/-- The answer to a core's request (R348): the line is evaluated again and the source then presented is granted, or nothing. -/
def grantAnswer (s : State) (c l : Nat) : State :=
  let s0 := updCore s c (fun k => { k with grantReq := none })
  match lineSource s c l with
  | some n =>
    traceRec (countUp (updCore (clearEvt s0 n) c (fun k => { k with grant := some { line := l, source := n } })) EVT_GRANT_CNT) c 6 n
  | none => s0

/-- GRANT_REQUEST: the request of core `c`, made now if none is outstanding and the core stands at a boundary, is answered; that of a core that
issues nothing stays outstanding (R349). -/
def grantRequest (s : State) (c : Nat) : State :=
  let s1 := requestGrant s c
  match (core s1 c).grantReq with
  | some l => if issues s1 c then grantAnswer s1 c l else s1
  | none => s1

/-! ### Event messages (R351, R352) -/

/-- The put that carries source `n`. -/
def eventPut (s : State) (n : Nat) : PutReq :=
  { queue := srcTARGET s n, sender := fget s EVT_EVT_CFG_MSGCTX, ring := none, cls := 15, axis := 0, flags := 0, plen := 16
    payload :=
      [⟨BitVec.ofNat 128 ((mget (fun _ => 0#64) s.evtFirst n).toNat * 2 ^ 64 + mget (fun _ => 0) s.evtCount n % 65536 * 2 ^ 32 +
          srcPRIO s n * 2 ^ 16 + n), false⟩]
    fromEvt := true }

/-- One event message offered for source `n`. -/
def offerEvent (s : State) (n : Nat) : State :=
  match queuePut s (eventPut s n) with
  | (s1, 0) => countUp (clearEvt s1 n) EVT_QPUT_CNT
  | (s1, st) =>
    let s2 := setReg (countUp s1 EVT_QREFUSE_CNT) EVT_QFAIL (BitVec.ofNat 32 (st * 2 ^ 28 + n * 2 ^ 16 + srcTARGET s n))
    { s2 with evtWait := if s2.evtWait.contains n then s2.evtWait else s2.evtWait ++ [n] }

/-- Whether source `n` may go to its queue now. -/
def queueRouted (s : State) (n : Nat) : Bool :=
  running s 6 && accepted s 6 1 && evtPending s n && srcEN s n && srcMODE s n == 1

/-- EVENT_MESSAGE_PUT: the pending, enabled, queue-routed source of highest PRIO that waits for no retry is put. -/
def eventMessagePut (s : State) : State :=
  match ((pendingSources s).filter (fun n => queueRouted s n && !s.evtWait.contains n)).foldl (betterSrc s) none with
  | some n => offerEvent s n
  | none => s

/-- EVENT_PUT_RETRY: a refused source is tried again while it is still to be put; otherwise it waits for nothing. -/
def eventPutRetry (s : State) (n : Nat) : State :=
  if s.evtWait.contains n then
    if queueRouted s n then offerEvent s n
    else if running s 6 then { s with evtWait := s.evtWait.filter (fun k => k != n) } else s
  else s

/-! ### Registers -/

/-- SWSET (R354). -/
def swsetWrite (s : State) (n : Nat) (who : Requester) : State :=
  if accepted s 6 2 ∧ 386 ≤ n ∧ n ≤ 447 then evtOccur s n else capture s 6 0x11 EVT_SWSET who

/-- PEND bits of word `w` cleared by a write of 1 (R345). -/
def pendClear (w : Nat) (m : Nat) : List Nat → State → State
  | [], s => s
  | b :: r, s => pendClear w m r (if bit m b then clearEvt s (32 * w + b) else s)

/-- A write of SRCCFGn (R355). A refused source that is no longer enabled or routed to a queue waits for no retry, so that it is put as soon
as it is again (R346, R351). -/
def srccfgWrite (s : State) (n : Nat) (v : W32) (who : Requester) : State :=
  let t := bits v.toNat 13 0
  let bad :=
    if bit v.toNat 30 then decide (Config.queues s.variant ≤ t)
    else decide (Config.cores s.variant ≤ bits t 6 3) || bits t 13 7 != 0
  if bad then capture s 6 0x10 (EVT_SRCCFG n) who
  else
    let s1 := setReg s (EVT_SRCCFG n) (v &&& 0xFC003FFF)
    if srcEN s1 n && srcMODE s1 n == 1 then s1 else { s1 with evtWait := s1.evtWait.filter (fun k => k != n) }

end Sys2Proof.Machine
end

