-- ==== Sys2Proof/Machine/Sched.lean ====
section
/-! DEFINITION. The scheduler: which context a core runs, the spill and save of an eviction, bank switches, placement and
record loads, the reset of a core, and the context commands (R240–R248, R277, R306–R327). -/

namespace Sys2Proof.Machine

/-! ### What runs where -/

/-- The (bank, context) pairs a core holds. -/
def heldCtxs (c : Core) : List (Nat × Nat) :=
  (upTo 4).filterMap (fun b => (bankOf c b).ctx.map (fun n => (b, n)))

/-- Whether a held context is to leave its bank: an eviction of it is due, or a SUSPEND of it waits (R246, R311). -/
def leaving (s : State) (c : Nat) : Bool := s.evicts.contains c || s.suspend.any (fun p => p.ctx == c)

/-- The banks of core `n` that hold a runnable context that stays. -/
def runnableBanks (s : State) (n : Nat) : List (Nat × Nat) :=
  (heldCtxs (core s n)).filter (fun p => ctxState s p.2 == 3 && !leaving s p.2)

/-- The better of two runnable banks: higher priority, then the least recently current (R319). -/
def betterBank (s : State) (c : Core) (a : Option (Nat × Nat)) (q : Nat × Nat) : Option (Nat × Nat) :=
  match a with
  | none => some q
  | some p =>
    if ctxPrio s p.2 < ctxPrio s q.2 then some q
    else if ctxPrio s p.2 = ctxPrio s q.2 ∧ (bankOf c q.1).lastCur < (bankOf c p.1).lastCur then some q
    else some p

/-- The best of some banks. -/
def bestBank (s : State) (n : Nat) (l : List (Nat × Nat)) : Option (Nat × Nat) := l.foldl (betterBank s (core s n)) none

/-- Whether the clock of core `n` stands: a droop of level 2 is in force in its quadrant (R531, R532). -/
def clockStopped (s : State) (n : Nat) : Bool := s.pwr.levels.getD (n / 4) 0 == 2

/-- The context current on core `n`, if it is runnable and stays. -/
def runningCtx (s : State) (n : Nat) : Option Nat :=
  match curCtx s n with
  | some c => if ctxState s c = 3 then some c else none
  | none => none

/-- Whether a core holds no runnable context (R323). -/
def coreIdle (s : State) (n : Nat) : Bool := !((heldCtxs (core s n)).any (fun p => ctxState s p.2 == 3))

/-- Whether context `c` is eligible on core `n` (R318). -/
def eligible (s : State) (c n : Nat) : Bool := corePresent s n && fon s (SCHED_CORECTL_ADMIT n) && bit (ctxCores s c) n

/-- The READY contexts. -/
def readyCtxs (s : State) : List Nat :=
  s.recs.filterMap (fun p => if p.1 % 64 = 48 ∧ p.2.bits.toNat % 8 = 2 then some (p.1 / 64) else none)

/-- Whether core `n` stands at a boundary at which banks may be switched and residences may start and end (R240): one of the current
context with IE = 1, EXL = 0 and DFL = 0. -/
def maySwitch (s : State) (n : Nat) : Bool :=
  match (core s n).cur with
  | none => true
  | some _ =>
    (stIE (status s n) && !stEXL (status s n) && !stDFL (status s n)) &&
      (core s n).held.isNone

/-- The core's CORECUR and CORERES registers (R327). IDLE is the live state of R323, so that after reset it reads 1 on the cores present
but core 0, although the reset column gives 0 (DEDUCED, assumption 149). -/
def coreCur (s : State) (n : Nat) : W32 :=
  let idle := coreIdle s n && (core s n).loading.isEmpty && !((readyCtxs s).any (fun c => eligible s c n))
  BitVec.ofNat 32 (b2n idle * 2 ^ 31 + b2n (core s n).yhalt * 2 ^ 30 + (if idle then 0 else (curCtx s n).getD 0))
def coreRes (s : State) (n k : Nat) : W32 :=
  let f (b : Nat) : Nat := match (bankOf (core s n) b).ctx with
    | some c => 0x8000 + c
    | none => 0
  BitVec.ofNat 32 (f (2 * k + 1) * 65536 + f (2 * k))

/-! ### Faults of contexts -/

/-- A context enters FAULTED (R306, R309, R327). -/
def faultCtx (s : State) (c cause : Nat) : State :=
  raise (setReg (setRecBits (setCtxState s c 5) c 0x300 47 40 cause) SCHED_FAULTCTX (BitVec.ofNat 32 (cause * 2 ^ 16 + c))) 1 0

/-! ### Spilling windows (R246, R247) -/

/-- The code of SPILLERR that the checks of SSP give before anything is written, 0 when they pass. -/
def sspCode (ssp : CapW) (sdepth frames : Nat) : Nat :=
  let lo := capBase ssp + (256 * sdepth : Nat)
  let hi := lo + (256 * frames : Nat)
  if !ssp.tag then 1
  else if capOtype ssp ≠ 0 ∨ hasPerm ssp pQUEUE = true then 2
  else if !(hasPerm ssp pSTORE && hasPerm ssp pSTORECAP && hasPerm ssp pSTORELOCAL) then 3
  else if lo < capBase ssp ∨ (capCursor ssp : Int) - 128 < hi ∨ canonical lo.toNat = false ∨ canonical (hi - 1).toNat = false then 4
  else 0

/-- The walk of a spill for one slot, unless the page of the slot before it still serves (R290). -/
def spillPage (s : State) (n c space va : Nat) (last : Option (Nat × Leaf)) : State × Option Leaf :=
  match last with
  | some (v, l) =>
    if v / 2 ^ l.size = va / 2 ^ l.size then (s, some l)
    else if space = 0 then (s, if va < 2 ^ 40 then some (identityLeaf s va) else none)
    else
      match walk s n (blkReq 1 (some c)) true space va with
      | (s1, .leaf l2) => (s1, some l2)
      | (s1, .fault _ _ _ _) => (s1, none)
  | none =>
    if space = 0 then (s, if va < 2 ^ 40 then some (identityLeaf s va) else none)
    else
      match walk s n (blkReq 1 (some c)) true space va with
      | (s1, .leaf l2) => (s1, some l2)
      | (s1, .fault _ _ _ _) => (s1, none)

/-- The slots of a frame checked (R247): the physical address and TW of each, or a failure. -/
def checkFrame (n c space ring : Nat) (ssp : CapW) (last : Option (Nat × Leaf)) :
    Nat → List CapW → State → State × Option (List (Nat × Bool))
  | _, [], s => (s, some [])
  | va, w :: r, s =>
    match spillPage s n c space (va % 2 ^ 48) last with
    | (s1, none) => (s1, none)
    | (s1, some l) =>
      if va % 16 ≠ 0 ∨ (pageCheck s1 ring ssp .capstore (some w) false l (physIn l (va % 2 ^ 48))).isSome = true then (s1, none)
      else
        match checkFrame n c space ring ssp (some (va % 2 ^ 48, l)) (va + 16) r s1 with
        | (s2, some ps) => (s2, some ((physIn l (va % 2 ^ 48), l.tw) :: ps))
        | (s2, none) => (s2, none)

/-- The words of a frame written through port B in the compute domain; whether every write completed with OK. -/
def writeFrame (c : Nat) : List (Nat × Bool) → List CapW → State → State × Bool
  | (pa, tw) :: ps, w :: ws, s =>
    match portBWord s pa w (blkReq 1 (some c)) .compute with
    | (s1, .ok) => writeFrame c ps ws (if tw then replStore s1 pa else s1)
    | (s1, _) => (s1, false)
  | _, _, s => (s, true)

/-- The frame of window `w` (R237): its received and its own registers. -/
def frameOf (r : CtxRegs) (w : Nat) : List CapW :=
  (upTo 8).map (fun k => ringGet r.pas (w + 7) k) ++ (upTo 8).map (fun k => ringGet r.own w k)

/-- Windows spilled oldest first (R246): the state, the frames written, and the code of the failure (0: none). -/
def spillFrames (n c : Nat) (r : CtxRegs) : List Nat → Nat → State → State × Nat × Nat
  | [], _, s => (s, 0, 0)
  | w :: ws, sd, s =>
    let ssp := r.glob.getD 5 nullW
    let va := (capBase ssp + (256 * sd : Nat)).toNat
    match checkFrame n c r.space.toNat (stRING r.status) ssp none va (frameOf r w) s with
    | (s1, none) => (s1, 0, 5)
    | (s1, some ps) =>
      match writeFrame c ps (frameOf r w) s1 with
      | (s2, false) => (s2, 0, 6)
      | (s2, true) =>
        match spillFrames n c r ws (sd + 1) s2 with
        | (s3, k, code) => (s3, k + 1, code)

/-- The windows to spill, oldest first: the occupied ones but the current (R229, R246). -/
def spillWindows (w : W32) : List Nat := (upTo (winOcc w - 1)).map (fun i => (winCur w + 8 + 1 - winOcc w + i) % 8)

/-- The spill of a bank's windows (R246, R247): the state, the registers afterwards, and SPILLERR. -/
def spill (s : State) (n c : Nat) (r : CtxRegs) : State × CtxRegs × Nat :=
  let ws := spillWindows r.winctl
  let after (k : Nat) : CtxRegs := { r with winctl := mkWin (winSdepth r.winctl + k) ((winCur r.winctl + 1) % 8) 1 (winCur r.winctl) }
  if ws.length = 0 then (s, after 0, 0)
  else
    let code := sspCode (r.glob.getD 5 nullW) (winSdepth r.winctl) ws.length
    if code ≠ 0 then (s, after 0, ws.length * 32 + code)
    else
      match spillFrames n c r ws (winSdepth r.winctl) s with
      | (s1, k, e) => (s1, after k, if e = 0 then 0 else (ws.length - k) * 32 + e)

/-! ### Commands' completion -/

/-- A context command completes: CMDSTAT is written and event 130 raised if CTXCMD.EV asked for it (R311, R327). -/
def cmdDone (s : State) (ctx st words : Nat) (ev : Bool) : State :=
  let s1 := setReg s SCHED_CMDSTAT (BitVec.ofNat 32 (ctxState s ctx * 2 ^ 24 + st * 2 ^ 20 + words * 2 ^ 12 + ctx))
  if ev then raise s1 1 2 else s1

/-- A SUSPEND that waits for context `c` completes with OK (R311). -/
def suspendDone (s : State) (c : Nat) : State :=
  match s.suspend with
  | some p => if p.ctx = c then cmdDone { s with suspend := none } c 0 0 p.ev else s
  | none => s

/-! ### Twinned records (R502) -/

/-- The record of context `c` sent to the standby. -/
def sendRecord (s : State) (c : Nat) : State := if replicates s 3 then twSend s true (.record c 0 (recImage s c)) else s

/-- A record has been saved: it is sent if the context is twinned or a RECPUSH waits for it, and the RECPUSH completes. -/
def recordSaved (s : State) (c : Nat) : State :=
  if s.twin.push = some c then
    setReg { sendRecord s c with twin := { (sendRecord s c).twin with push := none } } TWIN_RECPUSH (BitVec.ofNat 32 c)
  else if bit (reg s (TWIN_TWCTXMAP (c / 32))).toNat (c % 32) then sendRecord s c
  else s

/-! ### Evictions -/

/-- RUNTIME raised by the core cycles of the residence, a free value: cycle counts are not modelled (R309). -/
def addRuntime (s : State) (c : Nat) : State :=
  let v := recBits s c 0x310 63 0 + (Config.word s.free).toNat
  takeFree (setRecBits s c 0x310 63 0 (min v (2 ^ 64 - 1)))

/-- The state of a context after its eviction (R308, R311). -/
def evictedState (s : State) (c spillErr : Nat) : State :=
  if spillErr ≠ 0 then suspendDone (raise (faultCtx s c 1) 1 8) c
  else
    match s.suspend with
    | some p =>
      if p.ctx = c then suspendDone (setCtxState s c 4) c
      else if ctxState s c = 3 then makeReady s c else s
    | none => if ctxState s c = 3 then makeReady s c else s

/-- The context in bank `b` of core `n` evicted, its stores having completed (R246, R247): windows spilled, record saved, bank
cleared, state changed. -/
def evictBank (s : State) (n b : Nat) : State :=
  match (bankOf (core s n) b).ctx with
  | none => s
  | some c =>
    match spill s n c (bankOf (core s n) b).regs with
    | (s1, r, e) =>
      let s2 := putRecs s1 c 0 (recordImage r e)
      let s3 := addRuntime { s2 with evicts := s2.evicts.filter (fun k => k != c) } c
      let s4 := updCore s3 n (fun k => { k with banks := setAt k.banks b ResBank.empty, cur := if k.cur = some b then none else k.cur })
      recordSaved (evictedState s4 c e) c

/-- A context is to be evicted, whatever becomes of a SUSPEND of it. -/
def askEvict (s : State) (c : Nat) : State := if s.evicts.contains c then s else { s with evicts := s.evicts ++ [c] }

/-- EVICTION: the context is evicted once it is not current, its core stands at a boundary that R240 permits and its stores have
completed; the twin stream must have room for the words that a spill to TW pages would replicate (R246, R498). -/
def eviction (s : State) (c : Nat) : State :=
  match heldAt s c with
  | some (n, b) =>
    if leaving s c && maySwitch s n && (core s n).cur != some b && (entriesOf (core s n) c).isEmpty && !(core s n).halted &&
        (!replicates s 1 || twFree s 8192) then evictBank s n b
    else s
  | none => s

/-! ### Whose turn it is (R319–R321) -/

/-- The context that gives way to `c` on a full core (R321). -/
def victimOn (s : State) (n c : Nat) : Option Nat :=
  let held := (heldCtxs (core s n)).filter (fun p => !leaving s p.2)
  let lru (l : List (Nat × Nat)) : Option Nat :=
    (l.foldl (fun a q =>
      match a with
      | none => some q
      | some p => if (bankOf (core s n) q.1).lastCur < (bankOf (core s n) p.1).lastCur then some q else some p) none).map (fun p => p.2)
  match lru (held.filter (fun p => ctxState s p.2 == 1)) with
  | some v => some v
  | none => lru (held.filter (fun p => ctxState s p.2 == 3 && decide (ctxPrio s p.2 < ctxPrio s c)))

/-- A bank of core `n` that holds nothing and into which nothing is being loaded. -/
def freeBank (s : State) (n : Nat) : Option Nat :=
  (upTo 4).find? (fun b => (bankOf (core s n) b).ctx.isNone && !((core s n).loading.any (fun p => p.2 == b)))

/-- Whether the READY context `c` can come to core `n`: it is being loaded there, or a bank is free, is becoming free or can be made so. -/
def comes (s : State) (n c : Nat) : Bool :=
  eligible s c n && running s 1 &&
    ((core s n).loading.any (fun p => p.1 == c) || (freeBank s n).isSome || (heldCtxs (core s n)).any (fun p => leaving s p.2) ||
      (victimOn s n c).isSome)

/-- The contexts of the priority of `c` that wait for core `n`: since when, and the bank of one that is held (R320). -/
def waiters (s : State) (n c : Nat) : List (Nat × Option Nat) :=
  let since (k : Nat) : Nat := mget (fun _ => 0) s.waitAt k
  ((runnableBanks s n).filter (fun p => p.2 != c && ctxPrio s p.2 == ctxPrio s c)).map (fun p => (since p.2, some p.1)) ++
    ((readyCtxs s).filter (fun k => ctxPrio s k == ctxPrio s c && comes s n k)).map (fun k => (since k, none))

/-- The one that has waited longest. -/
def longestWait : List (Nat × Option Nat) → Option (Nat × Option Nat)
  | [] => none
  | p :: r =>
    match longestWait r with
    | some q => if q.1 < p.1 then some q else some p
    | none => some p

/-! ### Switching banks -/

/-- The bank that core `n` should run (R319, R320): the best runnable one. The current one keeps the core against others of its own priority
unless it has yielded; one that has used up its quantum gives way to the context that has waited longest, once that is held. -/
def wantedBank (s : State) (n : Nat) : Option Nat :=
  let others := (runnableBanks s n).filter (fun p => some p.1 != (core s n).cur)
  match (core s n).cur, runningCtx s n with
  | some b, some c =>
    if leaving s c then (bestBank s n others).map (fun p => p.1)
    else
      match bestBank s n others with
      | some p =>
        if ctxPrio s c < ctxPrio s p.2 then some p.1
        else if mget (fun _ => false) s.quanta n then
          (match longestWait (waiters s n c) with
           | some (_, some k) => some k
           | _ => some b)
        else if ctxPrio s p.2 = ctxPrio s c ∧ (core s n).yhalt = true then some p.1
        else some b
      | none => some b
  | _, _ => (bestBank s n others).map (fun p => p.1)

/-- Core `n` starts to run bank `b`, or becomes idle: the fetch buffer is emptied (R225, R242). -/
def takeBank (s : State) (n : Nat) (b : Option Nat) : State :=
  let prev := (curCtx s n).getD 0
  let s0 := match runningCtx s n with
    | some c => noteWait s c
    | none => s
  let s1 := takeSeq (updCore s0 n (fun c =>
    { c with
      cur := b, fbuf := [], opened := [], held := none, yhalt := false
      banks := (match b with
        | some i => modAt c.banks i (fun r => { r with lastCur := s0.seq })
        | none => c.banks) }))
  let s2 := { s1 with quanta := mput (fun _ => false) s1.quanta n false }
  match b with
  | some _ => traceRec s2 n 4 prev
  | none => s2

/-- A SUSPEND of a context that the core has switched away from can no longer be aborted (R311). -/
def markStarted (s : State) (c : Option Nat) : State :=
  match s.suspend, c with
  | some p, some k => if p.ctx = k then { s with suspend := some { p with started := true } } else s
  | _, _ => s

/-- The switch of core `n` to bank `b` (R187, R209, R240, R242): the long operations have been drained without an error, late
loads are written first. -/
def switchTo (s : State) (n : Nat) (b : Option Nat) : State :=
  let c := curCtx s n
  markStarted (takeBank (applyLate s n) n b) c

/-! ### Moves (R322) -/

/-- Whether quadrant `q` has an eligible core for context `c`. -/
def quadEligible (s : State) (c q : Nat) : Bool := (upTo 4).any (fun k => eligible s c (4 * q + k))

/-- A held context that stops running is moved when its traffic is lopsided. -/
def maybeMove (s : State) (n c : Nat) : State :=
  let sh := fget s SCHED_SCHED_CFG_MIGSHIFT
  let own := traf s c (quadOf n)
  if accepted s 1 1 && recBits s c 0x300 12 12 == 1 && sh != 0 &&
      (upTo 4).any (fun q => q != quadOf n && quadEligible s c q && decide (256 ≤ traf s c q) && decide (2 ^ sh * own ≤ traf s c q)) then
    if s.moves < fget s SCHED_SCHED_CFG_MIGLIM then
      askEvict (countUp { s with moves := s.moves + 1 } SCHED_MIGR_CNT) c
    else if s.movesNoted then s
    else raise { s with movesNoted := true } 1 3
  else s

/-! ### Placement (R319, R321) -/

/-- The priority that placement counts core `n` as running: that of the context being loaded, or of the current context; a core
whose current bank holds none that runs counts as running the best of those it holds, to which it is about to switch (R319). -/
def corePrio (s : State) (n : Nat) : Nat :=
  match (core s n).loading.getLast? with
  | some (c, _) => ctxPrio s c
  | none =>
    match runningCtx s n with
    | some c => ctxPrio s c
    | none => ((heldCtxs (core s n)).filter (fun p => ctxState s p.2 == 3)).foldl (fun a p => max a (ctxPrio s p.2)) 0

/-- Whether placement counts core `n` as idle: it holds nothing runnable, and nothing is being loaded onto it (R319). -/
def placeIdle (s : State) (n : Nat) : Bool := coreIdle s n && (core s n).loading.isEmpty

/-- Whether core `n` takes a load of context `c`: it is idle, or runs a lower priority, or an equal one whose quantum is up. -/
def takesLoad (s : State) (n c : Nat) : Bool :=
  eligible s c n && !(core s n).halted &&
    (placeIdle s n || decide (corePrio s n < ctxPrio s c) ||
      (corePrio s n == ctxPrio s c && (core s n).loading.isEmpty && mget (fun _ => false) s.quanta n))

/-- The quadrant that placement prefers for context `c`: the largest TRAF among those with an eligible core (R322). -/
def preferredQuad (s : State) (c : Nat) : Option Nat :=
  if accepted s 1 1 then
    (upTo 4).foldl (fun a q =>
      if quadEligible s c q then
        match a with
        | none => some q
        | some p => if traf s c p < traf s c q then some q else some p
      else a) none
  else none

/-- Whether core `a` is preferred to core `b` for context `c`: idle first, then the lowest-priority current context, then the
preferred quadrant, then the lower number (`a` is the higher number). -/
def betterCore (s : State) (c b a : Nat) : Bool :=
  let q := preferredQuad s c
  let inQ (n : Nat) : Bool := q == some (quadOf n)
  if placeIdle s a != placeIdle s b then placeIdle s a
  else if placeIdle s a == false && corePrio s a != corePrio s b then decide (corePrio s a < corePrio s b)
  else inQ a && !inQ b

/-- The cores that take a load of `c`, the preferred first. -/
def coreOrder (s : State) (c : Nat) : List Nat :=
  sortBy (fun a b => !betterCore s c a b) ((upTo (Config.cores s.variant)).filter (fun n => takesLoad s n c))

/-- A load of `c` onto the first core of a list that has a free bank, or that has a context to give way; for one from which a context is
already to leave, `c` waits. -/
def placeOn (s : State) (c : Nat) : List Nat → Option State
  | [] => none
  | n :: ns =>
    match freeBank s n with
    | some b => some (updCore s n (fun k => { k with loading := k.loading ++ [(c, b)] }))
    | none =>
      if (heldCtxs (core s n)).any (fun p => leaving s p.2) then none
      else
        match victimOn s n c with
        | some v => some (askEvict s v)
        | none => placeOn s c ns

/-- The first of the READY contexts, in their order, that can be placed. -/
def placeFirst (s : State) : List Nat → State
  | [] => s
  | c :: cs =>
    if s.cores.any (fun k => k.loading.any (fun p => p.1 == c)) then placeFirst s cs
    else
      match placeOn s c (coreOrder s c) with
      | some t => t
      | none => placeFirst s cs

/-- The READY contexts, highest priority first, then the one READY longest. -/
def readyOrder (s : State) : List Nat :=
  sortBy (fun a b =>
    decide (ctxPrio s b < ctxPrio s a) ||
      (ctxPrio s a == ctxPrio s b && decide (mget (fun _ => 0) s.readyAt a ≤ mget (fun _ => 0) s.readyAt b))) (readyCtxs s)

/-- PLACEMENT (R319): the load of one READY context starts, or the eviction that makes room for it. -/
def placement (s : State) : State := if running s 1 then placeFirst s (readyOrder s) else s

/-- RECORD_LOAD (R240, R241, R243, R244): the first load in progress on core `n` completes at a boundary that R240 permits; an upset may
strike word `w` of the record as it is read. -/
def recordLoad (s : State) (n w : Nat) (u : Upset) : State :=
  match (core s n).loading with
  | [] => s
  | (c, b) :: rest =>
    let s0 := strikeRec (updCore s n (fun k => { k with loading := rest })) c w u
    if maySwitch s n = false then s
    else if ctxState s c ≠ 2 ∨ eligible s c n = false then s0
    else
      match recCheck c (upTo 48) s0 with
      | (s1, true) => raise (faultCtx s1 c 2) 1 9
      | (s1, false) =>
        countUp (setCtxState (updCore s1 n (fun k =>
          { k with banks := setAt k.banks b { ctx := some c, regs := imageRegs (recImage s1 c), lastCur := 0 } })) c 3) SCHED_DISPATCH_CNT

/-! ### The reset of a core (R277, R278, R542) -/

/-- A held grant goes back to its source (R349). -/
def returnGrant (s : State) (n : Nat) : State :=
  match (core s n).grant with
  | some g => evtOccur (updCore s n (fun c => { c with grant := none, grantReq := none })) g.source
  | none => updCore s n (fun c => { c with grantReq := none })

/-- Invalidations a core has received and not yet acknowledged are acknowledged (R297). -/
def ackIcinv : List (Nat × Nat) → State → State
  | [], s => s
  | p :: r, s => ackIcinv r (updCore s p.1 (fun c => { c with icinvWait := c.icinvWait - 1 }))
def ackTlb : List Nat → State → State
  | [], s => s
  | p :: r, s => ackTlb r (updCore s p (fun c => { c with tlbWait := c.tlbWait - 1 }))
def ackAll (s : State) (n : Nat) : State :=
  ackTlb ((core s n).tlbRx.map (fun p => p.1) ++ (core s n).tlbAcks.map (fun p => p.1)) (ackIcinv (core s n).icinvRx s)

/-- The contexts of a core evicted, one that has entered FAULTED apart (R277 step 5). -/
def evictOthers (n : Nat) (faulted : Option Nat) : List Nat → State → State
  | [], s => s
  | b :: r, s => evictOthers n faulted r (if faulted.isSome ∧ (bankOf (core s n) b).ctx = faulted then s else evictBank s n b)

/-- Steps 1 and 4 to 6 of R277: stores in flight, the current context, the others, the core. A current context that is not RESIDENT is
evicted with the others (R308). -/
def coreReset (s : State) (n : Nat) : State :=
  let cur := runningCtx s n
  match flushEntries n (core s n).sb s with
  | (s1, orphans) =>
    let s2 := returnGrant (updCore s1 n (fun c => { c with sb := orphans, loading := [] })) n
    let s3 := match cur with
      | some c => suspendDone (faultCtx { s2 with evicts := s2.evicts.filter (fun k => k != c) } c 3) c
      | none => s2
    let s4 := ackAll (evictOthers n cur (upTo 4) s3) n
    let old := core s4 n
    let s5 := setCore s4 n
      { Core.empty with
        kentry := old.kentry, dfentry := old.dfentry, sb := old.sb, icinvWait := old.icinvWait
        tlbWait := old.tlbWait, alerts := old.alerts, granules := old.granules, ghosts := old.ghosts }
    let s6 := if n = 0 then { s5 with boot := { s5.boot with wait := false } } else s5
    raise (fset (fset s6 (SCHED_CORECTL_ADMIT n) 0) (SCHED_CORECTL_PARKED n) 1) 1 1

/-- The notice of R277 step 3. -/
def tripleNotice (s : State) (n ctx dfcode cause : Nat) : State := twSend s false (.triple n ctx dfcode cause)

/-! ### Context commands (R311–R314) -/

/-- Whether a command may be given in a context's state. -/
def permitted (op st : Nat) : Bool :=
  match op with
  | 1 => st == 0
  | 2 => st == 4 || st == 5
  | 3 => st == 1 || st == 2 || st == 3 || st == 4
  | 4 => st == 4 || st == 5
  | 5 => st != 0
  | 6 => st != 0
  | 7 => true
  | 8 => st == 4 || st == 5
  | 9 => st == 4 || st == 5
  | _ => true

/-- RESUME (R308, R311). -/
def resumeCtx (s : State) (c : Nat) : State :=
  let s1 := setRecBits s c 0x300 47 40 0
  if recBits s c 0x300 13 13 = 1 ∧ ctxWake s c = false then setCtxState s1 c 1 else noteWait (makeReady s1 c) c

/-- SUSPEND (R311). -/
def suspendCtx (s : State) (c : Nat) (ev : Bool) : State :=
  if ctxState s c = 4 then cmdDone s c 0 0 ev
  else
    match heldAt s c with
    | some (n, b) =>
      fset { s with suspend := some { ctx := c, ev := ev, started := (core s n).cur != some b } } SCHED_CMDSTAT_BUSY 1
    | none => cmdDone (setCtxState s c 4) c 0 0 ev

/-- SETCORES (R311, R312). -/
def setCoresCtx (s : State) (c : Nat) (arg : Nat) (ev : Bool) : State :=
  if (bits arg 15 0) % 2 ^ Config.cores s.variant = 0 then cmdDone s c 10 0 ev
  else
    let s1 := setRecBits (setRecBits s c 0x300 31 16 (bits arg 15 0)) c 0x300 12 12 (bits arg 16 16)
    let s2 := match heldAt s1 c with
      | some (n, _) => if bit (bits arg 15 0) n then s1 else askEvict s1 c
      | none => s1
    cmdDone s2 c 0 0 ev

/-- Record words to memory through port B in the compute domain (R313): the state, the words moved, and the first status that
is not OK. -/
def recSaveWords (c : Nat) : List Nat → Nat → State → State × Nat × Nat
  | [], _, s => (s, 0, 0)
  | w :: ws, a, s =>
    match recCheck c [w] s with
    | (s1, true) => (s1, 0, 5)
    | (s1, false) =>
      match portBWord s1 a (recWord s1 c w) (blkReq 1 (some c)) .compute with
      | (s2, .ok) =>
        match recSaveWords c ws (a + 16) s2 with
        | (s3, k, st) => (s3, k + 1, st)
      | (s2, st) => (s2, 0, statusCode st)

/-- A record word as RECLOAD writes it (R245, R313): words 32–47 untagged, reserved bits zero, the forced fields forced. -/
def recLoadWord (w : Nat) (v : CapW) : CapW :=
  if w < 32 then v
  else
    match w with
    | 32 =>
      let st := loSlot v % 2 ^ 11
      let win : W32 := BitVec.ofNat 32 (hiSlot v)
      slots (withBits (withBits (withBits st 7 7 0) 4 3 0) 10 8 0) (mkWin (winSdepth win) ((winCur win + 1) % 8) 1 (winCur win)).toNat
    | 33 => slots (loSlot v % 2 ^ 32) (hiSlot v)
    | 34 => slots (loSlot v % 2 ^ 12) (hiSlot v % 2 ^ 8 / 2 * 2 + 1)
    | 42 => slots (loSlot v % 2 + bits (loSlot v) 15 8 * 256) (bits (hiSlot v) 7 5 * 32 + bits (hiSlot v) 3 0)
    | 43 => nullW
    | 44 => nullW
    | 45 => nullW
    | 46 => nullW
    | 47 => nullW
    | _ => ⟨v.bits, false⟩

/-- Memory to record words through port B (R313). -/
def recLoadWords (c : Nat) : List Nat → Nat → State → State × Nat × Nat
  | [], _, s => (s, 0, 0)
  | w :: ws, a, s =>
    match portBReadWord s a (blkReq 1 (some c)) with
    | (s1, v, .ok) =>
      match recLoadWords c ws (a + 16) (putRec s1 c w (recLoadWord w v)) with
      | (s2, k, st) => (s2, k + 1, st)
    | (s1, _, st) => (s1, 0, statusCode st)

/-- RECSAVE and RECLOAD (R313). -/
def transferCtx (s : State) (c : Nat) (load ev : Bool) : State :=
  let arg := (reg s SCHED_CTXARG).toNat
  let first := bits arg 5 0
  let count := bits arg 21 16 + 1
  let a := alignDown (pair s SCHED_RECX_ADDR_LO SCHED_RECX_ADDR_HI) 16
  let ws := (upTo count).map (fun i => first + i)
  if 64 < first + count ∨ (load = true ∧ 48 < first + count) then cmdDone s c 10 0 ev
  else
    match (if load then recLoadWords c ws a s else recSaveWords c ws a s) with
    | (s1, k, st) => cmdDone s1 c st k ev

/-- The effect of a command that is permitted (R311). -/
def ctxEffect (s : State) (op c : Nat) (ev : Bool) : State :=
  let arg := (reg s SCHED_CTXARG).toNat
  match op with
  | 1 => cmdDone (createRecord s c) c 0 0 ev
  | 2 => cmdDone (resumeCtx s c) c 0 0 ev
  | 3 => suspendCtx s c ev
  | 4 => cmdDone (setCtxState s c 0) c 0 0 ev
  | 5 => cmdDone (setRecBits s c 0x300 11 8 (bits arg 3 0)) c 0 0 ev
  | 6 => setCoresCtx s c arg ev
  | 7 => cmdDone s c 0 0 ev
  | 8 => transferCtx s c false ev
  | 9 => transferCtx s c true ev
  | _ => cmdDone s c 10 0 ev

/-- ABORT (R311, R314, R326): it ends a SUSPEND that waits; a command that runs is left alone. Otherwise only its own status is reported:
it names no context, and CTX and CSTATE stay as they are (DESIGN CHOICE, assumption 151). -/
def abortCtx (s : State) (ev : Bool) : State :=
  match s.suspend with
  | some p => if p.started || !running s 1 then s else cmdDone { s with suspend := none } p.ctx 2 0 p.ev
  | none =>
    let s1 := fset (fset s SCHED_CMDSTAT_STATUS (if running s 1 then 0 else 1)) SCHED_CMDSTAT_WORDS 0
    if ev then raise s1 1 2 else s1

/-- A write of CTXCMD (R311, R312, R314, R326). -/
def ctxCommand (s : State) (op c : Nat) (ev : Bool) (who : Requester) : State :=
  if op = 15 then abortCtx s ev
  else if s.suspend.isSome then capture s 1 0x10 SCHED_CTXCMD who
  else if !running s 1 then cmdDone s c 1 0 ev
  else if Config.contexts s.variant ≤ c then cmdDone s c 7 0 ev
  else if 10 ≤ op ∨ op = 0 then cmdDone s c 10 0 ev
  else if permitted op (ctxState s c) = false ∨ (c = 0 ∧ (op = 3 ∨ op = 4 ∨ op = 8 ∨ op = 9)) then cmdDone s c 9 0 ev
  else ctxEffect s op c ev

/-- Contexts of a core asked to leave it. -/
def askAll : List (Nat × Nat) → State → State
  | [], s => s
  | p :: r, s => askAll r (askEvict s p.2)

/-- A write of CORECTLn.ADMIT (R325). -/
def corectlWrite (s : State) (n : Nat) (admitted : Bool) (who : Requester) : State :=
  if !corePresent s n then capture s 1 0x11 (SCHED_CORECTL n) who
  else if admitted then fset (fset s (SCHED_CORECTL_ADMIT n) 1) (SCHED_CORECTL_PARKED n) 0
  else askAll (heldCtxs (core s n)) (fset s (SCHED_CORECTL_ADMIT n) 0)

/-- TRAF_HALVING (R322). -/
def halveWord (w : CapW) : CapW :=
  ⟨BitVec.ofNat 128 ((upTo 4).foldl (fun x q => x + bits w.bits.toNat (32 * q + 31) (32 * q) / 2 * 2 ^ (32 * q)) 0), false⟩

def halveAll : List Nat → State → State
  | [], s => s
  | k :: ks, s => halveAll ks (if k % 64 = 50 then setRecWord s (k / 64) 50 (halveWord (recWord s (k / 64) 50)) else s)

def trafHalving (s : State) : State := if accepted s 1 1 then halveAll (s.recs.map (fun p => p.1)).eraseDups s else s

/-- QUANTUM_EXPIRY (R320): the core's context has used up its quantum while another of its priority is runnable there, or READY
and eligible there; the scheduler will treat it as having yielded. -/
def quantumExpiry (s : State) (n : Nat) : State :=
  match runningCtx s n with
  | some c =>
    if accepted s 1 2 && fget s SCHED_SCHED_CFG_QUANTUM != 0 &&
        ((runnableBanks s n).any (fun p => p.2 != c && ctxPrio s p.2 == ctxPrio s c) ||
          (readyCtxs s).any (fun k => ctxPrio s k == ctxPrio s c && eligible s k n)) then
      maybeMove { s with quanta := mput (fun _ => false) s.quanta n true } n c
    else s
  | none => s

end Sys2Proof.Machine
end

