-- ==== Sys2Proof/Machine/Except.lean ====
section
/-! DEFINITION. Taking an exception: entry at KENTRY, the double fault, the triple fault, and the debug halt; and the return
with ERET (R187, R231–R234, R259–R277, R571). -/

namespace Sys2Proof.Machine

/-- The CAUSE word of a cause (R266). -/
def causeWord (c : Cause) : BitVec 20 :=
  BitVec.ofNat 20 (c.code % 256 + c.sub % 256 * 256 + b2n c.imprecise * 65536 + b2n c.async * 131072 + b2n c.inRep * 262144 +
    b2n c.progress * 524288)

/-- SSP, c6 of the current context. -/
def ssp (s : State) (n : Nat) : CapW := (curRegs s n).glob.getD 5 nullW

/-- LAZYPTR as an entry computes it (R259). -/
def lazyOf (c : CapW) : Nat := (capCursor c + 2 ^ 64 - 128) % 2 ^ 64

/-- The check of SSP at entry: the subcode of 0x38, or 0 (R260). -/
def sspFault (c : CapW) : Nat :=
  let a := lazyOf c
  if !c.tag then 1
  else if capOtype c ≠ 0 ∨ hasPerm c pQUEUE = true then 2
  else if !hasPerm c pSTORE then 3
  else if (a : Int) < capBase c ∨ capTop c < (a + 96 : Nat) ∨ canonical a = false ∨ canonical (a + 95) = false then 4
  else 0

/-- The translation that gave a page fault leaves the core's TLBs (R293); SPACE 0 has none in them (R281). -/
def dropFaulting (s : State) (n : Nat) (c : Cause) : State :=
  let sp := c.space.getD (curRegs s n).space.toNat
  if (c.code = 0x15 ∨ c.code = 0x21 ∨ c.code = 0x24 ∨ c.code = 0x25) ∧ sp ≠ 0 then tlbDrop s n sp (c.fadr.toNat % 2 ^ 48)
  else s

/-- The pending source of an asynchronous cause, or of a report at SBAR, is used up by its delivery. -/
def consume (s : State) (n : Nat) (c : Cause) : State :=
  match c.code with
  | 0x50 => updCore s n (fun k => { k with grant := none })
  | 0x60 => updCore s n (fun k => { k with alerts := k.alerts.tail })
  | 0x58 => if c.imprecise then updRegs s n (fun r => { r with late := none }) else s
  | _ => s

/-- A capability fault counted (R57, R59). -/
def countCapFault (s : State) (c : Cause) : State :=
  if 0x10 ≤ c.code ∧ c.code ≤ 0x14 ∧ reg s CAP_CAPFLT_CNT ≠ 0xFFFFFFFF then
    let s1 := countUp s CAP_CAPFLT_CNT
    if reg s1 CAP_CAPFLT_CNT = 0xFFFFFFFF then raise s1 2 1 else s1
  else s

/-- The capability-fault counter and the core's own sources (R57, R344). -/
def coreEvents (s : State) (n : Nat) (c : Cause) : State :=
  let s0 := countCapFault s c
  let s1 := if c.code = 0x28 ∧ 0x10 ≤ c.sub then evtOccur s0 (8 * n + 1) else s0
  if c.code = 0x58 ∧ bit c.finfo.toNat 40 = true then evtOccur s1 (8 * n + 2) else s1

/-- The pipeline emptied for a new stream of bundles (R223, R225). -/
def flushPipe (s : State) (n : Nat) : State :=
  updCore s n (fun k => { k with fbuf := [], opened := [], held := none, yhalt := false })

/-- The debug unit halts core `n` (R571): long operations drained, late loads written. -/
def haltNow (s : State) (n : Nat) : State :=
  let s1 := flushPipe (drain (applyLate s n) n) n
  raise (traceRec (updCore s1 n (fun k => { k with halted := true, haltReq := false, stepping := false })) n 5 (pcAddr s1 n % 2 ^ 48)) 0x13 0

/-- After a bundle or an entry: a single step is over (R571). -/
def afterStep (s : State) (n : Nat) : State := if (core s n).stepping then haltNow s n else s

/-- Double-fault entry (R273): `epc` and `st` are DFEPC and DFSTAT. -/
def enterDouble (s : State) (n : Nat) (c : Cause) (epc : CapW) (st : BitVec 11) : State :=
  let s1 := updCore s n (fun k => { k with dfepc := epc, dfstat := st, dfcause := causeWord c, lopc := if c.code = 0x48 then c.lopc else k.lopc })
  let s2 := if c.code = 0x38 then s1 else updCore s1 n (fun k => { k with fadr := c.fadr, finfo := c.finfo })
  let s3 := setStatus s2 n (mkStatus (stLAZYP st) (stPRECLONG st) (stSYNCST st) true true 0 false)
  let s4 := evtOccur (setPcc (flushPipe s3 n) n (core s3 n).dfentry) (8 * n)
  traceRec s4 n 2 ((causeWord c).toNat + capCursor epc % 2 ^ 32 * 2 ^ 20)

/-- The cause 0x38 of a failed SSP check (R260, R273). -/
def sspCause (sub : Nat) : Cause :=
  { code := 0x38, sub := sub, fadr := 0, finfo := 0, inRep := false, progress := false, async := false, imprecise := false, lopc := 0 }

/-- First-level entry (R232, R259, R260). -/
def enterFirst (s : State) (n : Nat) (c : Cause) : State :=
  let st := status s n
  let sub := sspFault (ssp s n)
  let s1 := updCore s n (fun k =>
    { k with
      epc := pcc s n, estat := st, cause := causeWord c, fadr := c.fadr, finfo := c.finfo
      lopc := if c.code = 0x48 then c.lopc else k.lopc, lazyptr := BitVec.ofNat 64 (lazyOf (ssp s n)) })
  let st1 := mkStatus true (stPRECLONG st) (stSYNCST st) false true 0 false
  let s2 := updRegs (setStatus s1 n st1) n (fun r => { r with winctl := moveCur r.winctl (winGuard r.winctl) (winOcc r.winctl) true })
  let s3 := traceRec (setPcc (flushPipe s2 n) n (core s2 n).kentry) n 2 ((causeWord c).toNat + capCursor (pcc s n) % 2 ^ 32 * 2 ^ 20)
  if sub = 0 then s3 else enterDouble s3 n (sspCause sub) (core s2 n).kentry st1

/-- The triple fault (R277). -/
def tripleFault (s : State) (n : Nat) (c : Cause) : State :=
  let ctx := (curCtx s n).getD 0
  let df := (core s n).dfcause.toNat % 256
  let s1 := setReg s WDR_TFREC (BitVec.ofNat 32 (c.code % 256 * 2 ^ 24 + df * 2 ^ 16 + n * 2 ^ 12 + ctx))
  let s2 := raise (fcount s1 WDR_TFCNT_TFN 1) 0x12 0
  coreReset (tripleNotice s2 n ctx df c.code) n

/-- An entry of core 0 into the boot ROM: its handler writes CODE 0x0F, and core 0 waits (R545; that the code reached there is a ROM
handler is DEDUCED, assumption 13). -/
def romTrap (s : State) (n : Nat) : State :=
  if n = 0 && inRom (pcAddr s 0) then { fset s BOOT_BOOTSTAT_CODE 0x0F with boot := { s.boot with wait := true } } else s

/-- A cause is taken on core `n` (R187, R259, R272, R277): late loads are written, the long operations drained, an error they
bring out replaces the cause, and the entry is made at the level that STATUS gives. -/
def takeCause (s : State) (n : Nat) (c : Cause) : State :=
  let s1 := drain (applyLate s n) n
  let p : State × Cause :=
    match dueError s1 n with
    | some op =>
      (updCore s1 n (fun k => { k with longErrs := k.longErrs.erase op }), { longCause op true with inRep := c.inRep, progress := c.progress })
    | none => (consume (dropFaulting s1 n c) n c, c)
  let s2 := coreEvents p.1 n p.2
  if stDFL (status s2 n) then tripleFault s2 n p.2
  else if stEXL (status s2 n) then afterStep (romTrap (enterDouble s2 n p.2 (pcc s2 n) (status s2 n)) n) n
  else afterStep (romTrap (enterFirst s2 n p.2) n) n

/-! ### Causes at a boundary (R271) -/

/-- A twin alert, late-store report or interrupt as a cause (R219, R267, R515). -/
def lateCause (r : LateReport) (async : Bool) : Cause :=
  { code := 0x58, sub := r.sub, fadr := r.fadr, finfo := r.finfo, inRep := false, progress := false, async := async, imprecise := true,
    lopc := 0 }
def grantCause (g : Grant) : Cause :=
  { code := 0x50, sub := g.line, fadr := 0, finfo := BitVec.ofNat 64 g.source, inRep := false, progress := false, async := true,
    imprecise := false, lopc := 0 }

/-- Rank 2 of R271: with IE = 1, a twin alert, then a late-store report of the current context, then a granted interrupt. -/
def asyncCause (s : State) (n : Nat) : Option Cause :=
  if stIE (status s n) then
    match (core s n).alerts, (curRegs s n).late, (core s n).grant with
    | a :: _, _, _ => some a
    | [], some r, _ => some (lateCause r true)
    | [], none, some g => some (grantCause g)
    | [], none, none => none
  else none

/-- Ranks 1 and 2 of R271: what is taken at a boundary in place of the next bundle. -/
def boundaryCause (s : State) (n : Nat) : Option Cause :=
  match dueError s n with
  | some op => some (longCause op true)
  | none => asyncCause s n

/-! ### ERET (R234, R263, R264, R275) -/

/-- Whether a capability may be returned to (R258, 0x40/0x07). -/
def returnable (e : CapW) : Bool := e.tag && capOtype e == 0 && hasPerm e pEXEC && capCursor e % 4 == 0

/-- The return with DFL = 0, any reload having been made. -/
def eretFirst (s : State) (n : Nat) : State :=
  let e := (core s n).estat
  let w := (curRegs s n).winctl
  let cur := (winGuard w + 7) % 8
  let s1 := setStatus s n (mkStatus false (stPRECLONG e) (stSYNCST e) false false (stRING e) (stIE e))
  setPcc (updRegs s1 n (fun r => { r with winctl := mkWin (winSdepth w) ((cur + 1) % 8) (winOcc w) cur })) n (core s n).epc

/-- The return with DFL = 1. -/
def eretDouble (s : State) (n : Nat) : State :=
  let e := (core s n).dfstat
  setPcc (setStatus s n (mkStatus (stLAZYP e) (stPRECLONG e) (stSYNCST e) false (stEXL e) (stRING e) (stIE e && !stEXL e))) n (core s n).dfepc

end Sys2Proof.Machine
end

