-- ==== Sys2Proof/WellFormed.lean ====
section
/-! DEFINITION. Which commands are well formed: a syllable stands in a unit that has its operation (R141–R144), an owner of a
long immediate does not carry STOP itself (R147), and its fields name what the opcode map defines (R145, R146). -/

namespace Sys2Proof

/-- The head of a syllable command, none for a command that is not a syllable. -/
def sylOf (i : Instr) : Option Syl :=
  match i with
  | .nop h => some h
  | .add h _ _ _ => some h
  | .sub h _ _ _ => some h
  | .and h _ _ _ => some h
  | .or h _ _ _ => some h
  | .xor h _ _ _ => some h
  | .andn h _ _ _ => some h
  | .sll h _ _ _ => some h
  | .srl h _ _ _ => some h
  | .sra h _ _ _ => some h
  | .rol h _ _ _ => some h
  | .min h _ _ _ => some h
  | .max h _ _ _ => some h
  | .minu h _ _ _ => some h
  | .maxu h _ _ _ => some h
  | .pack h _ _ _ => some h
  | .addi h _ _ _ => some h
  | .andi h _ _ _ => some h
  | .ori h _ _ _ => some h
  | .xori h _ _ _ => some h
  | .shi h _ _ _ _ => some h
  | .cmp h _ _ _ _ => some h
  | .cmpi h _ _ _ => some h
  | .plog h _ _ _ _ => some h
  | .br h _ => some h
  | .call h _ => some h
  | .jmp h _ => some h
  | .callr h _ => some h
  | .ret h => some h
  | .callg h _ => some h
  | .retg h _ => some h
  | .eret h => some h
  | .rep h => some h
  | .repn h _ => some h
  | .trap h _ => some h
  | .brk h _ => some h
  | .mfu h _ _ => some h
  | .mtu h _ _ => some h
  | .mfs h _ _ => some h
  | .mts h _ _ => some h
  | .wait h _ => some h
  | .yield h => some h
  | .waitt h _ _ _ => some h
  | .mul h _ _ _ => some h
  | .mulh h _ _ _ => some h
  | .mulhu h _ _ _ => some h
  | .mulhsu h _ _ _ => some h
  | .clz h _ _ => some h
  | .ctz h _ _ => some h
  | .popc h _ _ => some h
  | .bswap h _ _ => some h
  | .sextb h _ _ => some h
  | .sexth h _ _ => some h
  | .sextw h _ _ => some h
  | .zextb h _ _ => some h
  | .zexth h _ _ => some h
  | .zextw h _ _ => some h
  | .ldb h _ _ _ => some h
  | .ldbu h _ _ _ => some h
  | .ldh h _ _ _ => some h
  | .ldhu h _ _ _ => some h
  | .ldw h _ _ _ => some h
  | .ldwu h _ _ _ => some h
  | .ldd h _ _ _ => some h
  | .ldc h _ _ _ => some h
  | .stb h _ _ _ => some h
  | .sth h _ _ _ => some h
  | .stw h _ _ _ => some h
  | .std h _ _ _ => some h
  | .stc h _ _ _ => some h
  | .stm h _ _ => some h
  | .ldm h _ _ => some h
  | .crcblk h _ _ _ => some h
  | .mcopy h _ _ _ => some h
  | .kmov h _ _ => some h
  | .kdrop h _ _ => some h
  | .kpoint h _ _ _ => some h
  | .kstep h _ _ _ => some h
  | .ktrim h _ _ _ => some h
  | .kclip h _ _ _ => some h
  | .kclips h _ _ _ => some h
  | .kwrap h _ _ _ => some h
  | .kunwrap h _ _ _ => some h
  | .kstepi h _ _ _ => some h
  | .krcur h _ _ => some h
  | .krbase h _ _ => some h
  | .krlen h _ _ => some h
  | .krperm h _ _ => some h
  | .krtype h _ _ => some h
  | .krtag h _ _ => some h
  | .qput h _ _ _ => some h
  | .qget h _ _ _ => some h
  | .qputm h _ _ _ => some h
  | .mbar h => some h
  | .sbar h => some h
  | .lbar h => some h
  | .ibar h => some h
  | .icinv h _ => some h
  | .tlbinv h _ => some h
  | .tlbsync h => some h
  | .macs h _ _ _ => some h
  | .macu h _ _ _ => some h
  | .msus h _ _ _ => some h
  | .msuu h _ _ _ => some h
  | .muls h _ _ _ => some h
  | .mulu h _ _ _ => some h
  | .aclr h _ => some h
  | .rdacc h _ _ _ => some h
  | .wracc h _ _ => some h
  | .ashr h _ _ => some h
  | .crcstep h _ _ _ _ => some h
  | .parity h _ _ => some h
  | .bitrev h _ _ _ => some h
  | .fadd h _ _ _ => some h
  | .fsub h _ _ _ => some h
  | .fmul h _ _ _ => some h
  | .fmadd h _ _ _ => some h
  | .fmin h _ _ _ => some h
  | .fmax h _ _ _ => some h
  | .fabs h _ _ => some h
  | .fneg h _ _ => some h
  | .fcvtws h _ _ => some h
  | .fcvtsw h _ _ => some h
  | .feq h _ _ _ => some h
  | .flt h _ _ _ => some h
  | .fle h _ _ _ => some h
  | .funord h _ _ _ => some h
  | .div h _ _ _ => some h
  | .divu h _ _ _ => some h
  | .rem h _ _ _ => some h
  | .remu h _ _ _ => some h
  | .fdiv h _ _ _ => some h
  | .fsqrt h _ _ => some h
  | .crcp h _ _ _ => some h
  | _ => none

/-- A unit that U0 and U1 share. -/
def unitIs01 (h : Syl) : Bool := h.unit == 0 || h.unit == 1

/-- Whether the syllable's unit has its operation (R141–R144). -/
def unitOk (i : Instr) : Bool :=
  match i with
  | .nop _ => true
  | .add h _ _ _ => unitIs01 h
  | .sub h _ _ _ => unitIs01 h
  | .and h _ _ _ => unitIs01 h
  | .or h _ _ _ => unitIs01 h
  | .xor h _ _ _ => unitIs01 h
  | .andn h _ _ _ => unitIs01 h
  | .sll h _ _ _ => unitIs01 h
  | .srl h _ _ _ => unitIs01 h
  | .sra h _ _ _ => unitIs01 h
  | .rol h _ _ _ => unitIs01 h
  | .min h _ _ _ => unitIs01 h
  | .max h _ _ _ => unitIs01 h
  | .minu h _ _ _ => unitIs01 h
  | .maxu h _ _ _ => unitIs01 h
  | .pack h _ _ _ => unitIs01 h
  | .addi h _ _ _ => unitIs01 h
  | .andi h _ _ _ => unitIs01 h
  | .ori h _ _ _ => unitIs01 h
  | .xori h _ _ _ => unitIs01 h
  | .shi h _ _ _ _ => unitIs01 h
  | .cmp h _ _ _ _ => unitIs01 h
  | .cmpi h _ _ _ => unitIs01 h
  | .plog h _ _ _ _ => unitIs01 h
  | .br h _ => h.unit == 0
  | .call h _ => h.unit == 0
  | .jmp h _ => h.unit == 0
  | .callr h _ => h.unit == 0
  | .ret h => h.unit == 0
  | .callg h _ => h.unit == 0
  | .retg h _ => h.unit == 0
  | .eret h => h.unit == 0
  | .rep h => h.unit == 0
  | .repn h _ => h.unit == 0
  | .trap h _ => h.unit == 0
  | .brk h _ => h.unit == 0
  | .mfu h _ _ => h.unit == 0
  | .mtu h _ _ => h.unit == 0
  | .mfs h _ _ => h.unit == 0
  | .mts h _ _ => h.unit == 0
  | .wait h _ => h.unit == 0
  | .yield h => h.unit == 0
  | .waitt h _ _ _ => h.unit == 0
  | .mul h _ _ _ => h.unit == 1
  | .mulh h _ _ _ => h.unit == 1
  | .mulhu h _ _ _ => h.unit == 1
  | .mulhsu h _ _ _ => h.unit == 1
  | .clz h _ _ => h.unit == 1
  | .ctz h _ _ => h.unit == 1
  | .popc h _ _ => h.unit == 1
  | .bswap h _ _ => h.unit == 1
  | .sextb h _ _ => h.unit == 1
  | .sexth h _ _ => h.unit == 1
  | .sextw h _ _ => h.unit == 1
  | .zextb h _ _ => h.unit == 1
  | .zexth h _ _ => h.unit == 1
  | .zextw h _ _ => h.unit == 1
  | .ldb h _ _ _ => h.unit == 2
  | .ldbu h _ _ _ => h.unit == 2
  | .ldh h _ _ _ => h.unit == 2
  | .ldhu h _ _ _ => h.unit == 2
  | .ldw h _ _ _ => h.unit == 2
  | .ldwu h _ _ _ => h.unit == 2
  | .ldd h _ _ _ => h.unit == 2
  | .ldc h _ _ _ => h.unit == 2
  | .stb h _ _ _ => h.unit == 2
  | .sth h _ _ _ => h.unit == 2
  | .stw h _ _ _ => h.unit == 2
  | .std h _ _ _ => h.unit == 2
  | .stc h _ _ _ => h.unit == 2
  | .stm h _ _ => h.unit == 2
  | .ldm h _ _ => h.unit == 2
  | .crcblk h _ _ _ => h.unit == 2
  | .mcopy h _ _ _ => h.unit == 2
  | .kmov h _ _ => h.unit == 2
  | .kdrop h _ _ => h.unit == 2
  | .kpoint h _ _ _ => h.unit == 2
  | .kstep h _ _ _ => h.unit == 2
  | .ktrim h _ _ _ => h.unit == 2
  | .kclip h _ _ _ => h.unit == 2
  | .kclips h _ _ _ => h.unit == 2
  | .kwrap h _ _ _ => h.unit == 2
  | .kunwrap h _ _ _ => h.unit == 2
  | .kstepi h _ _ _ => h.unit == 2
  | .krcur h _ _ => h.unit == 2
  | .krbase h _ _ => h.unit == 2
  | .krlen h _ _ => h.unit == 2
  | .krperm h _ _ => h.unit == 2
  | .krtype h _ _ => h.unit == 2
  | .krtag h _ _ => h.unit == 2
  | .qput h _ _ _ => h.unit == 2
  | .qget h _ _ _ => h.unit == 2
  | .qputm h _ _ _ => h.unit == 2
  | .mbar h => h.unit == 2
  | .sbar h => h.unit == 2
  | .lbar h => h.unit == 2
  | .ibar h => h.unit == 2
  | .icinv h _ => h.unit == 2
  | .tlbinv h _ => h.unit == 2
  | .tlbsync h => h.unit == 2
  | .macs h _ _ _ => h.unit == 3
  | .macu h _ _ _ => h.unit == 3
  | .msus h _ _ _ => h.unit == 3
  | .msuu h _ _ _ => h.unit == 3
  | .muls h _ _ _ => h.unit == 3
  | .mulu h _ _ _ => h.unit == 3
  | .aclr h _ => h.unit == 3
  | .rdacc h _ _ _ => h.unit == 3
  | .wracc h _ _ => h.unit == 3
  | .ashr h _ _ => h.unit == 3
  | .crcstep h _ _ _ _ => h.unit == 3
  | .parity h _ _ => h.unit == 3
  | .bitrev h _ _ _ => h.unit == 3
  | .fadd h _ _ _ => h.unit == 3
  | .fsub h _ _ _ => h.unit == 3
  | .fmul h _ _ _ => h.unit == 3
  | .fmadd h _ _ _ => h.unit == 3
  | .fmin h _ _ _ => h.unit == 3
  | .fmax h _ _ _ => h.unit == 3
  | .fabs h _ _ => h.unit == 3
  | .fneg h _ _ => h.unit == 3
  | .fcvtws h _ _ => h.unit == 3
  | .fcvtsw h _ _ => h.unit == 3
  | .feq h _ _ _ => h.unit == 3
  | .flt h _ _ _ => h.unit == 3
  | .fle h _ _ _ => h.unit == 3
  | .funord h _ _ _ => h.unit == 3
  | .div h _ _ _ => h.unit == 3
  | .divu h _ _ _ => h.unit == 3
  | .rem h _ _ _ => h.unit == 3
  | .remu h _ _ _ => h.unit == 3
  | .fdiv h _ _ _ => h.unit == 3
  | .fsqrt h _ _ => h.unit == 3
  | .crcp h _ _ _ => h.unit == 3
  | _ => true

/-- An owner of a long immediate has STOP = 0 (R129, R147). -/
def immShort (h : Syl) (i : Imm) : Bool :=
  match i with
  | .short _ => true
  | .long _ _ => !h.stop
def immPShort (h : Syl) (i : ImmP) : Bool :=
  match i with
  | .short _ _ => true
  | .long _ _ => !h.stop
def addrShort (h : Syl) (a : Addr) : Bool :=
  match a with
  | .long _ _ => !h.stop
  | _ => true

/-- Whether the syllable, if it owns a long immediate, leaves STOP to it. -/
def longOk (i : Instr) : Bool :=
  match i with
  | .addi h _ _ imm => immShort h imm
  | .andi h _ _ imm => immShort h imm
  | .ori h _ _ imm => immShort h imm
  | .xori h _ _ imm => immShort h imm
  | .kstepi h _ _ imm => immShort h imm
  | .cmpi h _ _ imm => immPShort h imm
  | .ldb h _ _ am => addrShort h am
  | .ldbu h _ _ am => addrShort h am
  | .ldh h _ _ am => addrShort h am
  | .ldhu h _ _ am => addrShort h am
  | .ldw h _ _ am => addrShort h am
  | .ldwu h _ _ am => addrShort h am
  | .ldd h _ _ am => addrShort h am
  | .ldc h _ _ am => addrShort h am
  | .stb h _ _ am => addrShort h am
  | .sth h _ _ am => addrShort h am
  | .stw h _ _ am => addrShort h am
  | .std h _ _ am => addrShort h am
  | .stc h _ _ am => addrShort h am
  | _ => true

/-- A post-increment address mode (R188). -/
def postInc (a : Addr) : Bool :=
  match a with
  | .modulo _ _ => true
  | .rev _ => true
  | _ => false

/-- CC of form PI is defined (R141). -/
def immPDefined (i : ImmP) : Bool :=
  match i with
  | .short cc _ => decide (cc.toNat ≤ 5)
  | .long _ _ => true

/-- The operand fields hold values the opcode map defines and reserve nothing (R137, R145, R146, R167, R171, R190, R201,
R202). -/
def operandsOk (i : Instr) : Bool :=
  match i with
  | .cmp _ fn _ _ _ => decide (fn.toNat ≤ 5)
  | .plog _ fn _ _ _ => decide (fn.toNat ≤ 3)
  | .cmpi _ _ _ imm => immPDefined imm
  | .mfu _ _ u => decide (u.toNat ≤ 1) || (decide (8 ≤ u.toNat) && decide (u.toNat ≤ 16)) || (decide (32 ≤ u.toNat) && decide (u.toNat ≤ 35))
  | .mtu _ _ u => decide (u.toNat ≤ 1) || (decide (8 ≤ u.toNat) && decide (u.toNat ≤ 16))
  | .mfs _ _ sys => decide (sys.toNat ≤ 9) || sys == 0x10 || sys == 0x11 || (decide (0x18 ≤ sys.toNat) && decide (sys.toNat ≤ 0x1B))
  | .mts _ _ sys => decide (sys.toNat ≤ 9) || sys == 0x10 || sys == 0x11 || (decide (0x18 ≤ sys.toNat) && decide (sys.toNat ≤ 0x1B))
  | .ldb _ rd cs am => !postInc am || rd != cs
  | .ldbu _ rd cs am => !postInc am || rd != cs
  | .ldh _ rd cs am => !postInc am || rd != cs
  | .ldhu _ rd cs am => !postInc am || rd != cs
  | .ldw _ rd cs am => !postInc am || rd != cs
  | .ldwu _ rd cs am => !postInc am || rd != cs
  | .ldd _ rd cs am => !postInc am || rd != cs
  | .ldc _ rd cs am => !postInc am || rd != cs
  | .crcblk _ rd rs1 rs2 => rd != rs1 && rd != rs2
  | .mcopy _ rd rs1 rs2 => rd != rs1 && rd != rs1 + 1 && rd != rs2 && rs1.toNat % 2 == 0
  | .qput _ _ _ rs2 => decide (8 ≤ rs2.toNat) && rs2.toNat % 4 == 0
  | .qputm _ _ _ rs2 => decide (8 ≤ rs2.toNat) && rs2.toNat % 4 == 0
  | .qget _ rd _ rs2 => decide (8 ≤ rs2.toNat) && rs2.toNat % 4 == 0 && !(decide (rs2.toNat ≤ rd.toNat) && decide (rd.toNat ≤ rs2.toNat + 3))
  | .crcp _ _ _ rs2 => rs2.toNat % 2 == 0
  | _ => true

/-- The core a syllable names exists on some variant, its unit has the operation, and STOP stands where it may: what a command
needs to be a syllable at all. -/
def issuable (i : Instr) : Bool :=
  match sylOf i with
  | some h => decide (h.core < 16) && unitOk i && longOk i
  | none => true

/-- A well-formed command: issuable, its condition is not the reserved one (R125), and its operand fields are defined. -/
def wellFormed (i : Instr) : Bool :=
  issuable i && operandsOk i &&
    (match sylOf i with
     | some h => h.cond != 8
     | none => true)

end Sys2Proof
end

