-- ==== Sys2Proof/Machine/Syllable.lean ====
section
/-! DEFINITION. The encoding of syllables (R124–R149): an encoder and a decoder written from the forms of R140 and the opcode
map of R141–R144, and the encoding checks of R145 and R146 on one syllable. A long-immediate syllable is the second word. -/

namespace Sys2Proof.Machine

/-! ### The encoder -/

/-- The first word of a syllable: STOP, UNIT, COND and OP over the operand bits (R124, R140). -/
def headWord (h : Syl) (op operands : Nat) : W32 :=
  BitVec.ofNat 32 ((b2n h.stop) * 2 ^ 31 + h.unit.toNat * 2 ^ 29 + h.cond.toNat * 2 ^ 25 + op * 2 ^ 19 + operands)

/-- A long-immediate syllable (R129). -/
def longWord (stop : Bool) (v : BitVec 31) : W32 := BitVec.ofNat 32 ((b2n stop) * 2 ^ 31 + v.toNat)

/-- A one-word syllable. -/
def one (h : Syl) (op operands : Nat) : List W32 := [headWord h op operands]

/-- The operand bits of every form but B: bits 18–14, bits 13–9 and the nine bits below (R140). -/
def fields (rd rs1 low : Nat) : Nat := rd * 2 ^ 14 + rs1 * 2 ^ 9 + low

/-- Form RR. -/
def rr (h : Syl) (op : Nat) (rd rs1 rs2 : CReg) (fn : Nat) : List W32 :=
  one h op (fields rd.toNat rs1.toNat (rs2.toNat * 2 ^ 4 + fn))

/-- Form RI. -/
def ri (h : Syl) (op : Nat) (rd rs1 : CReg) (imm : Imm) : List W32 :=
  match imm with
  | .short v => one h op (fields rd.toNat rs1.toNat v.toNat)
  | .long stop v => [headWord h op (fields rd.toNat rs1.toNat (2 ^ 8)), longWord stop v]

/-- Form PI. -/
def pi (h : Syl) (pd : PReg) (rs1 : CReg) (imm : ImmP) : List W32 :=
  match imm with
  | .short cc v => one h 9 (fields pd.toNat rs1.toNat (cc.toNat * 2 ^ 5 + v.toNat))
  | .long stop v => [headWord h 9 (fields pd.toNat rs1.toNat (2 ^ 8)), longWord stop v]

/-- Form M. -/
def fm (h : Syl) (op : Nat) (rd cs : CReg) (am : Addr) : List W32 :=
  match am with
  | .off x => one h op (fields rd.toNat cs.toNat x.toNat)
  | .modulo p st => one h op (fields rd.toNat cs.toNat (2 ^ 7 + p.toNat * 2 ^ 5 + st.toNat))
  | .rev p => one h op (fields rd.toNat cs.toNat (2 ^ 8 + p.toNat * 2 ^ 5))
  | .long stop v => [headWord h op (fields rd.toNat cs.toNat (3 * 2 ^ 7)), longWord stop v]

/-- Form A. -/
def fa (h : Syl) (op : Nat) (ad : AReg) (rs1 rs2 : CReg) (fn : Nat) : List W32 :=
  one h op (fields ad.toNat rs1.toNat (rs2.toNat * 2 ^ 4 + fn))

/-- The words of a syllable command (R140–R144); no words for a command that is not a syllable. -/
def encodeSyl (i : Instr) : List W32 :=
  match i with
  | .nop h => one h 0 (fields 0 0 0)
  | .add h rd rs1 rs2 => rr h 1 rd rs1 rs2 0
  | .sub h rd rs1 rs2 => rr h 1 rd rs1 rs2 1
  | .and h rd rs1 rs2 => rr h 1 rd rs1 rs2 2
  | .or h rd rs1 rs2 => rr h 1 rd rs1 rs2 3
  | .xor h rd rs1 rs2 => rr h 1 rd rs1 rs2 4
  | .andn h rd rs1 rs2 => rr h 1 rd rs1 rs2 5
  | .sll h rd rs1 rs2 => rr h 1 rd rs1 rs2 6
  | .srl h rd rs1 rs2 => rr h 1 rd rs1 rs2 7
  | .sra h rd rs1 rs2 => rr h 1 rd rs1 rs2 8
  | .rol h rd rs1 rs2 => rr h 1 rd rs1 rs2 9
  | .min h rd rs1 rs2 => rr h 1 rd rs1 rs2 10
  | .max h rd rs1 rs2 => rr h 1 rd rs1 rs2 11
  | .minu h rd rs1 rs2 => rr h 1 rd rs1 rs2 12
  | .maxu h rd rs1 rs2 => rr h 1 rd rs1 rs2 13
  | .pack h rd rs1 rs2 => rr h 1 rd rs1 rs2 14
  | .addi h rd rs1 imm => ri h 2 rd rs1 imm
  | .andi h rd rs1 imm => ri h 3 rd rs1 imm
  | .ori h rd rs1 imm => ri h 4 rd rs1 imm
  | .xori h rd rs1 imm => ri h 5 rd rs1 imm
  | .shi h rd rs1 kind amount => one h 6 (fields rd.toNat rs1.toNat (kind.toNat * 2 ^ 6 + amount.toNat))
  | .cmp h fn pd rs1 rs2 => one h 8 (fields pd.toNat rs1.toNat (rs2.toNat * 2 ^ 4 + fn.toNat))
  | .cmpi h pd rs1 imm => pi h pd rs1 imm
  | .plog h fn pd ps1 ps2 => one h 10 (fields pd.toNat ps1.toNat (ps2.toNat * 2 ^ 4 + fn.toNat))
  | .br h disp => one h 16 disp.toNat
  | .call h disp => one h 17 disp.toNat
  | .jmp h rs1 => one h 18 (fields 0 rs1.toNat 0)
  | .callr h rs1 => one h 18 (fields 0 rs1.toNat 1)
  | .ret h => one h 18 (fields 0 0 2)
  | .callg h rs1 => one h 19 (fields 0 rs1.toNat 0)
  | .retg h rs1 => one h 19 (fields 0 rs1.toNat 1)
  | .eret h => one h 19 (fields 0 0 2)
  | .rep h => one h 24 (fields 0 0 0)
  | .repn h count => one h 24 (fields 0 0 (2 ^ 6 + count.toNat))
  | .trap h code => one h 25 (fields 0 0 code.toNat)
  | .brk h code => one h 25 (fields 0 0 (2 ^ 7 + code.toNat))
  | .mfu h rd u => one h 26 (fields rd.toNat 0 u.toNat)
  | .mtu h rs1 u => one h 26 (fields 0 rs1.toNat (2 ^ 8 + u.toNat))
  | .mfs h rd sys => one h 28 (fields rd.toNat 0 (sys.toNat * 2))
  | .mts h rs1 sys => one h 28 (fields 0 rs1.toNat (sys.toNat * 2 + 1))
  | .wait h rd => one h 30 (fields rd.toNat 0 0)
  | .yield h => one h 30 (fields 0 0 1)
  | .waitt h rd rs1 rs2 => rr h 30 rd rs1 rs2 2
  | .mul h rd rs1 rs2 => rr h 16 rd rs1 rs2 0
  | .mulh h rd rs1 rs2 => rr h 16 rd rs1 rs2 1
  | .mulhu h rd rs1 rs2 => rr h 16 rd rs1 rs2 2
  | .mulhsu h rd rs1 rs2 => rr h 16 rd rs1 rs2 3
  | .clz h rd rs1 => rr h 18 rd rs1 0 0
  | .ctz h rd rs1 => rr h 18 rd rs1 0 1
  | .popc h rd rs1 => rr h 18 rd rs1 0 2
  | .bswap h rd rs1 => rr h 18 rd rs1 0 3
  | .sextb h rd rs1 => rr h 18 rd rs1 0 4
  | .sexth h rd rs1 => rr h 18 rd rs1 0 5
  | .sextw h rd rs1 => rr h 18 rd rs1 0 6
  | .zextb h rd rs1 => rr h 18 rd rs1 0 7
  | .zexth h rd rs1 => rr h 18 rd rs1 0 8
  | .zextw h rd rs1 => rr h 18 rd rs1 0 9
  | .ldb h rd cs am => fm h 1 rd cs am
  | .ldbu h rd cs am => fm h 2 rd cs am
  | .ldh h rd cs am => fm h 3 rd cs am
  | .ldhu h rd cs am => fm h 4 rd cs am
  | .ldw h rd cs am => fm h 5 rd cs am
  | .ldwu h rd cs am => fm h 6 rd cs am
  | .ldd h rd cs am => fm h 7 rd cs am
  | .ldc h rd cs am => fm h 8 rd cs am
  | .stb h rs cs am => fm h 9 rs cs am
  | .sth h rs cs am => fm h 10 rs cs am
  | .stw h rs cs am => fm h 11 rs cs am
  | .std h rs cs am => fm h 12 rs cs am
  | .stc h rs cs am => fm h 13 rs cs am
  | .stm h rs1 rs2 => rr h 14 0 rs1 rs2 0
  | .ldm h rs1 rs2 => rr h 15 0 rs1 rs2 0
  | .crcblk h rd rs1 rs2 => rr h 16 rd rs1 rs2 0
  | .mcopy h rd rs1 rs2 => rr h 17 rd rs1 rs2 0
  | .kmov h rd rs1 => rr h 20 rd rs1 0 0
  | .kdrop h rd rs1 => rr h 20 rd rs1 0 1
  | .kpoint h rd rs1 rs2 => rr h 20 rd rs1 rs2 2
  | .kstep h rd rs1 rs2 => rr h 20 rd rs1 rs2 3
  | .ktrim h rd rs1 rs2 => rr h 20 rd rs1 rs2 4
  | .kclip h rd rs1 rs2 => rr h 20 rd rs1 rs2 5
  | .kclips h rd rs1 rs2 => rr h 20 rd rs1 rs2 6
  | .kwrap h rd rs1 rs2 => rr h 20 rd rs1 rs2 7
  | .kunwrap h rd rs1 rs2 => rr h 20 rd rs1 rs2 8
  | .kstepi h rd rs1 imm => ri h 21 rd rs1 imm
  | .krcur h rd rs1 => rr h 22 rd rs1 0 0
  | .krbase h rd rs1 => rr h 22 rd rs1 0 1
  | .krlen h rd rs1 => rr h 22 rd rs1 0 2
  | .krperm h rd rs1 => rr h 22 rd rs1 0 3
  | .krtype h rd rs1 => rr h 22 rd rs1 0 4
  | .krtag h rd rs1 => rr h 22 rd rs1 0 5
  | .qput h rd rs1 rs2 => rr h 24 rd rs1 rs2 0
  | .qget h rd rs1 rs2 => rr h 25 rd rs1 rs2 0
  | .qputm h rd rs1 rs2 => rr h 26 rd rs1 rs2 0
  | .mbar h => one h 28 (fields 0 0 0)
  | .sbar h => one h 28 (fields 0 0 1)
  | .lbar h => one h 28 (fields 0 0 2)
  | .ibar h => one h 28 (fields 0 0 3)
  | .icinv h rs1 => one h 29 (fields 0 rs1.toNat 0)
  | .tlbinv h rs1 => one h 29 (fields 0 rs1.toNat 1)
  | .tlbsync h => one h 29 (fields 0 0 2)
  | .macs h ad rs1 rs2 => fa h 1 ad rs1 rs2 0
  | .macu h ad rs1 rs2 => fa h 1 ad rs1 rs2 1
  | .msus h ad rs1 rs2 => fa h 1 ad rs1 rs2 2
  | .msuu h ad rs1 rs2 => fa h 1 ad rs1 rs2 3
  | .muls h ad rs1 rs2 => fa h 1 ad rs1 rs2 4
  | .mulu h ad rs1 rs2 => fa h 1 ad rs1 rs2 5
  | .aclr h ad => fa h 2 ad 0 0 0
  | .rdacc h rd ad rs2 => fa h 2 ad rd rs2 1
  | .wracc h ad rs1 => fa h 2 ad rs1 0 2
  | .ashr h ad rs2 => fa h 2 ad 0 rs2 3
  | .crcstep h size rd rs1 rs2 => rr h 3 rd rs1 rs2 size.toNat
  | .parity h rd rs1 => rr h 4 rd rs1 0 0
  | .bitrev h rd rs1 rs2 => rr h 4 rd rs1 rs2 1
  | .fadd h rd rs1 rs2 => rr h 5 rd rs1 rs2 0
  | .fsub h rd rs1 rs2 => rr h 5 rd rs1 rs2 1
  | .fmul h rd rs1 rs2 => rr h 5 rd rs1 rs2 2
  | .fmadd h rd rs1 rs2 => rr h 5 rd rs1 rs2 3
  | .fmin h rd rs1 rs2 => rr h 5 rd rs1 rs2 4
  | .fmax h rd rs1 rs2 => rr h 5 rd rs1 rs2 5
  | .fabs h rd rs1 => rr h 5 rd rs1 0 6
  | .fneg h rd rs1 => rr h 5 rd rs1 0 7
  | .fcvtws h rd rs1 => rr h 5 rd rs1 0 8
  | .fcvtsw h rd rs1 => rr h 5 rd rs1 0 9
  | .feq h pd rs1 rs2 => one h 6 (fields pd.toNat rs1.toNat (rs2.toNat * 2 ^ 4 + 0))
  | .flt h pd rs1 rs2 => one h 6 (fields pd.toNat rs1.toNat (rs2.toNat * 2 ^ 4 + 1))
  | .fle h pd rs1 rs2 => one h 6 (fields pd.toNat rs1.toNat (rs2.toNat * 2 ^ 4 + 2))
  | .funord h pd rs1 rs2 => one h 6 (fields pd.toNat rs1.toNat (rs2.toNat * 2 ^ 4 + 3))
  | .div h rd rs1 rs2 => rr h 8 rd rs1 rs2 0
  | .divu h rd rs1 rs2 => rr h 8 rd rs1 rs2 1
  | .rem h rd rs1 rs2 => rr h 8 rd rs1 rs2 2
  | .remu h rd rs1 rs2 => rr h 8 rd rs1 rs2 3
  | .fdiv h rd rs1 rs2 => rr h 8 rd rs1 rs2 4
  | .fsqrt h rd rs1 => rr h 8 rd rs1 0 5
  | .crcp h rd rs1 rs2 => rr h 8 rd rs1 rs2 6
  | _ => []

/-! ### Fields of a word -/

def wUnit (w : Nat) : Nat := bits w 30 29
def wCond (w : Nat) : Nat := bits w 28 25
def wOp (w : Nat) : Nat := bits w 24 19
def wRd (w : Nat) : Nat := bits w 18 14
def wRs1 (w : Nat) : Nat := bits w 13 9
def wRs2 (w : Nat) : Nat := bits w 8 4
def wFn (w : Nat) : Nat := bits w 3 0
def wL (w : Nat) : Nat := bits w 8 8
def wImm (w : Nat) : Nat := bits w 7 0
def wAm (w : Nat) : Nat := bits w 8 7
def wX (w : Nat) : Nat := bits w 6 0
def wSys (w : Nat) : Nat := bits w 8 1
def wStop (w : W32) : Bool := bit w.toNat 31

/-- Whether a syllable owns a long-immediate syllable, by its OP and form alone (R129): form RI or PI with L = 1 in U0, U1 or
U2, or form M with AM = 0b11. -/
def ownsLong (w : W32) : Bool :=
  match wUnit w.toNat with
  | 0 => wL w.toNat == 1 && ([2, 3, 4, 5, 6, 9, 24, 25].contains (wOp w.toNat))
  | 1 => wL w.toNat == 1 && ([2, 3, 4, 5, 6, 9].contains (wOp w.toNat))
  | 2 => (wL w.toNat == 1 && wOp w.toNat == 21) || (wAm w.toNat == 3 && decide (1 ≤ wOp w.toNat) && decide (wOp w.toNat ≤ 13))
  | _ => false

/-- Whether user state `u` can be read by MFU, or written by MTU (R137). -/
def userKnown (u : Nat) (write : Bool) : Bool :=
  u ≤ 1 || (decide (8 ≤ u) && decide (u ≤ 16)) || (!write && decide (32 ≤ u) && decide (u ≤ 35))

/-- Whether `s` is a system register of R171. -/
def sysKnown (s : Nat) : Bool := decide (s ≤ 9) || s == 0x10 || s == 0x11 || (decide (0x18 ≤ s) && decide (s ≤ 0x1B))

/-- A subcode where its condition holds. -/
def badIf (b : Bool) (sub : Nat) : Option Nat := if b then some sub else none

/-- The subcode of 0x01 that a syllable of the part U0 and U1 share raises, if any (R145). -/
def illegalCommon (n : Nat) : Option Nat :=
  match wOp n with
  | 0 => none
  | 1 => badIf (wFn n == 15) 2
  | 2 => none
  | 3 => none
  | 4 => none
  | 5 => none
  | 6 => none
  | 8 => badIf (decide (5 < wFn n)) 2
  | 9 => badIf (decide (5 < bits n 7 5)) 2
  | 10 => badIf (decide (3 < wFn n)) 2
  | _ => some 1

/-- That of a syllable of U0 (R145, R171, R137). -/
def illegal0 (n : Nat) : Option Nat :=
  match wOp n with
  | 16 => none
  | 17 => none
  | 18 => badIf (decide (2 < wFn n)) 2
  | 19 => badIf (decide (2 < wFn n)) 2
  | 24 => badIf (decide (2 ≤ bits n 7 6)) 2
  | 25 => none
  | 26 => badIf (!userKnown (bits n 5 0) (bits n 8 8 == 1)) 4
  | 28 => badIf (!sysKnown (wSys n)) 4
  | 30 => badIf (decide (2 < wFn n)) 2
  | _ => illegalCommon n

/-- That of a syllable of U1. -/
def illegal1 (n : Nat) : Option Nat :=
  match wOp n with
  | 16 => badIf (decide (3 < wFn n)) 2
  | 18 => badIf (decide (9 < wFn n)) 2
  | _ => illegalCommon n

/-- That of a load, whose post-increment mode must not name its own destination (R190), and of a store. -/
def illegalLoad (n : Nat) : Option Nat := badIf ((wAm n == 1 || wAm n == 2) && wRd n == wRs1 n) 2

/-- That of a syllable of U2 (R145, R167, R190, R201, R202). -/
def illegal2 (n : Nat) : Option Nat :=
  match wOp n with
  | 0 => none
  | 1 => illegalLoad n
  | 2 => illegalLoad n
  | 3 => illegalLoad n
  | 4 => illegalLoad n
  | 5 => illegalLoad n
  | 6 => illegalLoad n
  | 7 => illegalLoad n
  | 8 => illegalLoad n
  | 9 => none
  | 10 => none
  | 11 => none
  | 12 => none
  | 13 => none
  | 14 => none
  | 15 => none
  | 16 => badIf (wRd n == wRs1 n || wRd n == wRs2 n) 2
  | 17 => badIf (wRd n == wRs1 n || wRd n == (wRs1 n + 1) % 32 || wRd n == wRs2 n) 2
  | 20 => badIf (decide (8 < wFn n)) 2
  | 21 => none
  | 22 => badIf (decide (5 < wFn n)) 2
  | 24 => badIf (decide (wRs2 n < 8)) 2
  | 25 => badIf (decide (wRs2 n < 8) || (decide (wRs2 n ≤ wRd n) && decide (wRd n ≤ wRs2 n + 3))) 2
  | 26 => badIf (decide (wRs2 n < 8)) 2
  | 28 => badIf (decide (3 < wFn n)) 2
  | 29 => badIf (decide (2 < wFn n)) 2
  | _ => some 1

/-- That of a syllable of U3. -/
def illegal3 (n : Nat) : Option Nat :=
  match wOp n with
  | 0 => none
  | 1 => badIf (decide (5 < wFn n)) 2
  | 2 => badIf (decide (3 < wFn n)) 2
  | 3 => badIf (decide (3 < wFn n)) 2
  | 4 => badIf (decide (1 < wFn n)) 2
  | 5 => badIf (decide (9 < wFn n)) 2
  | 6 => badIf (decide (3 < wFn n)) 2
  | 8 => badIf (decide (6 < wFn n)) 2
  | _ => some 1

/-- The subcode of 0x01 a syllable raises, if any (R145, R167, R190, R201, R202). -/
def illegal (w : W32) : Option Nat :=
  match wUnit w.toNat with
  | 0 => illegal0 w.toNat
  | 1 => illegal1 w.toNat
  | 2 => illegal2 w.toNat
  | _ => illegal3 w.toNat

/-- Whether a field that its form or its row of the opcode map reserves is nonzero, in the part U0 and U1 share (R140, R146). -/
def reservedCommon (n : Nat) : Bool :=
  match wOp n with
  | 0 => bits n 18 0 != 0
  | 1 => false
  | 6 => wL n == 1
  | 8 => bits n 18 17 != 0
  | 9 => bits n 18 17 != 0 || (wL n == 1 && wImm n != 0)
  | 10 => bits n 18 17 != 0 || bits n 13 12 != 0 || bits n 8 7 != 0
  | _ => wL n == 1 && wImm n != 0

/-- In U0. -/
def reserved0 (n : Nat) : Bool :=
  match wOp n with
  | 16 => false
  | 17 => false
  | 18 => wRd n != 0 || wRs2 n != 0 || (wFn n == 2 && wRs1 n != 0)
  | 19 => wRd n != 0 || wRs2 n != 0 || (wFn n == 2 && wRs1 n != 0)
  | 24 => wRd n != 0 || wRs1 n != 0 || wL n != 0 || (bits n 7 6 == 0 && bits n 5 0 != 0)
  | 25 => wRd n != 0 || wRs1 n != 0 || wL n != 0
  | 26 => bits n 7 6 != 0 || (if bits n 8 8 = 1 then wRd n != 0 else wRs1 n != 0)
  | 28 => if bits n 0 0 = 1 then wRd n != 0 else wRs1 n != 0
  | 30 => (wFn n != 2 && (wRs1 n != 0 || wRs2 n != 0)) || (wFn n == 1 && wRd n != 0)
  | _ => reservedCommon n

/-- In U1. -/
def reserved1 (n : Nat) : Bool :=
  match wOp n with
  | 16 => false
  | 18 => wRs2 n != 0
  | _ => reservedCommon n

/-- In U2. -/
def reserved2 (n : Nat) : Bool :=
  match wOp n with
  | 0 => bits n 18 0 != 0
  | 14 => wRd n != 0 || wFn n != 0
  | 15 => wRd n != 0 || wFn n != 0
  | 16 => wFn n != 0
  | 17 => wFn n != 0 || wRs1 n % 2 != 0
  | 20 => decide (wFn n ≤ 1) && wRs2 n != 0
  | 21 => wL n == 1 && wImm n != 0
  | 22 => wRs2 n != 0
  | 24 => wFn n != 0 || wRs2 n % 4 != 0
  | 25 => wFn n != 0 || wRs2 n % 4 != 0
  | 26 => wFn n != 0 || wRs2 n % 4 != 0
  | 28 => bits n 18 4 != 0
  | 29 => false
  | _ => (wAm n == 2 && bits n 4 0 != 0) || (wAm n == 3 && wX n != 0)

/-- In U3. -/
def reserved3 (n : Nat) : Bool :=
  match wOp n with
  | 0 => bits n 18 0 != 0
  | 1 => bits n 18 16 != 0
  | 2 => bits n 18 16 != 0 || (wFn n == 0 && (wRs1 n != 0 || wRs2 n != 0)) || (wFn n == 2 && wRs2 n != 0) || (wFn n == 3 && wRs1 n != 0)
  | 3 => false
  | 4 => wFn n == 0 && wRs2 n != 0
  | 5 => decide (6 ≤ wFn n) && wRs2 n != 0
  | 6 => bits n 18 17 != 0
  | _ => (wFn n == 5 && wRs2 n != 0) || (wFn n == 6 && wRs2 n % 2 != 0)

/-- Whether a field that its form or its row of the opcode map reserves is nonzero in a defined syllable (R140–R144, R146). -/
def reservedSet (w : W32) : Bool :=
  match wUnit w.toNat with
  | 0 => reserved0 w.toNat
  | 1 => reserved1 w.toNat
  | 2 => reserved2 w.toNat
  | _ => reserved3 w.toNat

/-- The cause and subcode of the encoding checks of one syllable, R145 before R146. Where COND is 0b1000 and a reserved field is nonzero
as well, R146 gives two subcodes and no order between them: subcode 1 is reported (DESIGN CHOICE, assumption 148). -/
def sylFault (w : W32) : Option (Nat × Nat) :=
  match illegal w with
  | some sub => some (0x01, sub)
  | none => if reservedSet w then some (0x02, 1) else if wCond w.toNat = 8 then some (0x02, 2) else none

/-! ### The decoder -/

/-- The immediate of form RI, from the word and its long-immediate syllable. -/
def immOf (n : Nat) (li : W32) : Imm :=
  if wL n = 1 then .long (wStop li) (BitVec.ofNat 31 (li.toNat % 2 ^ 31)) else .short (BitVec.ofNat 8 (wImm n))

/-- The immediate of form PI. -/
def immPOf (n : Nat) (li : W32) : ImmP :=
  if wL n = 1 then .long (wStop li) (BitVec.ofNat 31 (li.toNat % 2 ^ 31))
  else .short (BitVec.ofNat 3 (bits n 7 5)) (BitVec.ofNat 5 (bits n 4 0))

/-- The address mode of form M. -/
def addrOf (n : Nat) (li : W32) : Addr :=
  match wAm n with
  | 0 => .off (BitVec.ofNat 7 (wX n))
  | 1 => .modulo (BitVec.ofNat 2 (bits n 6 5)) (BitVec.ofNat 5 (bits n 4 0))
  | 2 => .rev (BitVec.ofNat 2 (bits n 6 5))
  | _ => .long (wStop li) (BitVec.ofNat 31 (li.toNat % 2 ^ 31))

/-- The ALU group, by FN (R141). -/
def aluOf (h : Syl) (rd rs1 rs2 : CReg) (fn : Nat) : Instr :=
  match fn with
  | 0 => .add h rd rs1 rs2
  | 1 => .sub h rd rs1 rs2
  | 2 => .and h rd rs1 rs2
  | 3 => .or h rd rs1 rs2
  | 4 => .xor h rd rs1 rs2
  | 5 => .andn h rd rs1 rs2
  | 6 => .sll h rd rs1 rs2
  | 7 => .srl h rd rs1 rs2
  | 8 => .sra h rd rs1 rs2
  | 9 => .rol h rd rs1 rs2
  | 10 => .min h rd rs1 rs2
  | 11 => .max h rd rs1 rs2
  | 12 => .minu h rd rs1 rs2
  | 13 => .maxu h rd rs1 rs2
  | _ => .pack h rd rs1 rs2

/-- The syllables that U0 and U1 share (R141, R142). -/
def commonOf (h : Syl) (n : Nat) (li : W32) : Instr :=
  let rd : CReg := BitVec.ofNat 5 (wRd n)
  let rs1 : CReg := BitVec.ofNat 5 (wRs1 n)
  let rs2 : CReg := BitVec.ofNat 5 (wRs2 n)
  let pd : PReg := BitVec.ofNat 3 (bits n 16 14)
  match wOp n with
  | 0 => .nop h
  | 1 => aluOf h rd rs1 rs2 (wFn n)
  | 2 => .addi h rd rs1 (immOf n li)
  | 3 => .andi h rd rs1 (immOf n li)
  | 4 => .ori h rd rs1 (immOf n li)
  | 5 => .xori h rd rs1 (immOf n li)
  | 6 => .shi h rd rs1 (BitVec.ofNat 2 (bits n 7 6)) (BitVec.ofNat 6 (bits n 5 0))
  | 8 => .cmp h (BitVec.ofNat 4 (wFn n)) pd rs1 rs2
  | 9 => .cmpi h pd rs1 (immPOf n li)
  | _ => .plog h (BitVec.ofNat 4 (wFn n)) pd (BitVec.ofNat 3 (bits n 11 9)) (BitVec.ofNat 3 (bits n 6 4))

/-- The syllables of U0 (R141). -/
def u0Of (h : Syl) (n : Nat) (li : W32) : Instr :=
  let rd : CReg := BitVec.ofNat 5 (wRd n)
  let rs1 : CReg := BitVec.ofNat 5 (wRs1 n)
  let rs2 : CReg := BitVec.ofNat 5 (wRs2 n)
  match wOp n with
  | 16 => .br h (BitVec.ofNat 19 (bits n 18 0))
  | 17 => .call h (BitVec.ofNat 19 (bits n 18 0))
  | 18 =>
    match wFn n with
    | 0 => .jmp h rs1
    | 1 => .callr h rs1
    | _ => .ret h
  | 19 =>
    match wFn n with
    | 0 => .callg h rs1
    | 1 => .retg h rs1
    | _ => .eret h
  | 24 => if bits n 7 6 = 0 then .rep h else .repn h (BitVec.ofNat 6 (bits n 5 0))
  | 25 => if bits n 7 7 = 1 then .brk h (BitVec.ofNat 7 (bits n 6 0)) else .trap h (BitVec.ofNat 7 (bits n 6 0))
  | 26 => if bits n 8 8 = 1 then .mtu h rs1 (BitVec.ofNat 6 (bits n 5 0)) else .mfu h rd (BitVec.ofNat 6 (bits n 5 0))
  | 28 => if bits n 0 0 = 1 then .mts h rs1 (BitVec.ofNat 8 (wSys n)) else .mfs h rd (BitVec.ofNat 8 (wSys n))
  | 30 =>
    match wFn n with
    | 0 => .wait h rd
    | 1 => .yield h
    | _ => .waitt h rd rs1 rs2
  | _ => commonOf h n li

/-- The syllables of U1 (R142). -/
def u1Of (h : Syl) (n : Nat) (li : W32) : Instr :=
  let rd : CReg := BitVec.ofNat 5 (wRd n)
  let rs1 : CReg := BitVec.ofNat 5 (wRs1 n)
  let rs2 : CReg := BitVec.ofNat 5 (wRs2 n)
  match wOp n with
  | 16 =>
    match wFn n with
    | 0 => .mul h rd rs1 rs2
    | 1 => .mulh h rd rs1 rs2
    | 2 => .mulhu h rd rs1 rs2
    | _ => .mulhsu h rd rs1 rs2
  | 18 =>
    match wFn n with
    | 0 => .clz h rd rs1
    | 1 => .ctz h rd rs1
    | 2 => .popc h rd rs1
    | 3 => .bswap h rd rs1
    | 4 => .sextb h rd rs1
    | 5 => .sexth h rd rs1
    | 6 => .sextw h rd rs1
    | 7 => .zextb h rd rs1
    | 8 => .zexth h rd rs1
    | _ => .zextw h rd rs1
  | _ => commonOf h n li

/-- The syllables of U2 (R143). -/
def u2Of (h : Syl) (n : Nat) (li : W32) : Instr :=
  let rd : CReg := BitVec.ofNat 5 (wRd n)
  let rs1 : CReg := BitVec.ofNat 5 (wRs1 n)
  let rs2 : CReg := BitVec.ofNat 5 (wRs2 n)
  match wOp n with
  | 0 => .nop h
  | 1 => .ldb h rd rs1 (addrOf n li)
  | 2 => .ldbu h rd rs1 (addrOf n li)
  | 3 => .ldh h rd rs1 (addrOf n li)
  | 4 => .ldhu h rd rs1 (addrOf n li)
  | 5 => .ldw h rd rs1 (addrOf n li)
  | 6 => .ldwu h rd rs1 (addrOf n li)
  | 7 => .ldd h rd rs1 (addrOf n li)
  | 8 => .ldc h rd rs1 (addrOf n li)
  | 9 => .stb h rd rs1 (addrOf n li)
  | 10 => .sth h rd rs1 (addrOf n li)
  | 11 => .stw h rd rs1 (addrOf n li)
  | 12 => .std h rd rs1 (addrOf n li)
  | 13 => .stc h rd rs1 (addrOf n li)
  | 14 => .stm h rs1 rs2
  | 15 => .ldm h rs1 rs2
  | 16 => .crcblk h rd rs1 rs2
  | 17 => .mcopy h rd rs1 rs2
  | 20 =>
    match wFn n with
    | 0 => .kmov h rd rs1
    | 1 => .kdrop h rd rs1
    | 2 => .kpoint h rd rs1 rs2
    | 3 => .kstep h rd rs1 rs2
    | 4 => .ktrim h rd rs1 rs2
    | 5 => .kclip h rd rs1 rs2
    | 6 => .kclips h rd rs1 rs2
    | 7 => .kwrap h rd rs1 rs2
    | _ => .kunwrap h rd rs1 rs2
  | 21 => .kstepi h rd rs1 (immOf n li)
  | 22 =>
    match wFn n with
    | 0 => .krcur h rd rs1
    | 1 => .krbase h rd rs1
    | 2 => .krlen h rd rs1
    | 3 => .krperm h rd rs1
    | 4 => .krtype h rd rs1
    | _ => .krtag h rd rs1
  | 24 => .qput h rd rs1 rs2
  | 25 => .qget h rd rs1 rs2
  | 26 => .qputm h rd rs1 rs2
  | 28 =>
    match wFn n with
    | 0 => .mbar h
    | 1 => .sbar h
    | 2 => .lbar h
    | _ => .ibar h
  | _ =>
    match wFn n with
    | 0 => .icinv h rs1
    | 1 => .tlbinv h rs1
    | _ => .tlbsync h

/-- The syllables of U3 (R144). -/
def u3Of (h : Syl) (n : Nat) : Instr :=
  let rd : CReg := BitVec.ofNat 5 (wRd n)
  let rs1 : CReg := BitVec.ofNat 5 (wRs1 n)
  let rs2 : CReg := BitVec.ofNat 5 (wRs2 n)
  let ad : AReg := BitVec.ofNat 2 (bits n 15 14)
  let pd : PReg := BitVec.ofNat 3 (bits n 16 14)
  match wOp n with
  | 0 => .nop h
  | 1 =>
    match wFn n with
    | 0 => .macs h ad rs1 rs2
    | 1 => .macu h ad rs1 rs2
    | 2 => .msus h ad rs1 rs2
    | 3 => .msuu h ad rs1 rs2
    | 4 => .muls h ad rs1 rs2
    | _ => .mulu h ad rs1 rs2
  | 2 =>
    match wFn n with
    | 0 => .aclr h ad
    | 1 => .rdacc h rs1 ad rs2
    | 2 => .wracc h ad rs1
    | _ => .ashr h ad rs2
  | 3 => .crcstep h (BitVec.ofNat 2 (wFn n)) rd rs1 rs2
  | 4 => if wFn n = 0 then .parity h rd rs1 else .bitrev h rd rs1 rs2
  | 5 =>
    match wFn n with
    | 0 => .fadd h rd rs1 rs2
    | 1 => .fsub h rd rs1 rs2
    | 2 => .fmul h rd rs1 rs2
    | 3 => .fmadd h rd rs1 rs2
    | 4 => .fmin h rd rs1 rs2
    | 5 => .fmax h rd rs1 rs2
    | 6 => .fabs h rd rs1
    | 7 => .fneg h rd rs1
    | 8 => .fcvtws h rd rs1
    | _ => .fcvtsw h rd rs1
  | 6 =>
    match wFn n with
    | 0 => .feq h pd rs1 rs2
    | 1 => .flt h pd rs1 rs2
    | 2 => .fle h pd rs1 rs2
    | _ => .funord h pd rs1 rs2
  | _ =>
    match wFn n with
    | 0 => .div h rd rs1 rs2
    | 1 => .divu h rd rs1 rs2
    | 2 => .rem h rd rs1 rs2
    | 3 => .remu h rd rs1 rs2
    | 4 => .fdiv h rd rs1 rs2
    | 5 => .fsqrt h rd rs1
    | _ => .crcp h rd rs1 rs2

/-- The head of the syllable that a word spells, for core `core` (R124). -/
def sylHead (core : Nat) (w : W32) : Syl :=
  { core := core, stop := wStop w, unit := BitVec.ofNat 2 (wUnit w.toNat), cond := BitVec.ofNat 4 (wCond w.toNat) }

/-- The syllable that a word and, if it owns one, its long-immediate word spell, for core `core`. The word must have passed
`sylFault`. -/
def decodeSyl (core : Nat) (w li : W32) : Instr :=
  match wUnit w.toNat with
  | 0 => u0Of (sylHead core w) w.toNat li
  | 1 => u1Of (sylHead core w) w.toNat li
  | 2 => u2Of (sylHead core w) w.toNat li
  | _ => u3Of (sylHead core w) w.toNat

end Sys2Proof.Machine
end

