-- ==== Sys2Proof/Machine/Operands.lean ====
section
/-! DEFINITION. Operand forms (R129, R140, R153, R155, R162, R188): what a syllable's fields name as its bundle executes, the
registers it names, and the access descriptor of R268. -/

namespace Sys2Proof.Machine

/-- A bundle as its syllables see it: the state before the bundle (R130), the core, the address and length of the bundle, and
the syllable's position and word. -/
structure View where
  pre : State
  n : Nat
  a : Nat
  len : Nat
  pos : Nat
  word : W32
  deriving DecidableEq, Repr

/-- Register `r` as it stood before the bundle. -/
def View.c (v : View) (r : CReg) : CapW := readC v.pre v.n r.toNat
/-- Its low 64 bits: x or y. -/
def View.x (v : View) (r : CReg) : Nat := capCursor (v.c r)
/-- The registers of the context before the bundle. -/
def View.regs (v : View) : CtxRegs := curRegs v.pre v.n
/-- STATUS before the bundle. -/
def View.st (v : View) : BitVec 11 := status v.pre v.n
/-- A predicate before the bundle. -/
def View.p (v : View) (k : PReg) : Bool := predOf v.regs k.toNat
/-- A write of register `r`, named in the window before the bundle (R130). -/
def View.wr (v : View) (s : State) (r : CReg) (w : CapW) : State := putReg s v.n (regIdOf v.pre v.n r.toNat) w
/-- An integer result (R43). -/
def View.wi (v : View) (s : State) (r : CReg) (x : Nat) : State := v.wr s r (intW x)

/-- sext(v, n) to 64 bits. -/
def sext (n v : Nat) : Nat := (signed n v % (2 ^ 64 : Nat)).toNat

/-- The immediate of form RI sign-extended (ADDI, KSTEPI), or zero-extended (R153, R165). -/
def immSext (i : Imm) : Nat :=
  match i with
  | .short v => sext 8 v.toNat
  | .long _ v => sext 31 v.toNat
def immZext (i : Imm) : Nat :=
  match i with
  | .short v => v.toNat
  | .long _ v => v.toNat

/-- The comparison and the immediate of CMPI (R155). -/
def immCmp (i : ImmP) : Nat × Nat :=
  match i with
  | .short cc v => (cc.toNat, sext 5 v.toNat)
  | .long _ v => (0, sext 31 v.toNat)

/-- The address of a form M access of size `n` (R162, R188). -/
def effAddr (cursor : Nat) (am : Addr) (n : Nat) : Nat :=
  match am with
  | .off x => (((cursor : Int) + signed 7 x.toNat * n) % (2 ^ 64 : Nat)).toNat
  | .modulo _ _ => cursor
  | .rev _ => cursor
  | .long _ v => (((cursor : Int) + signed 31 v.toNat) % (2 ^ 64 : Nat)).toNat

/-- The low `b` bits of `v` reversed. -/
def revBits (b v : Nat) : Nat := (upTo b).foldl (fun x i => x + (if bit v i then 2 ^ (b - 1 - i) else 0)) 0

/-- The largest `b` with n·2^b ≤ ml, at most 32 (R188). -/
def revWidth (n ml : Nat) : Nat := log2 (ml / n)

/-- The cursor after a post-increment access of size `n` (R188). -/
def postCursor (g : Sig) (cursor : Nat) (am : Addr) (n : Nat) : Nat :=
  match am with
  | .modulo p st =>
    let mb : Int := (g.mb.getD p.toNat 0).toNat
    let ml : Int := (g.ml.getD p.toNat 0).toNat
    let off : Int := (cursor : Int) - mb + signed 5 st.toNat * n
    let noff := if ml = 0 then off else off % ml
    ((mb + noff) % (2 ^ 64 : Nat)).toNat
  | .rev p =>
    let mb : Int := (g.mb.getD p.toNat 0).toNat
    let ml := (g.ml.getD p.toNat 0).toNat
    let b := revWidth n ml
    let i := (((cursor : Int) - mb) / (n : Int) % (2 ^ b : Nat)).toNat
    let noff := revBits b ((revBits b i + 1) % 2 ^ b) * n
    ((mb + noff) % (2 ^ 64 : Nat)).toNat
  | .off _ => cursor
  | .long _ _ => cursor

/-- Whether a mode updates its capability register (R130, R188). -/
def postMode (am : Addr) : Bool :=
  match am with
  | .modulo _ _ => true
  | .rev _ => true
  | .off _ => false
  | .long _ _ => false

/-- The registers a syllable reads or writes: what holds its bundle while a long operation owes one of them (R184). -/
def regsOf (i : Instr) : List Nat :=
  match i with
  | .nop _ => []
  | .add _ rd rs1 rs2 => [rd.toNat, rs1.toNat, rs2.toNat]
  | .sub _ rd rs1 rs2 => [rd.toNat, rs1.toNat, rs2.toNat]
  | .and _ rd rs1 rs2 => [rd.toNat, rs1.toNat, rs2.toNat]
  | .or _ rd rs1 rs2 => [rd.toNat, rs1.toNat, rs2.toNat]
  | .xor _ rd rs1 rs2 => [rd.toNat, rs1.toNat, rs2.toNat]
  | .andn _ rd rs1 rs2 => [rd.toNat, rs1.toNat, rs2.toNat]
  | .sll _ rd rs1 rs2 => [rd.toNat, rs1.toNat, rs2.toNat]
  | .srl _ rd rs1 rs2 => [rd.toNat, rs1.toNat, rs2.toNat]
  | .sra _ rd rs1 rs2 => [rd.toNat, rs1.toNat, rs2.toNat]
  | .rol _ rd rs1 rs2 => [rd.toNat, rs1.toNat, rs2.toNat]
  | .min _ rd rs1 rs2 => [rd.toNat, rs1.toNat, rs2.toNat]
  | .max _ rd rs1 rs2 => [rd.toNat, rs1.toNat, rs2.toNat]
  | .minu _ rd rs1 rs2 => [rd.toNat, rs1.toNat, rs2.toNat]
  | .maxu _ rd rs1 rs2 => [rd.toNat, rs1.toNat, rs2.toNat]
  | .pack _ rd rs1 rs2 => [rd.toNat, rs1.toNat, rs2.toNat]
  | .addi _ rd rs1 _ => [rd.toNat, rs1.toNat]
  | .andi _ rd rs1 _ => [rd.toNat, rs1.toNat]
  | .ori _ rd rs1 _ => [rd.toNat, rs1.toNat]
  | .xori _ rd rs1 _ => [rd.toNat, rs1.toNat]
  | .shi _ rd rs1 _ _ => [rd.toNat, rs1.toNat]
  | .cmp _ _ _ rs1 rs2 => [rs1.toNat, rs2.toNat]
  | .cmpi _ _ rs1 _ => [rs1.toNat]
  | .plog _ _ _ _ _ => []
  | .br _ _ => []
  | .call _ _ => [31]
  | .jmp _ rs1 => [rs1.toNat]
  | .callr _ rs1 => [rs1.toNat, 31]
  | .ret _ => [15]
  | .callg _ rs1 => [rs1.toNat, 30, 31]
  | .retg _ rs1 => [rs1.toNat]
  | .eret _ => [6]
  | .rep _ => []
  | .repn _ _ => []
  | .trap _ _ => []
  | .brk _ _ => []
  | .mfu _ rd _ => [rd.toNat]
  | .mtu _ rs1 _ => [rs1.toNat]
  | .mfs _ rd _ => [rd.toNat]
  | .mts _ rs1 _ => [rs1.toNat]
  | .wait _ rd => [rd.toNat]
  | .yield _ => []
  | .waitt _ rd rs1 rs2 => [rd.toNat, rs1.toNat, rs2.toNat]
  | .mul _ rd rs1 rs2 => [rd.toNat, rs1.toNat, rs2.toNat]
  | .mulh _ rd rs1 rs2 => [rd.toNat, rs1.toNat, rs2.toNat]
  | .mulhu _ rd rs1 rs2 => [rd.toNat, rs1.toNat, rs2.toNat]
  | .mulhsu _ rd rs1 rs2 => [rd.toNat, rs1.toNat, rs2.toNat]
  | .clz _ rd rs1 => [rd.toNat, rs1.toNat]
  | .ctz _ rd rs1 => [rd.toNat, rs1.toNat]
  | .popc _ rd rs1 => [rd.toNat, rs1.toNat]
  | .bswap _ rd rs1 => [rd.toNat, rs1.toNat]
  | .sextb _ rd rs1 => [rd.toNat, rs1.toNat]
  | .sexth _ rd rs1 => [rd.toNat, rs1.toNat]
  | .sextw _ rd rs1 => [rd.toNat, rs1.toNat]
  | .zextb _ rd rs1 => [rd.toNat, rs1.toNat]
  | .zexth _ rd rs1 => [rd.toNat, rs1.toNat]
  | .zextw _ rd rs1 => [rd.toNat, rs1.toNat]
  | .ldb _ rd cs _ => [rd.toNat, cs.toNat]
  | .ldbu _ rd cs _ => [rd.toNat, cs.toNat]
  | .ldh _ rd cs _ => [rd.toNat, cs.toNat]
  | .ldhu _ rd cs _ => [rd.toNat, cs.toNat]
  | .ldw _ rd cs _ => [rd.toNat, cs.toNat]
  | .ldwu _ rd cs _ => [rd.toNat, cs.toNat]
  | .ldd _ rd cs _ => [rd.toNat, cs.toNat]
  | .ldc _ rd cs _ => [rd.toNat, cs.toNat]
  | .stb _ rs cs _ => [rs.toNat, cs.toNat]
  | .sth _ rs cs _ => [rs.toNat, cs.toNat]
  | .stw _ rs cs _ => [rs.toNat, cs.toNat]
  | .std _ rs cs _ => [rs.toNat, cs.toNat]
  | .stc _ rs cs _ => [rs.toNat, cs.toNat]
  | .stm _ _ _ => upTo 32
  | .ldm _ _ _ => upTo 32
  | .crcblk _ rd rs1 rs2 => [rd.toNat, rs1.toNat, rs2.toNat]
  | .mcopy _ rd rs1 rs2 => [rd.toNat, rs1.toNat, rs2.toNat, rs1.toNat + 1]
  | .kmov _ rd rs1 => [rd.toNat, rs1.toNat]
  | .kdrop _ rd rs1 => [rd.toNat, rs1.toNat]
  | .kpoint _ rd rs1 rs2 => [rd.toNat, rs1.toNat, rs2.toNat]
  | .kstep _ rd rs1 rs2 => [rd.toNat, rs1.toNat, rs2.toNat]
  | .kstepi _ rd rs1 _ => [rd.toNat, rs1.toNat]
  | .ktrim _ rd rs1 rs2 => [rd.toNat, rs1.toNat, rs2.toNat]
  | .kclip _ rd rs1 rs2 => [rd.toNat, rs1.toNat, rs2.toNat]
  | .kclips _ rd rs1 rs2 => [rd.toNat, rs1.toNat, rs2.toNat]
  | .kwrap _ rd rs1 rs2 => [rd.toNat, rs1.toNat, rs2.toNat]
  | .kunwrap _ rd rs1 rs2 => [rd.toNat, rs1.toNat, rs2.toNat]
  | .krcur _ rd rs1 => [rd.toNat, rs1.toNat]
  | .krbase _ rd rs1 => [rd.toNat, rs1.toNat]
  | .krlen _ rd rs1 => [rd.toNat, rs1.toNat]
  | .krperm _ rd rs1 => [rd.toNat, rs1.toNat]
  | .krtype _ rd rs1 => [rd.toNat, rs1.toNat]
  | .krtag _ rd rs1 => [rd.toNat, rs1.toNat]
  | .qput _ rd rs1 rs2 => [rd.toNat, rs1.toNat, rs2.toNat, rs2.toNat + 1, rs2.toNat + 2, rs2.toNat + 3]
  | .qget _ rd rs1 rs2 => [rd.toNat, rs1.toNat, rs2.toNat, rs2.toNat + 1, rs2.toNat + 2, rs2.toNat + 3]
  | .qputm _ rd rs1 rs2 => [rd.toNat, rs1.toNat, rs2.toNat, rs2.toNat + 1, rs2.toNat + 2, rs2.toNat + 3]
  | .mbar _ => []
  | .sbar _ => []
  | .lbar _ => []
  | .ibar _ => []
  | .icinv _ rs1 => [rs1.toNat]
  | .tlbinv _ rs1 => [rs1.toNat]
  | .tlbsync _ => []
  | .macs _ _ rs1 rs2 => [rs1.toNat, rs2.toNat]
  | .macu _ _ rs1 rs2 => [rs1.toNat, rs2.toNat]
  | .msus _ _ rs1 rs2 => [rs1.toNat, rs2.toNat]
  | .msuu _ _ rs1 rs2 => [rs1.toNat, rs2.toNat]
  | .muls _ _ rs1 rs2 => [rs1.toNat, rs2.toNat]
  | .mulu _ _ rs1 rs2 => [rs1.toNat, rs2.toNat]
  | .aclr _ _ => []
  | .rdacc _ rd _ rs2 => [rd.toNat, rs2.toNat]
  | .wracc _ _ rs1 => [rs1.toNat]
  | .ashr _ _ rs2 => [rs2.toNat]
  | .crcstep _ _ rd rs1 rs2 => [rd.toNat, rs1.toNat, rs2.toNat]
  | .parity _ rd rs1 => [rd.toNat, rs1.toNat]
  | .bitrev _ rd rs1 rs2 => [rd.toNat, rs1.toNat, rs2.toNat]
  | .fadd _ rd rs1 rs2 => [rd.toNat, rs1.toNat, rs2.toNat]
  | .fsub _ rd rs1 rs2 => [rd.toNat, rs1.toNat, rs2.toNat]
  | .fmul _ rd rs1 rs2 => [rd.toNat, rs1.toNat, rs2.toNat]
  | .fmadd _ rd rs1 rs2 => [rd.toNat, rs1.toNat, rs2.toNat]
  | .fmin _ rd rs1 rs2 => [rd.toNat, rs1.toNat, rs2.toNat]
  | .fmax _ rd rs1 rs2 => [rd.toNat, rs1.toNat, rs2.toNat]
  | .fabs _ rd rs1 => [rd.toNat, rs1.toNat]
  | .fneg _ rd rs1 => [rd.toNat, rs1.toNat]
  | .fcvtws _ rd rs1 => [rd.toNat, rs1.toNat]
  | .fcvtsw _ rd rs1 => [rd.toNat, rs1.toNat]
  | .feq _ _ rs1 rs2 => [rs1.toNat, rs2.toNat]
  | .flt _ _ rs1 rs2 => [rs1.toNat, rs2.toNat]
  | .fle _ _ rs1 rs2 => [rs1.toNat, rs2.toNat]
  | .funord _ _ rs1 rs2 => [rs1.toNat, rs2.toNat]
  | .div _ rd rs1 rs2 => [rd.toNat, rs1.toNat, rs2.toNat]
  | .divu _ rd rs1 rs2 => [rd.toNat, rs1.toNat, rs2.toNat]
  | .rem _ rd rs1 rs2 => [rd.toNat, rs1.toNat, rs2.toNat]
  | .remu _ rd rs1 rs2 => [rd.toNat, rs1.toNat, rs2.toNat]
  | .fdiv _ rd rs1 rs2 => [rd.toNat, rs1.toNat, rs2.toNat]
  | .fsqrt _ rd rs1 => [rd.toNat, rs1.toNat]
  | .crcp _ rd rs1 rs2 => [rd.toNat, rs1.toNat, rs2.toNat, rs2.toNat + 1]
  | _ => []

/-- Whether a syllable touches the lazy-save state (R138). -/
def touchesSig (w : W32) : Bool :=
  let n := w.toNat
  (wUnit n == 3 && (wOp n == 1 || wOp n == 2 || wOp n == 3 || (wOp n == 8 && wFn n == 6))) ||
    (wUnit n == 2 && decide (1 ≤ wOp n) && decide (wOp n ≤ 13) && (wAm n == 1 || wAm n == 2)) ||
    (wUnit n == 0 && wOp n == 26 && decide (8 ≤ bits n 5 0) && decide (bits n 5 0 ≤ 16))

/-- The same of a syllable command (R138): an accumulator operation, CRCSTEP, CRCP, a post-increment access, or MFU or MTU of the
signal-unit state. -/
def usesSig (i : Instr) : Bool :=
  match i with
  | .macs _ _ _ _ => true
  | .macu _ _ _ _ => true
  | .msus _ _ _ _ => true
  | .msuu _ _ _ _ => true
  | .muls _ _ _ _ => true
  | .mulu _ _ _ _ => true
  | .aclr _ _ => true
  | .rdacc _ _ _ _ => true
  | .wracc _ _ _ => true
  | .ashr _ _ _ => true
  | .crcstep _ _ _ _ _ => true
  | .crcp _ _ _ _ => true
  | .mfu _ _ u => decide (8 ≤ u.toNat) && decide (u.toNat ≤ 16)
  | .mtu _ _ u => decide (8 ≤ u.toNat) && decide (u.toNat ≤ 16)
  | .ldb _ _ _ am => postMode am
  | .ldbu _ _ _ am => postMode am
  | .ldh _ _ _ am => postMode am
  | .ldhu _ _ _ am => postMode am
  | .ldw _ _ _ am => postMode am
  | .ldwu _ _ _ am => postMode am
  | .ldd _ _ _ am => postMode am
  | .ldc _ _ _ am => postMode am
  | .stb _ _ _ am => postMode am
  | .sth _ _ _ am => postMode am
  | .stw _ _ _ am => postMode am
  | .std _ _ _ am => postMode am
  | .stc _ _ _ am => postMode am
  | _ => false

/-- The size of a form M access as log2, by OP (R162). -/
def accessLog (op : Nat) : Nat :=
  match op with
  | 1 => 0
  | 2 => 0
  | 3 => 1
  | 4 => 1
  | 5 => 2
  | 6 => 2
  | 7 => 3
  | 8 => 4
  | 9 => 0
  | 10 => 1
  | 11 => 2
  | 12 => 3
  | _ => 4

/-- The access descriptor of R268. -/
def descr (pos : Nat) (unit half : Bool) (size kind vreg creg : Nat) : Nat :=
  pos % 4 * 2 ^ 18 + b2n unit * 2 ^ 17 + b2n half * 2 ^ 16 + size % 8 * 2 ^ 13 + kind % 8 * 2 ^ 10 + vreg % 32 * 2 ^ 5 + creg % 32

/-- A precise cause. -/
def mkCause (code sub fadr finfo : Nat) : Cause :=
  { code := code, sub := sub, fadr := BitVec.ofNat 64 fadr, finfo := BitVec.ofNat 64 finfo, inRep := false, progress := false,
    async := false, imprecise := false, lopc := 0 }

/-- The cause of an encoding check, or of privilege: the syllable and its position (R149, R267). -/
def sylCause (code sub a pos : Nat) (w : W32) : Cause := mkCause code sub (a + 4 * pos) (w.toNat + pos % 4 * 2 ^ 32)

/-- A check of one syllable: it passes, raises a cause, or must wait. -/
inductive SylChk where
  | pass
  | fault (c : Cause)
  | hold (h : Hold)
  deriving DecidableEq, Repr

/-- The check of a capability operation turned into a cause: FADDR the cursor of cs (R267). -/
def ofChk {α : Type} (r : Chk α) (fadr finfo : Nat) : SylChk :=
  match r with
  | .ok _ => .pass
  | .fault code sub => .fault (mkCause code sub fadr finfo)

end Sys2Proof.Machine
end

