-- ==== Sys2Proof/Machine/Flags.lean ====
section
/-! DEFINITION. The predicates, the machine's flags: the comparisons of CMP and CMPI, PLOG and FCMP (R155, R182). -/

namespace Sys2Proof.Machine

/-- The comparison that FN or CC selects: EQ, NE, LT, GE, LTU, GEU (R155). -/
def cmpHolds (fn : Nat) (x y : W64) : Bool :=
  match fn with
  | 0 => x == y
  | 1 => x != y
  | 2 => x.slt y
  | 3 => !x.slt y
  | 4 => x.ult y
  | _ => !x.ult y

/-- PAND, POR, PXOR, PANDN (R155). -/
def plogHolds (fn : Nat) (a b : Bool) : Bool :=
  match fn with
  | 0 => a && b
  | 1 => a || b
  | 2 => a != b
  | _ => a && !b

/-- A predicate written by a syllable (R130, R135). -/
def View.wp (v : View) (s : State) (pd : PReg) (b : Bool) : State := setPred s v.n pd.toNat b

def doCmp (v : View) (fn : BitVec 4) (pd : PReg) (rs1 rs2 : CReg) (s : State) : State :=
  v.wp s pd (cmpHolds fn.toNat (BitVec.ofNat 64 (v.x rs1)) (BitVec.ofNat 64 (v.x rs2)))

def doCmpi (v : View) (pd : PReg) (rs1 : CReg) (imm : ImmP) (s : State) : State :=
  v.wp s pd (cmpHolds (immCmp imm).1 (BitVec.ofNat 64 (v.x rs1)) (BitVec.ofNat 64 (immCmp imm).2))

def doPlog (v : View) (fn : BitVec 4) (pd ps1 ps2 : PReg) (s : State) : State :=
  v.wp s pd (plogHolds fn.toNat (v.p ps1) (v.p ps2))

end Sys2Proof.Machine
end

