-- ==== Sys2Proof/Machine/IntOps.lean ====
section
/-! DEFINITION. The integer instructions of U0 and U1 (R152–R154): their results, and their effect on the destination. -/

namespace Sys2Proof.Machine

def View.xw (v : View) (r : CReg) : W64 := BitVec.ofNat 64 (v.x r)
/-- A 64-bit result written under R43. -/
def View.ww (v : View) (s : State) (r : CReg) (x : W64) : State := v.wi s r x.toNat

/-- The shift amount of y: bits(y, 5, 0). -/
def shAmt (y : W64) : Nat := y.toNat % 64

def minS (x y : W64) : W64 := if x.slt y then x else y
def maxS (x y : W64) : W64 := if x.slt y then y else x
def minU (x y : W64) : W64 := if x.ult y then x else y
def maxU (x y : W64) : W64 := if x.ult y then y else x
/-- PACK (R152). -/
def packW (x y : W64) : W64 := BitVec.ofNat 64 (x.toNat % 2 ^ 32 + y.toNat % 2 ^ 32 * 2 ^ 32)

/-- SLL, SRL, SRA, ROL by an amount. -/
def shiftW (kind : Nat) (x : W64) (sh : Nat) : W64 :=
  match kind with
  | 0 => x <<< sh
  | 1 => x >>> sh
  | 2 => x.sshiftRight sh
  | _ => x.rotateLeft sh

/-- The high half of a 128-bit product of integers (R154). -/
def mulHigh (x y : Int) : W64 := BitVec.ofInt 64 (x * y / (2 ^ 64 : Nat))

/-- The count of leading zeros of a 64-bit word. -/
def clzW (x : W64) : Nat := if x = 0 then 64 else 63 - log2 x.toNat

/-- The count of trailing zeros. -/
def ctzFrom (x : Nat) : Nat → Nat → Nat
  | 0, k => k
  | fuel + 1, k => if bit x k then k else ctzFrom x fuel (k + 1)
def ctzW (x : W64) : Nat := ctzFrom x.toNat 64 0

/-- The eight bytes in reverse order. -/
def bswapW (x : W64) : W64 := BitVec.ofNat 64 (beVal (leBytes 8 x.toNat))

def doAdd (v : View) (rd rs1 rs2 : CReg) (s : State) : State := v.ww s rd (v.xw rs1 + v.xw rs2)
def doSub (v : View) (rd rs1 rs2 : CReg) (s : State) : State := v.ww s rd (v.xw rs1 - v.xw rs2)
def doAnd (v : View) (rd rs1 rs2 : CReg) (s : State) : State := v.ww s rd (v.xw rs1 &&& v.xw rs2)
def doOr (v : View) (rd rs1 rs2 : CReg) (s : State) : State := v.ww s rd (v.xw rs1 ||| v.xw rs2)
def doXor (v : View) (rd rs1 rs2 : CReg) (s : State) : State := v.ww s rd (v.xw rs1 ^^^ v.xw rs2)
def doAndn (v : View) (rd rs1 rs2 : CReg) (s : State) : State := v.ww s rd (v.xw rs1 &&& ~~~ v.xw rs2)
def doSll (v : View) (rd rs1 rs2 : CReg) (s : State) : State := v.ww s rd (shiftW 0 (v.xw rs1) (shAmt (v.xw rs2)))
def doSrl (v : View) (rd rs1 rs2 : CReg) (s : State) : State := v.ww s rd (shiftW 1 (v.xw rs1) (shAmt (v.xw rs2)))
def doSra (v : View) (rd rs1 rs2 : CReg) (s : State) : State := v.ww s rd (shiftW 2 (v.xw rs1) (shAmt (v.xw rs2)))
def doRol (v : View) (rd rs1 rs2 : CReg) (s : State) : State := v.ww s rd (shiftW 3 (v.xw rs1) (shAmt (v.xw rs2)))
def doMin (v : View) (rd rs1 rs2 : CReg) (s : State) : State := v.ww s rd (minS (v.xw rs1) (v.xw rs2))
def doMax (v : View) (rd rs1 rs2 : CReg) (s : State) : State := v.ww s rd (maxS (v.xw rs1) (v.xw rs2))
def doMinu (v : View) (rd rs1 rs2 : CReg) (s : State) : State := v.ww s rd (minU (v.xw rs1) (v.xw rs2))
def doMaxu (v : View) (rd rs1 rs2 : CReg) (s : State) : State := v.ww s rd (maxU (v.xw rs1) (v.xw rs2))
def doPack (v : View) (rd rs1 rs2 : CReg) (s : State) : State := v.ww s rd (packW (v.xw rs1) (v.xw rs2))
def doAddi (v : View) (rd rs1 : CReg) (imm : Imm) (s : State) : State := v.ww s rd (v.xw rs1 + BitVec.ofNat 64 (immSext imm))
def doAndi (v : View) (rd rs1 : CReg) (imm : Imm) (s : State) : State := v.ww s rd (v.xw rs1 &&& BitVec.ofNat 64 (immZext imm))
def doOri (v : View) (rd rs1 : CReg) (imm : Imm) (s : State) : State := v.ww s rd (v.xw rs1 ||| BitVec.ofNat 64 (immZext imm))
def doXori (v : View) (rd rs1 : CReg) (imm : Imm) (s : State) : State := v.ww s rd (v.xw rs1 ^^^ BitVec.ofNat 64 (immZext imm))
def doShi (v : View) (rd rs1 : CReg) (kind : BitVec 2) (amount : BitVec 6) (s : State) : State :=
  v.ww s rd (shiftW kind.toNat (v.xw rs1) amount.toNat)
def doMul (v : View) (rd rs1 rs2 : CReg) (s : State) : State := v.ww s rd (v.xw rs1 * v.xw rs2)
def doMulh (v : View) (rd rs1 rs2 : CReg) (s : State) : State := v.ww s rd (mulHigh (v.xw rs1).toInt (v.xw rs2).toInt)
def doMulhu (v : View) (rd rs1 rs2 : CReg) (s : State) : State := v.ww s rd (mulHigh (v.xw rs1).toNat (v.xw rs2).toNat)
def doMulhsu (v : View) (rd rs1 rs2 : CReg) (s : State) : State := v.ww s rd (mulHigh (v.xw rs1).toInt (v.xw rs2).toNat)
def doClz (v : View) (rd rs1 : CReg) (s : State) : State := v.wi s rd (clzW (v.xw rs1))
def doCtz (v : View) (rd rs1 : CReg) (s : State) : State := v.wi s rd (ctzW (v.xw rs1))
def doPopc (v : View) (rd rs1 : CReg) (s : State) : State := v.wi s rd (popcount 64 (v.x rs1))
def doBswap (v : View) (rd rs1 : CReg) (s : State) : State := v.ww s rd (bswapW (v.xw rs1))
def doSextb (v : View) (rd rs1 : CReg) (s : State) : State := v.wi s rd (sext 8 (v.x rs1))
def doSexth (v : View) (rd rs1 : CReg) (s : State) : State := v.wi s rd (sext 16 (v.x rs1))
def doSextw (v : View) (rd rs1 : CReg) (s : State) : State := v.wi s rd (sext 32 (v.x rs1))
def doZextb (v : View) (rd rs1 : CReg) (s : State) : State := v.wi s rd (v.x rs1 % 2 ^ 8)
def doZexth (v : View) (rd rs1 : CReg) (s : State) : State := v.wi s rd (v.x rs1 % 2 ^ 16)
def doZextw (v : View) (rd rs1 : CReg) (s : State) : State := v.wi s rd (v.x rs1 % 2 ^ 32)

end Sys2Proof.Machine
end

