-- ==== Sys2Proof/Machine/SigOps.lean ====
section
/-! DEFINITION. The signal unit U3 (R176–R187): multiply-accumulate, CRC, bit and binary32 instructions, and the long
operations. -/

namespace Sys2Proof.Machine

/-- The signal-unit state of core `n` changed. -/
def updSig (s : State) (n : Nat) (f : Sig → Sig) : State := updRegs s n (fun r => { r with sig := f r.sig })

/-- An accumulator before the bundle, as a signed number. -/
def View.acc (v : View) (ad : AReg) : Int := (v.regs.sig.acc.getD ad.toNat 0).toInt

/-- An accumulator written, modulo 2^80 (R177). -/
def View.wacc (v : View) (s : State) (ad : AReg) (i : Int) : State :=
  updSig s v.n (fun g => { g with acc := putAt 0 g.acc ad.toNat (BitVec.ofInt 80 i) })

/-- The products of the low halves (R177). -/
def View.ps (v : View) (rs1 rs2 : CReg) : Int := signed 32 (v.x rs1) * signed 32 (v.x rs2)
def View.pu (v : View) (rs1 rs2 : CReg) : Int := ((v.x rs1 % 2 ^ 32 * (v.x rs2 % 2 ^ 32) : Nat) : Int)

def doMacs (v : View) (ad : AReg) (rs1 rs2 : CReg) (s : State) : State := v.wacc s ad (v.acc ad + v.ps rs1 rs2)
def doMacu (v : View) (ad : AReg) (rs1 rs2 : CReg) (s : State) : State := v.wacc s ad (v.acc ad + v.pu rs1 rs2)
def doMsus (v : View) (ad : AReg) (rs1 rs2 : CReg) (s : State) : State := v.wacc s ad (v.acc ad - v.ps rs1 rs2)
def doMsuu (v : View) (ad : AReg) (rs1 rs2 : CReg) (s : State) : State := v.wacc s ad (v.acc ad - v.pu rs1 rs2)
def doMuls (v : View) (ad : AReg) (rs1 rs2 : CReg) (s : State) : State := v.wacc s ad (v.ps rs1 rs2)
def doMulu (v : View) (ad : AReg) (rs1 rs2 : CReg) (s : State) : State := v.wacc s ad (v.pu rs1 rs2)
def doAclr (v : View) (ad : AReg) (s : State) : State := v.wacc s ad 0

/-- The shift amount of RDACC and ASHR (R178). -/
def accShift (y : Nat) : Nat := min (y % 128) 79
/-- An arithmetic shift right of a signed number. -/
def shrInt (i : Int) (k : Nat) : Int := i / (2 ^ k : Nat)
/-- Saturation to 64 signed bits. -/
def sat64 (i : Int) : Int := max (-(2 ^ 63 : Nat)) (min i ((2 ^ 63 : Nat) - 1))
/-- The result of RDACC (R178). -/
def rdaccW (a : Int) (y : Nat) : W64 :=
  let v := shrInt a (accShift y)
  wrap64 (if bit y 7 then sat64 v else v)

def doRdacc (v : View) (rd : CReg) (ad : AReg) (rs2 : CReg) (s : State) : State := v.ww s rd (rdaccW (v.acc ad) (v.x rs2))
def doWracc (v : View) (ad : AReg) (rs1 : CReg) (s : State) : State := v.wacc s ad (signed 64 (v.x rs1))
def doAshr (v : View) (ad : AReg) (rs2 : CReg) (s : State) : State := v.wacc s ad (shrInt (v.acc ad) (accShift (v.x rs2)))

/-! ### CRC, parity, bit reverse (R179, R180) -/

/-- `k` data bits of `y`, from bit `i` up, fed into the CRC value `c`. -/
def crcFeed (poly : W64) (y : Nat) : Nat → Nat → W64 → W64
  | 0, _, c => c
  | k + 1, i, c =>
    let b := (bit c.toNat 0) != (bit y i)
    crcFeed poly y k (i + 1) (if b then (c >>> 1) ^^^ poly else c >>> 1)

def doCrcstep (v : View) (size : BitVec 2) (rd rs1 rs2 : CReg) (s : State) : State :=
  v.ww s rd (crcFeed v.regs.sig.crcpoly (v.x rs2) (8 * 2 ^ size.toNat) 0 (v.xw rs1))

def doParity (v : View) (rd rs1 : CReg) (s : State) : State := v.wi s rd (popcount 64 (v.x rs1) % 2)

def doBitrev (v : View) (rd rs1 rs2 : CReg) (s : State) : State := v.wi s rd (revBits (v.x rs2 % 64 + 1) (v.x rs1))

/-! ### Binary32 (R181, R182) -/

/-- A binary32 operand: the low 32 bits. -/
def View.f (v : View) (r : CReg) : W32 := BitVec.ofNat 32 (v.x r)
/-- A binary32 result. -/
def View.wf (v : View) (s : State) (rd : CReg) (x : W32) : State := v.wi s rd x.toNat

def doFadd (v : View) (rd rs1 rs2 : CReg) (s : State) : State := v.wf s rd (f32Add (v.f rs1) (v.f rs2))
def doFsub (v : View) (rd rs1 rs2 : CReg) (s : State) : State := v.wf s rd (f32Sub (v.f rs1) (v.f rs2))
def doFmul (v : View) (rd rs1 rs2 : CReg) (s : State) : State := v.wf s rd (f32Mul (v.f rs1) (v.f rs2))
def doFmadd (v : View) (rd rs1 rs2 : CReg) (s : State) : State := v.wf s rd (f32Fma (v.f rd) (v.f rs1) (v.f rs2))
def doFmin (v : View) (rd rs1 rs2 : CReg) (s : State) : State := v.wf s rd (f32Min (v.f rs1) (v.f rs2))
def doFmax (v : View) (rd rs1 rs2 : CReg) (s : State) : State := v.wf s rd (f32Max (v.f rs1) (v.f rs2))
def doFabs (v : View) (rd rs1 : CReg) (s : State) : State := v.wf s rd (f32Abs (v.f rs1))
def doFneg (v : View) (rd rs1 : CReg) (s : State) : State := v.wf s rd (f32Negate (v.f rs1))
def doFcvtws (v : View) (rd rs1 : CReg) (s : State) : State := v.ww s rd (wrap64 (f32ToInt (v.f rs1)))
def doFcvtsw (v : View) (rd rs1 : CReg) (s : State) : State := v.wf s rd (f32OfInt (signed 32 (v.x rs1)))
def doFeq (v : View) (pd : PReg) (rs1 rs2 : CReg) (s : State) : State := v.wp s pd (f32Eq (v.f rs1) (v.f rs2))
def doFlt (v : View) (pd : PReg) (rs1 rs2 : CReg) (s : State) : State := v.wp s pd (f32Lt (v.f rs1) (v.f rs2))
def doFle (v : View) (pd : PReg) (rs1 rs2 : CReg) (s : State) : State := v.wp s pd (f32Le (v.f rs1) (v.f rs2))
def doFunord (v : View) (pd : PReg) (rs1 rs2 : CReg) (s : State) : State :=
  v.wp s pd (f32IsNaN (v.f rs1) || f32IsNaN (v.f rs2))

/-! ### Long operations (R183–R186) -/

/-- A LONG syllable's number, destination and result (none: an error). -/
structure LongReq where
  fn : Nat
  rd : CReg
  result : Option W64
  deriving DecidableEq, Repr

/-- The quotient and remainder of two 64-bit words, signed and unsigned; none for a zero divisor (R183). -/
def divS (x y : W64) : Option W64 := if y = 0 then none else some (x.sdiv y)
def divU (x y : W64) : Option W64 := if y = 0 then none else some (x.udiv y)
def remS (x y : W64) : Option W64 := if y = 0 then none else some (x - y * (x.sdiv y))
def remU (x y : W64) : Option W64 := if y = 0 then none else some (x.umod y)

/-- CRCP: two steps of 64 bits (R183). -/
def crcPair (poly x : W64) (y1 y2 : Nat) : W64 := crcFeed poly y2 64 0 (crcFeed poly y1 64 0 x)

/-- What a LONG syllable computes; none for any other syllable. -/
def longOf (v : View) (i : Instr) : Option LongReq :=
  match i with
  | .div _ rd rs1 rs2 => some ⟨0, rd, divS (v.xw rs1) (v.xw rs2)⟩
  | .divu _ rd rs1 rs2 => some ⟨1, rd, divU (v.xw rs1) (v.xw rs2)⟩
  | .rem _ rd rs1 rs2 => some ⟨2, rd, remS (v.xw rs1) (v.xw rs2)⟩
  | .remu _ rd rs1 rs2 => some ⟨3, rd, remU (v.xw rs1) (v.xw rs2)⟩
  | .fdiv _ rd rs1 rs2 => some ⟨4, rd, some ((f32Div (v.f rs1) (v.f rs2)).setWidth 64)⟩
  | .fsqrt _ rd rs1 => some ⟨5, rd, some ((f32Sqrt (v.f rs1)).setWidth 64)⟩
  | .crcp _ rd rs1 rs2 => some ⟨6, rd, some (crcPair v.regs.sig.crcpoly (v.xw rs1) (v.x rs2) (v.x (rs2 ||| 1)))⟩
  | _ => none

/-- The operation that a LONG syllable places in the unit. -/
def longOpOf (v : View) (q : LongReq) : LongOp :=
  { dest := regIdOf v.pre v.n q.rd.toNat, rd := q.rd.toNat, fn := q.fn, result := q.result, lopc := BitVec.ofNat 64 v.a
    lvl := stLevel v.st }

/-- A LONG syllable commits: with PRECLONG its result is written now (R186), otherwise it is placed in the unit (R184). -/
def doLong (v : View) (q : LongReq) (s : State) : State :=
  if stPRECLONG v.st then
    match q.result with
    | some x => v.ww s q.rd x
    | none => s
  else updCore s v.n (fun c => { c with longs := c.longs ++ [longOpOf v q] })

end Sys2Proof.Machine
end

