-- ==== Sys2Proof/Machine/CapOps.lean ====
section
/-! DEFINITION. The capability instructions (R38–R43, R165, R166): their checks and their results. -/

namespace Sys2Proof.Machine

/-- The descriptor of a derivation or sealing (R268). -/
def View.kDescr (v : View) (vreg creg : Nat) : Nat := descr v.pos false false 7 6 vreg creg

/-- The check of a derivation: FADDR the cursor of cs (R267). -/
def View.kChk (v : View) (r : Chk CapW) (cs : CReg) (vreg : Nat) : SylChk := ofChk r (v.x cs) (v.kDescr vreg cs.toNat)

/-- The result of a derivation that passes. -/
def View.kDo (v : View) (r : Chk CapW) (rd : CReg) (s : State) : State :=
  match r with
  | .ok w => v.wr s rd w
  | .fault _ _ => s

def kpointR (v : View) (rs1 rs2 : CReg) : Chk CapW := kCursor (v.c rs1) (v.x rs2)
def kstepR (v : View) (rs1 rs2 : CReg) : Chk CapW := kCursor (v.c rs1) ((v.x rs1 + v.x rs2) % 2 ^ 64)
def kstepiR (v : View) (rs1 : CReg) (imm : Imm) : Chk CapW := kCursor (v.c rs1) ((v.x rs1 + immSext imm) % 2 ^ 64)
def ktrimR (v : View) (rs1 rs2 : CReg) : Chk CapW := kTrim (v.c rs1) (v.x rs2 % 2 ^ 16)
def kclipR (v : View) (rs1 rs2 : CReg) : Chk CapW := kClip (v.c rs1) (v.x rs2) false
def kclipsR (v : View) (rs1 rs2 : CReg) : Chk CapW := kClip (v.c rs1) (v.x rs2) true
def kwrapR (v : View) (rs1 rs2 : CReg) : Chk CapW := kWrap v.pre (v.c rs1) (v.c rs2)
def kunwrapR (v : View) (rs1 rs2 : CReg) : Chk CapW := kUnwrap v.pre (v.c rs1) (v.c rs2)

def doKmov (v : View) (rd rs1 : CReg) (s : State) : State := v.wr s rd (v.c rs1)
def doKdrop (v : View) (rd rs1 : CReg) (s : State) : State := v.wr s rd { v.c rs1 with tag := false }
def doKpoint (v : View) (rd rs1 rs2 : CReg) (s : State) : State := v.kDo (kpointR v rs1 rs2) rd s
def doKstep (v : View) (rd rs1 rs2 : CReg) (s : State) : State := v.kDo (kstepR v rs1 rs2) rd s
def doKstepi (v : View) (rd rs1 : CReg) (imm : Imm) (s : State) : State := v.kDo (kstepiR v rs1 imm) rd s
def doKtrim (v : View) (rd rs1 rs2 : CReg) (s : State) : State := v.kDo (ktrimR v rs1 rs2) rd s
def doKclip (v : View) (rd rs1 rs2 : CReg) (s : State) : State := v.kDo (kclipR v rs1 rs2) rd s
def doKclips (v : View) (rd rs1 rs2 : CReg) (s : State) : State := v.kDo (kclipsR v rs1 rs2) rd s
def doKwrap (v : View) (rd rs1 rs2 : CReg) (s : State) : State := v.kDo (kwrapR v rs1 rs2) rd s
def doKunwrap (v : View) (rd rs1 rs2 : CReg) (s : State) : State := v.kDo (kunwrapR v rs1 rs2) rd s
def doKread (v : View) (fn : Nat) (rd rs1 : CReg) (s : State) : State := v.wi s rd (kRead (v.c rs1) fn)

/-- The checks of the capability instructions (rank 7). -/
def capChk (v : View) (i : Instr) : SylChk :=
  match i with
  | .kpoint _ _ rs1 rs2 => v.kChk (kpointR v rs1 rs2) rs1 rs2.toNat
  | .kstep _ _ rs1 rs2 => v.kChk (kstepR v rs1 rs2) rs1 rs2.toNat
  | .kstepi _ _ rs1 imm => v.kChk (kstepiR v rs1 imm) rs1 0
  | .ktrim _ _ rs1 rs2 => v.kChk (ktrimR v rs1 rs2) rs1 rs2.toNat
  | .kclip _ _ rs1 rs2 => v.kChk (kclipR v rs1 rs2) rs1 rs2.toNat
  | .kclips _ _ rs1 rs2 => v.kChk (kclipsR v rs1 rs2) rs1 rs2.toNat
  | .kwrap _ _ rs1 rs2 => v.kChk (kwrapR v rs1 rs2) rs1 rs2.toNat
  | .kunwrap _ _ rs1 rs2 => v.kChk (kunwrapR v rs1 rs2) rs1 rs2.toNat
  | _ => .pass

end Sys2Proof.Machine
end

