-- ==== Sys2Proof/Machine/Crypto.lean ====
section
/-! DEFINITION. The published algorithms that the spec names: SHA-256 and SHA-384 (FIPS 180-4), AES (FIPS 197), CMAC (SP 800-38B), GCM
(SP 800-38D), key unwrap (SP 800-38F), the counter-mode KDF (SP 800-108), ECDSA over P-256 (FIPS 186) and CRC-32 (IEEE 802.3). They are
PRESUMED from those standards (assumption 17); byte strings are lists of bytes. -/

namespace Sys2Proof.Machine

/-- A list cut into pieces of `n`. -/
def chunks {α : Type} (n : Nat) : Nat → List α → List (List α)
  | 0, _ => []
  | _, [] => []
  | f + 1, l => l.take n :: chunks n f (l.drop n)

/-! ### SHA-256 and SHA-384 -/

/-- The cube-root constants of both functions, eight 64-bit words a number: SHA-256 uses the upper half of each. -/
def hashCubes : List Nat :=
  [0x428a2f98d728ae227137449123ef65cdb5c0fbcfec4d3b2fe9b5dba58189dbbc3956c25bf348b53859f111f1b605d019923f82a4af194f9bab1c5ed5da6d8118,
   0xd807aa98a303024212835b0145706fbe243185be4ee4b28c550c7dc3d5ffb4e272be5d74f27b896f80deb1fe3b1696b19bdc06a725c71235c19bf174cf692694,
   0xe49b69c19ef14ad2efbe4786384f25e30fc19dc68b8cd5b5240ca1cc77ac9c652de92c6f592b02754a7484aa6ea6e4835cb0a9dcbd41fbd476f988da831153b5,
   0x983e5152ee66dfaba831c66d2db43210b00327c898fb213fbf597fc7beef0ee4c6e00bf33da88fc2d5a79147930aa72506ca6351e003826f142929670a0e6e70,
   0x27b70a8546d22ffc2e1b21385c26c9264d2c6dfc5ac42aed53380d139d95b3df650a73548baf63de766a0abb3c77b2a881c2c92e47edaee692722c851482353b,
   0xa2bfe8a14cf10364a81a664bbc423001c24b8b70d0f89791c76c51a30654be30d192e819d6ef5218d69906245565a910f40e35855771202a106aa07032bbd1b8,
   0x19a4c116b8d2d0c81e376c085141ab532748774cdf8eeb9934b0bcb5e19b48a8391c0cb3c5c95a634ed8aa4ae3418acb5b9cca4f7763e373682e6ff3d6b2b8a3,
   0x748f82ee5defb2fc78a5636f43172f6084c87814a1f0ab728cc702081a6439ec90befffa23631e28a4506cebde82bde9bef9a3f7b2c67915c67178f2e372532b,
   0xca273eceea26619cd186b8c721c0c207eada7dd6cde0eb1ef57d4f7fee6ed17806f067aa72176fba0a637dc5a2c898a6113f9804bef90dae1b710b35131c471b,
   0x28db77f523047d8432caab7b40c724933c9ebe0a15c9bebc431d67c49c100d4c4cc5d4becb3e42b6597f299cfc657e2a5fcb6fab3ad6faec6c44198c4a475817]

/-- Word `i` of `x`, counted from its upper end, where `x` holds eight words of `n` bits. -/
def wordOf8 (n x i : Nat) : Nat := x / 2 ^ (n * (7 - i)) % 2 ^ n

/-- What tells the two functions apart: the word size in bits, the rounds, the starting value as one number, and the bit counts of their
four mixing functions; the last count of a schedule function is a shift. -/
structure HashKind where
  bits : Nat
  rounds : Nat
  start : Nat
  upper : Nat × Nat × Nat
  lower : Nat × Nat × Nat
  early : Nat × Nat × Nat
  late : Nat × Nat × Nat

/-- The parameters of SHA-256 and of SHA-384. -/
def hash256 : HashKind :=
  { bits := 32, rounds := 64, upper := (2, 13, 22), lower := (6, 11, 25), early := (7, 18, 3), late := (17, 19, 10)
    start := 0x6a09e667bb67ae853c6ef372a54ff53a510e527f9b05688c1f83d9ab5be0cd19 }
def hash384 : HashKind :=
  { bits := 64, rounds := 80, upper := (28, 34, 39), lower := (14, 18, 41), early := (1, 8, 7), late := (19, 61, 6)
    start := 0xcbbb9d5dc1059ed8629a292a367cd5079159015a3070dd17152fecd8f70e593967332667ffc00b318eb44a8768581511db0c2e0d64f98fa747b5481dbefa4fa4 }

/-- An `n`-bit word turned right by `k` places. -/
def turn (n x k : Nat) : Nat := x / 2 ^ k + x % 2 ^ k * 2 ^ (n - k)

/-- Two turns and a third, or a shift in its place. -/
def turn3 (n : Nat) (r : Nat × Nat × Nat) (x : Nat) : Nat := turn n x r.1 ^^^ turn n x r.2.1 ^^^ turn n x r.2.2
def turnShift (n : Nat) (r : Nat × Nat × Nat) (x : Nat) : Nat := turn n x r.1 ^^^ turn n x r.2.1 ^^^ x / 2 ^ r.2.2

/-- One round with the sum `x` of its constant and its message word. -/
def hashRound (v : HashKind) (x : Nat) : List Nat → List Nat
  | [a, b, c, d, e, f, g, h] =>
    let m := 2 ^ v.bits
    let t := x + h + turn3 v.bits v.lower e + (e &&& f) + ((m - 1 - e) &&& g)
    [(t + turn3 v.bits v.upper a + ((a &&& b) ||| ((a ||| b) &&& c))) % m, a, b, c, (d + t) % m, e, f, g]
  | l => l

/-- The message word that follows a window of sixteen. -/
def hashNext (v : HashKind) (win : List Nat) : Nat :=
  (win.getD 0 0 + turnShift v.bits v.early (win.getD 1 0) + win.getD 9 0 + turnShift v.bits v.late (win.getD 14 0)) % 2 ^ v.bits

/-- The rounds from number `i` on; the window holds this round's message word and the fifteen after it. -/
def hashRounds (v : HashKind) : Nat → Nat → List Nat → List Nat → List Nat
  | 0, _, _, st => st
  | n + 1, i, win, st =>
    let k := wordOf8 64 (hashCubes.getD (i / 8) 0) (i % 8) / 2 ^ (64 - v.bits)
    hashRounds v n (i + 1) (win.drop 1 ++ [hashNext v win]) (hashRound v (k + win.headD 0) st)

/-- A block of sixteen words taken into the state. -/
def hashBlock (v : HashKind) (st : List Nat) (b : List Byte) : List Nat :=
  let r := hashRounds v v.rounds 0 ((chunks (v.bits / 8) 17 b).map beVal) st
  List.zipWith (fun x y => (x + y) % 2 ^ v.bits) st r

/-- The bytes that end a message of `len` bytes: a one bit, zeros, and its length in bits in two words. -/
def hashTail (v : HashKind) (len : Nat) : List Byte :=
  let blk := 2 * v.bits
  0x80 :: (List.replicate ((2 * blk - 1 - v.bits / 4 - len % blk) % blk) 0 ++ beBytes (v.bits / 4) (8 * len))

/-- The state after a message. -/
def hashOf (v : HashKind) (m : List Byte) : List Nat :=
  let p := m ++ hashTail v m.length
  (chunks (2 * v.bits) (p.length + 1) p).foldl (hashBlock v) ((upTo 8).map (wordOf8 v.bits v.start))

/-- SHA-256, and SHA-384, which keeps six words of eight. -/
def sha256 (m : List Byte) : List Byte := (hashOf hash256 m).flatMap (beBytes 4)
def sha384 (m : List Byte) : List Byte := ((hashOf hash384 m).take 6).flatMap (beBytes 8)

/-! ### AES -/

/-- Part of aesSbox. -/
def aesSbox_0 : List Byte := [0x63, 0x7c, 0x77, 0x7b, 0xf2, 0x6b, 0x6f, 0xc5, 0x30, 0x01, 0x67, 0x2b, 0xfe, 0xd7, 0xab, 0x76,
  0xca, 0x82, 0xc9, 0x7d, 0xfa, 0x59, 0x47, 0xf0, 0xad, 0xd4, 0xa2, 0xaf, 0x9c, 0xa4, 0x72, 0xc0,
  0xb7, 0xfd, 0x93, 0x26, 0x36, 0x3f, 0xf7, 0xcc, 0x34, 0xa5, 0xe5, 0xf1, 0x71, 0xd8, 0x31, 0x15,
  0x04, 0xc7, 0x23, 0xc3, 0x18, 0x96, 0x05, 0x9a, 0x07, 0x12, 0x80, 0xe2, 0xeb, 0x27, 0xb2, 0x75,
  0x09, 0x83, 0x2c, 0x1a, 0x1b, 0x6e, 0x5a, 0xa0, 0x52, 0x3b, 0xd6, 0xb3, 0x29, 0xe3, 0x2f, 0x84]
/-- Part of aesSbox. -/
def aesSbox_1 : List Byte := [0x53, 0xd1, 0x00, 0xed, 0x20, 0xfc, 0xb1, 0x5b, 0x6a, 0xcb, 0xbe, 0x39, 0x4a, 0x4c, 0x58, 0xcf,
  0xd0, 0xef, 0xaa, 0xfb, 0x43, 0x4d, 0x33, 0x85, 0x45, 0xf9, 0x02, 0x7f, 0x50, 0x3c, 0x9f, 0xa8,
  0x51, 0xa3, 0x40, 0x8f, 0x92, 0x9d, 0x38, 0xf5, 0xbc, 0xb6, 0xda, 0x21, 0x10, 0xff, 0xf3, 0xd2,
  0xcd, 0x0c, 0x13, 0xec, 0x5f, 0x97, 0x44, 0x17, 0xc4, 0xa7, 0x7e, 0x3d, 0x64, 0x5d, 0x19, 0x73,
  0x60, 0x81, 0x4f, 0xdc, 0x22, 0x2a, 0x90, 0x88, 0x46, 0xee, 0xb8, 0x14, 0xde, 0x5e, 0x0b, 0xdb]
/-- Part of aesSbox. -/
def aesSbox_2 : List Byte := [0xe0, 0x32, 0x3a, 0x0a, 0x49, 0x06, 0x24, 0x5c, 0xc2, 0xd3, 0xac, 0x62, 0x91, 0x95, 0xe4, 0x79,
  0xe7, 0xc8, 0x37, 0x6d, 0x8d, 0xd5, 0x4e, 0xa9, 0x6c, 0x56, 0xf4, 0xea, 0x65, 0x7a, 0xae, 0x08,
  0xba, 0x78, 0x25, 0x2e, 0x1c, 0xa6, 0xb4, 0xc6, 0xe8, 0xdd, 0x74, 0x1f, 0x4b, 0xbd, 0x8b, 0x8a,
  0x70, 0x3e, 0xb5, 0x66, 0x48, 0x03, 0xf6, 0x0e, 0x61, 0x35, 0x57, 0xb9, 0x86, 0xc1, 0x1d, 0x9e,
  0xe1, 0xf8, 0x98, 0x11, 0x69, 0xd9, 0x8e, 0x94, 0x9b, 0x1e, 0x87, 0xe9, 0xce, 0x55, 0x28, 0xdf]
/-- Part of aesSbox. -/
def aesSbox_3 : List Byte := [0x8c, 0xa1, 0x89, 0x0d, 0xbf, 0xe6, 0x42, 0x68, 0x41, 0x99, 0x2d, 0x0f, 0xb0, 0x54, 0xbb, 0x16]
/-- The S-box of AES. -/
def aesSbox : List Byte := aesSbox_0 ++ aesSbox_1 ++ aesSbox_2 ++ aesSbox_3

/-- The S-box. -/
def aesSub (x : Byte) : Byte := aesSbox.getD x.toNat 0

/-- The inverse S-box. -/
def aesSubInv (x : Byte) : Byte := BitVec.ofNat 8 (aesSbox.findIdx (fun y => y == x))

/-- Multiplication by x in the field of AES. -/
def aesX (a : Byte) : Byte := if a.toNat < 128 then a <<< 1 else (a <<< 1) ^^^ 0x1B

/-- Multiplication by a small constant, bit by bit. -/
def aesMul (a : Byte) (k : Nat) : Byte :=
  (if bit k 0 then a else 0) ^^^ (if bit k 1 then aesX a else 0) ^^^ (if bit k 2 then aesX (aesX a) else 0) ^^^
    (if bit k 3 then aesX (aesX (aesX a)) else 0)

/-- Two strings XORed byte by byte. -/
def bxor (a b : List Byte) : List Byte := (a.zip b).map (fun p => p.1 ^^^ p.2)

/-- The key schedule: words of 4 bytes, `n` of them still to make; `nk` words make the key, `i` counts, `rc` is the round
constant. -/
def aesExpand (nk : Nat) : Nat → Nat → Byte → List (List Byte) → List (List Byte)
  | 0, _, _, ws => ws
  | n + 1, i, rc, ws =>
    let prev := ws.getD (i - 1) []
    let t := if i % nk = 0 then bxor ((prev.drop 1 ++ prev.take 1).map aesSub) [rc, 0, 0, 0]
      else if 6 < nk ∧ i % nk = 4 then prev.map aesSub else prev
    aesExpand nk n (i + 1) (if i % nk = 0 then aesX rc else rc) (ws ++ [bxor (ws.getD (i - nk) []) t])

/-- The round keys of a key of 16 or 32 bytes. -/
def aesKeys (key : List Byte) : List (List Byte) :=
  let nk := key.length / 4
  (chunks 4 64 (aesExpand nk (4 * (nk + 7) - nk) nk 1 (chunks 4 16 key))).map (fun l => l.flatten)

/-- ShiftRows and its inverse on 16 bytes in column order. -/
def aesShift (st : List Byte) : List Byte := (upTo 16).map (fun i => st.getD ((i + 4 * (i % 4)) % 16) 0)
def aesShiftInv (st : List Byte) : List Byte := (upTo 16).map (fun i => st.getD ((i + 16 - 4 * (i % 4)) % 16) 0)

/-- A column times a circulant row of constants. -/
def aesMixCol (c0 c1 c2 c3 : Nat) (c : List Byte) : List Byte :=
  (upTo 4).map (fun i => aesMul (c.getD i 0) c0 ^^^ aesMul (c.getD ((i + 1) % 4) 0) c1 ^^^ aesMul (c.getD ((i + 2) % 4) 0) c2 ^^^
    aesMul (c.getD ((i + 3) % 4) 0) c3)
def aesMix (st : List Byte) : List Byte := (chunks 4 4 st).flatMap (aesMixCol 2 3 1 1)
def aesMixInv (st : List Byte) : List Byte := (chunks 4 4 st).flatMap (aesMixCol 14 11 13 9)

/-- The rounds after the first key addition. -/
def aesRounds : List (List Byte) → List Byte → List Byte
  | [], st => st
  | [k], st => bxor (aesShift (st.map aesSub)) k
  | k :: ks, st => aesRounds ks (bxor (aesMix (aesShift (st.map aesSub))) k)

/-- AES encryption of a block under round keys. -/
def aesEncKs (ks : List (List Byte)) (b : List Byte) : List Byte := aesRounds (ks.drop 1) (bxor b (ks.headD []))

/-- The inverse rounds, the keys taken from the last. -/
def aesRoundsInv : List (List Byte) → List Byte → List Byte
  | [], st => st
  | [k], st => bxor ((aesShiftInv st).map aesSubInv) k
  | k :: ks, st => aesRoundsInv ks (aesMixInv (bxor ((aesShiftInv st).map aesSubInv) k))

/-- AES encryption and decryption of a block of 16 bytes. -/
def aesEnc (key b : List Byte) : List Byte := aesEncKs (aesKeys key) b
def aesDec (key b : List Byte) : List Byte :=
  let ks := (aesKeys key).reverse
  aesRoundsInv (ks.drop 1) (bxor b (ks.headD []))

/-! ### CMAC, GCM, key wrap, KDF -/

/-- Doubling of a subkey. -/
def cmacDouble (b : List Byte) : List Byte :=
  let x := beVal b
  beBytes 16 ((2 * x % 2 ^ 128) ^^^ (if 2 ^ 127 ≤ x then 0x87 else 0))

/-- The last block of a CMAC message masked. -/
def cmacLast (k1 k2 b : List Byte) : List Byte :=
  if b.length = 16 then bxor b k1 else bxor (b ++ 0x80 :: List.replicate (15 - b.length) 0) k2

/-- AES-CMAC. -/
def aesCmac (key m : List Byte) : List Byte :=
  let ks := aesKeys key
  let k1 := cmacDouble (aesEncKs ks (List.replicate 16 0))
  let k2 := cmacDouble k1
  let bs := chunks 16 (m.length + 1) m
  let z := List.replicate 16 (0 : Byte)
  let x := (bs.dropLast).foldl (fun a b => aesEncKs ks (bxor a b)) z
  aesEncKs ks (bxor x (cmacLast k1 k2 (bs.getLastD [])))

/-- Multiplication in the field of GHASH: `v` is the running multiple, bits of `x` from the highest. -/
def ghashMul (x : Nat) : Nat → Nat → Nat → Nat
  | 0, _, z => z
  | k + 1, v, z =>
    ghashMul x k (if v % 2 = 1 then v / 2 ^^^ (0xE1 * 2 ^ 120) else v / 2) (if bit x k then z ^^^ v else z)

/-- GHASH of a string of whole blocks. -/
def ghash (h : Nat) (m : List Byte) : Nat := (chunks 16 (m.length + 1) m).foldl (fun y b => ghashMul (y ^^^ beVal b) 128 h 0) 0

/-- A string padded with zeros to whole blocks of 16 bytes. -/
def pad16 (m : List Byte) : List Byte := m ++ List.replicate ((16 - m.length % 16) % 16) 0

/-- GCM's counter mode from counter block `iv ∥ c` on. -/
def gcmCtr (ks : List (List Byte)) (iv : List Byte) (c : Nat) : List (List Byte) → List Byte
  | [] => []
  | b :: r => bxor b (aesEncKs ks (iv ++ beBytes 4 c)) ++ gcmCtr ks iv (c + 1) r

/-- AES-GCM's keystream applied to data, and the tag of AAD and ciphertext, for a 12-byte IV. -/
def gcmCrypt (key iv d : List Byte) : List Byte := gcmCtr (aesKeys key) iv 2 (chunks 16 (d.length + 1) d)
def gcmTag (key iv aad ct : List Byte) : List Byte :=
  let ks := aesKeys key
  let h := beVal (aesEncKs ks (List.replicate 16 0))
  bxor (beBytes 16 (ghash h (pad16 aad ++ pad16 ct ++ beBytes 8 (8 * aad.length) ++ beBytes 8 (8 * ct.length)))) (aesEncKs ks (iv ++ beBytes 4 1))

/-- One pass of key unwrap over the registers, the last first: `t` is the step. -/
def kwPass (key : List Byte) (n j : Nat) : Nat → List Byte × List (List Byte) → List Byte × List (List Byte)
  | 0, x => x
  | i + 1, (a, rs) =>
    let b := aesDec key (bxor a (beBytes 8 (n * j + i + 1)) ++ rs.getD i [])
    kwPass key n j i (b.take 8, rs.set i (b.drop 8))

/-- AES-KW unwrapping: the key data, or none when the integrity check fails. -/
def aesUnwrap (key c : List Byte) : Option (List Byte) :=
  let rs := chunks 8 (c.length + 1) (c.drop 8)
  let n := rs.length
  let x := [5, 4, 3, 2, 1, 0].foldl (fun x j => kwPass key n j n x) (c.take 8, rs)
  if x.1 = List.replicate 8 0xA6 ∧ 2 ≤ n ∧ c.length % 8 = 0 then some x.2.flatten else none

/-- The counter-mode KDF with CMAC: `n` bytes from the fixed input `d`, the 32-bit counter in front and the length in bits behind. -/
def kdfCtr (key d : List Byte) (n : Nat) : List Byte :=
  ((upTo ((n + 15) / 16)).flatMap (fun i => aesCmac key (beBytes 4 (i + 1) ++ d ++ beBytes 4 (8 * n)))).take n

/-! ### ECDSA over P-256 -/

def p256P : Nat := 0xffffffff00000001000000000000000000000000ffffffffffffffffffffffff
def p256N : Nat := 0xffffffff00000000ffffffffffffffffbce6faada7179e84f3b9cac2fc632551
def p256B : Nat := 0x5ac635d8aa3a93e7b3ebbd55769886bc651d06b0cc53b0f63bce3c3e27d2604b
def p256G : Nat × Nat :=
  (0x6b17d1f2e12c4247f8bce6e563a440f277037d812deb33a0f4a13945d898c296, 0x4fe342e2fe1a7f9b8ee7eb4a7c0f9e162bce33576b315ececbb6406837bf51f5)

/-- x^e mod m, over the lowest `k` bits of e. -/
def powMod (m : Nat) : Nat → Nat → Nat → Nat → Nat
  | 0, _, _, r => r
  | k + 1, x, e, r => powMod m k (x * x % m) (e / 2) (if e % 2 = 1 then r * x % m else r)

/-- The inverse modulo a prime. -/
def invMod (m x : Nat) : Nat := powMod m 256 (x % m) (m - 2) 1

/-- A point in Jacobian coordinates; z = 0 is the point at infinity. -/
structure JPoint where
  x : Nat
  y : Nat
  z : Nat
  deriving DecidableEq, Repr

/-- Difference modulo p. -/
def subP (a b : Nat) : Nat := (a + p256P - b % p256P) % p256P

/-- A point doubled. -/
def jDouble (p : JPoint) : JPoint :=
  let y2 := p.y * p.y % p256P
  let s := 4 * p.x * y2 % p256P
  let z2 := p.z * p.z % p256P
  let m := 3 * (subP p.x z2) * (p.x + z2) % p256P
  let x := subP (m * m) (2 * s)
  ⟨x, subP (m * subP s x) (8 * y2 * y2), 2 * p.y * p.z % p256P⟩

/-- Two points added. -/
def jAdd (p q : JPoint) : JPoint :=
  if p.z = 0 then q
  else if q.z = 0 then p
  else
    let z1 := p.z * p.z % p256P
    let z2 := q.z * q.z % p256P
    let u1 := p.x * z2 % p256P
    let u2 := q.x * z1 % p256P
    let s1 := p.y * q.z * z2 % p256P
    let s2 := q.y * p.z * z1 % p256P
    if u1 = u2 then (if s1 = s2 then jDouble p else ⟨1, 1, 0⟩)
    else
      let h := subP u2 u1
      let r := subP s2 s1
      let h2 := h * h % p256P
      let h3 := h * h2 % p256P
      let x := subP (r * r) (h3 + 2 * u1 * h2)
      ⟨x, subP (r * subP (u1 * h2) x) (s1 * h3), h * p.z * q.z % p256P⟩

/-- k·P over the lowest `n` bits of k, from the highest. -/
def jMul (p : JPoint) (k : Nat) : Nat → JPoint → JPoint
  | 0, r => r
  | n + 1, r => jMul p k n (if bit k n then jAdd (jDouble r) p else jDouble r)

/-- Whether a pair is a point of the curve. -/
def onCurve (x y : Nat) : Bool :=
  decide (x < p256P) && decide (y < p256P) && y * y % p256P == subP (x * x * x + p256B) (3 * x)

/-- ECDSA verification of `sig` (r then s) over a digest under `q` (x then y): the leftmost 256 bits of the digest count. -/
def ecdsaVerify (digest q sig : List Byte) : Bool :=
  let x := beVal (q.take 32)
  let y := beVal (q.drop 32)
  let r := beVal (sig.take 32)
  let s := beVal (sig.drop 32)
  let e := beVal (digest.take 32)
  if onCurve x y ∧ 1 ≤ r ∧ r < p256N ∧ 1 ≤ s ∧ s < p256N then
    let w := invMod p256N s
    let o : JPoint := ⟨1, 1, 0⟩
    let p := jAdd (jMul ⟨p256G.1, p256G.2, 1⟩ (e * w % p256N) 256 o) (jMul ⟨x, y, 1⟩ (r * w % p256N) 256 o)
    if p.z = 0 then false
    else
      let zi := invMod p256P p.z
      p.x * (zi * zi % p256P) % p256P % p256N == r
  else false

/-! ### CRC-32 (R456) -/

/-- A byte taken into the reflected CRC-32. -/
def crc32Bits : Nat → W32 → W32
  | 0, c => c
  | n + 1, c => crc32Bits n (if c.toNat % 2 = 1 then (c >>> 1) ^^^ 0xEDB88320 else c >>> 1)
def crc32Byte (c : W32) (b : Byte) : W32 := crc32Bits 8 (c ^^^ BitVec.ofNat 32 b.toNat)

/-- The IEEE 802.3 CRC-32 of a string. -/
def crc32 (m : List Byte) : W32 := (m.foldl crc32Byte 0xFFFFFFFF) ^^^ 0xFFFFFFFF

end Sys2Proof.Machine
end

