-- ==== Sys2Proof/Machine/RegPlain.lean ====
section
/-! DEFINITION. A write to a register as its block takes it: what the access codes of its fields store (R8), reserved bits (R103),
and pairs (R104). -/

namespace Sys2Proof.Machine

/-- A write to a register: its address, its row and its indices in an array, the word, the low half taken from the write shadow of a
pair (R104), and who writes. -/
structure RegWrite where
  a : Nat
  t : RegRow
  is : List Nat
  v : W32
  lo : Option W32
  src : Src
  deriving DecidableEq, Repr

/-- The index of a register in its array. -/
def RegWrite.i (q : RegWrite) : Nat := q.is.getD 0 0

/-- The bits of a row with an access code. -/
def accBits (t : RegRow) (acc : Acc) : W32 := BitVec.ofNat 32 (accMask t acc)

/-- What a register holds after a write: RW bits take the word, W1S bits are set, W1C bits are cleared; the others stay (R8). -/
def stored (t : RegRow) (old v : W32) : W32 :=
  ((old &&& ~~~(accBits t .rw)) ||| (v &&& accBits t .rw) ||| (v &&& accBits t .w1s)) &&& ~~~(v &&& accBits t .w1c)

/-- The low register of the pair whose high register is at `a`. -/
def loOf (a : Nat) : Nat := a - 4

/-- Whether a write sets a reserved bit (R103). -/
def setsReserved (t : RegRow) (v : W32) : Bool := (v &&& accBits t .rsv) != 0

/-- The row of a low register (that of the high one when there is none). -/
def loRow (q : RegWrite) : RegRow :=
  match rowOf (loOf q.a) with
  | some (t, _) => t
  | none => q.t

/-- The 64-bit value that a write of a pair gives it. -/
def RegWrite.pairVal (q : RegWrite) (s : State) : Nat :=
  q.v.toNat * 2 ^ 32 + (match q.lo with
    | some l => l.toNat
    | none => (reg s (loOf q.a)).toNat)

/-- A write ignored whole with an error code (R109). -/
def reject (s : State) (q : RegWrite) (code : Nat) : State := capture s (blkOf q.a) code q.a (srcReq s q.src)

/-- The error of a reserved bit (R103). -/
def noteReserved (s : State) (q : RegWrite) : State :=
  if setsReserved q.t q.v || (match q.lo with
    | some l => setsReserved (loRow q) l
    | none => false)
  then capture s (blkOf q.a) 2 q.a (srcReq s q.src) else s

/-- The write stored in the register, or in both registers of a pair. -/
def storeWrite (s : State) (q : RegWrite) : State :=
  let s1 := match q.lo with
    | some l => setReg s (loOf q.a) (stored (loRow q) (reg s (loOf q.a)) l)
    | none => s
  setReg s1 q.a (stored q.t (reg s1 q.a) q.v)

/-- A write of a register whose fields alone say what it does. -/
def plainWrite (s : State) (q : RegWrite) : State := noteReserved (storeWrite s q) q

/-- A write that is refused with `code` unless `code` is 0, and is otherwise stored. -/
def checkedWrite (s : State) (q : RegWrite) (code : Nat) : State := if code = 0 then plainWrite s q else reject s q code

end Sys2Proof.Machine
end

