-- ==== Sys2Proof/Machine/SysRegs.lean ====
section
/-! DEFINITION. The user state of R137 and the system registers of R171 by number, as MFU, MTU, MFS, MTS and the debug unit reach them
(R137, R139, R171, R231, R252, R266, R572). -/

namespace Sys2Proof.Machine

/-! ### User state (R137, R139) -/

/-- CFEAT0–CFEAT3 of core `n` (R139). -/
def cfeat (s : State) (n k : Nat) : Nat :=
  match k with
  | 0 => 0x004848FF
  | 1 => 0x55688000
  | 2 => 0x00102010
  | _ => 36 * 2 ^ 24 + 1 * 2 ^ 20 + quadOf n * 2 ^ 16 + Config.cores s.variant * 2 ^ 8 + n

/-- What user state `u` of the registers `r` of core `n` reads. -/
def userRead (s : State) (n : Nat) (r : CtxRegs) (u : Nat) : Nat :=
  let g := r.sig
  if u = 0 then r.preds.toNat / 2 * 2 + 1
  else if u = 1 then r.rcnt.toNat
  else if 8 ≤ u ∧ u ≤ 11 then (g.mb.getD (u - 8) 0).toNat
  else if 12 ≤ u ∧ u ≤ 15 then (g.ml.getD (u - 12) 0).toNat
  else if u = 16 then g.crcpoly.toNat
  else cfeat s n (u - 32)

/-- The registers with user state `u` written. -/
def userPut (r : CtxRegs) (u x : Nat) : CtxRegs :=
  let g := r.sig
  if u = 0 then { r with preds := BitVec.ofNat 8 (x / 2 * 2 + 1) }
  else if u = 1 then { r with rcnt := BitVec.ofNat 32 x }
  else if 8 ≤ u ∧ u ≤ 11 then { r with sig := { g with mb := putAt 0 g.mb (u - 8) (BitVec.ofNat 64 x) } }
  else if 12 ≤ u ∧ u ≤ 15 then { r with sig := { g with ml := putAt 0 g.ml (u - 12) (BitVec.ofNat 32 x) } }
  else if u = 16 then { r with sig := { g with crcpoly := BitVec.ofNat 64 x } }
  else r

/-! ### System registers (R171, R231, R252, R266) -/

/-- What system register `k` of a core reads, with the registers `r` of a context. -/
def sysRead (c : Core) (r : CtxRegs) (k : Nat) : CapW :=
  match k with
  | 0x00 => intW r.status.toNat
  | 0x01 => intW c.estat.toNat
  | 0x02 => intW c.cause.toNat
  | 0x03 => intW c.fadr.toNat
  | 0x04 => intW c.finfo.toNat
  | 0x05 => intW c.lopc.toNat
  | 0x06 => intW c.lazyptr.toNat
  | 0x07 => intW r.prog.toNat
  | 0x08 => intW r.winctl.toNat
  | 0x09 => intW r.space.toNat
  | 0x10 => c.epc
  | 0x11 => c.kentry
  | 0x18 => c.dfentry
  | 0x19 => c.dfepc
  | 0x1A => intW c.dfstat.toNat
  | 0x1B => intW c.dfcause.toNat
  | _ => nullW

/-- STATUS after an MTS of `x`. -/
def statusMts (st : BitVec 11) (x : Nat) : BitVec 11 :=
  mkStatus (stLAZYP st) (bit x 6) (bit x 5) (stDFL st) (stEXL st) (stRING st) (bit x 0 && !stEXL st)

/-- WINCTL after an MTS of `x` (R231). -/
def winMts (w : W32) (st : BitVec 11) (x : Nat) : W32 :=
  let cur := bits x 2 0
  let occ := if bits x 6 4 = 0 then 1 else bits x 6 4
  mkWin (bits x 31 16) (if stEXL st then winGuard w else (cur + 1) % 8) occ cur

/-- The registers of a context after an MTS of `w` to system register `k`. -/
def sysPutRegs (r : CtxRegs) (k : Nat) (w : CapW) : CtxRegs :=
  let x := capCursor w
  match k with
  | 0x00 => { r with status := statusMts r.status x }
  | 0x07 => { r with prog := BitVec.ofNat 64 x }
  | 0x08 => { r with winctl := winMts r.winctl r.status x }
  | 0x09 => { r with space := BitVec.ofNat 12 x }
  | _ => r

/-- The core's own registers after an MTS of `w` to system register `k`. -/
def sysPutCore (c : Core) (k : Nat) (w : CapW) : Core :=
  let x := capCursor w
  match k with
  | 0x01 => { c with estat := BitVec.ofNat 11 (x % 256) }
  | 0x02 => { c with cause := BitVec.ofNat 20 x }
  | 0x03 => { c with fadr := BitVec.ofNat 64 x }
  | 0x04 => { c with finfo := BitVec.ofNat 64 x }
  | 0x05 => { c with lopc := BitVec.ofNat 64 x }
  | 0x06 => { c with lazyptr := BitVec.ofNat 64 x }
  | 0x10 => { c with epc := w }
  | 0x11 => { c with kentry := w }
  | 0x18 => { c with dfentry := w }
  | 0x19 => { c with dfepc := w }
  | 0x1A => { c with dfstat := BitVec.ofNat 11 (x % 256) }
  | 0x1B => { c with dfcause := BitVec.ofNat 20 x }
  | _ => c

end Sys2Proof.Machine
end

