-- ==== Sys2Proof/Machine/Dbg.lean ====
section
/-! DEFINITION. The debug unit: run control, registers of halted cores, physical memory, the trace registers and the JTAG instruction
(R567–R576). -/

namespace Sys2Proof.Machine

/-- The unlocked debug level (R555, R570). -/
def debugLevel (s : State) : Nat := fget s KEY_DUCTL_LEVEL

/-! ### JTAG instructions (R567) -/

/-- The least level of a listed instruction; others act as BYPASS. -/
def irLevel (ir : Nat) : Option Nat :=
  if ir = 0xFF ∨ ir = 1 ∨ ir = 2 ∨ ir = 0x10 then some 0
  else if ir = 3 ∨ ir = 4 ∨ ir = 5 ∨ ir = 8 ∨ ir = 9 then some 2
  else none

/-- The instruction in force: BYPASS in place of one that is not listed or needs a higher level. -/
def irInForce (s : State) : Nat :=
  match irLevel s.dbg.ir with
  | some l => if l ≤ debugLevel s then s.dbg.ir else 0xFF
  | none => 0xFF

/-- Whether the instruction in force holds the authority line down (R568). -/
def jtagHolds (s : State) : Bool :=
  irInForce s == 3 || irInForce s == 4 || irInForce s == 5 || irInForce s == 8 || irInForce s == 9

/-- IDCODE (R567). -/
def idcode (s : State) : Nat :=
  (Config.stepping 0).toNat % 16 * 2 ^ 28 + (match s.variant with
    | .a16 => 0x9A16
    | .b8 => 0x9B08
    | .c8 => 0x9C08) * 2 ^ 12 + 0x05D * 2 + 1

/-! ### Run control (R571) -/

/-- The cores that a HALTCTL word names. -/
def namedCores (s : State) (v : Nat) : List Nat := (upTo 16).filter (fun n => corePresent s n && bit v n)

/-- A halt asked of a core that is not halted. -/
def askHalt (s : State) (n : Nat) : State := updCore s n (fun c => if c.halted then c else { c with haltReq := true })

/-- A halted core resumes at its PCC; a halt not yet made is withdrawn. -/
def resumeCore (s : State) (n : Nat) : State := updCore s n (fun c => { c with halted := false, haltReq := false, stepping := false })

/-- A halted core resumes for one bundle or one exception entry. -/
def stepCore (s : State) (n : Nat) : State := updCore s n (fun c => if c.halted then { c with halted := false, stepping := true } else c)

/-- A write of HALTCTL. -/
def haltCtl (s : State) (v : Nat) : State :=
  match bits v 31 30 with
  | 1 => (namedCores s v).foldl askHalt s
  | 2 => (namedCores s v).foldl resumeCore s
  | 3 => (namedCores s v).foldl stepCore s
  | _ => s

/-- DBGSTAT. -/
def dbgStat (s : State) : W32 :=
  BitVec.ofNat 32 (debugLevel s * 65536 + (upTo 16).foldl (fun x n => if (core s n).halted then x + 2 ^ n else x) 0)

/-! ### Registers of halted cores (R572) -/

/-- Whether `k` is a system register of R171. -/
def sysNumber (k : Nat) : Bool := decide (k ≤ 9) || k == 0x10 || k == 0x11 || (decide (0x18 ≤ k) && decide (k ≤ 0x1B))

/-- Whether `u` is a user state of R137. -/
def userNumber (u : Nat) : Bool := decide (u ≤ 1) || (decide (8 ≤ u) && decide (u ≤ 16)) || (decide (32 ≤ u) && decide (u ≤ 35))

/-- A register of a bank by its place. -/
def placeGet (c : Core) (r : CtxRegs) (id : RegId) : CapW :=
  match id with
  | .null => nullW
  | .glob i => r.glob.getD i nullW
  | .own i => r.own.getD i nullW
  | .pas i => r.pas.getD i nullW
  | .fb i => c.fbank.getD i nullW

/-- The place that REG names among the ring registers: a window, and OWN or PAS. -/
def ringPlace (k : Nat) : RegId := if k % 16 < 8 then .own (k / 16 * 8 + k % 8) else .pas (k / 16 * 8 + k % 8)

/-- What REG reads: none for a REG not listed. -/
def dhGet (s : State) (n : Nat) (r : CtxRegs) (k : Nat) : Option CapW :=
  if k < 0x20 then some (placeGet (core s n) r (regPlace (stDFL r.status) (winCur r.winctl) k))
  else if 0x40 ≤ k ∧ k < 0xC0 then some (placeGet (core s n) r (ringPlace (k - 0x40)))
  else if 0x100 ≤ k ∧ k < 0x200 ∧ sysNumber (k - 0x100) then some (sysRead (core s n) r (k - 0x100))
  else if k = 0x200 then some r.pcc
  else if 0x300 ≤ k ∧ userNumber (k - 0x300) then some (intW (userRead s n r (k - 0x300)))
  else none

/-- A place of a bank written. -/
def placePut (c : Core) (b : Nat) (id : RegId) (w : CapW) : Core :=
  let upd (f : CtxRegs → CtxRegs) : Core := { c with banks := modAt c.banks b (fun k => { k with regs := f k.regs }) }
  match id with
  | .null => c
  | .glob i => upd (fun r => { r with glob := putAt nullW r.glob i w })
  | .own i => upd (fun r => { r with own := putAt nullW r.own i w })
  | .pas i => upd (fun r => { r with pas := putAt nullW r.pas i w })
  | .fb i => { c with fbank := putAt nullW c.fbank i w }

/-- WINCTL as a whole word `x` spells it: R229's bounds hold whatever is written, OCC being at least 1 and, with EXL clear, GUARD the
window after CUR (R231; that a debug write keeps them too is DESIGN CHOICE, assumption 146). -/
def winForce (x : Nat) (exl : Bool) : W32 :=
  mkWin (bits x 31 16) (if exl then bits x 10 8 else (bits x 2 0 + 1) % 8) (if bits x 6 4 = 0 then 1 else bits x 6 4) (bits x 2 0)

/-- A system register written as a whole, not through the masks of MTS. -/
def sysForce (c : Core) (b k : Nat) (w : CapW) : Core :=
  let x := capCursor w
  let upd (f : CtxRegs → CtxRegs) : Core := { c with banks := modAt c.banks b (fun q => { q with regs := f q.regs }) }
  if k = 0 then upd (fun r => { r with status := BitVec.ofNat 11 (x % 256), winctl := winForce r.winctl.toNat (stEXL (BitVec.ofNat 11 (x % 256))) })
  else if k = 8 then upd (fun r => { r with winctl := winForce x (stEXL r.status) })
  else sysPutCore (upd (fun r => sysPutRegs r k w)) k w

/-- REG written: none for a REG not listed or not writable. -/
def dhPut (c : Core) (b k : Nat) (w : CapW) : Option Core :=
  let r := (bankOf c b).regs
  let upd (f : CtxRegs → CtxRegs) : Core := { c with banks := modAt c.banks b (fun q => { q with regs := f q.regs }) }
  if k < 0x20 then some (placePut c b (regPlace (stDFL r.status) (winCur r.winctl) k) w)
  else if 0x40 ≤ k ∧ k < 0xC0 then some (placePut c b (ringPlace (k - 0x40)) w)
  else if 0x100 ≤ k ∧ k < 0x200 ∧ sysNumber (k - 0x100) then some (sysForce c b (k - 0x100) w)
  else if k = 0x200 then some (upd (fun q => { q with pcc := w }))
  else if 0x300 ≤ k ∧ k < 0x320 ∧ userNumber (k - 0x300) then some (upd (fun q => userPut q (k - 0x300) (capCursor w)))
  else none

/-- The word in four data registers and a tag register; its tag only where R25 lets a word be tagged (`legalTag`). -/
def dataWord (s : State) (f : Nat → Nat) (tag : Fld) : CapW :=
  legalTag ⟨BitVec.ofNat 128 ((upTo 4).foldl (fun x k => x + (reg s (f k)).toNat * 2 ^ (32 * k)) 0), fon s tag⟩

/-- Those registers set. -/
def setDataWord (s : State) (f : Nat → Nat) (tag : Fld) (w : CapW) : State :=
  fset ((upTo 4).foldl (fun st k => setReg st (f k) (BitVec.ofNat 32 (w.bits.toNat / 2 ^ (32 * k)))) s) tag (b2n w.tag)

/-- Whether DHSEL names a halted core and a bank that holds a context. -/
def dhSelected (s : State) : Bool :=
  let n := fget s DBG_DHSEL_CORE
  corePresent s n && (core s n).halted && (bankOf (core s n) (fget s DBG_DHSEL_BANK)).ctx.isSome

/-- A register of a halted core read into DHDATA and DHTAG. -/
def dhRead (s : State) : State :=
  let n := fget s DBG_DHSEL_CORE
  match (if dhSelected s then dhGet s n (bankOf (core s n) (fget s DBG_DHSEL_BANK)).regs (fget s DBG_DHSEL_REG) else none) with
  | some w => fset (setDataWord s DBG_DHDATA DBG_DHTAG_TAG w) DBG_DHCMD_STATUS 0
  | none => fset s DBG_DHCMD_STATUS 10

/-- A register of a halted core written from them, at level 2. -/
def dhWrite (s : State) : State :=
  let n := fget s DBG_DHSEL_CORE
  match (if dhSelected s then dhPut (core s n) (fget s DBG_DHSEL_BANK) (fget s DBG_DHSEL_REG) (dataWord s DBG_DHDATA DBG_DHTAG_TAG) else none) with
  | some c => fset (setCore s n c) DBG_DHCMD_STATUS 0
  | none => fset s DBG_DHCMD_STATUS 10

/-! ### Physical memory (R573) -/

/-- The address in DMADDR. -/
def dmAddr (s : State) : Nat := pair s DBG_DMADDR_LO DBG_DMADDR_HI % 2 ^ 40 / 16 * 16

/-- DBG as a requester. -/
def dbgWho : Requester := { blk := 0x13, core := none, ctx := none }

/-- The physical word read: the state, the word and the status. -/
def dmGet (s : State) (a : Nat) : State × CapW × Nat :=
  if inMem s a then
    match eccRead s a dbgWho false with
    | (s1, w, ue) => (s1, w, if ue then 5 else 0)
  else if inFlash a then
    match flashRead s a 16 dbgWho with
    | (s1, v) => (s1, ⟨BitVec.ofNat 128 v, false⟩, 0)
  else if inRom a then (s, ⟨BitVec.ofNat 128 (leVal ((upTo 16).map (fun i => Config.bootRom (a % 0x10000 + i)))), false⟩, 0)
  else if 0xE0000000 ≤ a ∧ a < 0xE1400000 then
    (if Config.present s.variant (blkOf a) then capture s (blkOf a) 3 a dbgWho else s, nullW, 0)
  else (fabricError s 384 1 a dbgWho, nullW, 0)

/-- DM_READ. -/
def dmRead (s : State) : State :=
  match dmGet s (dmAddr s) with
  | (s1, w, st) => fset (setDataWord s1 DBG_DMDATA DBG_DMTAG_TAG w) DBG_DMCMD_STATUS st

/-- DM_WRITE: the whole word and its tag, through port A in the compute domain. -/
def dmWrite (s : State) : State :=
  let a := dmAddr s
  let w := dataWord s DBG_DMDATA DBG_DMTAG_TAG
  if inMem s a then
    match tileWrite s a (leBytes 16 w.bits.toNat) w.tag dbgWho .compute false with
    | (s1, st) => fset s1 DBG_DMCMD_STATUS (statusCode st)
  else
    let s1 :=
      if inFlash a then fabricError s 384 4 a dbgWho
      else if inRom a then fabricError s 384 3 a dbgWho
      else if 0xE0000000 ≤ a ∧ a < 0xE1400000 then
        if Config.present s.variant (blkOf a) then capture s (blkOf a) 3 a dbgWho else fabricError s 385 6 a dbgWho
      else fabricError s 384 2 a dbgWho
    fset s1 DBG_DMCMD_STATUS 0

/-! ### The page -/

/-- Whether an address of the DBG page answers only to DBGACC (R570). -/
def debugOnly (a : Nat) : Bool := a == DBG_HALTCTL || (decide (DBG_DHSEL ≤ a) && decide (a ≤ DBG_DMTAG))

/-- A record written by software (R574): from the writing core and its context. -/
def trswWrite (s : State) (v : Nat) (src : Src) : State :=
  match src with
  | .core n => traceRec s n 8 v
  | .debug =>
    if running s 0x13 && fon s DBG_TRCFG_EN && accepted s 0x13 1 && bit (fget s DBG_TRFILT_KINDS) 8 && !fon s DBG_TRFILT_CTXEN then traceAppend s (traceWord s 0 0 8 v)
    else s

/-- A read of TRDATAk; that of TRDATA3 advances TRRD (R575). -/
def trdata (s : State) (k : Nat) : State × W32 :=
  let w := mget (fun _ => 0) s.trace (fget s DBG_TRRD_REC)
  (if k = 3 then fset s DBG_TRRD_REC ((fget s DBG_TRRD_REC + 1) % 65536) else s, BitVec.ofNat 32 (w.toNat / 2 ^ (32 * k)))

/-- A command register's operation: 1 read, 2 write (level 2). Feature bit 2 and level 1 are needed; while DBG is not RUNNING the
operation ends with DISABLED in the status `st` (R115). -/
def debugCmd (s : State) (q : RegWrite) (st : Fld) (rd wr : State → State) : State :=
  if !accepted s 0x13 2 || decide (debugLevel s < 1) then s
  else if !running s 0x13 then (if bits q.v.toNat 1 0 = 1 ∨ bits q.v.toNat 1 0 = 2 then fset s st 1 else s)
  else
    match bits q.v.toNat 1 0 with
    | 1 => rd s
    | 2 => if 2 ≤ debugLevel s then wr s else s
    | _ => s

/-- A write of the DBG page. -/
def dbgWrite (s : State) (q : RegWrite) : State :=
  if debugOnly q.a && q.src != .debug then reject s q 0x12
  else if q.a = DBG_HALTCTL then if running s 0x13 && accepted s 0x13 2 && decide (1 ≤ debugLevel s) then noteReserved (haltCtl s q.v.toNat) q else s
  else if q.a = DBG_DHCMD then noteReserved (debugCmd s q DBG_DHCMD_STATUS dhRead dhWrite) q
  else if q.a = DBG_DMCMD then noteReserved (debugCmd s q DBG_DMCMD_STATUS dmRead dmWrite) q
  else if q.a = DBG_TRSW then trswWrite s q.v.toNat q.src
  else plainWrite s q

/-- A read of DEVIDk: bytes of the fused device identifier. -/
def devid (k : Nat) : W32 := BitVec.ofNat 32 (leVal ((upTo 4).map (fun i => Config.deviceId (4 * k + i))))

/-- SOFT_RESET of DBG leaves halted cores halted and clears the trace. -/
def dbgClear (s : State) : State := { s with trace := [] }

end Sys2Proof.Machine
end

