-- ==== Sys2Proof/Machine/KeySlot.lean ====
section
/-! DEFINITION. Key slots as the blocks that hold keys in them use them (R552). -/

namespace Sys2Proof.Machine

/-- The key of slot `n`. Slot 0 is the fused device key. -/
def slotKey (s : State) (n : Nat) : List Byte :=
  if n = 0 then (upTo 32).map Config.deviceKey else mget (fun _ => []) s.key.slots n

/-- The salt and SSCI of slot `n` (R553). -/
def slotSalt (s : State) (n : Nat) : List Byte := mget (fun _ => []) s.key.salts n

/-- Whether slot `n` is usable for the purpose of USE bit `k`: 0 GCM, 1 CMAC, 2 KDF, 3 KW, 4 MACSEC. -/
def slotFor (s : State) (n k : Nat) : Bool :=
  decide (n < 32) && fon s (KEY_SLOTATTR_VALID n) && bit (fget s (KEY_SLOTATTR_USE n)) k

/-- The key of slot `n` for a block that uses it directly: none when the key store refuses. -/
def useSlot (s : State) (n k : Nat) : Option (List Byte) := if running s 0x11 && slotFor s n k then some (slotKey s n) else none

end Sys2Proof.Machine
end

