-- ==== Sys2Proof/Machine/PhaseBase.lean ====
section
/-! DEFINITION. Axes: their position, velocity and states, the updates they receive, and the timeouts armed on them (R316,
R358–R368). -/

namespace Sys2Proof.Machine

/-- What axis `a` has beside its registers. -/
def axisS (s : State) (a : Nat) : AxisS := s.phase.axes.getD a AxisS.empty

/-- That changed by `f`. -/
def updAxis (s : State) (a : Nat) (f : AxisS → AxisS) : State :=
  { s with phase := { s.phase with axes := modAt s.phase.axes a f } }

/-- AXSTAT.STATE (R366): 0 OFF, 1 ACQUIRE, 2 RUN, 3 HOLDOVER, 4 DEAD. -/
def axisState (s : State) (a : Nat) : Nat := fget s (PHASE_AXSTAT_STATE a)

/-- The coordinate with the 16 bits below the fraction unit (R358). -/
def axisPos80 (s : State) (a : Nat) : Nat := axisPos s a * 65536 + (axisS s a).sub

/-- The coordinate set, with its 16 bits below the unit. -/
def setAxisPos80 (s : State) (a : Nat) (p : Nat) : State :=
  updAxis (setPair s (PHASE_AXPOS_LO a) (PHASE_AXPOS_HI a) (p / 65536)) a (fun x => { x with sub := p % 65536 })

/-- The velocity in units of 2^−16 fraction units per tick (R359). -/
def axisVel (s : State) (a : Nat) : Int := signed 48 ((reg s (PHASE_AXVEL a)).toNat * 65536 + fget s (PHASE_AXVELX_VELX a))

/-- A velocity saturated at the ends of VEL (R364). -/
def satVel (v : Int) : Int := max (-(2 ^ 47 : Nat)) (min v ((2 ^ 31 - 1) * 65536 : Nat))

/-- The velocity set. -/
def setAxisVel (s : State) (a : Nat) (v : Int) : State :=
  setReg (setReg s (PHASE_AXVEL a) (BitVec.ofInt 32 (v / 65536))) (PHASE_AXVELX a) (BitVec.ofNat 32 (v % 65536).toNat)

/-- A velocity in axis cycles per second (R394): velocity × 200 × 10^6 / 2^32, as an exact ratio over 2^48. -/
def axisRate (s : State) (a : Nat) : Int × Nat := (axisVel s a * 200000000, 2 ^ 48)

/-- Whether an axis is enabled. -/
def axisOn (s : State) (a : Nat) : Bool := fon s (PHASE_AXCTL_EN a)

/-- A sticky flag of AXSTAT set, a count of AXCNT raised, and event 448 + a raised (R367). -/
def noteAxis (s : State) (a : Nat) (flag : Fld) (cnt : Option Fld) : State :=
  let s1 := fset s flag 1
  let s2 := match cnt with
    | some f => fcount s1 f 1
    | none => s1
  raise s2 7 a

/-! ### Timeouts (R316) -/

/-- The contexts with a timeout armed on axis `a`. -/
def timeoutsOn (s : State) (a : Nat) : List Nat :=
  (s.recs.filterMap (fun p => if p.1 % 64 = 48 then some (p.1 / 64) else none)).filter
    (fun n => recBits s n 0x300 36 36 == 1 && recBits s n 0x300 35 32 == a)

/-- Timeouts of the contexts listed fire with REASON bit `4 + r`. -/
def fireTimeouts (r : Nat) : List Nat → State → State
  | [], s => s
  | n :: ns, s => fireTimeouts r ns (wake (setRecBits s n 0x300 36 36 0) n r)

/-- The timeouts that axis `a` has reached. -/
def reachTimeouts (s : State) (a : Nat) : State :=
  fireTimeouts 2 ((timeoutsOn s a).filter (fun n => decide (recBits s n 0x308 63 0 ≤ axisPos s a))) s

/-- The timeouts armed on an axis that has become DEAD or is disabled. -/
def loseTimeouts (s : State) (a : Nat) : State := fireTimeouts 3 (timeoutsOn s a) s

/-! ### Axis states (R367) -/

/-- An axis enters OFF. -/
def axisToOff (s : State) (a : Nat) : State :=
  if axisState s a = 0 then s
  else
    loseTimeouts (fset (fset (updAxis s a (fun x => { x with dead := none, seen := 0, lock := 0, cross := none, loss := 0, hold := 0, upds := [] }))
      (PHASE_AXSTAT_STATE a) 0) (PHASE_AXSTAT_HOLDT a) 0) a

/-- An axis enters ACQUIRE. -/
def axisToAcquire (s : State) (a : Nat) : State :=
  fset (updAxis s a (fun x => { x with seen := 0, lock := 0, cross := none })) (PHASE_AXSTAT_STATE a) 1

/-- An axis enters RUN: its flag and event, and the time without an update starts anew. -/
def axisToRun (s : State) (a : Nat) : State :=
  noteAxis (fset (fset (updAxis s a (fun x => { x with dead := none, loss := 0, hold := 0 })) (PHASE_AXSTAT_STATE a) 2)
    (PHASE_AXSTAT_HOLDT a) 0) a (PHASE_AXSTAT_LOCK a) none

/-- An axis enters HOLDOVER. -/
def axisToHoldover (s : State) (a : Nat) : State :=
  noteAxis (fset (updAxis s a (fun x => { x with hold := 0 })) (PHASE_AXSTAT_STATE a) 3) a (PHASE_AXSTAT_LOSS a)
    (some (PHASE_AXCNT_LOSSN a))

/-- An axis enters DEAD: event 464 + a, and the coordinate is kept for R368. -/
def axisToDead (s : State) (a : Nat) : State :=
  let s1 := updAxis s a (fun x => { x with hold := 0, dead := some (BitVec.ofNat 64 (axisPos s a)) })
  let s2 := fcount (fset (fset (fset s1 (PHASE_AXSTAT_STATE a) 4) (PHASE_AXSTAT_HOLDT a) 0) (PHASE_AXSTAT_DEADF a) 1) (PHASE_AXCNT_DEADN a) 1
  loseTimeouts (raise s2 7 (16 + a)) a

/-- A JUMP noted (R367, R368). -/
def noteJump (s : State) (a : Nat) : State := noteAxis s a (PHASE_AXSTAT_JUMP a) (some (PHASE_AXCNT_JUMPN a))

/-- An axis enabled while PHASE is RUNNING enters ACQUIRE; a disabled one is OFF. -/
def axisEnable (s : State) (a : Nat) : State :=
  if a = 0 then s
  else if axisOn s a && running s 7 then (if axisState s a = 0 then axisToAcquire s a else s)
  else axisToOff s a

/-- Every axis but 0 brought to the state that its EN and the engine's STATE give: OFF is shown by an axis that is disabled or whose
block is not RUNNING (R366), so an axis with EN = 1 enters ACQUIRE as PHASE enters RUNNING (DEDUCED). -/
def axesEnable (s : State) : State := (upTo 15).foldl (fun st k => axisEnable st (k + 1)) s

/-! ### Updates (R361, R364) -/

/-- An update delivered to axis `a`, if it is enabled. -/
def deliverUpd (s : State) (a : Nat) (u : AxUpd) : State :=
  if axisState s a = 0 then s else updAxis s a (fun x => { x with upds := x.upds ++ [u] })

/-- A fraction delivered for tick `t` to every axis that has source `src` with selection `sel`. -/
def deliverFrac (src sel t f : Nat) : List Nat → State → State
  | [], s => s
  | a :: r, s =>
    deliverFrac src sel t f r
      (if fget s (PHASE_AXCTL_SRC a) = src ∧ fget s (PHASE_AXCTL_SEL a) = sel then deliverUpd s a { tick := t, frac := true, pos := f } else s)

/-- The mains update of a rising zero crossing on channel `ch` at tick `t` (R364, R428). -/
def mainsUpdate (s : State) (ch t : Nat) : State :=
  if fget s (PHASE_AXCTL_SEL 2) % 16 = ch then deliverUpd s 2 { tick := t, frac := true, pos := 0 } else s

/-- The update that an estimator cell sends (R399). -/
def estimatorUpdate (s : State) (cell t f : Nat) : State := deliverFrac 5 cell t f ((upTo 13).map (fun k => k + 3)) s

/-- The coordinate, with its sub-unit bits, that axis `a` held at tick `t`. -/
def segAt (t : Nat) : List AxSeg → Option Int
  | [] => none
  | g :: r => if g.tick ≤ t then some ((g.pos : Int) + ((t : Int) - g.tick) * g.vel) else
      match r with
      | [] => some ((g.pos : Int) + ((t : Int) - g.tick) * g.vel)
      | _ => segAt t r

/-- The coordinate of axis 0 at phase tick `n`, with the 16 bits below its unit (R358, R362). -/
def axis0At (n : Nat) : Nat := n * 2 ^ 48 / 200000000 % 2 ^ 80

/-- The coordinate that axis `a` held at tick `t`. -/
def axisAt (s : State) (a t : Nat) : Nat :=
  if s.tick ≤ t then axisPos s a
  else if a = 0 then axis0At t / 65536
  else
    match segAt t (axisS s a).segs with
    | some p => (p % (2 ^ 80 : Nat)).toNat / 65536
    | none => axisPos s a

/-- The history with what stands from tick `t` on, what is older than any update or field-link frame can be dropped (R364,
R427, R451). -/
def segPut (t p : Nat) (v : Int) (l : List AxSeg) : List AxSeg :=
  let l1 := match l with
    | g :: r => if ((g.pos : Int) + ((t : Int) - g.tick) * g.vel) % (2 ^ 80 : Nat) = p ∧ g.vel = v then g :: r else { tick := t, pos := p, vel := v } :: g :: r
    | [] => [{ tick := t, pos := p, vel := v }]
  l1.take ((l1.takeWhile (fun g => decide (t < g.tick + 2 ^ 19))).length + 1)

/-- The value field of MRESn (R427). -/
def MEAS_MRES_VALUE (n : Nat) : Fld := ⟨MEAS_MRES n, 23, 0⟩

/-- A coordinate's difference as a signed 64-bit number (R358). -/
def sdiff (x y : Nat) : Int := signed 64 (x % 2 ^ 64 + 2 ^ 64 - y % 2 ^ 64)

end Sys2Proof.Machine
end

