-- ==== Sys2Proof/Machine/Loop.lean ====
section
/-! DEFINITION. The loop engine: step requests, the step of a cell, its fallback and delivery, gain scheduling, the relay tuner
and the gain commit (R387–R419). -/

namespace Sys2Proof.Machine

/-! ### binary32 helpers -/

/-- A ratio of integers as binary32. -/
def f32Q (i : Int) (d : Nat) : W32 := f32OfRat false (i * (2 ^ 149 : Nat)) d

/-- clamp(v, lo, hi) = max(lo, min(v, hi)) (R388), with the NaN rules of R181. -/
def f32Clamp (v lo hi : W32) : W32 := f32Max lo (f32Min v hi)

/-- x·y + z with two roundings. -/
def f32MulAdd (x y z : W32) : W32 := f32Add (f32Mul x y) z

/-- The nearest integer of a finite number, halves to even. -/
def f32RoundInt (x : W32) : Int :=
  let m : Int := divRne (f32Mag x) (2 ^ 149)
  if f32Neg x then -m else m

/-- The fraction of a finite number in [0, 1); what rounds up to 1 is 0. -/
def f32Frac (x : W32) : W32 :=
  let r := f32OfRat false (f32Val x % (2 ^ 149 : Nat)) 1
  if r = 0x3F800000 then 0 else r

/-- π as binary32, and 2π. -/
def f32Pi : W32 := 0x40490FDB
def f32TwoPi : W32 := 0x40C90FDB

/-- 2π in units of 2^−60. -/
def twoPiFix : Int := 7244019458077122842

/-- The Taylor series of the sine from term `k` on, in units of 2^−60: `x2` is the square of the angle, `t` the term. -/
def sinSeries (x2 : Int) : Nat → Nat → Int → Int
  | 0, _, _ => 0
  | f + 1, k, t => t + sinSeries x2 f (k + 1) (-(t * x2 / (2 ^ 60 : Nat)) / ((2 * k + 2) * (2 * k + 3) : Nat))

/-- The sine of `r / 2^40` of a cycle for r ≤ 2^38, in units of 2^−60. -/
def sinQuarter (r : Nat) : Int :=
  let x := (r : Int) * twoPiFix / (2 ^ 40 : Nat)
  sinSeries (x * x / (2 ^ 60 : Nat)) 14 0 x

/-- The sine of `n / 2^40` of a cycle, in units of 2^−60. -/
def sinFix (n : Nat) : Int :=
  let r := n % 2 ^ 38
  match n / 2 ^ 38 % 4 with
  | 0 => sinQuarter r
  | 1 => sinQuarter (2 ^ 38 - r)
  | 2 => -sinQuarter r
  | _ => -sinQuarter (2 ^ 38 - r)

/-- The angle of a finite THETA within its cycle, in units of 2^−40 of a cycle, with an error below 2^−20 of a cycle (R399). -/
def thetaUnits (th : W32) : Nat :=
  let n := (f32Val th * (2 ^ 40 : Nat) / (2 ^ 149 : Nat) % (2 ^ 40 : Nat)).toNat
  (n + 2 ^ 40 + Config.trigError n % (2 ^ 21 - 1) - (2 ^ 20 - 1)) % 2 ^ 40

/-- sin 2πθ of a quarter-turn offset, accurate to 2^−20 of a cycle; of a NaN or an infinity it is NaN (R181, R399). -/
def f32Turn (quarters : Nat) (th : W32) : W32 :=
  if f32Finite th then f32Q (sinFix (thetaUnits th + quarters * 2 ^ 38)) (2 ^ 60) else f32NaN

/-- sin 2πθ and cos 2πθ. -/
def f32SinTurn (th : W32) : W32 := f32Turn 0 th
def f32CosTurn (th : W32) : W32 := f32Turn 1 th

/-! ### Cells -/

/-- The address of the word at offset `o` of the block of cell `c`. -/
def cellA (c o : Nat) : Nat := 0xE0820000 + 0x100 * c + o

/-- That word, and that word set. -/
def cw (s : State) (c o : Nat) : W32 := reg s (cellA c o)
def setCw (s : State) (c o : Nat) (v : W32) : State := setReg s (cellA c o) v

/-- TYPE (R387), and NSUB. -/
def cellType (s : State) (c : Nat) : Nat := fget s (LOOP_CCTL_TYPE c)
def cellSub (s : State) (c : Nat) : Nat := fget s (LOOP_CCTL_NSUB c)

/-- Event `512 + k` with LASTEV (R418). -/
def loopEvent (s : State) (k c : Nat) : State := raise (fset (fset s LOOP_LASTEV_K k) LOOP_LASTEV_CELL c) 8 k

/-- The loop engine as a requester. -/
def loopWho : Requester := blkReq 8 none

/-- PEND brought up to date, with event 523 when the number of pending cells has risen to PENDTHR (R391). -/
def notePending (s : State) (c : Nat) (rose : Bool) : State :=
  let n := s.loop.reqs.length
  let s1 := fset (fset s LOOP_PEND_PENDNOW n) LOOP_PEND_PENDMAX (max n (fget s LOOP_PEND_PENDMAX))
  if rose && fget s1 LOOP_LOOP_CFG_PENDTHR != 0 && n == fget s1 LOOP_LOOP_CFG_PENDTHR then loopEvent s1 11 c else s1

/-- A step request of a cell made pending, merged or refused (R389, R390); a chained one goes to the front (R403). -/
def stepRequest (s : State) (r : LoopReq) (front : Bool) : State × Status :=
  if Config.cells s.variant ≤ r.cell then (s, .absent)
  else if !running s 8 || !fon s (LOOP_CCTL_EN r.cell) then (s, .disabled)
  else if s.loop.reqs.any (fun q => q.cell == r.cell) then
    let l := s.loop.reqs.map (fun q => if q.cell = r.cell then { q with late := q.late || r.late, pred := q.pred || r.pred } else q)
    (loopEvent (fset (countUp { s with loop := { s.loop with reqs := l } } LOOP_MERGE_CNT) (LOOP_CSTAT_OVR r.cell) 1) 2 r.cell, .ok)
  else
    (notePending { s with loop := { s.loop with reqs := if front then r :: s.loop.reqs else s.loop.reqs ++ [r] } } r.cell true, .ok)

/-! ### Inputs (R394) -/

/-- An input of a step: whether it is bound, its value and whether it is valid. -/
structure CellIn where
  bound : Bool
  x : W32
  valid : Bool
  deriving DecidableEq, Repr

/-- A raw value scaled: raw·SCALE + OFS. -/
def scaled (s : State) (c n : Nat) (raw : W32) : W32 := f32MulAdd raw (reg s (LOOP_SCALE c n)) (reg s (LOOP_OFS c n))

/-- Input `n` of cell `c`; a memory word is read through port B. -/
def cellInput (s : State) (c n : Nat) : State × CellIn :=
  let src := fget s (LOOP_INB_SRC c n)
  match fget s (LOOP_INB_KIND c n) with
  | 1 =>
    let ch := src % 16
    let age := fget s (LOOP_INAGE_MAXAGE c)
    let t := pair s (MEAS_MTICK_LO ch) (MEAS_MTICK_HI ch)
    (s, { bound := true, x := scaled s c n (f32OfInt (signed 24 (fget s (MEAS_MRES_VALUE ch)))),
          valid := fon s (MEAS_MRES_VALID ch) && (age == 0 || decide (s.tick ≤ t + age * 1024)) })
  | 2 => (s, { bound := true, x := scaled s c n (cw s src 0x3C), valid := fon s (LOOP_CCTL_EN src) && fon s (LOOP_CSTAT_VALID src) })
  | 3 =>
    match portBReadWord s (fget s (LOOP_MINADDR_ADDR c) * 16) loopWho with
    | (s1, w, st) =>
      let v := BitVec.ofNat 32 (w.bits.toNat / 2 ^ (32 * (src % 4)))
      (s1, { bound := true, x := scaled s c n v, valid := decide (st = .ok) && f32Finite v })
  | 4 =>
    let a := src % 16
    let q := axisRate s a
    (s, { bound := true, x := scaled s c n (f32Q q.1 q.2), valid := axisValid s a })
  | 5 => (s, { bound := true, x := reg s (LOOP_OFS c n), valid := true })
  | _ => (s, { bound := false, x := 0, valid := true })

/-- IN0–IN3 read in turn. -/
def cellInputs (c : Nat) : List Nat → State → State × List CellIn
  | [], s => (s, [])
  | n :: ns, s =>
    match cellInput s c n with
    | (s1, i) =>
      match cellInputs c ns s1 with
      | (s2, l) => (s2, i :: l)

/-- Input `n` of a list. -/
def inAt (l : List CellIn) (n : Nat) : CellIn := l.getD n { bound := false, x := 0, valid := true }

/-- BADIN of a list of inputs. -/
def badIn (l : List CellIn) : Nat := l.zipIdx.foldl (fun m p => if p.1.valid then m else m + 2 ^ p.2) 0

/-! ### Gain scheduling (R409) -/

/-- Point `i` of table `t`: word `k` (V, KP, KI, KD, KT). -/
def schedWord (s : State) (t i k : Nat) : W32 := reg s (LOOP_SCHTAB t (5 * i + k))

/-- Whether the V_i rise strictly. -/
def schedRising (s : State) (t : Nat) : Bool := (upTo 7).all (fun i => f32Lt (schedWord s t i 0) (schedWord s t (i + 1) 0))

/-- Gain `k` at velocity `v`: at an end of the table, or interpolated between the points that bracket it. -/
def schedGain (s : State) (t k : Nat) (v : W32) : W32 :=
  if f32Le v (schedWord s t 0 0) then schedWord s t 0 k
  else if f32Le (schedWord s t 7 0) v then schedWord s t 7 k
  else
    match (upTo 7).find? (fun i => f32Lt v (schedWord s t (i + 1) 0)) with
    | some i =>
      let v0 := schedWord s t i 0
      let g0 := schedWord s t i k
      f32Add g0 (f32Div (f32Mul (f32Sub (schedWord s t (i + 1) k) g0) (f32Sub v v0)) (f32Sub (schedWord s t (i + 1) 0) v0))
    | none => schedWord s t 7 k

/-- The gains of a PID cell set from its schedule. -/
def schedule (s : State) (c : Nat) : State :=
  let a := fget s (LOOP_SCHD_AXIS c)
  let t := fget s (LOOP_SCHD_TABLE c)
  let s1 := fset s (LOOP_CSTAT_SCHERR c) (b2n (!schedRising s t))
  if axisValid s a && schedRising s t && accepted s 8 4 then
    let q := axisRate s a
    let v := f32Q q.1 q.2
    setCw (setCw (setCw (setCw s1 c 0x80 (schedGain s t 1 v)) c 0x84 (schedGain s t 2 v)) c 0x88 (schedGain s t 3 v)) c 0x8C
      (schedGain s t 4 v)
  else s1

/-! ### The kinds (R395–R399) -/

/-- The sign of a PID cell's action applied: s·x with s = −1 for OPT = 1, a product of binary32 numbers (R388, R395). -/
def pidSign (s : State) (c : Nat) (x : W32) : W32 := f32Mul (if fon s (LOOP_CCTL_OPT c) then 0xBF800000 else 0x3F800000) x

/-- A result clamped to [UMIN, UMAX]. -/
def uClamp (s : State) (c : Nat) (v : W32) : W32 := f32Clamp v (cw s c 0x68) (cw s c 0x6C)

/-- e of R395. -/
def pidError (s : State) (c : Nat) (l : List CellIn) : W32 := pidSign s c (f32Sub (inAt l 1).x (inAt l 0).x)

/-- PID (R395). -/
def pidStep (s : State) (c : Nat) (l : List CellIn) : State × W32 :=
  let y := (inAt l 0).x
  let r := (inAt l 1).x
  let e := pidError s c l
  let ep := pidSign s c (f32Sub (f32Mul (cw s c 0x90) r) y)
  let ed := pidSign s c (f32Sub (f32Mul (cw s c 0x94) r) y)
  let edprev := if mget (fun _ => false) s.loop.normal c then cw s c 0xC8 else ed
  let p := f32Mul (cw s c 0x80) ep
  let df := cw s c 0x98
  let d := f32Add (f32Mul df (cw s c 0xC4)) (f32Mul (f32Mul (f32Sub 0x3F800000 df) (cw s c 0x88)) (f32Sub ed edprev))
  let i := cw s c 0xC0
  let v := f32Add (f32Add (f32Add p i) d) (inAt l 2).x
  let u := uClamp s c v
  let w := if (inAt l 3).bound then (inAt l 3).x else u
  let i2 := uClamp s c (f32Add (f32Add i (f32Mul (cw s c 0x84) e)) (f32Mul (cw s c 0x8C) (f32Sub w v)))
  (setCw (setCw (setCw s c 0xC4 d) c 0xC8 ed) c 0xC0 i2, u)

/-- Biquad sections from `k` on (R396): the value after the last section. -/
def biquad (c : Nat) : Nat → Nat → W32 → State → State × W32
  | 0, _, z, s => (s, z)
  | n + 1, k, z, s =>
    let o := 0x80 + 0x1C * k
    let z2 := f32MulAdd (cw s c o) z (cw s c (o + 0x14))
    let s1 := f32Add (f32Sub (f32Mul (cw s c (o + 4)) z) (f32Mul (cw s c (o + 0xC)) z2)) (cw s c (o + 0x18))
    let s2 := f32Sub (f32Mul (cw s c (o + 8)) z) (f32Mul (cw s c (o + 0x10)) z2)
    biquad c n (k + 1) z2 (setCw (setCw s c (o + 0x14) s1) c (o + 0x18) s2)

/-- A sum of products, from the first on. -/
def f32Dot : List (W32 × W32) → W32
  | [] => 0
  | [p] => f32Mul p.1 p.2
  | p :: r => r.foldl (fun a q => f32Add a (f32Mul q.1 q.2)) (f32Mul p.1 p.2)

/-- State-space (R396): the output, and every state advanced together. -/
def stateSpace (s : State) (c n : Nat) (x : W32) : State × W32 :=
  let xs := (upTo n).map (fun j => cw s c (0xF0 + 4 * j))
  let u := f32Dot ((upTo n).map (fun j => (cw s c (0xD0 + 4 * j), xs.getD j 0)) ++ [(cw s c 0xE0, x)])
  let nx := (upTo n).map (fun i =>
    f32Dot ((upTo n).map (fun j => (cw s c (0x80 + 4 * (4 * i + j)), xs.getD j 0)) ++ [(cw s c (0xC0 + 4 * i), x)]))
  (nx.zipIdx.foldl (fun st p => setCw st c (0xF0 + 4 * p.2) p.1) s, u)

/-- Whether a selector prefers `x` to `v`: it is larger or smaller, or a number where `v` is a NaN (R181). -/
def selBetter (big : Bool) (x v : W32) : Bool :=
  (f32IsNaN v && !f32IsNaN x) || (if big then f32Lt v x else f32Lt x v)

/-- The bound input that a selector passes: the smallest, or the largest with OPT = 1, a tie going to the lowest (R396). -/
def selPick (big : Bool) : List (CellIn × Nat) → Option (W32 × Nat) → Option (W32 × Nat)
  | [], b => b
  | p :: r, b =>
    selPick big r
      (if p.1.bound then
        match b with
        | none => some (p.1.x, p.2)
        | some (v, n) => if selBetter big p.1.x v then some (p.1.x, p.2) else some (v, n)
      else b)

/-- What an estimator step gives (R399): the state, u, and the fraction it sends to its axes. -/
def estimate (s : State) (c : Nat) (l : List CellIn) : State × W32 × Option Nat :=
  let al := (inAt l 0).x
  let be := (inAt l 1).x
  let th := cw s c 0xC0
  let om := cw s c 0xC4
  let m := f32Sqrt (f32Add (f32Mul al al) (f32Mul be be))
  if f32Lt m (cw s c 0x88) then (s, om, none)
  else
    let ep := f32Div (f32Sub (f32Mul be (f32CosTurn th)) (f32Mul al (f32SinTurn th))) (f32Mul f32TwoPi m)
    let om2 := f32Add om (f32Mul (cw s c 0x84) ep)
    let sum := f32Add (f32Add th om2) (f32Mul (cw s c 0x80) ep)
    let th2 := if f32Finite sum then f32Frac sum else f32NaN
    (setCw (setCw s c 0xC4 om2) c 0xC0 th2, om2, if f32Finite th2 then some (f32Mag th2 * 2 ^ 32 / 2 ^ 149) else none)

/-- What a kind computes: the state with the cell's own state words updated, u, and an estimator's fraction. -/
def computeKind (s : State) (c : Nat) (l : List CellIn) : State × W32 × Option Nat :=
  let x := (inAt l 0).x
  let up := cw s c 0x3C
  match cellType s c with
  | 0 => match pidStep s c l with | (s1, u) => (s1, u, none)
  | 1 =>
    let u := f32Sub (f32Add (f32Mul (cw s c 0x80) x) (f32Mul (cw s c 0x84) (cw s c 0xC0))) (f32Mul (cw s c 0x88) up)
    (setCw s c 0xC0 x, uClamp s c u, none)
  | 2 => match biquad c (cellSub s c + 1) 0 x s with | (s1, z) => (s1, uClamp s c z, none)
  | 3 => match stateSpace s c (cellSub s c + 1) x with | (s1, u) => (s1, uClamp s c u, none)
  | 4 => (s, uClamp s c (f32Add up (f32Clamp (f32Sub x up) (f32Negate (cw s c 0x84)) (cw s c 0x80))), none)
  | 5 =>
    match selPick (fon s (LOOP_CCTL_OPT c)) l.zipIdx none with
    | some (v, n) => (fset s (LOOP_CSTAT_SELIDX c) n, uClamp s c v, none)
    | none => (takeFree s, uClamp s c (Config.word s.free), none)
  | 6 => estimate s c l
  | _ => (takeFree s, Config.word s.free, none)

/-- The offsets of the state words of a TYPE (R397). -/
def stateWords (ty : Nat) : List Nat :=
  match ty with
  | 0 => [0xC0, 0xC4, 0xC8]
  | 1 => [0xC0]
  | 2 => (upTo 4).flatMap (fun k => [0x94 + 0x1C * k, 0x98 + 0x1C * k])
  | 3 => [0xF0, 0xF4, 0xF8, 0xFC]
  | 6 => [0xC0, 0xC4]
  | _ => []

/-! ### Relay tuning (R410–R413) -/

/-- STATE and CODE of TUNE_STAT set. -/
def tuneStat (s : State) (st code : Nat) : State := fset (fset s LOOP_TUNE_STAT_STATE st) LOOP_TUNE_STAT_CODE code

/-- The experiment ends: START and TUNING read 0, the cell takes I ← U0, and its next normal step is its first (R395). -/
def tuneEnd (s : State) (t : TuneS) : State :=
  let s1 := fset (fset { s with loop := { s.loop with tune := none, normal := mput (fun _ => false) s.loop.normal t.cell false } }
    LOOP_TUNE_CTL_START 0) (LOOP_CSTAT_TUNING t.cell) 0
  setCw s1 t.cell 0xC0 t.u0

/-- The experiment is aborted with a CODE (R413). -/
def tuneAbort (s : State) (code : Nat) : State :=
  match s.loop.tune with
  | some t => loopEvent (tuneStat (tuneEnd s t) 4 code) 5 t.cell
  | none => s

/-- The gains of a rule (R411): Kp, KI, KD and KT. -/
def tuneGains (rule : Nat) (ku nu : W32) : W32 × W32 × W32 × W32 :=
  let kp := match rule with
    | 0 => f32Mul (f32Q 45 100) ku
    | 1 => f32Mul (f32Q 6 10) ku
    | 2 => f32Div ku (f32Q 32 10)
    | _ => f32Div ku (f32Q 22 10)
  let ti := match rule with
    | 0 => f32Div nu (f32Q 12 10)
    | 1 => f32Div nu (f32Q 2 1)
    | _ => f32Mul (f32Q 22 10) nu
  let td := match rule with
    | 1 => f32Div nu (f32Q 8 1)
    | 3 => f32Div nu (f32Q 63 10)
    | _ => 0
  (kp, f32Div kp ti, f32Mul kp td, f32Div 0x3F800000 ti)

/-- Whether an input invalid, lost authority, y outside its band, too many steps or a relay that does not reach the plant aborts
the experiment at this step (R413). -/
def tuneFault (s : State) (t : TuneS) (l : List CellIn) : Option Nat :=
  let y := (inAt l 0).x
  if (inAt l 0).valid && !(f32Le (reg s LOOP_TUNE_YMIN) y && f32Le y (reg s LOOP_TUNE_YMAX)) then some 1
  else if l.any (fun i => !i.valid) then some 2
  else if fon s (LOOP_CCTL_AGATE t.cell) && !authority s then some 3
  else if fget s LOOP_TUNE_CYC_MAXSTEP ≤ t.steps then some 4
  else if (inAt l 3).bound && (inAt l 3).x != cw s t.cell 0x3C then some 6
  else none

/-- Measurement ends (R411, R412). -/
def tuneFinish (s : State) (t : TuneS) : State :=
  let n : Nat := max 1 (fget s LOOP_TUNE_CYC_NCYC)
  let nu := f32Q t.lenSum n
  let a := f32Div t.ampSum (f32OfInt n)
  let h := reg s LOOP_TUNE_H
  let ku := f32Div (f32Mul (f32OfInt 4) (reg s LOOP_TUNE_D)) (f32Mul f32Pi (f32Sqrt (f32Sub (f32Mul a a) (f32Mul h h))))
  match tuneGains (fget s LOOP_TUNE_CTL_RULE) ku nu with
  | (kp, ki, kd, kt) =>
    let s1 := setReg (setReg (setReg s LOOP_TUNE_NU nu) LOOP_TUNE_A a) LOOP_TUNE_KU ku
    let s2 := setReg (setReg (setReg (setReg s1 LOOP_TUNE_KP kp) LOOP_TUNE_KI ki) LOOP_TUNE_KD kd) LOOP_TUNE_KT kt
    let ok := f32Le (reg s LOOP_KPMIN) kp && f32Le kp (reg s LOOP_KPMAX) && f32Le (reg s LOOP_KIMIN) ki &&
      f32Le ki (reg s LOOP_KIMAX) && f32Le kd (reg s LOOP_KDMAX)
    let auto := fon s LOOP_TUNE_CTL_AUTO
    let s3 := if auto && ok then setCw (setCw (setCw (setCw s2 t.cell 0x80 kp) t.cell 0x84 ki) t.cell 0x88 kd) t.cell 0x8C kt else s2
    let s4 := setCw (tuneEnd (tuneStat s3 3 (if auto && !ok then 8 else 0)) t) t.cell 0xC4 0
    let s5 := loopEvent s4 4 t.cell
    if auto && !ok then loopEvent s5 6 t.cell else s5

/-- A relay step (R410, R411): the experiment advanced, and u, or none where the end of the measurement aborts it (R413). A switch from
low to high ends a cycle and starts the next. -/
def relayStep (s : State) (t : TuneS) (l : List CellIn) : State × Option W32 :=
  let c := t.cell
  let y := (inAt l 0).x
  let e := pidError s c l
  let h := reg s LOOP_TUNE_H
  let high := match t.high with
    | none => f32Le 0 e
    | some b => if f32Lt h e then true else if f32Lt e (f32Negate h) then false else b
  let d := reg s LOOP_TUNE_D
  let u := uClamp s c (if high then f32Add t.u0 d else f32Sub t.u0 d)
  let rises := t.high == some false && high
  let nset := fget s LOOP_TUNE_CYC_NSET
  let ends := rises && t.inCycle
  let meas := ends && decide (nset ≤ t.cycles)
  let t1 : TuneS :=
    { t with
      high := some high
      cycles := if ends then t.cycles + 1 else t.cycles
      inCycle := t.inCycle || rises
      len := if rises then 1 else t.len + 1
      ymin := if rises then y else f32Min t.ymin y
      ymax := if rises then y else f32Max t.ymax y
      lenSum := if meas then t.lenSum + t.len else t.lenSum
      ampSum := if meas then f32Add t.ampSum (f32Div (f32Sub t.ymax t.ymin) (f32OfInt 2)) else t.ampSum }
  let s1 := fset { s with loop := { s.loop with tune := some t1 } } LOOP_TUNE_STAT_CYC t1.cycles
  let s2 := if rises && nset ≤ t1.cycles then tuneStat s1 2 0 else s1
  if ends && decide (nset + max 1 (fget s LOOP_TUNE_CYC_NCYC) ≤ t1.cycles) then
    if f32Le (f32Div t1.ampSum (f32OfInt (max 1 (fget s LOOP_TUNE_CYC_NCYC) : Nat))) h then (tuneAbort s2 5, none) else (tuneFinish s2 t1, some u)
  else (s2, some u)

/-! ### Delivery (R400–R402) -/

/-- A command sent to the field die (R392, R401): DISABLED when the measurement front end is not RUNNING. -/
def fieldCommand (s : State) (kind idx code : Nat) : State × Status :=
  if running s 9 then ({ s with meas := { s.meas with outs := s.meas.outs ++ [{ kind := kind, idx := idx, code := code }] } }, .ok)
  else (s, .disabled)

/-- A value as a 16-bit code: clamp(round(OSCALE·u + OOFS), 0, 65535); what a NaN gives is free. -/
def outCode (s : State) (c : Nat) (u : W32) : State × Nat :=
  let v := f32MulAdd (cw s c 0x60) u (cw s c 0x64)
  if f32IsNaN v then (takeFree s, (Config.word s.free).toNat % 65536)
  else if f32IsInf v then (s, if f32Neg v then 0 else 65535)
  else (s, (max 0 (min (f32RoundInt v) 65535)).toNat)

/-- u delivered by OUTB: the state and the status code, none for KIND none. -/
def deliverU (s : State) (c : Nat) (u : W32) : State × Option Nat :=
  let idx := fget s (LOOP_OUTB_IDX c)
  match fget s (LOOP_OUTB_KIND c) with
  | 1 => match outCode s c u with | (s1, k) => match fieldCommand s1 1 idx k with | (s2, st) => (s2, some (statusCode st))
  | 2 => match outCode s c u with | (s1, k) => match fieldCommand s1 2 idx k with | (s2, st) => (s2, some (statusCode st))
  | 3 =>
    match portBWrite s (fget s (LOOP_MOUTADDR_ADDR c) * 16 + 4 * (idx % 4)) (leBytes 4 u.toNat) loopWho .measurement with
    | (s1, st) => (s1, some (statusCode st))
  | 4 =>
    let t := idx % 16
    let w := fget s (LOOP_STEPCNT_CNT c) % 2 ^ 16 * 2 ^ 48 + fget s (LOOP_CSTAT_FB c) * 2 ^ 47 + fget s (LOOP_CSTAT_FBREASON c) * 2 ^ 44 +
      c * 2 ^ 32 + u.toNat
    match queuePut s { queue := fget s (LOOP_LMSGTPLA_QUEUE t), sender := fget s (LOOP_LMSGTPLB_CTX t), ring := none,
                       cls := fget s (LOOP_LMSGTPLA_CLASS t), axis := fget s (LOOP_LMSGTPLB_AXIS t), flags := fget s (LOOP_LMSGTPLA_FLAGS t),
                       plen := 16, payload := [⟨BitVec.ofNat 128 w, false⟩, nullW, nullW], fromEvt := false } with
    | (s1, st) => (s1, some st)
  | _ => (s, none)

/-- The delivery with its status noted (R401). -/
def deliverStep (s : State) (c : Nat) (u : W32) : State :=
  match deliverU s c u with
  | (s1, none) => s1
  | (s1, some st) =>
    let s2 := fset s1 (LOOP_CSTAT_OSTAT c) st
    if st = 0 then s2 else loopEvent (fset s2 (LOOP_CSTAT_OUTERR c) 1) 7 c

/-! ### Fallback (R404–R406) -/

/-- The value of a fallback mode, clamped; what mode 0b11 gives is free. -/
def fallbackValue (s : State) (c mode : Nat) : State × W32 :=
  let cout := cw s c 0x3C
  let pre := cw s c 0x28
  match mode with
  | 0 => (s, uClamp s c cout)
  | 1 =>
    let r := f32Abs (cw s c 0x2C)
    (s, uClamp s c (f32Add cout (f32Clamp (f32Sub pre cout) (f32Negate r) r)))
  | 2 => (s, uClamp s c pre)
  | _ => (takeFree s, uClamp s c (Config.word s.free))

/-- A fallback step of reason 1 input, 2 authority or 3 numeric: the state and u. -/
def fallback (s : State) (c reason : Nat) (l : List CellIn) : State × W32 :=
  let was := if fon s (LOOP_CSTAT_FB c) then fget s (LOOP_CSTAT_FBREASON c) else 0
  let s1 := if reason = 3 then (stateWords (cellType s c)).foldl (fun st o => setCw st c o 0) s else s
  match fallbackValue s1 c (if reason = 2 then fget s (LOOP_CCTL_AMODE c) else fget s (LOOP_CCTL_FBMODE c)) with
  | (s2, u) =>
    let s3 := match cellType s c with
      | 0 => setCw (setCw s2 c 0xC0 u) c 0xC4 0
      | 1 => if (inAt l 0).valid then setCw s2 c 0xC0 (inAt l 0).x else s2
      | _ => s2
    let s4 := { s3 with loop := { s3.loop with
      normal := mput (fun _ => false) s3.loop.normal c false
      latch := if reason ≠ 2 ∧ mget (fun _ => 0) s3.loop.latch c = 0 then mput (fun _ => 0) s3.loop.latch c 1 else s3.loop.latch } }
    let s5 := fset (fset s4 (LOOP_CSTAT_FB c) 1) (LOOP_CSTAT_FBREASON c) reason
    (if reason = 2 then (if was = 2 then s5 else loopEvent s5 1 c)
     else (if was = 1 ∨ was = 3 then s5 else loopEvent s5 0 c), u)

/-- A step without fallback noted; `kind`: it was computed by the cell's own equations, so that the next one is not a first (R395). -/
def normalStep (s : State) (c : Nat) (kind : Bool) : State :=
  fset (fset { s with loop := { s.loop with normal := mput (fun _ => false) s.loop.normal c kind,
                                            latch := mput (fun _ => 0) s.loop.latch c 0 } }
    (LOOP_CSTAT_FB c) 0) (LOOP_CSTAT_FBREASON c) 0

/-! ### The step (R393) -/

/-- The reason under which a step falls back before it computes: 0 none, 1 input, 2 authority. -/
def preReason (s : State) (c : Nat) (l : List CellIn) : Nat :=
  if fon s (LOOP_CCTL_AGATE c) && !authority s then 2
  else if l.any (fun i => !i.valid) || (fon s (LOOP_CCTL_FBLATCH c) && mget (fun _ => 0) s.loop.latch c == 1) then 1
  else 0

/-- u of a step, by the kind, by the relay, or by fallback. -/
def stepValue (s : State) (c : Nat) (l : List CellIn) : State × W32 :=
  let reason := preReason s c l
  if reason ≠ 0 then fallback s c reason l
  else
    match s.loop.tune with
    | some t =>
      if t.cell = c then
        match relayStep s t l with
        | (s1, some u) => if f32Finite u then (normalStep s1 c false, u) else fallback s1 c 3 l
        | (s1, none) =>
          match computeKind s1 c l with
          | (s2, u, f) => finishKind s1 s2 c l u f
      else
        match computeKind s c l with
        | (s1, u, f) => finishKind s s1 c l u f
    | none =>
      match computeKind s c l with
      | (s1, u, f) => finishKind s s1 c l u f
where
  /-- A computed u taken, or a numeric fallback in its place. -/
  finishKind (s s1 : State) (c : Nat) (l : List CellIn) (u : W32) (f : Option Nat) : State × W32 :=
    if f32Finite u then
      let s2 := normalStep s1 c true
      match f with
      | some x =>
        let ch := fget s (LOOP_INB_SRC c 0) % 16
        (estimatorUpdate s2 c (if fget s (LOOP_INB_KIND c 0) = 1 then pair s (MEAS_MTICK_LO ch) (MEAS_MTICK_HI ch) else s.tick) x, u)
      | none => (s2, u)
    else fallback s1 c 3 l

/-- Flags, count and output of a performed step written, u delivered, and the chain requested (R393, R403): `depth` counts the chained
requests made since the chain's first one, and the 17th is not made. -/
def stepEnd (s : State) (r : LoopReq) (u : W32) : State :=
  let c := r.cell
  let s1 := fset (fset (fset (fset (countUp (setCw s c 0x3C u) LOOP_STEP_CNT) (LOOP_CSTAT_LATE c) (b2n r.late)) (LOOP_CSTAT_PRED c) (b2n r.pred))
    (LOOP_CSTAT_SKIPPED c) 0) (LOOP_CSTAT_VALID c) 1
  let s2 := deliverStep (setCw s1 c 0x38 (cw s1 c 0x38 + 1)) c u
  if fon s2 (LOOP_NEXT_EN c) then
    if 16 ≤ r.depth then loopEvent s2 8 c
    else (stepRequest s2 { cell := fget s2 (LOOP_NEXT_CELL c), late := r.late, pred := r.pred, depth := r.depth + 1 } true).1
  else s2

/-- The step of a cell whose request has been taken (R393), with the upset found in its block (R408). -/
def cellStep (s : State) (r : LoopReq) (upset : Upset) : State :=
  let c := r.cell
  if !fon s (LOOP_CCTL_EN c) then s
  else if upset = .double then
    let s1 := match s.loop.tune with
      | some t => if t.cell = c then tuneAbort s 7 else s
      | none => s
    loopEvent (fset (fset s1 (LOOP_CCTL_EN c) 0) (LOOP_CSTAT_FBREASON c) 4) 10 c
  else
    let s0 := { s with loop := { s.loop with startedAt := mput (fun _ => none) s.loop.startedAt c (some s.tick) } }
    let s1 := if upset = .single then loopEvent s0 9 c else s0
    if r.late && fon s1 (LOOP_CCTL_LATEPOL c) then
      loopEvent (countUp (fset s1 (LOOP_CSTAT_SKIPPED c) 1) LOOP_SKIP_CNT) 3 c
    else
      match cellInputs c (upTo 4) s1 with
      | (s2, l) =>
        let s3 := fset s2 (LOOP_CSTAT_BADIN c) (badIn l)
        let tuning := s3.loop.tune.map (fun t => t.cell) == some c
        let s4 := match s3.loop.tune with
          | some t =>
            if t.cell = c then
              match tuneFault s3 t l with
              | some code => tuneAbort s3 code
              | none => { s3 with loop := { s3.loop with tune := some { t with steps := t.steps + 1 } } }
            else s3
          | none => s3
        let s5 := if cellType s4 c = 0 ∧ fon s4 (LOOP_SCHD_EN c) = true ∧ tuning = false then schedule s4 c else s4
        match stepValue s5 c l with
        | (s6, u) => stepEnd s6 r u

/-- Whether 200 ticks have passed since the cell's previous step began (R389). -/
def stepDue (s : State) (c : Nat) : Bool :=
  match mget (fun _ => none) s.loop.startedAt c with
  | some t => decide (t + 200 ≤ s.tick)
  | none => true

/-- CELL_STEP: the first pending request that is due is served. -/
def serveCell (s : State) (upset : Upset) : State :=
  if running s 8 then
    match s.loop.reqs.find? (fun r => stepDue s r.cell) with
    | some r =>
      cellStep (notePending { s with loop := { s.loop with reqs := s.loop.reqs.filter (fun q => q.cell != r.cell) } } r.cell false) r upset
    | none => s
  else s

/-! ### Commands of the page -/

/-- A relay experiment started (R410): TUNE_CTL has been written. -/
def tuneStart (s : State) : State :=
  let c := fget s LOOP_TUNE_CTL_CELL
  let u0 := if fon s LOOP_TUNE_CTL_USECUR then cw s c 0x3C else reg s LOOP_TUNE_U0
  let t : TuneS := { cell := c, u0 := u0, high := none, steps := 0, cycles := 0, inCycle := false, len := 0, ymin := 0, ymax := 0,
                     lenSum := 0, ampSum := 0 }
  fset (fset (fset (tuneStat { s with loop := { s.loop with tune := some t } } 1 0) LOOP_TUNE_STAT_CYC 0) LOOP_TUNE_CTL_START 1)
    (LOOP_CSTAT_TUNING c) 1

/-- Whether a START is refused: an experiment runs, the cell is no enabled PID cell, or feature bit 3 is not accepted (R410). -/
def tuneRefused (s : State) (c : Nat) : Bool :=
  s.loop.tune.isSome || !accepted s 8 3 || decide (Config.cells s.variant ≤ c) || cellType s c != 0 || !fon s (LOOP_CCTL_EN c) || !running s 8

/-- A write of TUNE_CTL (R410, R413). -/
def tuneCtlWrite (s : State) (q : RegWrite) : State :=
  if bit q.v.toNat 31 && tuneRefused s (q.v.toNat % 512) then reject s q 0x13
  else
    let s1 := fset (fset (plainWrite s q) LOOP_TUNE_CTL_ABORT 0) LOOP_TUNE_CTL_START (b2n s.loop.tune.isSome)
    let s2 := if bit q.v.toNat 30 then tuneAbort s1 7 else s1
    if bit q.v.toNat 31 then tuneStart s2 else s2

/-- A write of GCMD (R415). -/
def gcmdWrite (s : State) (q : RegWrite) : State :=
  let c := q.v.toNat % 512
  if fon s LOOP_GCMD_BUSY then reject s q 0x12
  else if Config.cells s.variant ≤ c then reject s q 0x14
  else noteReserved (fset { s with loop := { s.loop with commit := some c } } LOOP_GCMD_BUSY 1) q

/-- GAIN_COMMIT: the staged gains are copied together (R415). -/
def gainCommit (s : State) : State :=
  match s.loop.commit with
  | some c =>
    let s1 := setCw (setCw (setCw (setCw s c 0x80 (reg s LOOP_GSTAGE_KP)) c 0x84 (reg s LOOP_GSTAGE_KI)) c 0x88 (reg s LOOP_GSTAGE_KD)) c 0x8C
      (reg s LOOP_GSTAGE_KT)
    fset { s1 with loop := { s1.loop with commit := none } } LOOP_GCMD_BUSY 0
  | none => s

/-! ### The page (R419) -/

/-- Whether TYPE `ty` may be enabled: not reserved, its feature accepted. -/
def typeOk (s : State) (ty : Nat) : Bool :=
  match ty with
  | 2 => accepted s 8 1
  | 3 => accepted s 8 1
  | 6 => accepted s 8 2
  | 7 => false
  | _ => true

/-- Whether an input binding word is allowed. -/
def inbOk (s : State) (v : Nat) : Bool :=
  match bits v 31 29 with
  | 2 => decide (v % 512 < Config.cells s.variant)
  | 3 => accepted s 8 5
  | 6 => false
  | 7 => false
  | _ => true

/-- Whether an output binding word is allowed. -/
def outbOk (s : State) (v : Nat) : Bool :=
  match bits v 31 29 with
  | 0 => true
  | 1 => decide (v % 32 ≤ 23)
  | 2 => decide (v % 32 ≤ 7)
  | 3 => accepted s 8 5
  | 4 => accepted s 8 6
  | _ => false

/-- Whether a SCHD word is allowed for a cell of TYPE `ty`. -/
def schdOk (s : State) (ty v : Nat) : Bool := !bit v 31 || (ty == 0 && accepted s 8 4)

/-- Whether a NEXT word is allowed. -/
def nextOk (s : State) (v : Nat) : Bool := !bit v 31 || decide (v % 512 < Config.cells s.variant)

/-- Whether cell `c` may be enabled with TYPE `ty`. -/
def cellOk (s : State) (c ty : Nat) : Bool :=
  typeOk s ty && (upTo 4).all (fun n => inbOk s (reg s (LOOP_INB c n)).toNat) && outbOk s (reg s (LOOP_OUTB c)).toNat &&
    schdOk s ty (reg s (LOOP_SCHD c)).toNat && nextOk s (reg s (LOOP_NEXT c)).toNat

/-- A write of CCTL (R406, R419). -/
def cctlWrite (s : State) (q : RegWrite) (c : Nat) : State :=
  let v := q.v.toNat
  let old := (reg s q.a).toNat
  let en := bit old 31
  if en && bits v 30 25 != bits old 30 25 then reject s q 0x10
  else if !en && bit v 31 && !cellOk s c (bits v 30 28) then reject s q 0x11
  else
    let s1 := fset (plainWrite s q) (LOOP_CCTL_RESUME c) 0
    let s2 := if bit v 17 && mget (fun _ => 0) s1.loop.latch c == 1 then { s1 with loop := { s1.loop with latch := mput (fun _ => 0) s1.loop.latch c 2 } } else s1
    if !en && bit v 31 then
      fset (fset (fset { s2 with loop := { s2.loop with normal := mput (fun _ => false) s2.loop.normal c false, latch := mput (fun _ => 0) s2.loop.latch c 0 } }
        (LOOP_CSTAT_VALID c) 0) (LOOP_CSTAT_FB c) 0) (LOOP_CSTAT_FBREASON c) 0
    else if en && !bit v 31 && s2.loop.tune.map (fun t => t.cell) == some c then tuneAbort s2 7
    else s2

/-- Whether the word at offset `o` of a cell block is locked while the cell is enabled (R419). -/
def cellLocked (o : Nat) : Bool := (decide (0x08 ≤ o) && decide (o ≤ 0x24)) || o == 0x34

/-- The code that refuses a write of a binding word, or 0. -/
def bindCode (s : State) (c o v : Nat) : Nat :=
  if (decide (0x08 ≤ o) && decide (o ≤ 0x14) && !inbOk s v) || (o == 0x18 && !outbOk s v) || (o == 0x1C && !schdOk s (cellType s c) v) ||
    (o == 0x34 && !nextOk s v) then 0x11 else 0

/-- A write to the LOOP page. -/
def loopWrite (s : State) (q : RegWrite) : State :=
  let o := offOf q.a
  if o = 0x104 then
    noteReserved (if q.v.toNat % 512 < Config.cells s.variant then
      (stepRequest s { cell := q.v.toNat % 512, late := false, pred := false, depth := 0 } false).1 else s) q
  else if o = 0x108 then gcmdWrite s q
  else if o = 0x200 then tuneCtlWrite s q
  else if o < 0x20000 then plainWrite s q
  else
    let c := o % 0x20000 / 0x100
    let w := o % 0x100
    if w = 0 then cctlWrite s q c
    else if fon s (LOOP_CCTL_EN c) && cellLocked w && stored q.t (reg s q.a) q.v != reg s q.a then reject s q 0x10
    else checkedWrite s q (bindCode s c w q.v.toNat)

/-! ### Leaving RUNNING (R416) -/

/-- The FBMODE value of an enabled cell with a PWM or analogue binding delivered once; HOLD sends nothing. -/
def leaveCell (s : State) (c : Nat) : State :=
  let k := fget s (LOOP_OUTB_KIND c)
  let m := fget s (LOOP_CCTL_FBMODE c)
  if fon s (LOOP_CCTL_EN c) && (k == 1 || k == 2) && m != 0 then
    match fallbackValue s c m with
    | (s1, u) => deliverStep s1 c u
  else s

/-- The cells whose CCTL is not at its reset value. -/
def usedCells (s : State) : List Nat :=
  s.regs.filterMap (fun p => if 0xE0820000 ≤ p.1 ∧ p.1 < 0xE0840000 ∧ p.1 % 0x100 = 0 then some (p.1 % 0x20000 / 0x100) else none)

/-- The loop engine leaves RUNNING: pending requests are CANCELLED, an experiment is aborted. -/
def loopLeave (s : State) : State :=
  let s1 := tuneAbort { s with loop := { s.loop with reqs := [] } } 7
  (usedCells s1).foldl leaveCell (fset s1 LOOP_PEND_PENDNOW 0)

/-- SOFT_RESET: what the engine holds beside its page (R416). -/
def loopClear (s : State) : State := { s with loop := LoopS.empty }

end Sys2Proof.Machine
end

