-- ==== Sys2Proof/Machine/Meas.lean ====
section
/-! DEFINITION. The measurement front end: the die bridge, sigma-delta channels, encoders, digital inputs, outputs with their safe
levels, and the authority pins (R420–R450). -/

namespace Sys2Proof.Machine

/-- STATE of a block set. -/
def setBlkState (s : State) (b st : Nat) : State := fset s (STATE_STATE b) st

/-- Whether the die bridge is up and the field supplies are good. -/
def bridgeUp (s : State) : Bool := fon s MEAS_BRSTAT_UP
def fieldGood (s : State) : Bool := fon s MEAS_BRSTAT_FSUP

/-- The front end's state beside its page changed. -/
def updMeas (s : State) (f : MeasS → MeasS) : State := { s with meas := f s.meas }

/-- Channel `n`, and that channel changed. -/
def chanS (s : State) (n : Nat) : ChanS := s.meas.chans.getD n ChanS.empty
def updChan (s : State) (n : Nat) (f : ChanS → ChanS) : State := updMeas s (fun m => { m with chans := modAt m.chans n f })

/-- Encoder `e`, and that encoder changed. -/
def encS (s : State) (e : Nat) : EncS := s.meas.encs.getD e EncS.empty
def updEnc (s : State) (e : Nat) (f : EncS → EncS) : State := updMeas s (fun m => { m with encs := modAt m.encs e f })

/-! ### Outputs and the authority pins -/

/-- Every OUTEN bit cleared (R438). -/
def clearOuten (s : State) : State := setReg (setReg s MEAS_OUTEN0 0) MEAS_OUTEN1 0

/-- DRIVE falls: DROP is set, every OUTEN bit is cleared, event 642 (R438, R443). -/
def driveFall (s : State) : State :=
  if fon s MEAS_AUTHSTAT_DRIVE then raise (clearOuten (fset (fset s MEAS_AUTHSTAT_DRIVE 0) MEAS_AUTHSTAT_DROP 1)) 9 2 else s

/-- DRIVE rises after 2 µs of uncontested claiming (R443). -/
def driveRise (s : State) : State :=
  if fon s MEAS_AUTHSTAT_CLAIM && !fon s MEAS_AUTHSTAT_TWINCL && !fon s MEAS_AUTHSTAT_DRIVE && bridgeUp s && fieldGood s then
    raise (fset s MEAS_AUTHSTAT_DRIVE 1) 9 2
  else s

/-- The package begins to claim when LINE = 1 and the twin's claim is absent (R443); a silent bridge counts as LINE = 0 (R509), and a
field die without its supplies claims nothing. -/
def startClaim (s : State) : State :=
  if fon s MEAS_AUTHSTAT_LINE && !fon s MEAS_AUTHSTAT_TWINCL && bridgeUp s && fieldGood s then fset s MEAS_AUTHSTAT_CLAIM 1 else s

/-- Claiming stops and DRIVE falls (R443). -/
def endClaim (s : State) : State := driveFall (fset s MEAS_AUTHSTAT_CLAIM 0)

/-- The in-package authority line as the field die sees it follows ROLE.LINE: a rise starts a claim unless the twin claims, a
fall ends the claim and DRIVE (R443). -/
def lineChange (s : State) : State :=
  if !Config.fieldDie s.variant then s
  else if authority s == fon s MEAS_AUTHSTAT_LINE then s
  else if authority s then startClaim (fset s MEAS_AUTHSTAT_LINE 1)
  else endClaim (fset s MEAS_AUTHSTAT_LINE 0)

/-- The twin's claim is seen (R443): DRIVE falls if the package claims, and without AUTH_PRI it stops claiming. -/
def twinClaimSeen (s : State) : State :=
  if !Config.fieldDie s.variant then s
  else
    let s1 := fset s MEAS_AUTHSTAT_TWINCL 1
    if fon s1 MEAS_AUTHSTAT_CLAIM then
      let s2 := driveFall s1
      if fon s2 MEAS_AUTHSTAT_PRI then s2 else fset s2 MEAS_AUTHSTAT_CLAIM 0
    else s1

/-- The twin's claim is absent (R443): with LINE = 1 the package begins to claim. -/
def twinClaimAbsent (s : State) : State :=
  if !Config.fieldDie s.variant then s else startClaim (fset s MEAS_AUTHSTAT_TWINCL 0)

/-- The level at an output pin. -/
inductive PinLevel where
  | low | high | hiZ
  deriving DecidableEq, Repr

/-- A safe-level code (R439). -/
def safeLevel (code : Nat) : PinLevel :=
  match code with
  | 0 => .low
  | 1 => .high
  | _ => .hiZ

/-- A Boolean level. -/
def boolLevel (b : Bool) : PinLevel := if b then .high else .low

/-- Whether enabled outputs are driven at their commanded levels (R13, R438). -/
def outputsDrive (s : State) : Bool := fon s MEAS_AUTHSTAT_DRIVE && bridgeUp s && running s 9

/-- The level of digital output `j` (R422, R438–R440). -/
def doLevel (s : State) (j : Nat) : PinLevel :=
  if !fieldGood s then .hiZ
  else if outputsDrive s && bit (reg s MEAS_OUTEN0).toNat j then boolLevel (bit (reg s MEAS_DOCMD).toNat j)
  else safeLevel (bits (reg s (MEAS_DOSAFE (j / 16))).toNat (2 * (j % 16) + 1) (2 * (j % 16)))

/-- The code driven on analogue output `k`, none for high impedance. -/
def aoLevel (s : State) (k : Nat) : Option Nat :=
  if !fieldGood s then none
  else if outputsDrive s && bit (fget s MEAS_OUTEN1_AO) k then some (fget s (MEAS_AOUT_CODE k))
  else some (fget s (MEAS_AOSAFE_SAFE k))

/-- Timer `t`. -/
def pwmS (s : State) (t : Nat) : PwmS := s.meas.pwms.getD t PwmS.empty

/-- The duty and the dead time in use (R441: a new one takes effect at the next period boundary). -/
def dutyNow (s : State) (o : Nat) : Nat := mget (fun _ => 0) s.meas.duty o
def deadNow (s : State) (p : Nat) : Nat := mget (fun _ => 0) s.meas.dead p

/-- The high time of output `o` in its timer's period: round(DUTY·P/65535) ticks (R441). -/
def pwmHigh (s : State) (o : Nat) : Nat := (dutyNow s o * (pwmS s (o / 6)).period * 2 + 65535) / (2 * 65535)

/-- Whether tick `t` lies in the high time of output `o`, centred on the period's centre. -/
def pwmNominal (s : State) (o t : Nat) : Bool :=
  let p := pwmS s (o / 6)
  let h := pwmHigh s o
  decide (p.centre < t + h / 2 + 1) && decide (t + h / 2 < p.centre + h)

/-- Whether tick `t` lies within the dead time at either edge of the nominal high time; an output that is high for none or all of its
period has no edge. -/
def pwmDead (s : State) (o t : Nat) : Bool :=
  let p := pwmS s (o / 6)
  let h := pwmHigh s o
  let d := deadNow s (o / 2)
  let a : Int := (p.centre : Int) - (h / 2 : Nat)
  let near (e : Int) : Bool := decide (e - (d / 2 : Nat) ≤ t) && decide ((t : Int) < e - (d / 2 : Nat) + d)
  decide (0 < h) && decide (h < p.period) && (near a || near (a + h))

/-- The level of PWM output `o` at tick `t` (R438, R441). -/
def pwmLevel (s : State) (o t : Nat) : PinLevel :=
  if !fieldGood s then .hiZ
  else if outputsDrive s && bit (fget s MEAS_OUTEN1_PWM) o then
    if fon s (MEAS_PWMPAIR_COMP (o / 2)) then
      boolLevel (!pwmDead s (o / 2 * 2) t && (if o % 2 = 0 then pwmNominal s o t else !pwmNominal s (o - 1) t))
    else boolLevel (pwmNominal s o t)
  else safeLevel (fget s (MEAS_PWMPAIR_SAFE (o / 2)))

/-- Two microseconds after a change the pin of output `j` is compared with its driven level (R442). -/
def readback (s : State) (j : Nat) (pin : Bool) : State :=
  if !Config.fieldDie s.variant || doLevel s j == .hiZ || doLevel s j == boolLevel pin then s
  else raise (setReg s MEAS_DOFLT (reg s MEAS_DOFLT ||| BitVec.ofNat 32 (2 ^ (j % 32)))) 9 3

/-- The digital levels with output `p.1` set, cleared or toggled (R374): action 1, 2 or 3. -/
def pinLevels (d : W32) (p : Nat × Nat) : W32 :=
  BitVec.ofNat 32 (withBits d.toNat p.1 p.1 (match p.2 with | 1 => 1 | 2 => 0 | _ => b2n (!bit d.toNat p.1)))

/-- A pin command takes effect: it stays after every other command that arrives in the same tick (R437). -/
def commandPin (s : State) (j act : Nat) : State :=
  let d := reg s MEAS_DOCMD
  let s1 := updMeas s (fun m => { m with levels := if m.landed.isEmpty then d else m.levels, landed := m.landed ++ [(j, act)] })
  setReg s1 MEAS_DOCMD (pinLevels d (j, act))

/-- The digital levels commanded by a register write: the pin commands that have landed in this tick take effect after it (R437). -/
def commandLevels (s : State) (f : W32 → W32) : State :=
  if s.meas.landed.isEmpty then setReg s MEAS_DOCMD (f (reg s MEAS_DOCMD))
  else
    let d := f s.meas.levels
    setReg (updMeas s (fun m => { m with levels := d })) MEAS_DOCMD (s.meas.landed.foldl pinLevels d)

/-- A pin command performed at the field die, or refused with DISABLED (R379, R383). -/
def pinCommand (s : State) (j act : Nat) : State × Status :=
  if running s 9 && bridgeUp s then (commandPin s j act, .ok) else (s, .disabled)

/-- The next PWM or analogue command on its way is applied (R392). -/
def fieldOutput (s : State) : State :=
  match s.meas.outs with
  | [] => s
  | c :: r =>
    let s1 := updMeas s (fun m => { m with outs := r })
    if running s1 9 && bridgeUp s1 then
      if c.kind = 1 then fset s1 (MEAS_PWMDUTY_DUTY c.idx) c.code else fset s1 (MEAS_AOUT_CODE c.idx) c.code
    else s1

/-- Whether timer `t` is locked to an axis that holds a valid coordinate (R441). -/
def pwmLocked (s : State) (t : Nat) : Bool :=
  fon s (MEAS_PWMTCFG_LOCK t) && accepted s 9 4 && axisValid s (fget s (MEAS_PWMTCFG_AXIS t))

/-- Whether timer `t` takes its centres from the phase engine: it is locked, and its latest period is not too short. -/
def pwmFollows (s : State) (t : Nat) : Bool := pwmLocked s t && !(pwmS s t).free

/-- A period boundary of timer `t`: new duties and dead times are taken. A free-running timer's centre moves by PER from the last one; that
of a locked timer, which the phase engine has yet to send, is expected a period after the last (DEDUCED). -/
def pwmPeriod (s : State) (t : Nat) : State :=
  let duty := (upTo 6).foldl (fun m i => mput (fun _ => 0) m (6 * t + i) (fget s (MEAS_PWMDUTY_DUTY (6 * t + i)))) s.meas.duty
  let dead := (upTo 3).foldl (fun m i => mput (fun _ => 0) m (3 * t + i) (fget s (MEAS_PWMPAIR_DT (3 * t + i)))) s.meas.dead
  let len := if pwmFollows s t then (pwmS s t).period else fget s (MEAS_PWMTPER_PER t)
  updMeas s (fun m => { m with
    duty := duty
    dead := dead
    pwms := modAt m.pwms t (fun p => { centre := p.centre + len, period := len, sent := if pwmLocked s t then p.sent else none,
                                       free := pwmLocked s t && p.free }) })

/-- The phase engine sends tick `tk` as a centre of locked timer `t`; where the period since the one before would fall below 100 ticks, the
timer runs free at PER from its last centre (R441). -/
def pwmCentre (s : State) (t tk : Nat) : State :=
  updMeas s (fun m => { m with pwms := modAt m.pwms t (fun p =>
    match p.sent with
    | none => { p with centre := tk, sent := some tk, free := false }
    | some t0 => if t0 + 100 ≤ tk then { centre := tk, period := tk - t0, sent := some tk, free := false }
      else { p with sent := some tk, free := true }) })

/-! ### The bridge and the field supplies -/

/-- Started and queued operations end with ABORTED: accepted triggers are discarded (R118, R448). -/
def dropTriggers (s : State) : State := updMeas s (fun m => { m with chans := m.chans.map (fun c => { c with trigs := [] }) })

/-- The front end enters FAULT from RUNNING or DRAINING (R118). -/
def measFault (s : State) : State :=
  dropTriggers (if blkState s 9 = 1 ∨ blkState s 9 = 2 then setBlkState s 9 4 else s)

/-- Every result shadow marked invalid. -/
def invalidResults (s : State) : State := (upTo 16).foldl (fun st n => fset st (MEAS_MRES_VALID n) 0) s

/-- A bridge frame arrives; one that fails its CRC is counted (R421). With the bridge up a claim can begin (R509). -/
def bridgeFrame (s : State) (crcOk : Bool) : State :=
  if !Config.fieldDie s.variant then s else if crcOk then startClaim (fset s MEAS_BRSTAT_UP 1) else countUp s MEAS_BRERR_CNT

/-- No valid frame for 8 µs (R14, R421); for the claiming rules that is LINE = 0 (R509). -/
def bridgeLoss (s : State) : State :=
  if bridgeUp s then
    invalidResults (measFault (clearOuten (endClaim (fcount (raise (fset s MEAS_BRSTAT_UP 0) 9 0) MEAS_BRSTAT_DOWNN 1))))
  else s

/-- What the front end holds beside its page at its reset value; the levels at the encoder pins are the board's. -/
def MeasS.cleared (m : MeasS) : MeasS :=
  { MeasS.empty with encs := m.encs.map (fun x => { EncS.empty with a := x.a, b := x.b, z := x.z }) }

/-- The registers of the field-die part at their reset values, and what the field die holds beside them. -/
def resetFieldPart (s : State) : State :=
  { s with
    regs := s.regs.filter (fun p => !(decide (0xE0901000 ≤ p.1) && decide (p.1 < 0xE0902000)))
    meas := { s.meas.cleared with outs := s.meas.outs } }

/-- A field supply falls (R422). The field die, which decides DRIVE, is reset with it. -/
def supplyFault (s : State) : State :=
  if fieldGood s then
    measFault (raise (resetFieldPart (endClaim (fset s MEAS_BRSTAT_FSUP 0))) 9 1)
  else s

/-- The supplies are good and the field die has finished its reset; AUTH_PRI is sampled (R440, R443, R586). -/
def supplyRecovery (s : State) (pri : Bool) : State :=
  if !Config.fieldDie s.variant || fieldGood s then s
  else startClaim (fset (fset s MEAS_BRSTAT_FSUP 1) MEAS_AUTHSTAT_PRI (b2n pri))

/-! ### Sigma-delta channels -/

/-- The ratio M of a channel (R424). -/
def sdRatio (s : State) (n : Nat) : Nat := if fon s (MEAS_CHCFG_RATE n) then 125 else 500

/-- The tick at which the window centred at `c` ends (R424). -/
def windowEnd (s : State) (n c : Nat) : Nat := c + 25 * (3 * sdRatio s n - 3 * sdRatio s n / 2)

/-- The status with which channel `n` answers a trigger for tick `t` (R426): 9 OVERRUN, 10 TOOLATE. -/
def trigStatus (s : State) (n t : Nat) : Nat :=
  if !running s 9 || !accepted s 9 1 || !bridgeUp s || !fon s (MEAS_CHCFG_EN n) then 1
  else if windowEnd s n (t / 25 * 25) ≤ s.tick then 10
  else if 2 ≤ (chanS s n).trigs.length then 9
  else 0

/-- A trigger for tick `t` offered to channel `n`. -/
def trigChan (s : State) (n t : Nat) : State × Nat :=
  let st := trigStatus s n t
  (if st = 0 then updChan s n (fun c => { c with trigs := c.trigs ++ [t / 25 * 25] }) else if st = 9 then raise s 9 5 else s, st)

/-- A trigger offered to the channels listed: the status is that of the lowest-numbered one that refuses (R426). -/
def trigList (t : Nat) : List Nat → State → State × Nat
  | [], s => (s, 0)
  | n :: ns, s =>
    match trigChan s n t with
    | (s1, st) =>
      match trigList t ns s1 with
      | (s2, st2) => (s2, if st = 0 then st2 else st)

/-- A trigger for tick `t` of the channels of a mask; a block that is not there answers ABSENT (R122). -/
def trigger (s : State) (mask t : Nat) : State × Nat :=
  if !Config.present s.variant 9 then (s, 7) else trigList t ((upTo 16).filter (fun n => bit mask n)) s

/-- A result as its shadow shows it (R425, R427). -/
def resultWord (valid ovl trg : Bool) (seq : Nat) (v : Int) : W32 :=
  BitVec.ofNat 32 (b2n valid * 2 ^ 31 + b2n ovl * 2 ^ 30 + b2n trg * 2 ^ 29 + seq % 32 * 2 ^ 24 + (v % (2 ^ 24 : Nat)).toNat)

/-- A record put into the capture ring, or lost (R429). -/
def captureRec (s : State) (n : Nat) (w : W32) (t : Nat) : State :=
  if fon s MEAS_CAPCTL_EN && accepted s 9 6 && fon s (MEAS_CHCFG_CAP n) then
    let size := 2 ^ (fget s MEAS_CAPCTL_SIZE + 4)
    let wr := fget s MEAS_CAPWR_CNT
    if (wr + 2 ^ 32 - fget s MEAS_CAPRD_CNT) % 2 ^ 32 = size then raise (countUp s MEAS_CAPDROP) 9 4
    else
      match portBWrite s (pair s MEAS_CAPBASE_LO MEAS_CAPBASE_HI + 16 * (wr % size)) (leBytes 4 w.toNat ++ leBytes 4 n ++ leBytes 8 t) (blkReq 9 none)
          .measurement with
      | (s1, st) =>
        let s2 := fset s1 MEAS_CAPWR_CNT ((wr + 1) % 2 ^ 32)
        if st = .ok then s2 else raise (countUp s2 MEAS_CAPDROP) 9 4
  else s

/-- The zero-crossing detector at a continuous result (R428). -/
def zeroCross (s : State) (n : Nat) (valid : Bool) (v : Int) (t : Nat) : State :=
  let c := chanS s n
  if !fon s (MEAS_CHCFG_ZC n) || !fon s (MEAS_CHCFG_CONT n) || !accepted s 9 2 then s
  else if !valid then updChan s n (fun c => { c with last := none })
  else
    let fires := match c.last with
      | some (v1, _) => c.zcArmed && decide (v1 < 0) && decide (0 ≤ v)
      | none => false
    let s1 := match c.last with
      | some (v1, t1) => if fires then mainsUpdate s n (((t1 : Int) + ((t : Int) - t1) * (-v1) / (v - v1)).toNat) else s
      | none => s
    updChan s1 n (fun c => { c with last := some (v, t),
                                    zcArmed := (c.zcArmed && !fires) || decide (v ≤ -(fget s (MEAS_CHZC_HYST n) : Int)) })

/-- The code of a result (R425): an overloaded one saturates, at the end of the range on its input's side. -/
def sdCode (code : Int) (overload : Bool) : Int :=
  if overload then (if code < 0 then -8388608 else 8388607) else max (-8388608) (min code 8388607)

/-- A result of channel `n` reaches its shadow (R425–R429): `code` is round(Vdiff / 1.2 V × 2^23) before saturation, `overload` a
modulator overload, `trig` whether it answers the oldest accepted trigger, `centre` the centre of a continuous one's window, which is a
multiple of 25M. -/
def sdResult (s : State) (n : Nat) (code : Int) (overload trig : Bool) (centre : Nat) : State :=
  let c := chanS s n
  let delivers := (blkState s 9 == 1 || (trig && blkState s 9 == 2)) && bridgeUp s && fon s (MEAS_CHCFG_EN n) &&
    (if trig then !c.trigs.isEmpty else fon s (MEAS_CHCFG_CONT n) && centre % (25 * sdRatio s n) == 0)
  if delivers then
    let t := if trig then c.trigs.headD 0 else centre
    let ovl := overload || decide (code < -8388608) || decide (8388607 < code)
    let v0 := sdCode code overload
    let v := if fon s (MEAS_CHCFG_RATE n) then v0 - v0 % 16 else v0
    let valid := !ovl && decide (3 ≤ c.results)
    let w := resultWord valid ovl trig (fget s (MEAS_MRES_SEQ n) + 1) v
    let s1 := setPair (setReg s (MEAS_MRES n) w) (MEAS_MTICK_LO n) (MEAS_MTICK_HI n) t
    let s2 := updChan s1 n (fun c => { c with results := min (c.results + 1) 3, trigs := if trig then c.trigs.drop 1 else c.trigs })
    let s3 := if ovl then raise s2 9 (8 + n) else s2
    captureRec (if trig then s3 else zeroCross s3 n valid v t) n w t
  else s

/-! ### Encoders -/

/-- An encoder error (R431, R432). -/
def encError (s : State) (e : Nat) : State := raise (fcount (fset s (MEAS_ENCSTAT_ERR e) 1) (MEAS_ENCSTAT_ERRCNT e) 1) 9 (24 + e)

/-- Whether encoder `e` works in mode `m` (R431, R432, R449). -/
def encOn (s : State) (e m : Nat) : Bool :=
  running s 9 && bridgeUp s && accepted s 9 3 && fon s (MEAS_ENCCFG_EN e) && fget s (MEAS_ENCCFG_MODE e) == m

/-- A signed count as a pair of registers holds it. -/
def intPair (k : Int) : Nat := (k % (2 ^ 64 : Nat)).toNat

/-- The count of encoder `e` set, with its history (R430). -/
def setCount (s : State) (e : Nat) (k : Int) : State :=
  let s1 := updEnc s e (fun x => { x with
    count := k
    hist := (s.tick, k) :: x.hist.take ((x.hist.takeWhile (fun p => decide (s.tick < p.1 + 64))).length + 1) })
  setPair s1 (MEAS_ENCPOS_LO e) (MEAS_ENCPOS_HI e) (intPair k)

/-- The level of a pin changes at tick `t`. -/
def EncPin.set (p : EncPin) (t : Nat) (l : Bool) : EncPin := if l = p.level then p else { p with level := l, since := t }

/-- A level stable for `filt` ticks is accepted (R431). -/
def EncPin.settle (p : EncPin) (filt t : Nat) : EncPin := if p.since + filt ≤ t then { p with accepted := p.level } else p

/-- Accepted levels that were `x` and are `y` counted: one step per edge of A or B, an error where both change, and a rising edge of Z
latches the count (R431). -/
def encCount (s : State) (e : Nat) (x y : EncS) : State :=
  let da := x.a.accepted != y.a.accepted
  let db := x.b.accepted != y.b.accepted
  let s1 :=
    if da && db then encError s e
    else if da || db then
      let up := if da then y.a.accepted != x.b.accepted else y.b.accepted == x.a.accepted
      setCount s e (x.count + (if up != fon s (MEAS_ENCCFG_INV e) then 1 else -1))
    else s
  if !x.z.accepted && y.z.accepted then
    raise (fset (setPair s1 (MEAS_ENCIDX_LO e) (MEAS_ENCIDX_HI e) (intPair (encS s1 e).count)) (MEAS_ENCSTAT_IDX e) 1) 9 (32 + e)
  else s1

/-- The pins of encoder `e` sampled in the tick in progress: what FILT lets through is accepted, and counted in quadrature mode. -/
def encSample (s : State) (e : Nat) : State :=
  let on := encOn s e 0
  let f := if on then fget s (MEAS_ENCCFG_FILT e) else 0
  let x := encS s e
  let y := { x with a := x.a.settle f s.tick, b := x.b.settle f s.tick, z := x.z.settle f s.tick }
  if x = y then s
  else
    let s1 := updEnc s e (fun _ => y)
    if on then encCount s1 e x y else s1

/-- ENCODER_EDGE: the pins of encoder `e` take the levels given (R431). -/
def encEdge (s : State) (e : Nat) (a b z : Bool) : State :=
  encSample (updEnc s e (fun x => { x with a := x.a.set s.tick a, b := x.b.set s.tick b, z := x.z.set s.tick z })) e

/-- A Gray-coded word of `w` bits as a number. -/
def grayVal (w x : Nat) : Nat := (upTo w).foldl (fun a i => a ^^^ (x / 2 ^ i)) 0

/-- An SSI word read (R432): its bits, the parity bit, and whether the data line was high before the first clock. -/
def ssiRead (s : State) (e word : Nat) (par ready : Bool) : State :=
  if encOn s e 1 then
    let w := fget s (MEAS_SSICFG_NBITS e) + 1
    let raw := word % 2 ^ w
    if !ready || (fon s (MEAS_SSICFG_PAR e) && (popcount w raw + b2n par) % 2 == 1) then encError s e
    else
      let p := if fon s (MEAS_SSICFG_GRAY e) then grayVal w raw % 2 ^ w else raw
      let x := encS s e
      let k := x.count + signed w ((p + 2 ^ w - x.word.getD 0) % 2 ^ w)
      let s1 := updEnc s e (fun x => { x with count := k, word := some p, reads := (s.tick, k) :: x.reads.take 7 })
      fset (setPair s1 (MEAS_ENCPOS_LO e) (MEAS_ENCPOS_HI e) (intPair k)) (MEAS_ENCSTAT_VALID e) 1
  else s

/-- The newest entry of a history at or before tick `t`, and those before it. -/
def atTick (t : Nat) (l : List (Nat × Int)) : List (Nat × Int) := l.dropWhile (fun p => decide (t < p.1))

/-- The ticks from the start of one SSI read to that of the next (R432): PER µs, and never less than the read itself and 25 µs. -/
def ssiPeriod (s : State) (e : Nat) : Nat :=
  let read := (fget s (MEAS_SSICFG_NBITS e) + 1 + fget s (MEAS_SSICFG_PAR e)) * (2 * (fget s (MEAS_SSICFG_CLKDIV e) + 1))
  max (200 * fget s (MEAS_SSICFG_PER e)) (read + 5000)

/-- The count that encoder `e` delivers for tick `t` (R430–R432): none when it is not valid. -/
def encDelivers (s : State) (e t : Nat) : Option Int :=
  if encOn s e 0 then some (match atTick t (encS s e).hist with | p :: _ => p.2 | [] => 0)
  else if encOn s e 1 then
    match atTick t (encS s e).reads with
    | (t1, k1) :: r =>
      if t1 + 4 * ssiPeriod s e < t then none
      else
        match r with
        | (t0, k0) :: _ => some (if t0 < t1 then k1 + ((t : Int) - t1) * (k1 - k0) / ((t1 : Int) - t0) else k1)
        | [] => some k1
    | [] => none
  else none

/-- The shadow ENCPOS of an SSI encoder: the count delivered for this tick (R430, R432). -/
def encShadow (s : State) (e : Nat) : State :=
  if encOn s e 1 then
    match encDelivers s e s.tick with
    | some k => setPair s (MEAS_ENCPOS_LO e) (MEAS_ENCPOS_HI e) (intPair k)
    | none => s
  else s

/-- The field die's part of a phase tick: the encoder pins are sampled, every microsecond the shadows are updated (R430, R431), and the
tick in which pin commands landed is over (R437). -/
def measTick (s : State) : State :=
  let s1 := (upTo 8).foldl encSample (updMeas s (fun m => { m with landed := [] }))
  if s.tick % 200 = 0 then (upTo 8).foldl encShadow s1 else s1

/-! ### Digital inputs (R434, R435) -/

/-- Input `i` sampled at level `x` (0–255). -/
def dinSample (s : State) (i x : Nat) : State :=
  let d := s.meas.dins.getD i DinS.empty
  let adapt := fon s (MEAS_DICFG_ADAPT i) && accepted s 9 5
  let beat := decide (2 ^ fget s MEAS_DITHLIM_DECAY ≤ d.decay + 1)
  let h := if adapt then max x (fget s (MEAS_DILEVEL_H i) - b2n beat) else fget s (MEAS_DILEVEL_H i)
  let l := if adapt then min x (fget s (MEAS_DILEVEL_L i) + b2n beat) else fget s (MEAS_DILEVEL_L i)
  let weak := adapt && decide (h - l < fget s MEAS_DITHLIM_MINSWING)
  let thr := if !adapt then fget s (MEAS_DICFG_THR i) else if weak then fget s (MEAS_DILEVEL_THR i)
    else max (fget s MEAS_DITHLIM_THMIN) (min ((h + l) / 2) (fget s MEAS_DITHLIM_THMAX))
  let hys := if !adapt then 2 else if weak then d.hyst else max ((h - l) / 8) 1
  let comp := if d.comp then decide (thr ≤ x + hys) else decide (thr + hys ≤ x)
  let out := comp != fon s (MEAS_DICFG_INV i)
  let st := bit (reg s (MEAS_DISTATE (i / 32))).toNat (i % 32)
  let n := if out == st then 0 else d.differ + 1
  let changes := decide (fget s (MEAS_DICFG_DEB i) + 1 ≤ n)
  let wasWeak := bit (reg s (MEAS_DIWEAK (i / 32))).toNat (i % 32)
  let s1 := fset (fset (fset s (MEAS_DILEVEL_H i) h) (MEAS_DILEVEL_L i) l) (MEAS_DILEVEL_THR i) thr
  let s2 := updMeas s1 (fun m => { m with
    dins := modAt m.dins i (fun _ => { differ := if changes then 0 else n, comp := comp, decay := if beat then 0 else d.decay + 1, hyst := hys }) })
  let s3 := if adapt then
      setReg s2 (MEAS_DIWEAK (i / 32)) (BitVec.ofNat 32 (withBits (reg s2 (MEAS_DIWEAK (i / 32))).toNat (i % 32) (i % 32) (b2n weak)))
    else s2
  let s4 := if weak && !wasWeak then raise s3 9 (48 + i / 8) else s3
  if changes then
    raise (setRegBit (setReg s4 (MEAS_DISTATE (i / 32)) (BitVec.ofNat 32 (withBits (reg s4 (MEAS_DISTATE (i / 32))).toNat (i % 32) (i % 32) (b2n out))))
      (MEAS_DICHG (i / 32)) (i % 32)) 9 (40 + i / 8)
  else s4

/-- The inputs from `i` on sampled in turn. -/
def dinSamples : Nat → List Nat → State → State
  | _, [], s => s
  | i, x :: r, s => dinSamples (i + 1) r (dinSample s i (x % 256))

/-- DIGITAL_INPUT_SAMPLE: the 64 inputs sampled, while the field die answers. -/
def inputSample (s : State) (l : List Nat) : State := if bridgeUp s && fieldGood s then dinSamples 0 (l.take 64) s else s

/-! ### The page -/

/-- A code for a write of an ENCCFG or SSICFG register (R433). -/
def encCode (s : State) (q : RegWrite) : Nat :=
  let e := q.i
  if fon s (MEAS_ENCCFG_EN e) then 0x12
  else if offOf q.a % 16 = 0 then 0
  else if bits q.v.toNat 15 8 < 9 then 0x11 else 0

/-- Whether a word of safe-level codes holds the code 0b11 (R439). -/
def badSafe (v : Nat) : Bool := (upTo 16).any (fun j => bits v (2 * j + 1) (2 * j) == 3)

/-- A write to the field-die part (R426, R433, R437–R441, R450). -/
def fieldWrite (s : State) (q : RegWrite) : State :=
  let o := offOf q.a
  let v := q.v.toNat
  if o < 0x1080 ∧ o % 8 = 0 then
    let n := q.i
    let en := fon s (MEAS_CHCFG_EN n)
    if en && bits v 30 28 != bits (reg s q.a).toNat 30 28 then reject s q 0x12
    else
      let s1 := plainWrite s q
      if bit v 31 && !en then updChan s1 n (fun _ => ChanS.empty)
      else if en && !bit v 31 then updChan s1 n (fun c => { c with trigs := [] })
      else s1
  else if 0x1100 ≤ o ∧ o < 0x1180 then
    let code := encCode s q
    let was := fon s (MEAS_ENCCFG_EN q.i)
    let s1 := checkedWrite s q code
    if code = 0 ∧ o % 16 = 0 ∧ bit v 31 = true ∧ was = false then
      fset (setPair (updEnc s1 q.i (fun x => { EncS.empty with a := x.a, b := x.b, z := x.z })) (MEAS_ENCPOS_LO q.i) (MEAS_ENCPOS_HI q.i) 0)
        (MEAS_ENCSTAT_VALID q.i) (b2n (!bit v 30))
    else s1
  else if o = 0x1500 then commandLevels s (fun _ => q.v)
  else if o = 0x1504 then commandLevels s (fun d => d ||| q.v)
  else if o = 0x1508 then commandLevels s (fun d => d &&& ~~~q.v)
  else if o = 0x150C ∨ o = 0x1510 then checkedWrite s q (if badSafe v then 0x11 else 0)
  else if 0x1600 ≤ o ∧ o < 0x1640 ∧ o % 16 = 0 then checkedWrite s q (if v % 2 ^ 16 = 0 then 0x11 else 0)
  else if 0x1600 ≤ o ∧ o < 0x1640 ∧ o % 16 = 4 then checkedWrite s q (if v % 2 ^ 20 < 100 then 0x11 else 0)
  else if 0x1640 ≤ o ∧ o < 0x1670 then
    checkedWrite s q (if bits v 17 16 = 3 ∨ fget s (MEAS_PWMTPER_PER (q.i / 3)) ≤ 2 * (v % 2 ^ 10) then 0x11 else 0)
  else if o = 0x1808 then noteReserved (trigger s (v % 2 ^ 16) s.tick).1 q
  else plainWrite s q

/-- A write to the MEAS page. While the bridge is down a write to the field-die part is discarded (R420). -/
def measWrite (s : State) (q : RegWrite) : State :=
  let o := offOf q.a
  if 0x1000 ≤ o then (if bridgeUp s then fieldWrite s q else reject s q 0x10)
  else if o = 0x120 then
    if 13 ≤ q.v.toNat % 16 then reject s q 0x11
    else
      let s1 := plainWrite s q
      if bit q.v.toNat 31 && !fon s MEAS_CAPCTL_EN then setReg s1 MEAS_CAPWR 0 else s1
  else plainWrite s q

/-- The front end leaves RUNNING (R448): with an abort the accepted triggers are discarded. -/
def measLeave (s : State) (abort : Bool) : State := if abort then dropTriggers s else s

/-- Accepted triggers without a result (R448). -/
def measInflight (s : State) : Nat := s.meas.chans.foldl (fun n c => n + c.trigs.length) 0

/-- SOFT_RESET also resets what the front end holds beside its page (R448). -/
def measClear (s : State) : State := { s with meas := s.meas.cleared }

end Sys2Proof.Machine
end

