-- ==== Sys2Proof/Machine/PhaseMark.lean ====
section
/-! DEFINITION. The mark registers: arming, disarming, and the checks of a write (R369, R370, R374, R385). -/

namespace Sys2Proof.Machine

/-- The coordinate and the increment of mark `m`. -/
def markCoord (s : State) (m : Nat) : Nat := pair s (PHASE_MCOORD_LO m) (PHASE_MCOORD_HI m)
def markInc (s : State) (m : Nat) : Nat := pair s (PHASE_MINC_LO m) (PHASE_MINC_HI m)

/-- Whether mark `m` is armed. -/
def markArmed (s : State) (m : Nat) : Bool := fon s (PHASE_MARKCTL_ARM m)

/-- The code that refuses an action and argument (R374), 0 for none. -/
def actionCode (s : State) (act arg : Nat) : Nat :=
  match act with
  | 0 => 0
  | 1 => if accepted s 7 5 then 0 else 0x12
  | 2 => if accepted s 7 5 then 0 else 0x12
  | 3 => if accepted s 7 5 then 0 else 0x12
  | 4 => if accepted s 7 6 && arg != 0 then 0 else 0x12
  | 5 => if accepted s 7 6 && decide (arg % 512 < Config.cells s.variant) then 0 else 0x12
  | 6 => 0
  | 7 => if arg % 4096 < Config.contexts s.variant then 0 else 0x12
  | 8 => 0
  | _ => 0x02

/-- The code that refuses an arming write with control word `v`. -/
def armCode (s : State) (m v : Nat) : Nat :=
  let c := actionCode s (bits v 19 16) (bits v 15 0)
  if c ≠ 0 then c else if 2 ^ 63 ≤ markInc s m then 0x13 else 0

/-- A mark disarmed: a commit put off is not made (R382). -/
def disarm (s : State) (m : Nat) : State :=
  { fset s (PHASE_MARKCTL_ARM m) 0 with
    phase := { s.phase with fresh := s.phase.fresh.filter (fun k => k != m), defer := s.phase.defer.filter (fun d => d.mark != m) } }

/-- A mark that has just been armed: MSTAT is cleared, and the check of R370 falls due. -/
def armed (s : State) (m : Nat) : State :=
  { setReg s (PHASE_MSTAT m) 0 with
    phase := { s.phase with fresh := s.phase.fresh.filter (fun k => k != m) ++ [m], defer := s.phase.defer.filter (fun d => d.mark != m) } }

/-- A write of MCOORD, MINC or MARKCTL of mark `m`. -/
def markWrite (s : State) (q : RegWrite) (m : Nat) : State :=
  let ctl := q.a == PHASE_MARKCTL m
  if ctl && !bit q.v.toNat 31 then disarm (plainWrite s q) m
  else if markArmed s m then reject s q 0x10
  else if ctl then
    match armCode s m q.v.toNat with
    | 0 => armed (plainWrite s q) m
    | c => reject s q c
  else plainWrite s q

/-- A mark written as a checkpoint carries it (R506): ARM = 0, then its coordinate, increment and control word. -/
def restoreMark (s : State) (m coord inc : Nat) (ctl : W32) : State :=
  let s1 := disarm s m
  let s2 := setPair (setPair s1 (PHASE_MCOORD_LO m) (PHASE_MCOORD_HI m) (coord % 2 ^ 64)) (PHASE_MINC_LO m) (PHASE_MINC_HI m) inc
  let s3 := setReg s2 (PHASE_MARKCTL m) ctl
  if bit ctl.toNat 31 then armed s3 m else s3

end Sys2Proof.Machine
end

