-- ==== Sys2Proof/Machine/Twin.lean ====
section
/-! DEFINITION. The twin link: HELLO and frames, replication, queue SYNC, records, checkpoints, heartbeats, roles, takeover,
alerts and commands (R490–R521). -/

namespace Sys2Proof.Machine

/-- What TWIN holds beside its page changed. -/
def updTwin (s : State) (f : TwinS → TwinS) : State := { s with twin := f s.twin }

/-- TWIN as a requester. -/
def twinWho : Requester := blkReq 0x0D none

/-- The key of slot KSLOT when it serves the link: for CMAC and for KDF (R491, R552). -/
def twinKey (s : State) : Option (List Byte) :=
  if slotFor s (fget s TWIN_TWCFG_KSLOT) 2 then useSlot s (fget s TWIN_TWCFG_KSLOT) 1 else none

/-! ### Alerts (R515) -/

/-- An alert that merges with one of its kind already pending: REPLNAK counts the refusals merged in FINFO[47:32]. -/
def mergeAlert (sub : Nat) (c : Cause) : Cause :=
  if c.sub = sub ∧ sub = 4 then
    { c with finfo := BitVec.ofNat 64 (withBits c.finfo.toNat 47 32 (min (bits c.finfo.toNat 47 32 + 1) 65535)) }
  else c

/-- A twin alert as a cause. -/
def alertCause (sub fadr finfo : Nat) : Cause :=
  { code := 0x60, sub := sub, fadr := BitVec.ofNat 64 fadr, finfo := BitVec.ofNat 64 finfo, inRep := false, progress := false,
    async := true, imprecise := true, lopc := 0 }

/-- An alert raised on a core. -/
def alertCore (sub fadr finfo : Nat) (c : Core) : Core :=
  if c.alerts.any (fun a => a.sub == sub) then { c with alerts := c.alerts.map (mergeAlert sub) }
  else { c with alerts := c.alerts ++ [alertCause sub fadr finfo] }

/-- A twin alert raised on every core of ALERTCORES, if its kind is enabled. -/
def alert (s : State) (sub fadr finfo : Nat) : State :=
  if bit (fget s TWIN_TWCFG_ALERTEN) (sub - 1) then
    { s with
      cores := s.cores.zipIdx.map (fun p =>
        if bit (fget s TWIN_TWCFG_ALERTCORES) p.2 && corePresent s p.2 then alertCore sub fadr finfo p.1 else p.1) }
  else s

/-! ### Queue SYNC (R501) -/

/-- Frames sent in turn. -/
def sendAll : List (Bool × TwBody) → State → State
  | [], s => s
  | (l, b) :: r, s => sendAll r (twSend s l b)

/-- A list of bodies with LAST on the final one. -/
def markLast : List TwBody → List (Bool × TwBody)
  | [] => []
  | [b] => [(true, b)]
  | b :: r => (false, b) :: markLast r

/-- Message slots read from number `i` up. -/
def readSlots (d : QDesc) : Nat → Nat → State → State × List (List CapW)
  | _, 0, s => (s, [])
  | i, n + 1, s =>
    match getWords (blkReq 5 none) (slotAddr d i) 4 s with
    | (s1, w, _) =>
      match readSlots d (i + 1) n s1 with
      | (s2, r) => (s2, w :: r)

/-- The queue SYNC frames of queue `q` placed in the stream: as many as its slots need, at least one. -/
def queueSyncSend (s : State) (q : Nat) : State :=
  let d := qdesc s q
  match readSlots d d.get (qfill d) s with
  | (s1, l) =>
    let parts := match chunks 28 (l.length + 1) l with
      | [] => [[]]
      | p => p
    setQsyncBusy (sendAll (markLast (parts.map (fun p => TwBody.queueSync q d.put d.get d.ovf p))) s1)

/-- The enabled twinned queues. -/
def twinnedQueues (s : State) : List Nat := (s.queues.filter (fun p => p.2.en && p.2.twin)).map (·.1)

/-- A queue SYNC of each of them, when the peer enters STANDBY. -/
def syncQueues (s : State) : State := if replicates s 2 then (twinnedQueues s).foldl queueSyncSend s else s

/-! ### Roles (R508) -/

/-- Unfinished records, checkpoints and queue SYNCs discarded whole (R501, R502, R506). -/
def discardParts (s : State) : State :=
  let s1 := match s.twin.ckPart with
    | { body := .checkpoint t _ _ _ _, .. } :: _ => raise (fset s TWIN_CKLAST_DISCARDED t) 0x0D 7
    | _ => s
  updTwin s1 (fun t => { t with recPart := [], ckPart := [], qsPart := [] })

/-- A SYNC copy ends with status `st` and event 920 (R503). -/
def syncEnd (s : State) (st : Nat) : State :=
  raise (fset (fset (updTwin s (fun t => { t with sync := none })) TWIN_SYNCCMD_BUSY 0) TWIN_SYNCCMD_STATUS st) 0x0D 8

/-- The queued captures, copies and RECPUSH requests end with CANCELLED (R503, R519). -/
def cancelOps (s : State) : State :=
  let s1 := if s.twin.sync.isSome then syncEnd s 2 else s
  let s2 := if s1.twin.push.isSome then fset (fset s1 TWIN_RECPUSH_BUSY 0) TWIN_RECPUSH_STATUS 2 else s1
  fset (updTwin s2 (fun t => { t with push := none, capture := none, switching := none })) TWIN_CKREQ_BUSY 0

/-- Unacknowledged frames discarded, and with them those that wait (R498); a QSYNC cut off ends with CANCELLED (R501). -/
def dropFrames (s : State) : State :=
  let s1 := setBacklog (updTwin s (fun t => { t with tx := [], waiting := [], fenceLeft := 0 }))
  if fon s1 TWIN_QSYNC_BUSY then fset (fset s1 TWIN_QSYNC_BUSY 0) TWIN_QSYNC_STATUS 2 else s1

/-- Whether LINE may be raised (R509, R568): the field die, where there is one, has reported TWINCL = 0 for 2 µs, and no boundary-scan
instruction holds the line down. -/
def lineMay (s : State) : Bool :=
  !jtagHolds s && (!Config.fieldDie s.variant || (bridgeUp s && !fon s MEAS_AUTHSTAT_TWINCL && decide (400 ≤ s.twin.clear)))

/-- LINE asserted in SOLO or PRIMARY as soon as it may be (R509). -/
def lineTry (s : State) : State :=
  if running s 0x0D && (twRole s == 1 || twRole s == 2) && lineMay s then fset s TWIN_ROLE_LINE 1 else s

/-- The role changes to `r` (R508): event 912, REASON, LINE and, on leaving PRIMARY for any reason but a reset, RELINQUISH
(R516). `cmd`: LINE falls by command, so that no AUTHLOST is raised. -/
def setRole (s : State) (r reason : Nat) (cmd rst : Bool) : State :=
  let old := twRole s
  let s1 := discardParts (if old = 2 then dropFrames (cancelOps s) else s)
  let s2 := fset (fset (fset s1 TWIN_ROLE_ROLE r) TWIN_ROLE_REASON reason) TWIN_ROLE_READY 0
  let keeps := r == 1 || r == 2
  let s3 := if keeps then s2 else fset s2 TWIN_ROLE_LINE 0
  let s4 := raise (updTwin s3 (fun t => { t with take := none })) 0x0D 0
  let s5 := if authority s && !keeps && !cmd then alert s4 3 0 (r + reason * 256) else s4
  lineTry (if old = 2 && !rst then twSend s5 false .relinquish else s5)

/-- TKDOM of bank `n`. -/
def tkdom (s : State) (n : Nat) : Nat := bits (reg s (TWIN_TKDOM (n / 8))).toNat (4 * (n % 8) + 2) (4 * (n % 8))

/-- The banks that follow a takeover: their TKDOM code is a domain. -/
def takenBanks (s : State) : List Nat := (upTo (Config.memBanks s.variant)).filter (fun n => decide (tkdom s n < 6))

/-- DOM of every enabled twinned queue set to what `f` gives. -/
def queueDoms (s : State) (f : State → QDesc → Nat) : State :=
  (twinnedQueues s).foldl (fun st q => setQdesc st q { qdesc st q with dom := f s (qdesc st q) }) s

/-- The entry into STANDBY (R508): LINE falls first, the banks go to twin, and so do the twinned queues. -/
def enterStandby (s : State) (reason : Nat) (ready : Bool) : State :=
  let s1 := setRole (fset s TWIN_ROLE_LINE 0) 3 reason true true
  let s2 := (takenBanks s1).foldl (fun st n => beginHandover st n 4) s1
  let s3 := queueDoms s2 (fun _ _ => 4)
  fset (fset (updTwin s3 (fun t => { t with closed := false, lost := false })) TWIN_ROLE_READY (b2n ready)) TWIN_ROLE_SPLIT 0

/-- Automatic takeover as it is in force (R520). -/
def autoTake (s : State) : Bool := fon s TWIN_TWCFG_AUTOTAKE && accepted s 0x0D 5

/-- The peer is declared lost (R507): event 913, PEERLOST and the changes of role that follow; a standby closes its receive path
and, where it may, takes over (R510, R511). -/
def peerLost (s : State) : State :=
  if fon s TWIN_ROLE_PEERVALID || (decide (2 ≤ twRole s) && !s.twin.lost) then
    let info := twRole s + fget s TWIN_ROLE_PEERROLE * 16
    let s1 := alert (raise (fset (updTwin s (fun t => { t with lost := true, disagree := 0 })) TWIN_ROLE_PEERVALID 0) 0x0D 1) 1 0 info
    match twRole s with
    | 2 => setRole s1 1 3 false false
    | 3 =>
      let s2 := discardParts (updTwin s1 (fun t => { t with closed := true, rxq := [] }))
      if fon s TWIN_ROLE_READY then updTwin s2 (fun t => { t with take := if autoTake s then some 3 else t.take }) else setRole s2 0 3 false false
    | _ => s1
  else s

/-- The link goes down (R490, R498): the peer is lost, what was in flight is discarded, and HELLO must be exchanged anew. -/
def linkDown (s : State) : State :=
  let s1 := if linkUp s then fset s TWIN_LINKSTAT_UP 0 else s
  let s2 := discardParts (dropFrames (peerLost s1))
  updTwin s2 (fun t => { t with nonce := none, peerNonce := none, keyTx := [], keyRx := [], rxq := [] })

/-! ### The link (R490–R493) -/

/-- The package's own HELLO goes out with a nonce from the TRNG (R491). -/
def sendHello (s : State) : State :=
  let w := (upTo 4).foldl (fun x i => x + (Config.random (s.free + i)).toNat * 2 ^ (32 * i)) 0
  countUp (takeFree (takeFree (takeFree (takeFree (updTwin s (fun t => { t with nonce := some (BitVec.ofNat 128 w) })))))) TWIN_TXFR_CNT

/-- LANE_TRAINED: lane `l` completes training; the first lane starts the HELLO exchange. -/
def laneTrained (s : State) (l : Nat) : State :=
  if l < 4 then
    let s1 := fset s TWIN_LINKSTAT_LANES (withBits (fget s TWIN_LINKSTAT_LANES) l l 1)
    if s1.twin.nonce.isNone then sendHello s1 else s1
  else s

/-- LANE_LOSS (R490). -/
def laneLoss (s : State) (l : Nat) : State :=
  if l < 4 ∧ bit (fget s TWIN_LINKSTAT_LANES) l then
    let s1 := raise (fset s TWIN_LINKSTAT_LANES (withBits (fget s TWIN_LINKSTAT_LANES) l l 0)) 0x0D 10
    if fget s1 TWIN_LINKSTAT_LANES = 0 then linkDown s1 else s1
  else s

/-- TWIN enters FAULT (R519). -/
def twinFault (s : State) : State :=
  if blkState s 0x0D = 1 ∨ blkState s 0x0D = 2 then
    let s1 := setBlkState s 0x0D 4
    if twRole s1 = 0 then s1 else setRole s1 0 9 false false
  else s

/-- The nonce string of a package. -/
def nonceBytes (n : W128) : List Byte := beBytes 16 n.toNat

/-- The session key for the label of one direction (R491): SP 800-108 counter mode with AES-CMAC. -/
def sessionKey (key : List Byte) (label : Byte) (lo hi : W128) : List Byte :=
  kdfCtr key ([label, 0] ++ nonceBytes lo ++ nonceBytes hi) key.length

/-- The exchange completes: keys, sequence numbers and the link's state (R490–R492). -/
def linkOpen (s : State) (key : List Byte) (own peer : W128) (role : Nat) (prio : Bool) (unitmap : W32) (accept : W64) (latency : Nat) : State :=
  let lo := if own.toNat ≤ peer.toNat then own else peer
  let hi := if own.toNat ≤ peer.toNat then peer else own
  let mine : Byte := if own.toNat ≤ peer.toNat then 1 else 2
  let s1 := updTwin s (fun t =>
    { t with
      peerNonce := some peer, peerPrio := prio, peerUnitmap := unitmap, peerAccept := accept, keyTx := sessionKey key mine lo hi,
      keyRx := sessionKey key (3 - mine) lo hi, txSeq := 0, rxSeq := 0, tx := [], waiting := [], fenceLeft := 0, rxq := [], closed := false, peerReady := false })
  raise (fset (fset (fset (countUp s1 TWIN_RXFR_CNT) TWIN_LINKSTAT_UP 1) TWIN_LINKSTAT_LATENCY latency) TWIN_ROLE_PEERROLE role) 0x0D 9

/-- The tag that a HELLO with these fields has under key `key` (R491). -/
def helloTag (key : List Byte) (nonce : W128) (role : BitVec 3) (prio : Bool) (unitmap : W32) (accept : W64) : W128 :=
  BitVec.ofNat 128 (beVal (aesCmac key (Config.helloBytes nonce role prio unitmap accept)))

/-- HELLO (R491, R508, R519): a peer's HELLO arrives with its fields and its tag. Without a usable slot key TWIN enters FAULT; a wrong tag is
counted, and the frame discarded. -/
def hello (s : State) (nonce : W128) (role : BitVec 3) (prio : Bool) (unitmap : W32) (accept : W64) (latency : Nat) (tag : W128) : State :=
  if fget s TWIN_LINKSTAT_LANES = 0 then s
  else
    match twinKey s with
    | none => twinFault s
    | some key =>
      if tag ≠ helloTag key nonce role prio unitmap accept then countUp s TWIN_AUTHERR_CNT else
      let s1 := if linkUp s then linkDown s else s
      let s2 := if s1.twin.nonce.isNone then sendHello s1 else s1
      let s3 := linkOpen s2 key (s2.twin.nonce.getD 0) nonce role.toNat prio unitmap accept latency
      if twRole s3 = 1 ∧ role = 1 ∧ (prio || !fon s3 TWIN_TWCFG_PRIO) then setRole s3 0 10 false false else s3

/-- The words of a received body, their tags as `legalTag` allows them. -/
def legalBody : TwBody → TwBody
  | .store l => .store (l.map (fun p => (p.1, legalTag p.2)))
  | .queueOp q put get ovf msg => .queueOp q put get ovf (msg.map (fun l => l.map legalTag))
  | .queueSync q put get ovf slots => .queueSync q put get ovf (slots.map (fun l => l.map legalTag))
  | .record ctx first words => .record ctx first (words.map legalTag)
  | b => b

/-- Whether a frame calls for an acknowledgement of its own. -/
def needsAck : TwBody → Bool
  | .ack _ => false
  | _ => true

/-- TYPE of a frame (R492). -/
def twType : TwBody → Byte
  | .heartbeat .. => 0x02
  | .store _ => 0x03
  | .queueOp .. => 0x04
  | .queueSync .. => 0x04
  | .record .. => 0x05
  | .checkpoint .. => 0x06
  | .relinquish => 0x07
  | .triple .. => 0x07
  | .join => 0x07
  | .syncDone => 0x07
  | .peerFence => 0x08
  | .peerReset => 0x08
  | .ack _ => 0x09
  | .nakStore .. => 0x0A
  | .nakQueue .. => 0x0A
  | .nakRecord .. => 0x0A

/-- The header of a frame (R492). -/
def twHeader (f : TwFrame) : List Byte :=
  [twType f.body, if f.last then 1 else 0] ++ leBytes 2 (bodyBytes f.body) ++ leBytes 4 0 ++ leBytes 8 f.seq

/-- A record of a STORE body (R492). -/
def storeRecord (p : Nat × CapW) : List Byte := leBytes 8 (p.1 % 2 ^ 40 / 16 * 16 + b2n p.2.tag) ++ leBytes 16 p.2.bits.toNat

/-- The body of a frame in clear. -/
def twBody : TwBody → List Byte
  | .store l => l.flatMap storeRecord
  | b => (upTo (bodyBytes b)).map (Config.twinByte b)

/-- The IV of the frame with number `seq` (R491). -/
def twIv (seq : Nat) : List Byte := leBytes 4 0 ++ beBytes 8 seq

/-- The GCM tag of a frame under the key of its direction: the header is the AAD, and the body is encrypted (R491). -/
def twTag (key : List Byte) (f : TwFrame) : W128 :=
  BitVec.ofNat 128 (beVal (gcmTag key (twIv f.seq) (twHeader f) (gcmCrypt key (twIv f.seq) (twBody f.body))))

/-- TWIN_FRAME_RECEIVE (R493): a frame arrives, its body decrypted, with its GCM tag. -/
def frameReceive (s : State) (f : TwFrame) (tag : W128) : State :=
  if !linkUp s then s
  else if tag ≠ twTag s.twin.keyRx f then raise (countUp s TWIN_AUTHERR_CNT) 0x0D 4
  else if f.seq ≠ s.twin.rxSeq + 1 then s
  else
    let s1 := countUp (updTwin s (fun t => { t with rxSeq := f.seq, rxq := if t.closed then t.rxq else t.rxq ++ [(s.tick, { f with body := legalBody f.body })] })) TWIN_RXFR_CNT
    if needsAck f.body then twSend s1 false (.ack f.seq) else s1

/-- The first accepted frame is taken, and `f` acts on it with its tick of receipt. -/
def takeFrame (s : State) (f : State → Nat → TwFrame → Option State) : State :=
  match s.twin.rxq with
  | [] => s
  | (t, x) :: r =>
    match f (updTwin s (fun w => { w with rxq := r })) t x with
    | some s1 => s1
    | none => s

/-- Whether the standby performs what feature bit `k` replicates: one that has lost its peer does so only after it has joined anew (R511). -/
def standsBy (s : State) (k : Nat) : Bool := running s 0x0D && accepted s 0x0D k && twRole s == 3 && !s.twin.closed && !s.twin.lost

/-- ACK: frames up to `n` leave the transmit buffer, and frames that wait for its room follow (R493). -/
def ackFrames (s : State) (n : Nat) : State :=
  let s1 := setBacklog (updTwin s (fun t => { t with tx := t.tx.filter (fun f => decide (n < f.seq)) }))
  setQsyncBusy (drainWaiting s1.twin.waiting s1)

/-- The unacknowledged frames are sent again, bit-identical (R493). -/
def resend (s : State) : State := s.twin.tx.foldl (fun st _ => countUp st TWIN_TXFR_CNT) s

/-! ### Replication on the standby (R496, R500–R502) -/

/-- Replicated words written in the twin domain; a refused one is answered with a NAK (R496). -/
def storeRecs : List (Nat × CapW) → State → State
  | [], s => s
  | (a, w) :: r, s =>
    match portBWord s a w twinWho .twin with
    | (s1, st) => storeRecs r (if st = .ok then s1 else twSend s1 false (.nakStore a (statusCode st)))

/-- STORE. -/
def storeFrame (s : State) (_ : Nat) (f : TwFrame) : Option State :=
  match f.body with
  | .store l => some (if standsBy s 1 then storeRecs l s else s)
  | _ => none

/-- A header slot written in the twin domain. -/
def twinHeader (s : State) (d : QDesc) : State × Status :=
  putWords (blkReq 5 none) .twin d.base [⟨BitVec.ofNat 128 (d.put + d.get * 2 ^ 32 + d.ovf * 2 ^ 64), false⟩, nullW, nullW, nullW] s

/-- Whether counts `put`, `get`, `ovf` follow from those of `d` by one accepted put or get (R500). -/
def countsFollow (d : QDesc) (put get ovf : Nat) (isPut : Bool) : Bool :=
  if isPut then
    (d.put + 1) % 2 ^ 32 == put && ((d.get == get && d.ovf == ovf) ||
      ((d.get + 1) % 2 ^ 32 == get && (d.ovf + 1) % 2 ^ 32 == ovf && qfill d == qslots d))
  else d.put == put && (d.get + 1) % 2 ^ 32 == get && d.ovf == ovf

/-- A queue marked desynchronised (R500). -/
def desync (s : State) (q : Nat) : State :=
  twSend (raise (setQdesc s q { qdesc s q with desync := true }) 0x0D 11) false (.nakQueue q 12)

/-- A replicated put or get applied. -/
def queueOp (s : State) (q put get ovf : Nat) (msg : Option (List CapW)) : State :=
  let d := qdesc s q
  if d.desync then s
  else if !(d.en && d.twin && countsFollow d put get ovf msg.isSome) then desync s q
  else
    match (match msg with
      | some w => putWords (blkReq 5 none) .twin (slotAddr d d.put) w s
      | none => (s, .ok)) with
    | (s1, st1) =>
      match twinHeader s1 { d with put := put, get := get, ovf := ovf } with
      | (s2, st2) =>
        if worst st1 st2 = .ok then setQdesc s2 q { qdesc s2 q with put := put, get := get, ovf := ovf }
        else twSend s2 false (.nakQueue q (statusCode (worst st1 st2)))

/-- QUEUE. -/
def queueFrame (s : State) (_ : Nat) (f : TwFrame) : Option State :=
  match f.body with
  | .queueOp q put get ovf msg => some (if standsBy s 2 then queueOp s q put get ovf msg else s)
  | _ => none

/-- The slots of a queue SYNC. -/
def syncSlots : TwBody → List (List CapW)
  | .queueSync _ _ _ _ l => l
  | _ => []

/-- Message slots written from number `i` up in the twin domain. -/
def writeSlots (d : QDesc) : Nat → List (List CapW) → State → State × Status
  | _, [], s => (s, .ok)
  | i, w :: r, s =>
    match putWords (blkReq 5 none) .twin (slotAddr d i) w s with
    | (s1, st) =>
      match writeSlots d (i + 1) r s1 with
      | (s2, st2) => (s2, worst st st2)

/-- QUEUE_SYNC_APPLY (R501): the frames are kept until the one with LAST = 1, and then applied together. -/
def queueSyncFrame (s : State) (_ : Nat) (f : TwFrame) : Option State :=
  match f.body with
  | .queueSync q put get ovf _ =>
    if !standsBy s 2 then some s
    else if !f.last then some (updTwin s (fun t => { t with qsPart := t.qsPart ++ [f] }))
    else
      let d := qdesc s q
      let all := (s.twin.qsPart ++ [f]).flatMap (fun x => syncSlots x.body)
      let s0 := updTwin s (fun t => { t with qsPart := [] })
      if !(d.en && d.twin) then some s0
      else
        match writeSlots d get all s0 with
        | (s1, st1) =>
          match twinHeader s1 { d with put := put, get := get, ovf := ovf } with
          | (s2, st2) =>
            some (if worst st1 st2 = .ok then setQdesc s2 q { qdesc s2 q with put := put, get := get, ovf := ovf, desync := false }
              else twSend s2 false (.nakQueue q (statusCode (worst st1 st2))))
  | _ => none

/-- RECORD (R502): the frames of a record are kept until the one with LAST = 1; a complete record enters a context that is
SUSPENDED. -/
def recordFrame (s : State) (_ : Nat) (f : TwFrame) : Option State :=
  match f.body with
  | .record c _ _ =>
    if !standsBy s 3 then some s
    else if !f.last then some (updTwin s (fun t => { t with recPart := t.recPart ++ [f] }))
    else
      let s0 := updTwin s (fun t => { t with recPart := [] })
      if c < Config.contexts s.variant ∧ ctxState s0 c = 4 then
        some ((s.twin.recPart ++ [f]).foldl (fun st x => match x.body with
          | .record _ first ws => putRecs st c first ws
          | _ => st) s0)
      else some (twSend (raise s0 0x0D 12) false (.nakRecord c 11))
  | _ => none

/-! ### Checkpoints (R504–R506) -/

/-- The marks of set `t`. -/
def ckMarks (s : State) (t : Nat) : List Nat :=
  ((upTo (fget s (TWIN_CKSETA_MCNT t))).map (fun i => fget s (TWIN_CKSETA_MFIRST t) + i)).filter (fun m => decide (m < 4096))

/-- The cells of set `t`. -/
def ckCells (s : State) (t : Nat) : List Nat :=
  ((upTo (fget s (TWIN_CKSETB_CCNT t))).map (fun i => fget s (TWIN_CKSETB_CFIRST t) + i)).filter (fun c => decide (c < Config.cells s.variant))

/-- The axes and marks captured at the present tick. -/
def captureNow (s : State) (t : Nat) : CapS :=
  { tag := t, tick := s.tick
    axes := (upTo 16).map (fun a => (axisValid s a, BitVec.ofNat 64 (axisPos s a)))
    marks := (ckMarks s t).map (fun m => { mark := m, coord := BitVec.ofNat 64 (markCoord s m), inc := BitVec.ofNat 64 (markInc s m), ctl := reg s (PHASE_MARKCTL m) }) }

/-- A capture accepted (R505). -/
def startCapture (s : State) (t : Nat) : State := fset (updTwin s (fun w => { w with capture := some (captureNow s t) })) TWIN_CKREQ_BUSY 1

/-- A checkpoint requested with tag `t` by a mark or by CKREQ (R504): the status the mark's request completes with. Only a mark's
request asks for READY = 1 on the standby. -/
def checkpointRequest (s : State) (t : Nat) (byMark : Bool) : State × Nat :=
  if !running s 0x0D then (s, 1)
  else if twRole s ≠ 2 ∨ accepted s 0x0D 4 = false ∨ (byMark ∧ s.twin.peerReady = false) then (s, 10)
  else if s.twin.capture.isSome then (s, 9)
  else (startCapture s (t % 256), 0)

/-- A cell as a checkpoint carries it. -/
def cellCk (s : State) (c : Nat) : CellCk := { cell := c, cout := reg s (LOOP_COUT c), words := (upTo 32).map (fun i => cw s c (0x80 + 4 * i)) }

/-- A fence behind every replication frame placed in the stream so far (R499). -/
def startFence (s : State) : State :=
  fset (updTwin s (fun t => { t with fence := some t.txSeq, fenceLeft := t.waiting.length })) TWIN_RFENCE_FENCE 1

/-- CHECKPOINT_CAPTURE (R505): the cells are captured between their steps and the frames join the stream; a switch that waits goes
on (R513). -/
def checkpointCapture (s : State) : State :=
  match s.twin.capture with
  | none => s
  | some c =>
    let age := s.tick - c.tick
    let marks := (chunks 90 (c.marks.length + 1) c.marks).map (fun l => TwBody.checkpoint c.tag age [] l [])
    let cells := (ckCells s c.tag).map (cellCk s)
    let cfr := (chunks 14 (cells.length + 1) cells).map (fun l => TwBody.checkpoint c.tag age [] [] l)
    let s1 := sendAll (markLast (TwBody.checkpoint c.tag age c.axes [] [] :: (marks ++ cfr))) s
    let s2 := fset (fset (updTwin s1 (fun t => { t with capture := none })) TWIN_CKREQ_BUSY 0) TWIN_CKLAST_SENT c.tag
    match s2.twin.switching with
    | some (t, 0) => startCapture (updTwin s2 (fun w => { w with switching := some (t, 1) })) t
    | some (t, _) => startFence (updTwin s2 (fun w => { w with switching := some (t, 2) }))
    | none => s2

/-- The coordinate axis `a` held at tick `t`. -/
def posAt (s : State) (a t : Nat) : Nat :=
  if a = 0 then t * 2 ^ 32 / 200000000
  else match segAt t (axisS s a).segs with
  | some p => (p / 65536 % (2 ^ 64 : Nat)).toNat
  | none => axisPos s a

/-- The translation D of axis `a` (R506): `d` is its own coordinate less the sender's. -/
def axisShift (s : State) (a : Nat) (d : Int) : Int :=
  match bits (reg s TWIN_AXMODE).toNat (2 * a + 1) (2 * a) with
  | 1 => (d + (2 ^ 31 : Nat)) / (2 ^ 32 : Nat) * (2 ^ 32 : Nat)
  | 2 => d
  | _ => 0

/-- A checkpointed mark written, translated; without a valid coordinate on both packages it is written disarmed. -/
def applyMark (t0 : Nat) (axes : List (Bool × W64)) (s : State) (m : MarkCk) : State :=
  let a := bits m.ctl.toNat 30 27
  match axes[a]? with
  | some (v, p) =>
    let d := sdiff (posAt s a t0) p.toNat
    let ctl := if v && axisValid s a then m.ctl else BitVec.ofNat 32 (m.ctl.toNat % 2 ^ 31)
    restoreMark s m.mark (((m.coord.toNat : Int) + axisShift s a d) % (2 ^ 64 : Nat)).toNat m.inc.toNat ctl
  | none => s

/-- A checkpointed cell written between two of its steps. -/
def applyCell (s : State) (c : CellCk) : State :=
  if c.cell < Config.cells s.variant then
    c.words.zipIdx.foldl (fun st p => setCw st c.cell (0x80 + 4 * p.2) p.1) (setReg s (LOOP_COUT c.cell) c.cout)
  else s

/-- The parts of a checkpoint. -/
def ckAxes : TwBody → List (Bool × W64)
  | .checkpoint _ _ a _ _ => a
  | _ => []
def ckMarkList : TwBody → List MarkCk
  | .checkpoint _ _ _ m _ => m
  | _ => []
def ckCellList : TwBody → List CellCk
  | .checkpoint _ _ _ _ c => c
  | _ => []

/-- CHECKPOINT (R506): the frames are kept until the one with LAST = 1, and then applied. -/
def checkpointFrame (s : State) (rx : Nat) (f : TwFrame) : Option State :=
  match f.body with
  | .checkpoint tag age _ _ _ =>
    if !standsBy s 4 then some s
    else if !f.last then some (updTwin s (fun t => { t with ckPart := t.ckPart ++ [f] }))
    else
      let all := (s.twin.ckPart ++ [f]).map (·.body)
      let t0 := rx - fget s TWIN_LINKSTAT_LATENCY - age
      let s1 := (all.flatMap ckMarkList).foldl (applyMark t0 (all.flatMap ckAxes)) (updTwin s (fun t => { t with ckPart := [] }))
      some (raise (fset ((all.flatMap ckCellList).foldl applyCell s1) TWIN_CKLAST_APPLIED (tag % 256)) 0x0D 6)
  | _ => none

/-! ### Fence, switch, takeover (R499, R510–R513) -/

/-- Whether a fence at SEQ `n` is met: no earlier replication frame waits or is unacknowledged. -/
def fenceMet (s : State) (n : Nat) : Bool := s.twin.fenceLeft == 0 && !s.twin.tx.any (fun f => inStream f.body && decide (f.seq ≤ n))

/-- A switch whose fence is met: LINE falls, STANDBY is entered and RELINQUISH sent (R513). -/
def switchOver (s : State) : State :=
  match s.twin.switching with
  | some (_, 2) => twSend (enterStandby (updTwin s (fun t => { t with switching := none })) 1 true) false .relinquish
  | _ => s

/-- RFENCE_COMPLETE (R499). -/
def fenceComplete (s : State) : State :=
  match s.twin.fence with
  | none => s
  | some n => if !linkUp s || fenceMet s n then switchOver (fset (updTwin s (fun t => { t with fence := none, fenceLeft := 0 })) TWIN_RFENCE_FENCE 0) else s

/-- TAKEOVER (R510): the standby that a loss, a RELINQUISH, a TAKE or the end of a split has made due takes over. -/
def takeover (s : State) : State :=
  match s.twin.take with
  | none => s
  | some reason =>
    if twRole s = 3 ∧ fon s TWIN_ROLE_READY ∧ lineMay s ∧ running s 0x0D then
      let pairs := reason == 4 && fon s TWIN_ROLE_PEERVALID
      let r := if pairs then 2 else 1
      let s1 := discardParts s
      let mine := (takenBanks s1).filter (fun n => fget s1 (MEM_BOWN_DOM n) == 4 || (fget s1 (MEM_BOWN_DOM n) == 7 && fget s1 (MEM_BOWN_TARGET n) == 4))
      let s2 := mine.foldl (fun st n => completeHandover (beginHandover st n (tkdom st n)) n) s1
      let s3 := queueDoms s2 (fun st d => if d.dom = 4 then fget st (MEM_BOWN_DOM (bankNo d.base)) else d.dom)
      let s4 := setRole (updTwin s3 (fun t => { t with closed := !pairs && t.closed })) r reason true true
      let s5 := alert (lineTry s4) 2 0 (r + reason * 256)
      if pairs then syncQueues s5 else s5
    else s

/-- SPLIT (R511): 150 µs after the loss, TWINCL still reads 1. -/
def split (s : State) : State :=
  if twRole s = 3 ∧ s.twin.lost ∧ fon s MEAS_AUTHSTAT_TWINCL ∧ fon s TWIN_ROLE_SPLIT = false then
    let s1 := alert (raise (fset s TWIN_ROLE_SPLIT 1) 0x0D 2) 6 0 (twRole s + fget s TWIN_ROLE_PEERROLE * 16)
    if fon s TWIN_TWCFG_SPLITFENCE then setRole (takeFree s1) 0 ((Config.word s.free).toNat % 16) false false
    else updTwin s1 (fun t => { t with take := if t.take.isSome then some 7 else none })
  else s

/-- The claim of the twin as TWIN watches it at each phase tick: LINE rises once it has been absent for 2 µs (R509). -/
def twinTick (s : State) : State :=
  let ok := bridgeUp s && !fon s MEAS_AUTHSTAT_TWINCL
  lineTry (if Config.fieldDie s.variant then updTwin s (fun t => { t with clear := if ok then min (t.clear + 1) 400 else 0 }) else s)

/-- The field die reports the twin's claim while this package claims (R508, R509): event 925; a package that has stopped claiming
enters FENCED. `claimed`: it claimed before the report. -/
def claimConflict (s : State) (claimed : Bool) : State :=
  let s1 := updTwin s (fun t => { t with clear := 0 })
  if claimed then
    let s2 := raise s1 0x0D 13
    if fon s2 MEAS_AUTHSTAT_CLAIM = false ∧ (twRole s2 = 1 ∨ twRole s2 = 2) then setRole s2 0 6 false false else s2
  else s1

/-! ### Heartbeats, notices, NAKs (R507, R516, R517) -/

/-- HEARTBEAT_SEND. -/
def heartbeatSend (s : State) : State :=
  twSend s false (.heartbeat (twRole s) (fon s TWIN_ROLE_READY) (authority s) (fon s MEAS_AUTHSTAT_CLAIM) (fon s MEAS_AUTHSTAT_TWINCL)
    (fon s MEAS_AUTHSTAT_DRIVE) (BitVec.ofNat 64 (axisPos s 0)))

/-- HEARTBEAT: the peer's role, READY and claim; three in a row whose claims disagree raise event 926. -/
def heartbeatFrame (s : State) (_ : Nat) (f : TwFrame) : Option State :=
  match f.body with
  | .heartbeat role ready _ claim twincl _ _ =>
    let bad := Config.fieldDie s.variant && (claim != fon s MEAS_AUTHSTAT_TWINCL || fon s MEAS_AUTHSTAT_CLAIM != twincl)
    let n := if bad then s.twin.disagree + 1 else 0
    let s1 := fset (fset (updTwin s (fun t => { t with lost := t.lost && twRole s == 3, peerReady := ready, disagree := n % 3 })) TWIN_ROLE_PEERVALID 1)
      TWIN_ROLE_PEERROLE role
    let s2 := if n = 3 then raise s1 0x0D 14 else s1
    some (if twRole s2 = 2 ∧ role = 0 then setRole s2 1 5 false false else s2)
  | _ => none

/-- Whether this package and the peer may pair (R508). -/
def mayPair (s : State) : Bool :=
  s.twin.peerUnitmap == reg s BOOT_UNITMAP && s.twin.peerAccept.toNat == (reg s (FEAT_ACCEPT 0x0D)).toNat

/-- NOTICE (R516), and the JOIN and SYNCDONE of the peer (R508). -/
def noticeFrame (s : State) (_ : Nat) (f : TwFrame) : Option State :=
  match f.body with
  | .relinquish => some (if twRole s = 3 ∧ fon s TWIN_ROLE_READY then updTwin s (fun t => { t with take := some 4 }) else s)
  | .triple c x df cause => some (alert (raise s 0x0D 5) 5 0 (c + x * 16 + df * 2 ^ 16 + cause * 2 ^ 24))
  | .join =>
    some (if twRole s = 1 ∧ running s 0x0D then
        if mayPair s then syncQueues (setRole (updTwin s (fun t => { t with peerReady := false })) 2 2 false false) else raise s 0x0D 12
      else s)
  | .syncDone => some (if twRole s = 3 then fset s TWIN_ROLE_READY 1 else s)
  | _ => none

/-- A NAK received on the primary: counted, event 915, REPLNAK, and the frames are sent again at once (R493, R496). -/
def nakReceived (s : State) (fadr finfo : Nat) : State := resend (alert (raise (countUp s TWIN_NAK_CNT) 0x0D 3) 4 fadr finfo)

/-- NAK: a NAK with status DESYNC also calls for a queue SYNC (R501). -/
def nakFrame (s : State) (_ : Nat) (f : TwFrame) : Option State :=
  match f.body with
  | .nakStore a st => some (if twRole s = 2 then nakReceived s a st else s)
  | .nakQueue q st =>
    some (if twRole s = 2 then
        let s1 := nakReceived s 0 (st + 16 + q * 256)
        if st = 12 ∧ replicates s1 2 ∧ (qdesc s1 q).en ∧ (qdesc s1 q).twin then queueSyncSend s1 q else s1
      else s)
  | .nakRecord c st => some (if twRole s = 2 then nakReceived s 0 (st + 32 + c * 256) else s)
  | _ => none

/-- ACK. -/
def ackFrame (s : State) (_ : Nat) (f : TwFrame) : Option State :=
  match f.body with
  | .ack n => some (ackFrames s n)
  | _ => none

/-! ### Commands (R501–R503, R508, R513, R517) -/

/-- ROLECMD with operation `op` (R508). A refused one sets ERR_CODE to 0x12, an unknown one to 0x11. -/
def roleCmd (s : State) (q : RegWrite) : State :=
  let role := twRole s
  let deny := reject s q 0x12
  if !running s 0x0D then s
  else
    match bits q.v.toNat 3 0 with
    | 1 => if role = 0 then setRole s 1 1 true false else deny
    | 2 =>
      if role ≠ 0 then deny
      else if linkUp s ∧ fon s TWIN_ROLE_PEERVALID ∧ fget s TWIN_ROLE_PEERROLE = 1 ∧ mayPair s then enterStandby (twSend s false .join) 2 false
      else raise (twSend s false .join) 0x0D 12
    | 3 =>
      if role = 2 ∧ s.twin.peerReady then
        if s.twin.capture.isSome then updTwin s (fun t => { t with switching := some (bits q.v.toNat 15 8, 0) })
        else startCapture (updTwin s (fun t => { t with switching := some (bits q.v.toNat 15 8, 1) })) (bits q.v.toNat 15 8)
      else deny
    | 4 => if role = 0 then deny else setRole s 0 1 true false
    | 5 =>
      if role = 3 ∧ fon s TWIN_ROLE_READY ∧ fon s TWIN_ROLE_PEERVALID = false then updTwin s (fun t => { t with take := some 3 }) else deny
    | 6 => if role = 2 then twSend s false .syncDone else deny
    | 7 => if accepted s 0x0D 6 then twSend s false .peerFence else reject s q 0x11
    | 8 => if accepted s 0x0D 6 then twSend s false .peerReset else reject s q 0x11
    | _ => reject s q 0x11

/-- A write of RFENCE (R499). -/
def rfenceWrite (s : State) (v : Nat) : State :=
  if bit v 0 then
    if linkUp s then startFence s else s
  else s

/-- A write of RECPUSH (R502). -/
def recpush (s : State) (q : RegWrite) : State :=
  let c := bits q.v.toNat 11 0
  let done (st : Nat) : State := fset s TWIN_RECPUSH_STATUS st
  if s.twin.push.isSome then reject s q 0x10
  else if !running s 0x0D then done 1
  else if !replicates s 3 then done 10
  else if Config.contexts s.variant ≤ c then done 7
  else
    match heldAt s c with
    | some _ => askEvict (fset (updTwin s (fun t => { t with push := some c })) TWIN_RECPUSH_BUSY 1) c
    | none =>
      match recCheck c (upTo 48) s with
      | (s1, false) => fset (sendRecord s1 c) TWIN_RECPUSH_STATUS 0
      | (s1, true) => fset s1 TWIN_RECPUSH_STATUS 5

/-- A write of SYNCCMD (R503). -/
def syncStart (s : State) (q : RegWrite) : State :=
  if !bit q.v.toNat 0 then s
  else if s.twin.sync.isSome then reject s q 0x10
  else if !running s 0x0D then syncEnd s 1
  else if !replicates s 1 then syncEnd s 10
  else
    let a := fget s TWIN_SYNCADDR_LO_ADDR * 16 + fget s TWIN_SYNCADDR_HI_ADDR * 2 ^ 32
    let n := fget s TWIN_SYNCLEN_WORDS
    if Config.memBytes s.variant < a + 16 * n then syncEnd s 8
    else fset (updTwin s (fun t => { t with sync := some (a, n) })) TWIN_SYNCCMD_BUSY 1

/-- Words copied into the stream while the transmit buffer has room: what is left, and the status. -/
def syncWords : Nat → Nat → State → State × Nat × Nat × Status
  | 0, a, s => (s, a, 0, .ok)
  | n + 1, a, s =>
    if !twFree s 56 then (s, a, n + 1, .ok)
    else
      match portBReadWord s a twinWho with
      | (s1, w, .ok) => syncWords n (a + 16) (twSend s1 false (.store [(a, w)]))
      | (s1, _, st) => (s1, a, 0, st)

/-- SYNC_DONE (R503): the copy goes on as far as the transmit buffer has room, and ends when every word is in the stream. -/
def syncDone (s : State) : State :=
  match s.twin.sync with
  | none => s
  | some (a, n) =>
    match syncWords n a s with
    | (s1, _, 0, st) => syncEnd s1 (statusCode st)
    | (s1, a1, n1, _) => updTwin s1 (fun t => { t with sync := some (a1, n1) })

/-- A write of QSYNC (R501). The capture and the placing in the stream are one step; BUSY lasts while its frames wait for room. -/
def qsync (s : State) (w : RegWrite) : State :=
  let q := bits w.v.toNat 13 0
  let d := qdesc s q
  if fon s TWIN_QSYNC_BUSY then reject s w 0x10
  else if !running s 0x0D then fset s TWIN_QSYNC_STATUS 1
  else if !replicates s 2 then fset s TWIN_QSYNC_STATUS 10
  else if Config.queues s.variant ≤ q ∨ q = 0 ∨ (d.en && d.twin) = false then fset s TWIN_QSYNC_STATUS 11
  else
    let s1 := queueSyncSend s q
    if fon s1 TWIN_QSYNC_BUSY then s1 else fset s1 TWIN_QSYNC_STATUS 0

/-- JTAG_INSTRUCTION (R567, R568): an instruction is loaded into the TAP; one that drives the pins takes the authority line down. -/
def jtagLoad (s : State) (ir : Nat) : State :=
  let s1 := { s with dbg := { s.dbg with ir := ir % 256 } }
  if jtagHolds s1 && authority s1 then alert (fset s1 TWIN_ROLE_LINE 0) 3 0 (twRole s1 + fget s1 TWIN_ROLE_REASON * 256) else lineTry s1

/-! ### The page -/

/-- The code that refuses a write of TWCFG, TKDOM or AXMODE (R521). -/
def twinCode (s : State) (q : RegWrite) : Nat :=
  let locked := 2 ≤ twRole s
  if q.a = TWIN_TWCFG then
    if locked ∧ (bits q.v.toNat 20 16 ≠ fget s TWIN_TWCFG_KSLOT ∨ bits q.v.toNat 28 28 ≠ fget s TWIN_TWCFG_PRIO) then 0x13 else 0
  else if q.a = TWIN_TKDOM 0 ∨ q.a = TWIN_TKDOM 1 then
    if locked then 0x13 else if (upTo 8).any (fun j => bits q.v.toNat (4 * j + 2) (4 * j) == 6) then 0x11 else 0
  else if q.a = TWIN_AXMODE then
    if (upTo 16).any (fun a => bits q.v.toNat (2 * a + 1) (2 * a) == 3) then 0x11 else 0
  else 0

/-- A write of the TWIN page. -/
def twinWrite (s : State) (q : RegWrite) : State :=
  if q.a = TWIN_ROLECMD then noteReserved (roleCmd s q) q
  else if q.a = TWIN_RFENCE then noteReserved (rfenceWrite s q.v.toNat) q
  else if q.a = TWIN_RECPUSH then noteReserved (recpush s q) q
  else if q.a = TWIN_SYNCCMD then noteReserved (syncStart s q) q
  else if q.a = TWIN_QSYNC then noteReserved (qsync s q) q
  else if q.a = TWIN_CKREQ then
    if s.twin.capture.isSome then reject s q 0x10
    else noteReserved (checkpointRequest s (bits q.v.toNat 7 0) false).1 q
  else checkedWrite s q (twinCode s q)

/-- TWIN leaves RUNNING because ENABLE is cleared (R519): LINE falls at once, a PRIMARY sends RELINQUISH, and the role becomes
FENCED. -/
def twinLeave (s : State) : State := cancelOps (if twRole s = 0 then s else setRole s 0 9 true false)

/-- TWIN is enabled: without a usable key it enters FAULT (R519). -/
def twinEnable (s : State) : State := if (twinKey s).isNone then twinFault s else s

/-- Frames and commands without a completion. -/
def twinInflight (s : State) : Nat :=
  s.twin.tx.length + s.twin.waiting.length + b2n s.twin.capture.isSome + b2n s.twin.sync.isSome + b2n s.twin.push.isSome + b2n s.twin.switching.isSome
    + b2n (s.twin.fence.isSome && s.twin.switching.isNone)

/-- SOFT_RESET takes the link down, and the role becomes FENCED as at a reset (R508, R519). -/
def twinClear (s : State) : State :=
  let s1 := linkDown (cancelOps (if twRole s = 0 then s else setRole s 0 0 true true))
  { s1 with twin := { TwinS.empty with clear := s1.twin.clear } }

end Sys2Proof.Machine
end

