-- ==== Sys2Proof/Machine/Reset.lean ====
section
/-! DEFINITION. Resets: the chip reset and its release, core resets, the watchdogs and the WDR page, and the boot ROM's run as the manual
describes it (R539–R549, R556). -/

namespace Sys2Proof.Machine

/-! ### The chip reset (R539–R541) -/

/-- RSTCAUSE bits: 0 power-on, 1 thermal, 2 pin, 3 chip watchdog, 4 twin command, 5 software (R541). -/
def cold (mask : Nat) : Bool := bit mask 0 || bit mask 1

/-- The repair records that a reset leaves: burnt ones always, others but at power-on and thermal resets (R563). -/
def keptRepair (s : State) (mask n : Nat) : W32 :=
  let r := reg s (TEST_REPAIR n)
  if fon s (TEST_REPAIR_VALID n) && (fon s (TEST_REPAIR_FUSED n) || !cold mask) then r else 0

/-- A bank's spare restored under its repair record (R563). -/
def restoreRepair (s : State) (old : State) (mask n : Nat) : State :=
  let r := keptRepair old mask n
  if r = 0 then s
  else fset (fset (setReg s (TEST_REPAIR n) r) (MEM_BMAP_MODE n) 3) (MEM_BMAP_TILE n) (bits r.toNat 2 0)

/-- With the fuse CWDAUTO a chip reset leaves the chip watchdog enabled with a PERIOD of 2000 ms (R544). -/
def armChipWatchdog (s : State) : State := if s.wdr.auto then setReg s WDR_CWDCTL (BitVec.ofNat 32 (2 ^ 31 + 2000)) else s

/-- The package initialised by a chip reset from the sources of `mask` (R540, R541): every block, core and context as after a reset; kept
are the waiting commands, the numbers of free values, what is outside the part (the flash device, the AUTH_PRI strap, the TAP's
instruction), the fuses, the reset records and, but at power-on and thermal resets, the data of general memory and the
spares found bad. -/
def chipInit (s : State) (mask : Nat) : State :=
  let c := cold mask
  let b := State.resetOf s.variant
  let s1 : State :=
    { b with
      pending := s.pending, free := s.free, seq := s.seq + 2, flashGen := s.flashGen
      mem := if c then [] else s.mem
      ecc := if c then [] else s.ecc
      spare := if c then [] else s.spare
      spareEcc := if c then [] else s.spareEcc
      recEcc := if c then [] else s.recEcc.filter (fun p => decide (64 ≤ p.1))
      dbg := { b.dbg with ir := if c then b.dbg.ir else s.dbg.ir }
      boot := { b.boot with bmr := List.replicate 4 (List.replicate 48 0) }
      wdr := { b.wdr with auto := s.wdr.auto } }
  let s2 := armChipWatchdog (setReg (setReg s1 WDR_RSTCAUSE (BitVec.ofNat 32 mask)) BOOT_ROLLMIN (reg s BOOT_ROLLMIN))
  let s3 := if c then s2 else setReg (setReg (setReg s2 WDR_TFREC (reg s WDR_TFREC)) WDR_TFCNT (reg s WDR_TFCNT)) TEST_SPAREBAD (reg s TEST_SPAREBAD)
  (upTo 16).foldl (fun st n => restoreRepair st s mask n) (fset s3 MEAS_AUTHSTAT_PRI (fget s MEAS_AUTHSTAT_PRI))

/-- A chip reset from source bit `k` of RSTCAUSE: the package is held, no core runs, and the sources active are collected until the
release (R540). -/
def chipReset (s : State) (k : Nat) : State :=
  let mask := withBits (s.wdr.held.getD 0) k k 1
  let s1 := chipInit s mask
  { s1 with cores := List.replicate 16 Core.empty, wdr := { s1.wdr with held := some mask } }

/-- The release of a chip reset: the steps of R540, after which core 0 stands at the reset entry address. -/
def chipRelease (s : State) : State :=
  match s.wdr.held with
  | some mask => chipInit s mask
  | none => s

/-! ### The boot ROM's run (R545–R549) -/

/-- A BMR extended with a digest (R549). -/
def extendBmr (s : State) (i : Nat) (d : List Byte) : State :=
  { s with boot := { s.boot with bmr := modAt s.boot.bmr i (fun b => sha384 (b ++ d)) } }

/-- Bytes of the flash device. -/
def flashBytes (s : State) (o n : Nat) : List Byte := (upTo n).map (fun i => Config.flashByte s.flashGen (o + i))

/-- A field of an image header: `n` bytes from offset `o` (R546). -/
def hdrNum (h : List Byte) (o n : Nat) : Nat := leVal ((h.drop o).take n)
def hdrBytes (h : List Byte) (o n : Nat) : List Byte := (h.drop o).take n

/-- The checks of a header before the load (R547): the first code that fails, 0 for none. -/
def headerCode (s : State) (h : List Byte) (log2 : Nat) : Nat :=
  let key := hdrNum h 6 1
  let len := hdrNum h 8 4
  let load := hdrNum h 0x10 8
  let entry := hdrNum h 0x18 8
  if hdrNum h 0 4 ≠ 0x4D49525A ∨ hdrNum h 4 2 ≠ 1 ∨ hdrNum h 7 1 ≠ 0 ∨ hdrNum h 0xE 2 ≠ 0 ∨ hdrNum h 0x20 32 ≠ 0 ∨ hdrNum h 0xF0 16 ≠ 0 then 2
  else if 3 < key ∨ Config.keyRevoked key ∨ sha384 (hdrBytes h 0x40 64) ≠ (upTo 48).map (Config.keyHash key) then 3
  else if hdrNum h 0xC 2 < fget s BOOT_ROLLMIN_MIN then 4
  else if len = 0 ∨ len % 16 ≠ 0 ∨ 2 ^ log2 / 2 < len + 256 ∨ load % 16 ≠ 0 ∨ Config.memBytes s.variant < load + len ∨ entry % 4 ≠ 0 ∨ len ≤ entry then 5
  else 0

/-- A slot tried (R547): the state with whatever was loaded, and the code, 0 when the slot passes. -/
def trySlot (s : State) (o log2 : Nat) : State × Nat :=
  let h := flashBytes s o 256
  let c := headerCode s h log2
  if c ≠ 0 then (s, c)
  else
    let img := flashBytes s (o + 256) (hdrNum h 8 4)
    match portBWrite s (hdrNum h 0x10 8) img (blkReq 0x10 (some 0)) .compute with
    | (s1, st) =>
      if st ≠ .ok then (s1, 8)
      else if sha384 (memBytes s1 (hdrNum h 0x10 8) (hdrNum h 8 4)) ≠ hdrBytes h 0x80 48 then (s1, 6)
      else if ecdsaVerify (sha384 (hdrBytes h 0 0xB0)) (hdrBytes h 0x40 64) (hdrBytes h 0xB0 64) then (s1, 0)
      else (s1, 7)

/-- A block enabled by the ROM with every offered feature accepted (R545). -/
def romEnable (s : State) (b : Nat) : State :=
  setBlkState (fset (setReg s (FEAT_ACCEPT b) (reg s (FEAT_OFFER b))) (CTRL_ENABLE b) 1) b 1

/-- A ROM handler: the root c1 with its cursor at an address of the boot ROM that is not stated (R548). -/
def romHandler (s : State) (k : Nat) : CapW :=
  mkCap 0x2C7F 0 34 0 8191 (0xF0000000 + (Config.word (s.free + k)).toNat % 0x4000 * 4)

/-- The entry into the image (R548). -/
def enterImage (s : State) (h : List Byte) (slot : Nat) : State :=
  let s1 := extendBmr (extendBmr (extendBmr s 0 ((upTo 48).map Config.bootDigest)) 0 ((upTo 48).map (fun i => Config.bootDigest (48 + i)))) 1 (sha384 h)
  let s2 := setReg s1 BOOT_BOOTSTAT (BitVec.ofNat 32 (2 ^ 31 + slot * 2 ^ 28 + hdrNum h 0xC 2))
  let s3 := if slot = 1 then raise s2 0x10 1 else s2
  let r := rootRegs s3.variant
  let regs : CtxRegs :=
    { r with
      pcc := mkCap 0x2C7F 0 34 0 8191 (hdrNum h 0x10 8 + hdrNum h 0x18 8)
      pas := putAt nullW r.pas ((winCur r.winctl + 7) % 8 * 8) (intW (reg s3 BOOT_BOOTSTAT).toNat) }
  updCore s3 0 (fun c => { c with banks := modAt c.banks 0 (fun b => { b with regs := regs }) })

/-- The boot ROM's run on core 0, taken as one step from the reset entry: a device of 2^log2 bytes answers, and
its SFDP table offers the 8D-8D-8D profile or not, or none does. -/
def romBoot (s : State) (dev : Option (Nat × Bool)) : State :=
  let s1 := romEnable (romEnable s 0x10) 0x11
  let s2 := takeFree (takeFree (updCore s1 0 (fun c => { c with kentry := romHandler s1 0, dfentry := romHandler s1 1 })))
  let fail (st : State) (code : Nat) : State :=
    { setReg st BOOT_BOOTSTAT (BitVec.ofNat 32 (3 * 2 ^ 28 + code * 2 ^ 16)) with boot := { st.boot with wait := true } }
  match dev with
  | none => fail s2 1
  | some (n, octal) =>
    let s3 := fset (if octal then setReg s2 BOOT_FLCFG (BitVec.ofNat 32 (2 ^ 30 + 2)) else s2) BOOT_FLSIZE_LOG2 n
    match trySlot s3 0 n with
    | (s4, 0) => enterImage s4 (flashBytes s4 0 256) 0
    | (s4, _) =>
      match trySlot s4 (2 ^ n / 2) n with
      | (s5, 0) => enterImage s5 (flashBytes s5 (2 ^ n / 2) 256) 1
      | (s5, code) => fail s5 code

/-! ### Core resets and watchdogs (R542–R544) -/

/-- A core reset of core `n` with new cause `code` (R542): TFREC and TFCNT in place of R277 step 2, the twin notice, and the reset. -/
def coreResetBy (s : State) (n code : Nat) : State :=
  let ctx := (curCtx s n).getD 0
  let s1 := setReg s WDR_TFREC (BitVec.ofNat 32 (code * 2 ^ 24 + n * 2 ^ 12 + ctx))
  coreReset (tripleNotice (fcount s1 WDR_TFCNT_CRN 1) n ctx 0 code) n

/-- Whether core watchdog `n` counts (R543). -/
def corewdCounts (s : State) (n : Nat) : Bool :=
  corePresent s n && running s 0x12 && accepted s 0x12 1 && fon s (WDR_CORWD_EN n) && !(core s n).halted && fon s (SCHED_CORECTL_ADMIT n)

/-- Core watchdog `n` at its full period, in phase ticks. -/
def corewdLoad (s : State) (n : Nat) : State :=
  { s with wdr := { s.wdr with left := setAt s.wdr.left n (200 * fget s (WDR_CORWD_PERIOD n)), mute := setAt s.wdr.mute n 0 } }

/-- Core watchdog `n` at a phase tick: its count falls, and the ticks that its core issues with IE = 0 without a break are counted. -/
def corewdTick (s : State) (n : Nat) : State :=
  if corewdCounts s n then
    let mute := if issues s n && !stIE (status s n) then s.wdr.mute.getD n 0 + 1 else 0
    { s with wdr := { s.wdr with left := modAt s.wdr.left n (fun k => k - 1), mute := setAt s.wdr.mute n mute } }
  else s

/-- The core watchdogs at a phase tick (R543). -/
def wdrTick (s : State) : State := if running s 0x12 && accepted s 0x12 1 then (upTo 16).foldl corewdTick s else s

/-- Whether core watchdog `n` has expired: its count is zero, or its core has issued with IE = 0 for IELIM µs (R543). -/
def corewdDue (s : State) (n : Nat) (ie : Bool) : Bool :=
  corewdCounts s n &&
    (if ie then fget s (WDR_CORWD_IELIM n) != 0 && decide (200 * fget s (WDR_CORWD_IELIM n) ≤ s.wdr.mute.getD n 0) else s.wdr.left.getD n 0 == 0)

/-- CORE_WATCHDOG_EXPIRY: the period (0xFE) or the IE limit (0xFD) has run out; event 993. The count starts anew. -/
def corewdExpiry (s : State) (n : Nat) (ie : Bool) : State :=
  if corewdDue s n ie then corewdLoad (raise (coreResetBy s n (if ie then 0xFD else 0xFE)) 0x12 1) n else s

/-- CHIP_WATCHDOG_HALF: half of the period remains; event 994, once in each reload. -/
def chipwdHalf (s : State) : State :=
  if fon s WDR_CWDCTL_EN && !s.wdr.half then raise { s with wdr := { s.wdr with half := true } } 0x12 2 else s

/-- CHIP_WATCHDOG_EXPIRY. -/
def chipwdExpiry (s : State) : State := if fon s WDR_CWDCTL_EN && s.wdr.held.isNone then chipReset s 3 else s

/-- A write of SWRST (R539, R556). -/
def swrst (s : State) (q : RegWrite) : State :=
  if bits q.v.toNat 31 16 ≠ 0x5253 then reject s q 0x11
  else if bit q.v.toNat 4 then chipReset s 5
  else if corePresent s (bits q.v.toNat 3 0) then noteReserved (coreResetBy s (bits q.v.toNat 3 0) 0xFC) q
  else reject s q 0x11

/-- A write of CWDKICK (R544): the second word of the sequence, directly after the first, reloads. -/
def cwdKick (s : State) (q : RegWrite) : State :=
  if q.v = 0xC35A then { s with wdr := { s.wdr with kick := true } }
  else if q.v = 0x3CA5 ∧ s.wdr.kick then { s with wdr := { s.wdr with kick := false, half := false } }
  else reject { s with wdr := { s.wdr with kick := false } } q 0x11

/-- A write of CWDCTL (R544): EN is never cleared, PERIOD is locked once it is set, and 0 is refused. -/
def cwdCtl (s : State) (q : RegWrite) : State :=
  if fon s WDR_CWDCTL_EN then noteReserved s q
  else if bits q.v.toNat 15 0 = 0 then reject s q 0x11
  else noteReserved (setReg s WDR_CWDCTL (q.v &&& 0x8000FFFF)) q

/-- A write of CORWDn (R543, R556): an EN that rises starts the count. -/
def corwdWrite (s : State) (q : RegWrite) : State :=
  if bit q.v.toNat 31 && bits q.v.toNat 15 0 == 0 then reject s q 0x11
  else
    let s1 := plainWrite s q
    if fon s (WDR_CORWD_EN q.i) then s1 else corewdLoad s1 q.i

/-- A write of the WDR page. -/
def wdrWrite (s : State) (q : RegWrite) : State :=
  if q.a = WDR_SWRST then swrst s q
  else if q.a = WDR_CWDKICK then cwdKick s q
  else if q.a = WDR_CWDCTL then cwdCtl s q
  else if WDR_CORWD 0 ≤ q.a ∧ q.a ≤ WDR_CORWD 15 then corwdWrite s q
  else if WDR_CORKICK 0 ≤ q.a ∧ q.a ≤ WDR_CORKICK 15 then if q.v = 0x6B1D then corewdLoad s q.i else reject s q 0x11
  else plainWrite s q

/-- A read of CWDCNT: between the marks that events give, what remains is a free value within its bounds (R544). -/
def cwdLeft (s : State) : State × W32 :=
  let p := fget s WDR_CWDCTL_PERIOD
  if fon s WDR_CWDCTL_EN then
    let n := if s.wdr.half then (Config.word s.free).toNat % (p / 2 + 1) else p - (Config.word s.free).toNat % (p / 2 + 1)
    (takeFree s, BitVec.ofNat 32 n)
  else (s, 0)

end Sys2Proof.Machine
end

