-- ==== Sys2Proof/Machine/BootKey.lean ====
section
/-! DEFINITION. The boot controller's flash commands, measurement registers and rollback minimum, and the key store: commands, TRNG and
debug unlock (R549–R556). -/

namespace Sys2Proof.Machine

/-! ### BOOT -/

/-- The flash command asked for by FLCMD is refused for its address (R550). -/
def flashRange (s : State) : Bool :=
  fget s BOOT_FLCMD_ADDRN != 0 && decide (2 ^ fget s BOOT_FLSIZE_LOG2 ≤ (reg s BOOT_FLADDR).toNat)

/-- A flash command ends with status `st` and event 976. -/
def flashEnd (s : State) (st : Nat) : State :=
  raise (fset (fset { s with boot := { s.boot with flash := false } } BOOT_FLCMD_START 0) BOOT_FLSTAT_STATUS st) 0x10 0

/-- A write of FLCMD (R550, R556). A transaction is on the wires as soon as it is accepted, so that a disable lets it end (DEDUCED,
assumption 152). -/
def flcmd (s : State) (q : RegWrite) : State :=
  if s.boot.flash then reject s q 0x10
  else if bits q.v.toNat 29 28 = 3 ∨ 256 < bits q.v.toNat 24 16 then reject s q 0x11
  else
    let s1 := fset (plainWrite s q) BOOT_FLCMD_START 0
    if !bit q.v.toNat 31 || !accepted s 0x10 1 then s1
    else if !running s 0x10 then flashEnd s1 1
    else if flashRange s1 then flashEnd s1 8
    else fset { s1 with boot := { s1.boot with flash := true } } BOOT_FLCMD_START 1

/-- FLASH_COMMAND_DONE (R550): the transaction ends; `data` is what the device sent. -/
def flashDone (s : State) (data : List Byte) : State :=
  if s.boot.flash then
    let n := fget s BOOT_FLCMD_LEN
    let a := pair s BOOT_FLBUF_LO BOOT_FLBUF_HI % 2 ^ 40
    let s0 := { s with flashGen := s.flashGen + 1 }
    if fon s BOOT_FLCMD_WRITE then
      match portBRead s0 a n (blkReq 0x10 none) with
      | (s1, _, st) => flashEnd s1 (statusCode st)
    else
      match portBWrite s0 a ((data ++ List.replicate n 0).take n) (blkReq 0x10 none) .compute with
      | (s1, st) => flashEnd s1 (statusCode st)
  else s

/-- A write of BMRCTL (R549): the register is selected and, with EXT = 1 and feature bit 2, extended with the digest at EXTADDR. -/
def bmrctl (s : State) (q : RegWrite) : State :=
  let i := bits q.v.toNat 1 0
  if bit q.v.toNat 31 && decide (i < 2) && fon s BOOT_BOOTSTAT_DONE then reject s q 0x11
  else
    let s1 := fset (plainWrite s q) BOOT_BMRCTL_EXT 0
    if bit q.v.toNat 31 && accepted s 0x10 2 && running s 0x10 then
      match portBRead s1 (pair s1 BOOT_EXTADDR_LO BOOT_EXTADDR_HI % 2 ^ 40) 48 (blkReq 0x10 none) with
      | (s2, d, st) => if st = .ok then extendBmr s2 i d else s2
    else s1

/-- A read of BMRDATAk. -/
def bmrData (s : State) (k : Nat) : W32 := BitVec.ofNat 32 (leVal (((s.boot.bmr.getD (fget s BOOT_BMRCTL_IDX) []).drop (4 * k)).take 4))

/-- A write of ROLLMIN: a larger value is burnt, a smaller one refused. -/
def rollmin (s : State) (q : RegWrite) : State :=
  if q.v.toNat % 65536 < fget s BOOT_ROLLMIN_MIN then reject s q 0x11 else plainWrite s q

/-- A write of the BOOT page. -/
def bootWrite (s : State) (q : RegWrite) : State :=
  if q.a = BOOT_FLCMD then flcmd s q
  else if q.a = BOOT_BMRCTL then bmrctl s q
  else if q.a = BOOT_ROLLMIN then rollmin s q
  else if q.a = BOOT_FLCFG then checkedWrite s q (if 2 ≤ bits q.v.toNat 31 30 ∨ bits q.v.toNat 7 0 = 0 then 0x11 else 0)
  else plainWrite s q

/-! ### Key-store commands (R553) -/

/-- A 64-byte descriptor. -/
structure KeyDesc where
  op : Nat
  slot : Nat
  dslot : Nat
  flags : Nat
  len : Nat
  aad : Nat
  src : Nat
  dst : Nat
  aux : Nat
  deriving DecidableEq, Repr

/-- The descriptor that its bytes spell. -/
def keyDesc (b : List Byte) : KeyDesc :=
  let f (o n : Nat) : Nat := leVal ((b.drop o).take n)
  { op := f 0 1, slot := f 1 1, dslot := f 2 1, flags := f 3 1, len := f 4 4, aad := f 8 4, src := f 0x10 8, dst := f 0x18 8, aux := f 0x20 8 }

/-- KEY as a requester. -/
def keyWho : Requester := blkReq 0x11 none

/-- Source bytes read, and the command gone on with, or ended with the status of the read. -/
def withBytes (s : State) (a n : Nat) (f : State → List Byte → State × Nat) : State × Nat :=
  match portBRead s a n keyWho with
  | (s1, l, st) => if st = .ok then f s1 l else (s1, statusCode st)

/-- Output bytes written in the crypto domain. -/
def putOut (s : State) (a : Nat) (l : List Byte) : State × Nat :=
  match portBWrite s a l keyWho .crypto with
  | (s1, st) => (s1, statusCode st)

/-- Whether slot `n` may be written: 0, or the status that refuses it. -/
def slotWritable (s : State) (n : Nat) : Nat := if 32 ≤ n then 7 else if n = 0 ∨ fon s (KEY_SLOTATTR_LOCK n) then 12 else 0

/-- A key written into a slot with its USE and LOCK, and its salt and SSCI for MACSEC. -/
def storeKey (s : State) (d : KeyDesc) (key salt : List Byte) : State × Nat :=
  match slotWritable s d.dslot with
  | 0 =>
    let s1 := setReg s (KEY_SLOTATTR d.dslot)
      (BitVec.ofNat 32 (2 ^ 31 + b2n (bit d.flags 5) * 2 ^ 30 + b2n (key.length == 32) * 2 ^ 29 + d.flags % 32))
    ({ s1 with key := { s1.key with slots := mput (fun _ => []) s1.key.slots d.dslot key, salts := mput (fun _ => []) s1.key.salts d.dslot salt } }, 0)
  | c => (s, c)

/-- How many bytes a written key has beside the key itself. -/
def keyExtra (d : KeyDesc) : Nat := if bit d.flags 4 then 16 else 0

/-- AES-GCM encryption. -/
def keyGcmEnc (s : State) (d : KeyDesc) : State × Nat :=
  if !slotFor s d.slot 0 then (s, 9)
  else
    withBytes s d.src (d.aad + d.len) (fun s1 m => withBytes s1 d.aux 12 (fun s2 iv =>
      let k := slotKey s2 d.slot
      let ct := gcmCrypt k iv (m.drop d.aad)
      putOut s2 d.dst (ct ++ gcmTag k iv (m.take d.aad) ct)))

/-- AES-GCM decryption: plaintext is written only after the tag verifies. -/
def keyGcmDec (s : State) (d : KeyDesc) : State × Nat :=
  if !slotFor s d.slot 0 then (s, 9)
  else
    withBytes s d.src (d.aad + d.len) (fun s1 m => withBytes s1 d.aux 28 (fun s2 iv =>
      let k := slotKey s2 d.slot
      if gcmTag k (iv.take 12) (m.take d.aad) (m.drop d.aad) = iv.drop 12 then putOut s2 d.dst (gcmCrypt k (iv.take 12) (m.drop d.aad))
      else (s2, 10)))

/-- AES-CMAC. -/
def keyCmac (s : State) (d : KeyDesc) : State × Nat :=
  if !slotFor s d.slot 1 then (s, 9) else withBytes s d.src d.len (fun s1 m => putOut s1 d.dst (aesCmac (slotKey s1 d.slot) m))

/-- SHA-256 and SHA-384. -/
def keySha256 (s : State) (d : KeyDesc) : State × Nat := withBytes s d.src d.len (fun s1 m => putOut s1 d.dst (sha256 m))
def keySha384 (s : State) (d : KeyDesc) : State × Nat := withBytes s d.src d.len (fun s1 m => putOut s1 d.dst (sha384 m))

/-- ECDSA P-256 verification. -/
def keyEcdsa (s : State) (d : KeyDesc) : State × Nat :=
  if d.len ≠ 32 ∧ d.len ≠ 48 then (s, 13)
  else
    withBytes s d.src d.len (fun s1 h => withBytes s1 d.aux 128 (fun s2 a =>
      (s2, if ecdsaVerify h (a.take 64) (a.drop 64) then 0 else 11)))

/-- A key loaded from memory. -/
def keyLoad (s : State) (d : KeyDesc) : State × Nat :=
  if d.len ≠ 16 ∧ d.len ≠ 32 then (s, 13)
  else if slotWritable s d.dslot ≠ 0 then (s, slotWritable s d.dslot)
  else withBytes s d.src (d.len + keyExtra d) (fun s1 m => storeKey s1 d (m.take d.len) (m.drop d.len))

/-- A key unwrapped with AES-KW. -/
def keyUnwrap (s : State) (d : KeyDesc) : State × Nat :=
  if !slotFor s d.slot 3 then (s, 9)
  else if slotWritable s d.dslot ≠ 0 then (s, slotWritable s d.dslot)
  else
    withBytes s d.src d.len (fun s1 m =>
      match aesUnwrap (slotKey s1 d.slot) m with
      | none => (s1, 10)
      | some k =>
        let n := k.length - keyExtra d
        if n = 16 ∨ n = 32 then storeKey s1 d (k.take n) (k.drop n) else (s1, 13))

/-- A key of 32 bytes derived from the label and context. -/
def keyKdf (s : State) (d : KeyDesc) : State × Nat :=
  if !slotFor s d.slot 2 then (s, 9)
  else if slotWritable s d.dslot ≠ 0 then (s, slotWritable s d.dslot)
  else
    withBytes s d.src d.len (fun s1 m =>
      let k := kdfCtr (slotKey s1 d.slot) m (32 + keyExtra d)
      storeKey s1 d (k.take 32) (k.drop 32))

/-- A slot erased. -/
def keyErase (s : State) (d : KeyDesc) : State × Nat :=
  match slotWritable s d.dslot with
  | 0 =>
    let s1 := setReg s (KEY_SLOTATTR d.dslot) 0
    ({ s1 with key := { s1.key with slots := mput (fun _ => []) s1.key.slots d.dslot [], salts := mput (fun _ => []) s1.key.salts d.dslot [] } }, 0)
  | c => (s, c)

/-- A quote: the CMAC under slot 0 over BMR0–BMR3 and the nonce. -/
def keyQuote (s : State) (d : KeyDesc) : State × Nat :=
  if !accepted s 0x11 2 then (s, 13)
  else withBytes s d.src 16 (fun s1 n => putOut s1 d.dst (aesCmac (slotKey s1 0) (s1.boot.bmr.flatten ++ n)))

/-- The operation of a descriptor performed: the status. -/
def keyOp (s : State) (d : KeyDesc) : State × Nat :=
  if 65536 < d.len ∨ 65536 < d.aad then (s, 13)
  else
    match d.op with
    | 0x01 => keyGcmEnc s d
    | 0x02 => keyGcmDec s d
    | 0x03 => keyCmac s d
    | 0x04 => keySha256 s d
    | 0x05 => keySha384 s d
    | 0x06 => keyEcdsa s d
    | 0x07 => keyLoad s d
    | 0x08 => keyUnwrap s d
    | 0x09 => keyKdf s d
    | 0x0A => keyErase s d
    | 0x0B => keyQuote s d
    | _ => (s, 13)

/-- The running command performed, its status kept until its completion; `op`: only if it is that operation. -/
def keyPerform (s : State) (op : Option Nat) : State :=
  match s.key.job with
  | some { desc := a, status := none } =>
    match portBRead s a 64 keyWho with
    | (s1, b, st) =>
      let d := keyDesc b
      if op.isSome && op != some d.op then s
      else
        match (if st = .ok then keyOp s1 d else (s1, statusCode st)) with
        | (s2, c) => { s2 with key := { s2.key with job := some { desc := a, status := some c } } }
  | _ => s

/-- A key-store command ends: KCMD.STATUS and event 984. -/
def keyEnd (s : State) (st : Nat) : State :=
  raise (fset (fset { s with key := { s.key with job := none } } KEY_KCMD_START 0) KEY_KCMD_STATUS st) 0x11 0

/-- KEY leaves RUNNING: a command of which nothing has been performed is cancelled (R116). -/
def keyLeave (s : State) : State :=
  match s.key.job with
  | some { desc := _, status := none } => keyEnd s 2
  | _ => s

/-- KEY_COMMAND_DONE. -/
def keyDone (s : State) : State :=
  let s1 := keyPerform s none
  match s1.key.job with
  | some { desc := _, status := some st } => keyEnd s1 st
  | _ => s

/-- A write of KCMD. -/
def kcmd (s : State) (q : RegWrite) : State :=
  if !bit q.v.toNat 31 then noteReserved s q
  else if s.key.job.isSome then reject s q 0x10
  else if !running s 0x11 then keyEnd (noteReserved s q) 1
  else
    fset { noteReserved s q with key := { s.key with job := some { desc := pair s KEY_KDESC_LO KEY_KDESC_HI % 2 ^ 40, status := none } } } KEY_KCMD_START 1

/-! ### TRNG and debug unlock (R554, R555) -/

/-- A read of TRNG. -/
def trngRead (s : State) : State × W32 := if fon s KEY_TRNGSTAT_OK then (takeFree s, Config.random s.free) else (s, 0)

/-- TRNG_HEALTH_FAILURE. -/
def trngFail (s : State) : State := raise (fcount (fset s KEY_TRNGSTAT_OK 0) KEY_TRNGSTAT_FAILN 1) 0x11 1

/-- A challenge drawn. -/
def drawChallenge (s : State) : State :=
  let s1 := (upTo 4).foldl (fun st k => setReg st (KEY_DUCHAL k) (Config.random (s.free + k))) s
  takeFree (takeFree (takeFree (takeFree { s1 with key := { s1.key with challenge := true } })))

/-- A read of DUCHAL0 (R555). -/
def challengeRead (s : State) : State × W32 :=
  let s1 := if s.key.challenge || !fon s KEY_TRNGSTAT_OK || !running s 0x11 || !accepted s 0x11 1 then s else drawChallenge s
  (s1, reg s1 (KEY_DUCHAL 0))

/-- The bytes of `n` registers from `f 0` up. -/
def regBytes (s : State) (f : Nat → Nat) (n : Nat) : List Byte := (upTo n).flatMap (fun k => leBytes 4 (reg s (f k)).toNat)

/-- Whether the response to the challenge verifies. -/
def unlockOk (s : State) : Bool :=
  let r := regBytes s KEY_DURESP 32
  let q := r.take 64
  s.key.challenge && decide (fget s KEY_DUCTL_TRIES < 3) && sha384 q == (upTo 48).map Config.debugKeyHash &&
    ecdsaVerify (sha384 (regBytes s KEY_DUCHAL 4 ++ (upTo 16).map Config.deviceId ++ [BitVec.ofNat 8 (fget s KEY_DUCTL_REQ)])) q (r.drop 64)

/-- An attempt to unlock: the challenge is consumed in both cases; an unlock ends the wait of core 0 in the boot ROM (R545). -/
def debugUnlock (s : State) : State :=
  let s0 := (upTo 4).foldl (fun st k => setReg st (KEY_DUCHAL k) 0) { s with key := { s.key with challenge := false } }
  if unlockOk s then
    raise (extendBmr (fset { s0 with boot := { s0.boot with wait := false } } KEY_DUCTL_LEVEL (fget s KEY_DUCTL_REQ)) 3
      (sha384 (regBytes s KEY_DURESP 16 ++ [BitVec.ofNat 8 (fget s KEY_DUCTL_REQ)]))) 0x11 3
  else raise (fset s0 KEY_DUCTL_TRIES (min (fget s KEY_DUCTL_TRIES + 1) 3)) 0x11 2

/-- A write of DUCTL: LEVEL = 0 relocks, another LEVEL is ignored, and START checks the response. -/
def ductl (s : State) (q : RegWrite) : State :=
  let v := q.v.toNat
  let s1 := noteReserved (fset (if v % 4 = 0 then fset s KEY_DUCTL_LEVEL 0 else s) KEY_DUCTL_REQ (bits v 3 2)) q
  if bit v 31 && running s 0x11 && accepted s 0x11 1 then debugUnlock s1 else s1

/-- A write of the KEY page. -/
def keyWrite (s : State) (q : RegWrite) : State :=
  if q.a = KEY_KCMD then kcmd s q
  else if q.a = KEY_DUCTL then ductl s q
  else if KEY_DURESP 0 ≤ q.a ∧ q.a ≤ KEY_DURESP 31 then setReg s q.a q.v
  else plainWrite s q

/-- SOFT_RESET of KEY: slots 1–31 are empty. -/
def keyClear (s : State) : State := { s with key := KeyS.empty }

end Sys2Proof.Machine
end

