-- ==== Sys2Proof/Machine/Lane.lean ====
section
/-! DEFINITION. The line of a field-link lane: Manchester coding, preamble and delimiter (R451, R455), and the receiver's equaliser and
slicer (R458, R459). -/

namespace Sys2Proof.Machine

/-! ### Coding -/

/-- The seven bytes of the preamble and the start delimiter (R455). -/
def linePreamble : List Byte := List.replicate 7 0x55 ++ [0xD5]

/-- The bits of bytes as they are sent, the least significant first (R451). -/
def lineBits (l : List Byte) : List Bool := l.flatMap (fun b => (upTo 8).map (fun i => b.getLsbD i))

/-- The half-bits of bits: a 1 is high then low, a 0 low then high. -/
def halfBits (l : List Bool) : List Bool := l.flatMap (fun b => [b, !b])

/-- The bits that half-bits spell, none where a bit has no change in its middle. -/
def bitsOfHalves : List Bool → Option (List Bool)
  | [] => some []
  | [_] => none
  | a :: b :: r => if a = b then none else (bitsOfHalves r).map (fun l => a :: l)

/-- The bytes that bits spell, none where the last is not whole. -/
def bytesOfBits : List Bool → Option (List Byte)
  | [] => some []
  | a :: b :: c :: d :: e :: f :: g :: h :: r =>
    (bytesOfBits r).map (fun l => BitVec.ofNat 8 (b2n a + 2 * b2n b + 4 * b2n c + 8 * b2n d + 16 * b2n e + 32 * b2n f + 64 * b2n g + 128 * b2n h) :: l)
  | _ => none

/-- The bytes after the delimiter that the half-bits of a frame spell, none where coding, preamble or delimiter fails. -/
def lineFrame (d : List Bool) : Option (List Byte) :=
  match (bitsOfHalves d).bind bytesOfBits with
  | some l => if l.take 8 = linePreamble then some (l.drop 8) else none
  | none => none

/-! ### Equaliser and slicer -/

/-- A lane's receiver in a frame (R458): the taps, tap 0 weighting the latest decision, and the threshold, in units of 1/128 of the nominal
amplitude; its decisions, the latest first; the samples seen after subtraction, with their decisions; and the smallest distance between
sample and threshold, in the scale of LQ.EYELAST. -/
structure EqS where
  taps : List Int
  thr : Int
  out : List Bool
  seen : List (Int × Bool)
  eye : Nat
  deriving DecidableEq, Repr

/-- A decision as ±1 times `x`. -/
def bySign (d : Bool) (x : Int) : Int := if d then x else -x

/-- A tap or a threshold moved by the sign of `e` within its 8 bits. -/
def eqMove (v e : Int) : Int := max (-128) (min 127 (v + e.sign))

/-- The taps moved by the sign of the error `e` times that of their decisions; a tap that no decision weights stays. -/
def eqTaps (e : Int) : List Int → List Bool → List Int
  | t :: ts, d :: ds => eqMove t (bySign d e) :: eqTaps e ts ds
  | ts, _ => ts

/-- Whether half-bit number `n` of a frame moves the taps: each of the preamble's, and every eighth after it. -/
def tapsMove (n : Nat) : Bool := decide (n < 112) || n % 8 == 7

/-- The sum of the taps weighted by the previous decisions. -/
def eqSum (q : EqS) : Int := (List.zipWith (fun d t => bySign d t) q.out q.taps).foldl (fun a x => a + x) 0

/-- One half-bit received: `x` is the sample in units of 1/32640 of the nominal amplitude, which is 1/255 of a tap's unit and 1/128 of the
eye's. -/
def eqStep (adapt : Bool) (q : EqS) (x : Int) : EqS :=
  let y := x - 255 * eqSum q
  let d := decide (255 * q.thr ≤ y)
  let n := q.out.length
  let seen := if adapt then (y, d) :: q.seen else []
  { taps := if adapt && tapsMove n then eqTaps (y - Config.lineLevel seen d) q.taps q.out else q.taps
    thr := if adapt && n % 16 == 15 then eqMove q.thr (Config.lineLevel seen true + Config.lineLevel seen false - 510 * q.thr) else q.thr
    out := d :: q.out
    seen := seen
    eye := min q.eye ((y - 255 * q.thr).natAbs / 128) }

/-- A frame received from its first half-bit to its last. -/
def eqRun (adapt : Bool) (q : EqS) (l : List Int) : EqS := l.foldl (eqStep adapt) q

/-- The receiver at the start of a frame: taps 0–3 as the bytes of a word, tap 4, and the threshold. -/
def eqLoad (taps : W32) (t4 thr : Nat) : EqS :=
  { taps := (upTo 4).map (fun k => signed 8 (bits taps.toNat (8 * k + 7) (8 * k))) ++ [signed 8 t4], thr := signed 8 thr, out := [], seen := [], eye := 255 }

/-- A signed 8-bit value as a register holds it. -/
def byteOf (v : Int) : Nat := (v % 256).toNat

/-- Tap `k` as a register holds it, and taps 3–0 as a word. -/
def EqS.tap (q : EqS) (k : Nat) : Nat := byteOf (q.taps.getD k 0)
def EqS.word (q : EqS) : W32 := BitVec.ofNat 32 (q.tap 3 * 2 ^ 24 + q.tap 2 * 65536 + q.tap 1 * 256 + q.tap 0)

end Sys2Proof.Machine
end

