-- ==== Sys2Proof/Machine/Flink.lean ====
section
/-! DEFINITION. The field links: frames received and sent, reply windows, partners and quarantine (R451–R471). -/

namespace Sys2Proof.Machine

/-- Lane `l`, and that lane changed. -/
def laneS (s : State) (l : Nat) : LaneS := s.flink.lanes.getD l LaneS.empty
def updLane (s : State) (l : Nat) (f : LaneS → LaneS) : State := { s with flink := { s.flink with lanes := modAt s.flink.lanes l f } }

/-- Partner `p` of lane `l`, and that partner set. -/
def partS (s : State) (l p : Nat) : PartS := mget (fun _ => PartS.empty) s.flink.parts (32 * l + p)
def setPart (s : State) (l p : Nat) (x : PartS) : State :=
  { s with flink := { s.flink with parts := mput (fun _ => PartS.empty) s.flink.parts (32 * l + p) x } }

/-- Event `k` of lane `l` (R470). -/
def laneEvent (s : State) (l k : Nat) : State := raise s 0x0A (4 * l + k)

/-- An increment of HDRERR, CRCERR or UNKNOWN: every 256th of them together raises event 2. -/
def laneErr (s : State) (l : Nat) (f : Fld) : State :=
  let s1 := updLane (fcount s f 1) l (fun x => { x with errs := (x.errs + 1) % 256 })
  if (laneS s1 l).errs = 0 then laneEvent s1 l 2 else s1

/-- The coordinate of the lane's axis at tick `t`, 0 when it holds no valid one (R457, R462). -/
def laneStampAt (s : State) (l t : Nat) : W64 :=
  let a := fget s (FLINK_LCFG_AXIS l)
  if axisValid s a then BitVec.ofNat 64 (axisAt s a t) else 0

/-- The coordinate now. -/
def laneStamp (s : State) (l : Nat) : W64 := laneStampAt s l s.tick

/-- The ticks of a bit of lane `l` (R451). -/
def bitTime (s : State) (l : Nat) : Nat := fget s (FLINK_LCFG_DIV l)

/-- A message to the queue of partner `p` (R462): words 1 and 2. -/
def partnerPut (s : State) (l p : Nat) (w1 w2 : Nat) : State × Nat :=
  queuePut s { queue := fget s (FLINK_PRXQ_QUEUE l p), sender := fget s (FLINK_PRXQ_CTX l p), ring := none,
               cls := fget s (FLINK_PRXQ_CLASS l p), axis := fget s (FLINK_LCFG_AXIS l), flags := 0, plen := 32,
               payload := [⟨BitVec.ofNat 128 w1, false⟩, ⟨BitVec.ofNat 128 w2, false⟩, nullW], fromEvt := false }

/-- Word 1 of a message (R462). -/
def flinkWord (macok : Bool) (nkind entry status slot axis flags len qtag : Nat) (stamp : W64) : Nat :=
  b2n macok * 2 ^ 114 + nkind * 2 ^ 112 + entry * 2 ^ 104 + status * 2 ^ 100 + slot * 2 ^ 96 + axis * 2 ^ 92 + flags * 2 ^ 88 + len * 2 ^ 80 +
    qtag * 2 ^ 64 + stamp.toNat

/-- A notification about a request (R462): NKIND 1 or 2, its status and the lane-axis coordinate it carries. A refused put raises
event 3. -/
def notify (s : State) (l : Nat) (r : FlinkReq) (nkind status : Nat) (coord : W64) : State :=
  match partnerPut s l r.entry
      (flinkWord false nkind r.entry status r.slot (fget s (FLINK_LCFG_AXIS l)) r.flags r.len r.qtag r.stamp) (r.cookie * 2 ^ 64 + coord.toNat) with
  | (s1, st) => if st = 0 then s1 else laneEvent s1 l 3

/-- The open window of lane `l` closed without a message. -/
def shutWindow (s : State) (l : Nat) : State :=
  fset (fset (updLane s l (fun x => { x with win := none })) (FLINK_LSTAT_WIN l) 0) (FLINK_LSTAT_WINP l) 0

/-- The open window of lane `l`, if it awaits a partner in `ps`, closed with a status. -/
def closeWindow (s : State) (l status : Nat) (isP : Nat → Bool) : State :=
  match (laneS s l).win with
  | some r => if isP r.entry then notify (shutWindow s l) l r 2 status (laneStamp s l) else s
  | none => s

/-- The quarantine rule after a count of MALSEC (R465). -/
def quarantineRule (s : State) (l p : Nat) : State :=
  let thr := fget s (FLINK_PLIMIT_QTHR l p)
  if thr ≠ 0 ∧ thr ≤ fget s (FLINK_PSTAT_MALSEC l p) then
    closeWindow (laneEvent (fset s (FLINK_PSTAT_STATE l p) 3) l 0) l 9 (fun e => e == p)
  else s

/-- malformed(p) and replay(p) of R461. -/
def malformed (s : State) (l p : Nat) : State :=
  quarantineRule (fcount (fcount s (FLINK_PCNT0_MAL l p) 1) (FLINK_PSTAT_MALSEC l p) 1) l p
def replayed (s : State) (l p : Nat) : State :=
  quarantineRule (fcount (fcount s (FLINK_PCNT0_REPLAY l p) 1) (FLINK_PSTAT_MALSEC l p) 1) l p

/-- The tokens of partner `p` now, in units of 1/(200 × 10^6) (R465). -/
def tokensNow (s : State) (l p : Nat) : Nat :=
  let x := partS s l p
  min (fget s (FLINK_PLIMIT_BURST l p) * 200000000) (x.tokens + fget s (FLINK_PLIMIT_RATE l p) * (s.tick - x.at_))

/-- A received frame's field: `n` bytes from offset `o`, little-endian. -/
def frameField (f : List Byte) (o n : Nat) : Nat := leVal ((f.drop o).take n)

/-- The tag of a frame's bytes under the partner's key, none when the key store refuses (R456). -/
def frameTag (s : State) (l p : Nat) (body : List Byte) : Option (List Byte) :=
  match useSlot s (fget s (FLINK_PCFG_KSLOT l p)) 1 with
  | some k => some ((aesCmac k body).take 8)
  | none => none

/-- The partner entry that an address names. -/
def partnerAt (s : State) (l addr : Nat) : Option Nat :=
  (upTo 32).find? (fun p => fon s (FLINK_PCFG_EN l p) && fget s (FLINK_PCFG_ADDR l p) == addr)

/-- NRX of a partner (R460). -/
def partnerNrx (s : State) (l p : Nat) : Nat := 2 ^ (fget s (FLINK_PCFG_RXSZ l p) + 1)

/-- Whether lane `l` adapts. -/
def laneAdapts (s : State) (l : Nat) : Bool := accepted s 0x0A 2 && fon s (FLINK_LCFG_ADAPT l)

/-- The receiver at the start of a frame (R458): the stored values of the partner that an open window awaits, otherwise zero. -/
def eqStart (s : State) (l : Nat) : EqS :=
  match (laneS s l).win with
  | some r => eqLoad (reg s (FLINK_PDFE0 l r.entry)) (fget s (FLINK_PDFE1_T4 l r.entry)) (fget s (FLINK_PDFE1_SLICE l r.entry))
  | none => eqLoad 0 0 0

/-- LQ, LDFE0 and LDFE1 after a frame that passed its CRC (R459). -/
def noteEye (s : State) (l : Nat) (q : EqS) : State :=
  fset (setReg (fset (fset (fset s (FLINK_LQ_EYELAST l) q.eye) (FLINK_LQ_EYEMIN l) (min q.eye (fget s (FLINK_LQ_EYEMIN l)))) (FLINK_LQ_SLICE l)
    (byteOf q.thr)) (FLINK_LDFE0 l) q.word) (FLINK_LDFE1_T4 l) (q.tap 4)

/-- A frame of partner `p` that has passed every check delivered (R461); its delimiter ended at tick `delim`. -/
def deliverFrame (s : State) (l p : Nat) (f : List Byte) (mac : Bool) (delim : Nat) (q : EqS) : State :=
  let x := partS s l p
  let len := frameField f 20 1
  let slot := x.rxcnt % partnerNrx s l p
  let data := (f.drop 24).take len
  match portBWrite s (fget s (FLINK_PRXBASE_ADDR l p) * 256 + 256 * slot) (pad16 data) (blkReq 0x0A (some (fget s (FLINK_PRXQ_CTX l p)))) .field with
  | (s1, st) =>
    if st ≠ .ok then laneEvent s1 l 3
    else
      match partnerPut s1 l p
          (flinkWord mac 0 p 0 slot (frameField f 21 1 % 16) (frameField f 21 1 / 16) len (frameField f 6 2) (BitVec.ofNat 64 (frameField f 12 8)))
          (frameField f 8 4 * 2 ^ 64 + (laneStampAt s1 l delim).toNat) with
      | (s2, 0) =>
        let s3 := fset (fset (fset (fset (fcount s2 (FLINK_PCNT2_RXOK l p) 1) (FLINK_PRXSEQ_SEQ l p) (frameField f 8 4)) (FLINK_PCFG_SEQSYNC l p) 0)
          (FLINK_PSTAT_MISS l p) 0) (FLINK_PSTAT_STATE l p) 1
        let s4 := setPart s3 l p { partS s3 l p with rxcnt := x.rxcnt + 1 }
        let s5 := if laneAdapts s4 l then
            fset (fset (setReg s4 (FLINK_PDFE0 l p) q.word) (FLINK_PDFE1_T4 l p) (q.tap 4)) (FLINK_PDFE1_SLICE l p) (byteOf q.thr)
          else s4
        match (laneS s5 l).win with
        | some r => if r.entry = p then shutWindow s5 l else s5
        | none => s5
      | (s2, _) => laneEvent s2 l 3

/-- The checks of R461 from the partner on. -/
def checkFrameOf (s : State) (l p : Nat) (f : List Byte) (delim : Nat) (q : EqS) : State :=
  let b0 := frameField f 0 1
  let b1 := frameField f 1 1
  let len := frameField f 20 1
  let mac := bit b1 6
  let n := 28 + len + 8 * b2n mac
  let seq := frameField f 8 4
  let open_ := match (laneS s l).win with
    | some r => r.entry == p
    | none => false
  if fget s (FLINK_PSTAT_STATE l p) = 3 then s
  else if bit b1 7 || decide (2 ≤ b0 / 64) || frameField f 22 2 != 0 || decide (240 < len) || f.length != n then malformed s l p
  else if frameField f 2 4 ≠ (reg s (FLINK_PID l p)).toNat then malformed s l p
  else if mac && (!accepted s 0x0A 1 || frameTag s l p (f.take (24 + len)) != some ((f.drop (24 + len)).take 8)) then malformed s l p
  else if !mac && fon s (FLINK_PCFG_MACREQ l p) then malformed s l p
  else if !open_ && !fon s (FLINK_PCFG_UNSOL l p) then malformed s l p
  else
    let d := (seq + 2 ^ 32 - fget s (FLINK_PRXSEQ_SEQ l p)) % 2 ^ 32
    if !fon s (FLINK_PCFG_SEQSYNC l p) && (d == 0 || decide (2 ^ 31 ≤ d)) then replayed s l p
    else if tokensNow s l p < 200000000 then fcount s (FLINK_PCNT1_RATEDROP l p) 1
    else
      let s1 := setPart s l p { partS s l p with tokens := tokensNow s l p - 200000000, at_ := s.tick }
      if partnerNrx s1 l p - 2 < qfill (qdesc s1 (fget s1 (FLINK_PRXQ_QUEUE l p))) then
        laneEvent (fcount s1 (FLINK_PCNT2_RXFULL l p) 1) l 3
      else deliverFrame s1 l p f mac delim q

/-- The tick in which a frame of `n` half-bits that has now ended began: it ended 2 bit times ago, at the first of an idle line (R454). -/
def frameStart (s : State) (l n : Nat) : Nat := s.tick - (n / 2 + 2) * bitTime s l

/-- Whether lane `l` receives a frame of `n` half-bits that has now ended: it does not transmit, its receiver was ready when the frame began,
and the lane was working, or had not stopped when the frame began (R454, R468). -/
def laneHears (s : State) (l n : Nat) : Bool :=
  let x := laneS s l
  x.tx.isNone && decide (x.ready ≤ frameStart s l n) &&
    ((running s 0x0A && fon s (FLINK_LCFG_EN l)) ||
      match x.stopped with
      | some t => decide (frameStart s l n < t)
      | none => false)

/-- The checks of R461 on the bytes `f` after the delimiter. -/
def laneCheck (s : State) (l : Nat) (f : List Byte) (delim : Nat) (q : EqS) : State :=
  if f.length < 4 ∨ crc32 (f.take (f.length - 4)) ≠ BitVec.ofNat 32 (leVal (f.drop (f.length - 4))) then laneErr s l (FLINK_LCNT0_CRCERR l)
  else
    let s1 := noteEye s l q
    if frameField f 0 1 % 64 ≠ fget s1 (FLINK_LCFG_LADDR l) then s1
    else
      match partnerAt s1 l (frameField f 1 1 % 64) with
      | none => laneErr s1 l (FLINK_LCNT1_UNKNOWN l)
      | some p => checkFrameOf s1 l p f delim q

/-- A frame received on lane `l` (R454, R458, R461): `samples` are its half-bits at the slicer, from the preamble's first to the last before
the line is idle. -/
def laneReceive (s : State) (l : Nat) (samples : List Int) : State :=
  let n := samples.length
  let s1 := updLane s l (fun x => { x with idle := some (s.tick - 2 * bitTime s l) })
  if laneHears s l n then
    let q := eqRun (laneAdapts s l) (eqStart s l) samples
    match lineFrame q.out.reverse with
    | none => laneErr s1 l (FLINK_LCNT0_HDRERR l)
    | some f =>
      if 276 < f.length then laneErr (updLane s1 l (fun x => { x with ready := s.tick + 14 * bitTime s l })) l (FLINK_LCNT0_HDRERR l)
      else laneCheck s1 l f (frameStart s l n + 64 * bitTime s l) q
  else s1

/-! ### Sending (R466, R467) -/

/-- The bytes of a frame after its delimiter, up to the end of the payload. -/
def frameBody (s : State) (l p : Nat) (r : FlinkReq) (poll : Bool) (seq : Nat) (data : List Byte) : List Byte :=
  let mac := fon s (FLINK_PCFG_MACREQ l p)
  leBytes 1 (b2n poll * 64 + fget s (FLINK_PCFG_ADDR l p)) ++ leBytes 1 (b2n mac * 64 + fget s (FLINK_LCFG_LADDR l)) ++
    leBytes 4 (reg s (FLINK_PID l p)).toNat ++ leBytes 2 r.qtag ++ leBytes 4 seq ++ leBytes 8 r.stamp.toNat ++ leBytes 1 r.len ++
    leBytes 1 (r.flags * 16 + fget s (FLINK_LCFG_AXIS l)) ++ leBytes 2 0 ++ data

/-- A request that ends without a frame (R467). The STAMP of a frame that was not made is not stated: a free value. -/
def refuseRequest (s : State) (l : Nat) (r : FlinkReq) (status : Nat) : State :=
  notify (takeWide s) l { r with stamp := freeWide s } 1 status 0

/-- A request found good is carried out up to its frame's start; the key store refuses here, and the tag waits for the STAMP. -/
def sendRequest (s : State) (l : Nat) (r : FlinkReq) (poll : Bool) : State :=
  let p := r.entry
  if fget s (FLINK_PSTAT_STATE l p) = 3 then refuseRequest s l r 9
  else if fon s (FLINK_LCFG_AGATE l) && accepted s 0x0A 3 && !authority s then refuseRequest s l r 11
  else
    match portBRead s (fget s (FLINK_PTXBASE_ADDR l p) * 256 + 256 * r.slot) r.len (blkReq 0x0A (some (fget s (FLINK_PRXQ_CTX l p)))) with
    | (s1, data, st) =>
      if st ≠ .ok then refuseRequest s1 l r (statusCode st)
      else
        let seq := (fget s1 (FLINK_PTXSEQ_SEQ l p) + 1) % 2 ^ 32
        let mac := fon s1 (FLINK_PCFG_MACREQ l p)
        let key := if mac then useSlot s1 (fget s1 (FLINK_PCFG_KSLOT l p)) 1 else none
        if mac && key.isNone then refuseRequest s1 l r 12
        else updLane s1 l (fun x => { x with tx := some { req := r, at_ := s.tick, seq := seq, body := frameBody s1 l p r poll seq data, key := key, frame := none } })

/-- Whether the line of lane `l` has been idle for 16 bit times (R454, R467). -/
def lineIdle (s : State) (l : Nat) : Bool :=
  match (laneS s l).idle with
  | some t => decide (t + 16 * bitTime s l ≤ s.tick)
  | none => true

/-- LANE_REQUEST: an idle lane takes the head of its transmit queue. -/
def laneRequest (s : State) (l : Nat) : State :=
  if !running s 0x0A || !fon s (FLINK_LCFG_EN l) || (laneS s l).tx.isSome || (laneS s l).win.isSome || !lineIdle s l ||
      decide (Config.lanes s.variant ≤ l) then s
  else
    match queueGet s (fget s (FLINK_LTXQ_QUEUE l)) (some 0) with
    | (s1, 0, ws) =>
      let h := (ws.getD 0 nullW).bits.toNat
      let w := (ws.getD 1 nullW).bits.toNat
      let p := bits w 4 0
      let r : FlinkReq := { entry := p, slot := bits w 7 5, cookie := bits w 95 64, len := bits w 15 8, flags := bits w 51 48, qtag := bits w 47 32,
                            reply := bit w 16, stamp := 0 }
      if !fon s1 (FLINK_PCFG_EN l p) || bits h 29 18 != fget s1 (FLINK_PRXQ_CTX l p) || decide (bits h 53 48 < 16) || bits w 127 96 != 0 ||
          bits w 63 52 != 0 || bits w 31 18 != 0 || decide (240 < r.len) then
        laneEvent (fcount s1 (FLINK_LCNT1_BADREQ l) 1) l 3
      else sendRequest s1 l r (bit w 17)
    | (s1, _, _) => s1

/-- Whether the frame of a request has its first bit on the line: the preamble starts 16 bit times after the take (R454, R467, R468). -/
def txStarted (s : State) (l : Nat) (x : LaneTx) : Bool := decide (x.at_ + 16 * bitTime s l ≤ s.tick)

/-- A request with its STAMP, the coordinate as the delimiter's last bit leaves the pins (R457), and with that its tag and CRC (R456). -/
def LaneTx.stamped (x : LaneTx) (c : W64) : LaneTx :=
  let body := x.body.take 12 ++ leBytes 8 c.toNat ++ x.body.drop 20
  let f := match x.key with
    | some k => body ++ (aesCmac k body).take 8
    | none => body
  if x.frame.isSome then x else { x with req := { x.req with stamp := c }, frame := some (f ++ leBytes 4 (crc32 f).toNat) }

/-- A lane's part of a phase tick: TXACT shows a frame on the line, and the delimiter's end stamps it. -/
def laneTick (s : State) (l : Nat) : State :=
  match (laneS s l).tx with
  | some x =>
    if txStarted s l x then
      let s1 := fset s (FLINK_LSTAT_TXACT l) 1
      if x.at_ + 80 * bitTime s l ≤ s.tick then updLane s1 l (fun y => { y with tx := some (x.stamped (laneStamp s l)) }) else s1
    else s
  | none => s

/-- The level of the pin FLl_P at tick `t`, none for high impedance: the driver is on from the preamble to the last CRC bit (R451, R452,
R455). -/
def lanePin (s : State) (l t : Nat) : Option Bool :=
  match (laneS s l).tx with
  | some x =>
    let t0 := x.at_ + 16 * bitTime s l
    if t < t0 then none else (halfBits (lineBits (linePreamble ++ x.frame.getD [])))[(t - t0) * 2 / bitTime s l]?
  | none => none

/-- The request in progress on lane `l` ended, and the line idle from now on; the receiver is ready 6 bit times later (R454). -/
def endTx (s : State) (l : Nat) : State :=
  fset (updLane s l (fun x => { x with tx := none, idle := some s.tick, ready := s.tick + 6 * bitTime s l })) (FLINK_LSTAT_TXACT l) 0

/-- LANE_TRANSMIT_END: the frame ends, PTXSEQ takes its SEQ, its request completes and a window opens (R464, R467), which an abort of the
block or the lane closes at once (R468). -/
def laneTransmitEnd (s : State) (l : Nat) : State :=
  match (laneS s l).tx with
  | some x =>
    let r := (x.stamped (laneStamp s l)).req
    let s1 := notify (fset (endTx s l) (FLINK_PTXSEQ_SEQ l r.entry) x.seq) l r 1 0 r.stamp
    if r.reply && fon s1 (FLINK_PCFG_EN l r.entry) then
      let s2 := fset (fset (updLane s1 l (fun x => { x with win := some r })) (FLINK_LSTAT_WIN l) 1) (FLINK_LSTAT_WINP l) r.entry
      if fon s2 (CTRL_QMODE 0x0A) && !(running s2 0x0A && fon s2 (FLINK_LCFG_EN l)) then closeWindow s2 l 3 (fun _ => true) else s2
    else s1
  | none => s

/-- Lane `l` stops (R116, R468): it begins no frame from now on, and a taken request that has not started completes with CANCELLED; with an
abort an open window closes with ABORTED. -/
def laneStop (s : State) (l : Nat) (abort : Bool) : State :=
  let s1 := updLane s l (fun x => { x with stopped := some (x.stopped.getD s.tick) })
  let s2 := match (laneS s1 l).tx with
    | some x => if txStarted s1 l x then s1 else refuseRequest (updLane s1 l (fun y => { y with tx := none })) l x.req 2
    | none => s1
  if abort then closeWindow s2 l 3 (fun _ => true) else s2

/-- REPLY_WINDOW_EXPIRY (R464). -/
def windowExpiry (s : State) (l : Nat) : State :=
  match (laneS s l).win with
  | some r =>
    let p := r.entry
    let was := fget s (FLINK_PSTAT_MISS l p)
    let s1 := fcount (fcount s (FLINK_PCNT1_TIMEOUT l p) 1) (FLINK_PSTAT_MISS l p) 1
    let s2 := closeWindow s1 l 10 (fun _ => true)
    let n := fget s2 (FLINK_PTIME_MISSN l p)
    if n ≠ 0 ∧ was < n ∧ n ≤ fget s2 (FLINK_PSTAT_MISS l p) then laneEvent (fset s2 (FLINK_PSTAT_STATE l p) 2) l 1 else s2
  | none => s

/-- The lane and partner of a key of the register map, if it is a PSTAT. -/
def pstatOf (a : Nat) : Option (Nat × Nat) :=
  if 0xE0A10000 ≤ a ∧ a < 0xE0A18000 ∧ a % 0x40 = 0x1C then some (a % 0x8000 / 0x800, a % 0x800 / 0x40) else none

/-- MALSEC_CLEAR: each second MALSEC of every partner is cleared (R465). -/
def malsecClear (s : State) : State :=
  (s.regs.filterMap (fun x => pstatOf x.1)).foldl (fun st x => fset st (FLINK_PSTAT_MALSEC x.1 x.2) 0) s

/-- Quarantine ends (R465). -/
def endQuarantine (s : State) (l p : Nat) : State :=
  if fget s (FLINK_PSTAT_STATE l p) = 3 then fset (fset s (FLINK_PSTAT_STATE l p) 1) (FLINK_PSTAT_MISS l p) 0 else s

/-- QUARANTINE_EXPIRY: after QTIME seconds, if it is not 0. -/
def quarantineExpiry (s : State) (l p : Nat) : State := if fget s (FLINK_PTIME_QTIME l p) = 0 then s else endQuarantine s l p

/-! ### The page (R460, R471) -/

/-- Whether `n` bytes from `a` lie in general memory. -/
def areaOk (s : State) (a n : Nat) : Bool := decide (a + n ≤ Config.memBytes s.variant)

/-- Whether enabling partner `p` with the word `v` is refused (R460). -/
def pcfgRefused (s : State) (l p v : Nat) : Bool :=
  let addr := bits v 25 20
  addr == fget s (FLINK_LCFG_LADDR l) ||
    (upTo 32).any (fun k => k != p && fon s (FLINK_PCFG_EN l k) && fget s (FLINK_PCFG_ADDR l k) == addr) ||
    !areaOk s (fget s (FLINK_PRXBASE_ADDR l p) * 256) (256 * 2 ^ (bits v 17 16 + 1)) || !areaOk s (fget s (FLINK_PTXBASE_ADDR l p) * 256) 2048 ||
    (bit v 30 && !accepted s 0x0A 1)

/-- The fields of PCFG that an enabled entry locks: MACREQ, SEQSYNC, ADDR, RXSZ and KSLOT. -/
def pcfgLocked (v : Nat) : Nat × Nat × Nat × Nat × Nat := (bits v 30 30, bits v 28 28, bits v 25 20, bits v 17 16, bits v 12 8)

/-- A write of PCFG. -/
def pcfgWrite (s : State) (q : RegWrite) (l p : Nat) : State :=
  let v := q.v.toNat
  let was := fon s (FLINK_PCFG_EN l p)
  if was && pcfgLocked v != pcfgLocked (reg s q.a).toNat then reject s q 0x10
  else if !was && bit v 31 && pcfgRefused s l p v then reject s q 0x11
  else
    let s1 := plainWrite s q
    if !was && bit v 31 then
      setPart (fset (fset (fset s1 (FLINK_PSTAT_STATE l p) 1) (FLINK_PSTAT_MISS l p) 0) (FLINK_PSTAT_MALSEC l p) 0) l p
        { tokens := fget s1 (FLINK_PLIMIT_BURST l p) * 200000000, at_ := s.tick, rxcnt := 0 }
    else if was && !bit v 31 then closeWindow (fset s1 (FLINK_PSTAT_STATE l p) 0) l 2 (fun e => e == p)
    else s1

/-- A write of LCFG (R451, R468, R471). -/
def lcfgWrite (s : State) (q : RegWrite) (l : Nat) : State :=
  let v := q.v.toNat
  let old := (reg s q.a).toNat
  let was := bit old 31
  if was && (bits v 27 16 != bits old 27 16 || bits v 13 8 != bits old 13 8) then reject s q 0x10
  else if bits v 23 16 < 4 ∨ 200 < bits v 23 16 then reject s q 0x11
  else
    let s1 := plainWrite s q
    if was && !bit v 31 && running s 0x0A then laneStop s1 l (fon s1 (CTRL_QMODE 0x0A))
    else if !was && bit v 31 then updLane s1 l (fun x => { x with stopped := none })
    else s1

/-- A write to the FLINK page. -/
def flinkWrite (s : State) (q : RegWrite) : State :=
  let o := offOf q.a
  if o < 0x1000 then plainWrite s q
  else if o < 0x10000 then
    if o % 0x40 = 0 then lcfgWrite s q q.i
    else if o % 0x40 = 4 ∧ fon s (FLINK_LCFG_EN q.i) = true ∧ stored q.t (reg s q.a) q.v ≠ reg s q.a then reject s q 0x10
    else plainWrite s q
  else
    let l := q.i
    let p := q.is.getD 1 0
    let w := o % 0x40
    if w = 0 then pcfgWrite s q l p
    else if w = 0x1C then
      let s1 := fset (plainWrite s q) (FLINK_PSTAT_RELEASE l p) 0
      if bit q.v.toNat 28 then endQuarantine s1 l p else s1
    else if w = 0x18 then plainWrite (setPart s l p { partS s l p with tokens := tokensNow s l p, at_ := s.tick }) q
    else if (w ≤ 0x10 ∨ w = 0x20 ∨ w = 0x24) ∧ fon s (FLINK_PCFG_EN l p) = true ∧ stored q.t (reg s q.a) q.v ≠ reg s q.a then reject s q 0x10
    else plainWrite s q

/-- The field links leave RUNNING, or turn a drain into an abort (R117, R468): every enabled lane stops. -/
def flinkLeave (s : State) (abort : Bool) : State :=
  (upTo 16).foldl (fun st l => if fon st (FLINK_LCFG_EN l) then laneStop st l abort else st) s

/-- The field links enter RUNNING: the enabled lanes begin frames again. -/
def flinkEnable (s : State) : State := { s with flink := { s.flink with lanes := s.flink.lanes.map (fun x => { x with stopped := none }) } }

/-- Requests taken and not completed; the put of a received frame is made in the step that receives it (R468). -/
def flinkInflight (s : State) : Nat := (s.flink.lanes.filter (fun x => x.tx.isSome)).length

/-- SOFT_RESET: what the field links hold beside their page. -/
def flinkClear (s : State) : State := { s with flink := FlinkS.empty }

end Sys2Proof.Machine
end

