-- ==== Sys2Proof/Machine/Net.lean ====
section
/-! DEFINITION. The network switch: classification, receive and transmit channels, the PTP clock, MACsec and time-aware shaping
(R472–R483, R487, R488). What frames hold is read as IEEE 802.3, 802.1Q, 802.1AE and IPv4 lay it down (PRESUMED, assumption 18). -/

namespace Sys2Proof.Machine

/-- Port `p`, and that port changed. -/
def portS (s : State) (p : Nat) : PortS := s.net.ports.getD p PortS.empty
def updPort (s : State) (p : Nat) (f : PortS → PortS) : State := { s with net := { s.net with ports := modAt s.net.ports p f } }

/-- Event `k` of port `p` (R488). -/
def portEvent (s : State) (p k : Nat) : State := raise s 0x0B (4 * p + k)

/-! ### The PTP clock (R479–R481) -/

/-- The PTP clock in units of 2^−32 ns. -/
def ptpTotal (s : State) : Int :=
  (((fget s NET_PTPEPOCH_SEC * 2 ^ 32 + fget s NET_PTPT_HI_SEC) * 1000000000 + fget s NET_PTPT_LO_NS) * 2 ^ 32 + s.net.frac : Nat)

/-- The clock set. -/
def setPtp (s : State) (t : Int) : State :=
  let n := (t % (2 ^ 48 * 1000000000 * 2 ^ 32 : Nat)).toNat
  let ns := n / 2 ^ 32
  let sec := ns / 1000000000
  fset (fset (fset { s with net := { s.net with frac := n % 2 ^ 32 } } NET_PTPEPOCH_SEC (sec / 2 ^ 32)) NET_PTPT_HI_SEC (sec % 2 ^ 32)) NET_PTPT_LO_NS
    (ns % 1000000000)

/-- The clock at a phase tick: 5 ns plus PTPRATE × 2^−32 ns while it runs, and a step asked for (R480). -/
def ptpTick (s : State) : State :=
  let run := fon s NET_PTPCTL_EN && accepted s 0x0B 1
  if run || s.net.step.isSome then
    let adv : Int := if run then (5 * 2 ^ 32 : Nat) + signed 32 (reg s NET_PTPRATE).toNat else 0
    setPtp { s with net := { s.net with step := none } } (ptpTotal s + adv + s.net.step.getD 0 * (2 ^ 32 : Nat))
  else s

/-- The PTP clock in ns, seconds modulo 2^32. -/
def ptpNs (s : State) : Nat := fget s NET_PTPT_HI_SEC * 1000000000 + fget s NET_PTPT_LO_NS

/-- The bit time of a port in tenths of a nanosecond. -/
def bitTenths (s : State) (p : Nat) : Nat :=
  match fget s (NET_PSTAT_SPEED p) with
  | 0 => 1
  | 1 => 10
  | 2 => 100
  | _ => 1000

/-- The time that `n` bytes take on the wire of port `p`, in ns, rounded up. -/
def wireNs (s : State) (p n : Nat) : Nat := (n * 8 * bitTenths s p + 9) / 10

/-- A timestamp (R479): the PTP clock as it stood when the first of the `n` bytes that have now passed the balls of port `p` began. -/
def ptpStamp (s : State) (p n : Nat) : Nat :=
  let run := fon s NET_PTPCTL_EN && accepted s 0x0B 1
  let rate := ((5 * 2 ^ 32 : Nat) + signed 32 (reg s NET_PTPRATE).toNat).toNat
  let ago := if run then wireNs s p n * rate / (5 * 2 ^ 32) else 0
  let t := (ptpNs s + 2 ^ 32 * 1000000000 - ago) % (2 ^ 32 * 1000000000)
  t / 1000000000 * 2 ^ 32 + t % 1000000000

/-- The coordinate reported to axis 1 while the time is valid (R363, R481). -/
def ptpReport (s : State) : Option Nat :=
  if running s 0x0B && fon s NET_PTPCTL_EN && fon s NET_PTPCTL_TVALID then
    some (fget s NET_PTPT_HI_SEC * 2 ^ 32 + fget s NET_PTPT_LO_NS * 2 ^ 32 / 1000000000)
  else none

/-! ### Frames -/

/-- `n` bytes of a frame from offset `o` as a big-endian number. -/
def netField (f : List Byte) (o n : Nat) : Nat := beVal ((f.drop o).take n)

/-- Whether a frame carries an 802.1Q tag. -/
def netTagged (f : List Byte) : Bool := netField f 12 2 == 0x8100

/-- The offset of the EtherType after at most one tag. -/
def netTypeAt (f : List Byte) : Nat := if netTagged f then 16 else 12

/-- What classification sees of a frame: VID, PCP, EtherType, and the destination port of IPv4 UDP or TCP that is no later
fragment. -/
structure FrameView where
  dmac : Nat
  tagged : Bool
  vid : Nat
  pcp : Nat
  etype : Nat
  l4 : Option Nat
  deriving DecidableEq, Repr

/-- The view of a frame that came in at port `p` (R473, R474). -/
def frameView (s : State) (p : Nat) (f : List Byte) : FrameView :=
  let o := netTypeAt f
  let et := netField f o 2
  let ip := o + 2
  let proto := netField f (ip + 9) 1
  let isL4 := et == 0x0800 && netField f ip 1 / 16 == 4 && (proto == 6 || proto == 17) && netField f (ip + 6) 2 % 2 ^ 13 == 0
  { dmac := netField f 0 6, tagged := netTagged f,
    vid := if netTagged f then netField f 14 2 % 4096 else fget s (NET_PCFG_DEFVID p),
    pcp := if netTagged f then netField f 14 2 / 2 ^ 13 else fget s (NET_PCFG_DEFPCP p),
    etype := et, l4 := if isL4 then some (netField f (ip + netField f ip 1 % 16 * 4 + 2) 2) else none }

/-- RULEW7: the hits of the rule that RSEL selects (R475). -/
def ruleHits (s : State) : W32 := (mget (fun _ => []) s.net.rules (fget s NET_RSEL_RULE)).getD 7 0

/-- Word `k` of a rule. -/
def ruleW (r : List W32) (k : Nat) : Nat := (r.getD k 0).toNat

/-- Whether a rule matches (R474). -/
def ruleMatches (r : List W32) (p : Nat) (v : FrameView) (secok : Bool) : Bool :=
  let dmac := ruleW r 0 + ruleW r 1 % 2 ^ 16 * 2 ^ 32
  let dmask := ruleW r 2 + ruleW r 3 % 2 ^ 16 * 2 ^ 32
  let l4mask := bits (ruleW r 5) 31 16
  bit (ruleW r 6) 31 && bit (bits (ruleW r 4) 15 12) p && ((dmac ^^^ v.dmac) &&& dmask) == 0 &&
    ((bits (ruleW r 1) 31 16 ^^^ v.etype) &&& bits (ruleW r 3) 31 16) == 0 &&
    ((bits (ruleW r 4) 11 0 ^^^ v.vid) &&& bits (ruleW r 5) 11 0) == 0 &&
    (l4mask == 0 || (match v.l4 with | some d => ((bits (ruleW r 4) 31 16 ^^^ d) &&& l4mask) == 0 | none => false)) &&
    (!bit (ruleW r 6) 28 || secok)

/-! ### MACsec (R482) -/

/-- The place of an SA in the table: port, direction (1 receive), channel and index. -/
def saKey (p dir sc sa : Nat) : Nat := 16 * p + 8 * dir + 2 * sc + sa
def saAt (s : State) (k : Nat) : SaS := mget (fun _ => SaS.empty) s.net.sas k
def setSa (s : State) (k : Nat) (x : SaS) : State := { s with net := { s.net with sas := mput (fun _ => SaS.empty) s.net.sas k x } }

/-- The last PN of a suite: an SA whose next PN reaches it stops being usable. -/
def pnLimit (x : SaS) : Nat := if x.xpn then 2 ^ 64 - 1 else 2 ^ 32 - 1

/-- Whether MACsec applies at port `p`. -/
def macsecOn (s : State) (p : Nat) : Bool := fon s (NET_PCFG_SEC p) && accepted s 0x0B 4

/-- The initialisation vector of an SA's frame with packet number `pn`. -/
def saIv (s : State) (x : SaS) (pn : Nat) : List Byte :=
  if x.xpn then
    let v := slotSalt s x.kslot
    bxor (v.take 12) (v.drop 12 ++ beBytes 8 pn)
  else beBytes 8 x.sci ++ beBytes 4 pn

/-- The transmit SA of port `p` that is usable now, with its place and key. -/
def txSa (s : State) (p : Nat) : Option (Nat × SaS × List Byte) :=
  let k := saKey p 0 0 (fget s (NET_PCFG_TXSA p))
  let x := saAt s k
  match useSlot s x.kslot 4 with
  | some key => if x.en && decide (x.pn < pnLimit x) then some (k, x, key) else none
  | none => none

/-- A frame protected (R482): the SecTAG with an explicit SCI behind the addresses, the rest encrypted, the ICV behind it. -/
def protect (s : State) (x : SaS) (key f : List Byte) : List Byte :=
  let sl := if f.length - 12 < 48 then f.length - 12 else 0
  let tag := beBytes 2 0x88E5 ++ beBytes 1 (0x2C + x.an) ++ beBytes 1 sl ++ beBytes 4 (x.pn % 2 ^ 32) ++ beBytes 8 x.sci
  let iv := saIv s x x.pn
  let ct := gcmCrypt key iv (f.drop 12)
  f.take 12 ++ tag ++ ct ++ gcmTag key iv (f.take 12 ++ tag) ct

/-- The next PN of an SA taken; at the suite's last one event 851 is raised. -/
def takePn (s : State) (k : Nat) (x : SaS) : State :=
  let s1 := setSa s k { x with pn := x.pn + 1 }
  if x.pn + 1 = pnLimit x then raise s1 0x0B 19 else s1

/-- The packet number that the low 32 bits of a received one stand for. -/
def fullPn (x : SaS) (low : Nat) : Nat :=
  if x.xpn then
    let hi := x.pn / 2 ^ 32
    (if low < x.pn % 2 ^ 32 ∧ 2 ^ 31 ≤ x.pn % 2 ^ 32 ∧ low < 2 ^ 31 then hi + 1 else hi) * 2 ^ 32 + low
  else low

/-- Whether an SA of receive channels answers to a SecTAG: by the explicit SCI; with ES by the source address and port 1, or port 0 for a
single copy broadcast; otherwise it is the point-to-point partner's. -/
def saAnswers (x : SaS) (f : List Byte) : Bool :=
  let tci := netField f 14 1
  x.en && x.an == tci % 4 &&
    (if bit tci 5 then x.sci == netField f 20 8 else !bit tci 6 || x.sci == netField f 6 6 * 2 ^ 16 + (if bit tci 4 then 0 else 1))

/-- Whether a SecTAG is one that IEEE 802.1AE allows: version 0, no ES or SCB beside an SCI, no encryption without changed text, and an SL
below 48. -/
def tagAllowed (f : List Byte) : Bool :=
  let tci := netField f 14 1
  !bit tci 7 && !(bit tci 5 && (bit tci 6 || bit tci 4)) && !(bit tci 3 && !bit tci 2) && decide (netField f 15 1 < 48)

/-- A frame with a SecTAG validated: the state, and the frame without SecTAG and ICV, or none. The secure data are SL bytes, what follows
their ICV being padding, or with SL = 0 all that the frame holds, 48 bytes or more. -/
def validate (s : State) (p : Nat) (f : List Byte) : State × Option (List Byte) :=
  let tci := netField f 14 1
  let n := if bit tci 5 then 28 else 20
  let sl := netField f 15 1
  let len := if sl = 0 then f.length - n - 16 else sl
  let k? := ((upTo 8).map (fun i => saKey p 1 0 0 + i)).find? (fun k => saAnswers (saAt s k) f)
  match k? with
  | none => (s, none)
  | some k =>
    let x := saAt s k
    let pn := fullPn x (netField f 16 4)
    match useSlot s x.kslot 4 with
    | none => (s, none)
    | some key =>
      let body := (f.drop n).take len
      let icv := (f.drop (n + len)).take 16
      let iv := saIv s x pn
      let enc := bit tci 3
      let good := if enc then gcmTag key iv (f.take n) body == icv else gcmTag key iv (f.take n ++ body) [] == icv
      if !tagAllowed f || decide (f.length < n + len + 16) || (sl == 0 && decide (len < 48)) || decide (pn = 0) || decide (pn < x.pn) || !good then
        (s, none)
      else (setSa s k { x with pn := pn + 1 }, some (f.take 12 ++ (if enc then gcmCrypt key iv body else body)))

/-! ### Egress -/

/-- The bytes waiting at a port. -/
def egressBytes (x : PortS) : Nat := x.egress.foldl (fun n f => n + f.bytes.length) 0

/-- A message about transmit channel `c` (R478). -/
def txComplete (s : State) (r : NetReq) (st : Nat) (stamp : Option Nat) : State :=
  let w := r.cookie * 2 ^ 96 + b2n stamp.isSome * 2 ^ 71 + r.slot * 2 ^ 68 + st * 2 ^ 64 + stamp.getD 0
  (queuePut s { queue := fget s (NET_TNOTE_QUEUE r.chan), sender := fget s (NET_TBASE_CTX r.chan), ring := none, cls := fget s (NET_TNOTE_CLASS r.chan),
                axis := 0, flags := 0, plen := 16, payload := [⟨BitVec.ofNat 128 w, false⟩, nullW, nullW], fromEvt := false }).1

/-! ### Time-aware shaping (R483) -/

/-- The entries of a list up to the first with INTERVAL = 0. -/
def gateList (l : List W32) : List W32 := l.takeWhile (fun w => w.toNat % 2 ^ 24 != 0)

/-- The entries of bank `b` of port `p`. -/
def gateBank (s : State) (p b : Nat) : List W32 := (upTo 64).map (fun i => reg s (NET_GATE p b i))

/-- Whether port `p` is gated: a list is active, and its cycle has a length. -/
def gated (s : State) (p : Nat) : Bool :=
  fon s (NET_QBVCTL_EN p) && accepted s 0x0B 3 && (match (portS s p).inUse with | some (_, cyc) => cyc != 0 | none => false)

/-- The entries of a list with the time that each lasts in a cycle of `left` ns: the last one holds to the end of the cycle, and what
is beyond the end is cut. -/
def gateTimes : Nat → List W32 → List (Nat × Nat)
  | _, [] => []
  | left, [w] => [(w.toNat / 2 ^ 24, left)]
  | left, w :: r => (w.toNat / 2 ^ 24, min (w.toNat % 2 ^ 24) left) :: gateTimes (left - min (w.toNat % 2 ^ 24) left) r

/-- The time for which a list leaves class `c` open from its start on. -/
def openRun (c : Nat) : List (Nat × Nat) → Nat
  | [] => 0
  | w :: r => if bit w.1 c then w.2 + openRun c r else 0

/-- The time for which a list leaves class `c` open from `t` ns on. -/
def openLeft (c : Nat) : Nat → List (Nat × Nat) → Nat
  | _, [] => 0
  | t, w :: r => if w.2 ≤ t then openLeft c (t - w.2) r else if bit w.1 c then w.2 - t + openRun c r else 0

/-- The entries in use of port `p`, two cycles long. -/
def gateCycles (s : State) (p : Nat) : List (Nat × Nat) :=
  let l := gateTimes (((portS s p).inUse.getD (0, 0)).2) (gateList (portS s p).gates)
  l ++ l

/-- Whether a frame of class `c` that takes `d` ns may start at PTP time `t` (R483): its last bit leaves before its gate closes. Before the
list's first cycle every gate is open. -/
def mayStart (s : State) (p c t d : Nat) : Bool :=
  let l := gateCycles s p
  let u := (portS s p).inUse.getD (0, 0)
  !gated s p || l.all (fun w => bit w.1 c) || (if t < u.1 then decide (d ≤ u.1 - t + openLeft c 0 l) else decide (d ≤ openLeft c ((t - u.1) % u.2) l))

/-- The longest time for which a list leaves class `c` open, in ns: `run` is the length of the stretch in progress. -/
def longestOpen (c : Nat) : List (Nat × Nat) → Nat → Nat → Nat
  | [], run, best => max run best
  | w :: r, run, best => if bit w.1 c then longestOpen c r (run + w.2) best else longestOpen c r 0 (max run best)

/-- The bytes of a frame from the first after its start delimiter to its FCS, as they leave port `p`. -/
def frameLen (s : State) (p : Nat) (f : NetFrame) : Nat := f.bytes.length + 4 + (if macsecOn s p then 32 else 0)

/-- The time a frame takes on the wire in ns, preamble and FCS included. -/
def frameNs (s : State) (p : Nat) (f : NetFrame) : Nat := wireNs s p (frameLen s p f + 8)

/-- Whether a frame can never start under the active list: it is longer than the longest time its class stays open, cycle after
cycle. -/
def neverStarts (s : State) (p : Nat) (f : NetFrame) : Bool :=
  let l := gateCycles s p
  gated s p && l.any (fun w => !bit w.1 f.tc) && decide (longestOpen f.tc l 0 0 < frameNs s p f)

/-- A frame that can never start is dropped and its request completes with TOOLONG (R483). -/
def dropTooLong (s : State) (p : Nat) (f : NetFrame) : State :=
  let s1 := portEvent (fcount s (NET_PCNT3_EGRDROP p) 1) p 3
  match f.req with
  | some r => txComplete s1 r 10 none
  | none => s1

/-- The frames of port `p` that can never start under the list now active dropped. -/
def dropStuck (s : State) (p : Nat) : State :=
  ((portS s p).egress.filter (fun f => neverStarts s p f)).foldl (fun st f => dropTooLong st p f)
    (updPort s p (fun x => { x with egress := x.egress.filter (fun f => !neverStarts s p f) }))

/-- A frame queued at a port's egress, or dropped because it can never start or for want of room (R473, R483). -/
def netForward (s : State) (p : Nat) (f : NetFrame) : State :=
  if decide (p < Config.ports s.variant) && fon s (NET_PCFG_EN p) && neverStarts s p f then dropTooLong s p f
  else if decide (p < Config.ports s.variant) && fon s (NET_PCFG_EN p) && decide (egressBytes (portS s p) + f.bytes.length ≤ 65536) then
    updPort s p (fun x => { x with egress := x.egress ++ [f] })
  else fcount s (NET_PCNT3_EGRDROP p) 1

/-- The latest start of a cycle at or before PTP time `t` (R483): base + n × cyc, none before the base and without a cycle. -/
def cycleStart (u : Nat × Nat) (t : Nat) : Option Nat := if u.2 = 0 ∨ t < u.1 then none else some (u.1 + (t - u.1) / u.2 * u.2)

/-- QBV_CYCLE_START: a swap asked for takes effect once the clock has reached a cycle start at or after its base; at each cycle start the
entries of the active bank are taken. -/
def qbvCycle (s : State) (p : Nat) : State :=
  if !fon s (NET_QBVCTL_EN p) || !accepted s 0x0B 3 || decide (Config.ports s.variant ≤ p) then s
  else
    let s1 := match (portS s p).swap with
      | some u =>
        if (cycleStart u (ptpNs s)).isSome then
          updPort (fset (fset s (NET_QBVCTL_BANK p) (1 - fget s (NET_QBVCTL_BANK p))) (NET_QBVCTL_SWAP p) 0) p
            (fun x => { x with swap := none, inUse := some u, cycle := none })
        else s
      | none => s
    let x := portS s1 p
    match x.inUse.bind (fun u => cycleStart u (ptpNs s1)) with
    | some t =>
      if x.cycle = some t then s1
      else dropStuck (updPort s1 p (fun x => { x with gates := gateBank s1 p (fget s1 (NET_QBVCTL_BANK p)), cycle := some t })) p
    | none => s1

/-! ### Reception (R472–R477) -/

/-- The tokens of a port's rate bucket now, in units of 1/1600 byte. -/
def bucketNow (s : State) (p : Nat) : Nat :=
  min (16384 * 1600) ((portS s p).bucket + fget s (NET_PSTORM_RATE p) * (s.tick - (portS s p).at_))

/-- Storm and rate control (R476): the state after the frame's count, and whether it is over a limit. -/
def stormCheck (s : State) (p : Nat) (f : List Byte) : State × Bool :=
  let w := s.tick / 20000
  let x0 := portS s p
  let x := if x0.window = w then x0 else { x0 with window := w, bc := 0, mc := 0 }
  let isBc := netField f 0 6 == 2 ^ 48 - 1
  let isMc := bit (netField f 0 1) 0 && !isBc
  let lb := fget s (NET_PSTORM_BC p)
  let lm := fget s (NET_PSTORM_MC p)
  let lr := fget s (NET_PSTORM_RATE p)
  let cost := (f.length + 4) * 1600
  let have_ := bucketNow s p
  if (isBc && lb != 0 && decide (lb ≤ x.bc)) || (isMc && lm != 0 && decide (lm ≤ x.mc)) || (lr != 0 && decide (have_ < cost)) then
    (updPort s p (fun _ => x), true)
  else
    (updPort s p (fun _ => { x with bc := if isBc then x.bc + 1 else x.bc, mc := if isMc then x.mc + 1 else x.mc,
                                    bucket := if lr = 0 then have_ else have_ - cost, at_ := s.tick }), false)

/-- NRX of a receive channel. -/
def rxSlots (s : State) (c : Nat) : Nat := 2 ^ (fget s (NET_RCFG_RXSZ c) + 1)

/-- A frame delivered to receive channel `c` under rule `rule`, its timestamp being `stamp` (R477). -/
def netDeliver (s : State) (p c rule : Nat) (f : List Byte) (v : FrameView) (ts secok : Bool) (stamp : Nat) : State :=
  if !fon s (NET_RCFG_EN c) then raise s 0x0B 17
  else if rxSlots s c - 2 < qfill (qdesc s (fget s (NET_RCFG_QUEUE c))) then
    raise { s with net := { s.net with rxFull := mput (fun _ => 0) s.net.rxFull c (mget (fun _ => 0) s.net.rxFull c + 1) } } 0x0B 17
  else
    let n := mget (fun _ => 0) s.net.rxcnt c
    let slot := n % rxSlots s c
    match portBWrite s (fget s (NET_RBASE_ADDR c) * 2048 + 2048 * slot) f (blkReq 0x0B (some (fget s (NET_RBASE_CTX c)))) .network with
    | (s1, st) =>
      if st ≠ .ok then raise s1 0x0B 17
      else
        let tsv := ts && accepted s 0x0B 1
        let w := slot * 2 ^ 112 + b2n secok * 2 ^ 101 + b2n tsv * 2 ^ 100 + b2n v.tagged * 2 ^ 99 + v.pcp * 2 ^ 96 + v.vid * 2 ^ 84 + p * 2 ^ 80 +
          f.length * 2 ^ 64 + (if tsv then stamp else 0)
        match queuePut s1 { queue := fget s1 (NET_RCFG_QUEUE c), sender := fget s1 (NET_RBASE_CTX c), ring := none, cls := fget s1 (NET_RCFG_CLASS c),
                            axis := 0, flags := 0, plen := 32,
                            payload := [⟨BitVec.ofNat 128 w, false⟩, ⟨BitVec.ofNat 128 rule, false⟩, nullW], fromEvt := false } with
        | (s2, 0) => { s2 with net := { s2.net with rxcnt := mput (fun _ => 0) s2.net.rxcnt c (n + 1) } }
        | (s2, _) => raise s2 0x0B 17

/-- Rule `i`, and the first enabled rule that matches, in ascending order. -/
def firstRule (s : State) (p : Nat) (v : FrameView) (secok : Bool) : Option (Nat × List W32) :=
  s.net.rules.find? (fun r => ruleMatches r.2 p v secok)

/-- A frame classified and its rule's action taken (R474). -/
def classify (s : State) (p : Nat) (f : List Byte) (secok : Bool) (stamp : Nat) : State :=
  let v := frameView s p f
  match firstRule s p v secok with
  | none => fcount s (NET_PCNT3_NOMATCH p) 1
  | some (i, r) =>
    let hits := satInc (r.getD 7 0)
    let s1 := { s with net := { s.net with rules := mput (fun _ => []) s.net.rules i (r.set 7 hits) } }
    let w := ruleW r 6
    let s2 := ((upTo 4).filter (fun k => k != p && bit (bits w 27 24) k)).foldl (fun st k => netForward st k { bytes := f, tc := v.pcp, req := none }) s1
    if bit w 30 then netDeliver s2 p (w % 64) i f v (bit w 29) secok stamp else s2

/-- Whether a frame of `n` bytes that has now ended is taken: the switch works, or it had not left RUNNING when the frame began (R487). -/
def netHears (s : State) (p n : Nat) : Bool :=
  running s 0x0B || match s.net.stopped with
    | some t => decide (s.tick - wireNs s p (n + 8) / 5 < t)
    | none => false

/-- ETHERNET_FRAME_RECEIVE: a frame of port `p`, from the destination address to the FCS. -/
def etherReceive (s : State) (p : Nat) (raw : List Byte) : State :=
  if !netHears s p raw.length || decide (Config.ports s.variant ≤ p) || !fon s (NET_PCFG_EN p) || !fon s (NET_PSTAT_LINK p) then s
  else
    let f := raw.take (raw.length - 4)
    let stamp := ptpStamp s p raw.length
    if raw.length < 64 ∨ 2004 < raw.length ∨ crc32 f ≠ BitVec.ofNat 32 (leVal (raw.drop (raw.length - 4))) then fcount s (NET_PCNT1_ERRDROP p) 1
    else
      match stormCheck (countUp s (NET_PCNT0 p)) p f with
      | (s1, true) => portEvent (fcount s1 (NET_PCNT1_STORMDROP p) 1) p 1
      | (s1, false) =>
        if macsecOn s1 p && netField f 12 2 == 0x88E5 then
          match validate s1 p f with
          | (s2, some g) => classify s2 p g true stamp
          | (s2, none) => portEvent (fcount s2 (NET_PCNT1_ERRDROP p) 1) p 2
        else classify s1 p f false stamp

/-! ### Transmission (R478) -/

/-- A request found good carried out up to the egress queue. -/
def transmit (s : State) (p : Nat) (r : NetReq) (len : Nat) : State :=
  let c := r.chan
  match portBRead s (fget s (NET_TBASE_ADDR c) * 2048 + 2048 * r.slot) len (blkReq 0x0B (some (fget s (NET_TBASE_CTX c)))) with
  | (s1, f, st) =>
    if st ≠ .ok then txComplete s1 r (statusCode st) none
    else if fon s1 (NET_TCFG_VIDEN c) && !(netTagged f && netField f 14 2 % 4096 == fget s1 (NET_TCFG_VID c)) then txComplete s1 r 9 none
    else if macsecOn s1 p && (txSa s1 p).isNone then txComplete s1 r 11 none
    else if r.onestep && accepted s1 0x0B 2 && decide (len < r.ofs + 44) then txComplete s1 r 12 none
    else
      let fr : NetFrame := { bytes := f ++ List.replicate (60 - f.length) 0, tc := fget s1 (NET_TCFG_TC c), req := some r }
      if neverStarts s1 p fr then dropTooLong s1 p fr
      else updPort s1 p (fun x => { x with egress := x.egress ++ [fr] })

/-- PORT_TRANSMIT_REQUEST: port `p` takes the head of its transmit queue while it has buffer room. -/
def portRequest (s : State) (p : Nat) : State :=
  if !running s 0x0B || decide (Config.ports s.variant ≤ p) || !fon s (NET_PCFG_EN p) || decide (65536 < egressBytes (portS s p) + 2000) then s
  else
    match queueGet s (fget s (NET_PTXQ_QUEUE p)) (some 0) with
    | (s1, 0, ws) =>
      let h := (ws.getD 0 nullW).bits.toNat
      let w := (ws.getD 1 nullW).bits.toNat
      let r : NetReq := { chan := w % 64, slot := bits w 8 6, cookie := bits w 95 64, ts := bit w 11, onestep := bit w 12, ofs := bits w 39 32 }
      let len := bits w 26 16
      if !fon s1 (NET_TCFG_EN r.chan) || bits h 29 18 != fget s1 (NET_TBASE_CTX r.chan) || !bit (fget s1 (NET_TCFG_PORTS r.chan)) p ||
          bits w 127 96 != 0 || bits w 63 40 != 0 || bits w 31 27 != 0 || bits w 15 13 != 0 || bits w 10 9 != 0 || decide (len < 14) || decide (2000 < len) ||
          decide (bits h 53 48 < 16) then
        raise (updPort s1 p (fun x => { x with badReq := x.badReq + 1 })) 0x0B 18
      else transmit s1 p r len
    | (s1, _, _) => s1

/-- The first frame of class `c` at port `p`, if its last bit can have left by now without its gate closing. -/
def egressHead (s : State) (p c : Nat) : Option NetFrame :=
  match (portS s p).egress.find? (fun f => f.tc == c) with
  | some f => if mayStart s p c (ptpNs s - frameNs s p f) (frameNs s p f) then some f else none
  | none => none

/-- The frame of an egress queue that leaves: that of the highest traffic class that may (R473, R483). -/
def egressPick (s : State) (p : Nat) : Option NetFrame := ((upTo 8).map (fun k => 7 - k)).findSome? (fun c => egressHead s p c)

/-- The originTimestamp of a one-step frame whose transmit timestamp is `stamp`, and its UDP checksum, written (R480). -/
def oneStep (s : State) (r : NetReq) (stamp : Nat) (f : List Byte) : List Byte :=
  let o := r.ofs + 34
  let g := f.take o ++ beBytes 6 (fget s NET_PTPEPOCH_SEC * 2 ^ 32 + stamp / 2 ^ 32) ++ beBytes 4 (stamp % 2 ^ 32) ++ f.drop (o + 10)
  let ip := netTypeAt f + 2
  if netField f (netTypeAt f) 2 = 0x0800 ∧ netField f (ip + 9) 1 = 17 then
    let u := ip + netField f ip 1 % 16 * 4 + 6
    g.take u ++ [0, 0] ++ g.drop (u + 2)
  else g

/-- PORT_TRANSMIT_COMPLETE: the frame that may leave port `p` has left it, and its request completes. R478 applies ONESTEP after the
protection. -/
def portComplete (s : State) (p : Nat) : State :=
  match egressPick s p with
  | none => s
  | some f =>
    let s0 := updPort s p (fun x => { x with egress := x.egress.erase f })
    let done := fun (s1 : State) (g : List Byte) =>
      let out := match f.req with
        | some r => if r.onestep && accepted s1 0x0B 2 then oneStep s1 r (ptpStamp s1 p (frameLen s p f)) g else g
        | none => g
      let s2 := countUp (updPort s1 p (fun x => { x with wire := out ++ leBytes 4 (crc32 out).toNat })) (NET_PCNT2 p)
      match f.req with
      | some r => txComplete s2 r 0 (if r.ts && accepted s2 0x0B 1 then some (ptpStamp s2 p (frameLen s p f)) else none)
      | none => s2
    if macsecOn s0 p then
      match txSa s0 p with
      | some (k, x, key) => done (takePn s0 k x) (protect s0 x key f.bytes)
      | none =>
        match f.req with
        | some r => txComplete s0 r 11 none
        | none => fcount s0 (NET_PCNT3_EGRDROP p) 1
    else done s0 f.bytes

/-- LINK_CHANGE: the link of port `p` goes up or down; a half-duplex partner over SGMII is held down (R472). -/
def linkChange (s : State) (p : Nat) (up half : Bool) (speed : Nat) : State :=
  if decide (Config.ports s.variant ≤ p) then s
  else
    let l := up && !(half && fget s (NET_PCFG_MODE p) == 2) && fon s (NET_PCFG_EN p)
    let s1 := fset (fset s (NET_PSTAT_LINK p) (b2n l)) (NET_PSTAT_SPEED p) speed
    if l == fon s (NET_PSTAT_LINK p) then s1 else portEvent s1 p 0

/-! ### The page -/

/-- ICMD (R475, R482). -/
def netCommand (s : State) (q : RegWrite) : State :=
  let n := fget s NET_RSEL_RULE
  let k := saKey (fget s NET_SASEL_PORT) (fget s NET_SASEL_DIR) (fget s NET_SASEL_SC) (fget s NET_SASEL_SA)
  let w := (upTo 7).map (fun i => reg s (NET_RULEW i))
  match q.v.toNat % 8 with
  | 1 =>
    if bits (ruleW w 5) 15 12 ≠ 0 ∨ bits (ruleW w 6) 23 6 ≠ 0 ∨ (bit (ruleW w 6) 30 = true ∧ fon s (NET_RCFG_EN (ruleW w 6 % 64)) = false) then reject s q 0x11
    else { s with net := { s.net with rules := mput (fun _ => []) s.net.rules n (w ++ [0]) } }
  | 2 =>
    let r := mget (fun _ => []) s.net.rules n
    (upTo 7).foldl (fun st i => setReg st (NET_RULEW i) (r.getD i 0)) s
  | 3 =>
    setSa s k { en := fon s NET_SACFG_EN, xpn := fon s NET_SACFG_XPN, an := fget s NET_SACFG_AN, kslot := fget s NET_SACFG_KSLOT,
                sci := pair s NET_SASCI_LO NET_SASCI_HI, pn := pair s NET_SAPN_LO NET_SAPN_HI }
  | 4 =>
    let x := saAt s k
    setPair (setPair (fset (fset (fset (fset s NET_SACFG_EN (b2n x.en)) NET_SACFG_XPN (b2n x.xpn)) NET_SACFG_AN x.an) NET_SACFG_KSLOT x.kslot)
      NET_SASCI_LO NET_SASCI_HI x.sci) NET_SAPN_LO NET_SAPN_HI x.pn
  | _ => s

/-- Whether a write would change a register in a bit below EN while EN = 1: everything but EN itself is locked (R487). -/
def lockedWrite (s : State) (q : RegWrite) (en : Bool) : Bool :=
  en && (stored q.t (reg s q.a) q.v).toNat % 2 ^ 31 != (reg s q.a).toNat % 2 ^ 31

/-- Whether a write changes a companion register of an enabled one. -/
def lockedCompanion (s : State) (q : RegWrite) (en : Bool) : Bool := en && stored q.t (reg s q.a) q.v != reg s q.a

/-- A write to a port register. -/
def portWrite (s : State) (q : RegWrite) (p w : Nat) : State :=
  let v := q.v.toNat
  if w = 0 then
    if bits v 30 29 = 3 then reject s q 0x11
    else if fon s (NET_PCFG_EN p) && bits v 30 28 != bits (reg s q.a).toNat 30 28 then reject s q 0x10
    else plainWrite s q
  else if w = 0x0C then
    plainWrite (updPort s p (fun x => { x with bucket := bucketNow s p, at_ := s.tick })) q
  else if w = 0x20 then
    let s1 := plainWrite s q
    if bit v 30 then
      updPort s1 p (fun x => { x with swap := some (fget s1 (NET_QBVBASE_HI_BASE p) * 1000000000 + fget s1 (NET_QBVBASE_LO_BASE p) % 2 ^ 30,
                                                    (reg s1 (NET_QBVCYC p)).toNat) })
    else s1
  else plainWrite s q

/-- A write to the NET page. -/
def netWrite (s : State) (q : RegWrite) : State :=
  let o := offOf q.a
  let v := q.v.toNat
  if o = 0x100 then
    let s1 := plainWrite s q
    if fon s NET_PTPCTL_TVALID && !bit v 30 then raise s1 0x0B 16 else s1
  else if o = 0x118 then
    let s1 := setPair s NET_PTPSTEP_LO NET_PTPSTEP_HI (q.pairVal s)
    { s1 with net := { s1.net with step := some (s1.net.step.getD 0 + signed 64 (q.pairVal s)) } }
  else if o = 0x15C then noteReserved (netCommand s q) q
  else if 0x1000 ≤ o ∧ o < 0x1100 then portWrite s q q.i (o % 0x40)
  else if 0x2000 ≤ o ∧ o < 0x2400 then
    if o % 16 = 0 then
      if lockedWrite s q (fon s (NET_RCFG_EN q.i)) then reject s q 0x10 else checkedWrite s q (if 9 < bits v 30 27 then 0x11 else 0)
    else if lockedCompanion s q (fon s (NET_RCFG_EN q.i)) then reject s q 0x10
    else plainWrite s q
  else if 0x3000 ≤ o ∧ o < 0x3400 then
    if o % 16 = 0 then (if lockedWrite s q (fon s (NET_TCFG_EN q.i)) then reject s q 0x10 else plainWrite s q)
    else if lockedCompanion s q (fon s (NET_TCFG_EN q.i)) then reject s q 0x10
    else plainWrite s q
  else plainWrite s q

/-- The requests waiting at a port completed with CANCELLED. -/
def cancelEgress (s : State) (p : Nat) : State :=
  ((portS s p).egress.filterMap (fun f => f.req)).foldl (fun st r => txComplete st r 2 none) (updPort s p (fun x => { x with egress := [] }))

/-- NET leaves RUNNING: no frame has started, so what waits is CANCELLED (R116, R487). -/
def netLeave (s : State) : State :=
  (upTo 4).foldl cancelEgress { s with net := { s.net with stopped := some (s.net.stopped.getD s.tick) } }

/-- NET enters RUNNING: it takes every frame again. -/
def netEnable (s : State) : State := { s with net := { s.net with stopped := none } }

/-- SOFT_RESET: what the switch holds beside its page. -/
def netClear (s : State) : State := { s with net := NetS.empty }

end Sys2Proof.Machine
end

