-- ==== Sys2Proof/Machine/Phase.lean ====
section
/-! DEFINITION. The phase engine: the phase tick, the sources of axes, crossings, mark actions, pin commands, and the page
(R358–R386, R441). -/

namespace Sys2Proof.Machine

/-- Phase-engine state changed. -/
def updPhase (s : State) (f : PhaseS → PhaseS) : State := { s with phase := f s.phase }

/-! ### Sources (R361, R363) -/

/-- The coordinate that a count of an encoder spells (R363). -/
def encCoord (cpr : Nat) (k : Int) : Int :=
  k / (cpr : Int) * (2 ^ 32 : Nat) + k % (cpr : Int) * (2 ^ 32 : Nat) / (cpr : Int)

/-- The source code of axis `a`: fixed for axes 0–2. -/
def axisSrc (s : State) (a : Nat) : Nat := if a < 3 then a else fget s (PHASE_AXCTL_SRC a)

/-- Whether the source of axis `a` updates it directly, every tick. -/
def directSrc (s : State) (a : Nat) : Bool := axisSrc s a == 1 || axisSrc s a == 3 || axisSrc s a == 4

/-- The offset of an axis. -/
def axisOff (s : State) (a : Nat) : Nat := pair s (PHASE_AXOFF_LO a) (PHASE_AXOFF_HI a)

/-- The coordinate that a direct source gives for tick `t`, when it reports a valid value. An encoder's value reaches the engine 48
ticks after it was taken. -/
def directValue (s : State) (a t : Nat) : Option Nat :=
  if axisSrc s a = 1 then (ptpReport s).map (fun c => (c + axisOff s a) % 2 ^ 64)
  else if fget s (PHASE_AXCPR_CPR a) = 0 then none
  else (encDelivers s (fget s (PHASE_AXCTL_SEL a) % 8) (t - 48)).map (fun k =>
    ((encCoord (fget s (PHASE_AXCPR_CPR a)) k + axisOff s a) % (2 ^ 64 : Nat)).toNat)

/-! ### One tick of one axis (R359–R368) -/

/-- What a tick made of an axis: whether it holds a valid coordinate, the coordinates before and after, whether the span is late,
and the coordinate X that newly armed marks are checked against (R370). -/
structure AxStep where
  valid : Bool
  p : Nat
  c : Nat
  late : Bool
  x : Nat
  deriving DecidableEq, Repr

/-- An axis whose marks are not tested in a tick. -/
def AxStep.none : AxStep := { valid := false, p := 0, c := 0, late := false, x := 0 }

/-- A REVERSAL (R367): with REVEV = 1 its flag, count and event; otherwise it is only counted. -/
def noteReversal (s : State) (a : Nat) : State :=
  if fon s (PHASE_AXCTL_REVEV a) then noteAxis s a (PHASE_AXSTAT_REV a) (some (PHASE_AXCNT_REVN a)) else fcount s (PHASE_AXCNT_REVN a) 1

/-- An advance noted (R359), whatever the state of the axis: its direction, and a REVERSAL when its sign differs from that of the last
nonzero one. -/
def noteAdvance (s : State) (a : Nat) (adv : Int) : State :=
  if adv = 0 then s
  else
    let back := decide (adv < 0)
    let s1 := if (axisS s a).back = some (!back) then noteReversal s a else s
    fset (updAxis s1 a (fun x => { x with back := some back })) (PHASE_AXSTAT_DIR a) (b2n back)

/-- The fold of a tick's updates: the state, the coordinate of the tick in 2^−16 units as they make it, the advance it holds, whether
the span is late, and the coordinate the span starts from. An update in ACQUIRE sets the coordinate, which is no advance. -/
structure TrackAcc where
  s : State
  pos : Int
  adv : Int
  isSet : Bool
  late : Bool
  fromC : Option Nat
  deriving DecidableEq, Repr

/-- The advance of the tick gains a correction. -/
def TrackAcc.gain (r : TrackAcc) (d : Int) : TrackAcc := { r with pos := r.pos + d, adv := r.adv + d }

/-- The low `n` bits of an integer as a signed number. -/
def signedI (n : Nat) (x : Int) : Int := signed n (x % (2 ^ n : Nat)).toNat

/-- The error of an update (R364). -/
def updError (s : State) (a : Nat) (u : AxUpd) (held : Int) : Int :=
  signedI (if u.frac then 32 else 64) (((u.pos + axisOff s a : Nat) : Int) - held)

/-- The coordinate, in 2^−16 units, that the axis holds at the tick of an update, `t` being the tick in progress. -/
def heldAtTick (r : TrackAcc) (a t ut : Nat) : Int :=
  if t ≤ ut then r.pos
  else
    match segAt ut (axisS r.s a).segs with
    | some p => p
    | none => r.pos

/-- An update of an axis in ACQUIRE (R367): the coordinate becomes m, which is the position at the update's own tick, so the tick in
progress holds m and the advance since (DEDUCED); the interval between mains crossings gives the velocity. -/
def acquireUpd (a t : Nat) (u : AxUpd) (held e : Int) (r : TrackAcc) : TrackAcc :=
  let s := r.s
  let ax := axisS s a
  let ok := decide (e.natAbs ≤ fget s (PHASE_AXJUMPLIM_LIM a))
  let lock := if ax.seen = 0 then 0 else if ok then ax.lock + 1 else 0
  let s1 := updAxis s a (fun x => { x with seen := 1, lock := lock, cross := some u.tick })
  let s2 :=
    match ax.cross with
    | some t0 => if a = 2 ∧ t0 < u.tick then setAxisVel s1 a (satVel (((2 ^ 48 : Nat) : Int) / ((u.tick - t0 : Nat) : Int))) else s1
    | none => s1
  let r1 := { r with pos := (held / 65536 + e) * 65536 + ((t : Int) - u.tick) * axisVel s2 a, isSet := true }
  if fget s (PHASE_AXLOOP_LOCKN a) ≤ lock then
    let dead := ax.dead.map (·.toNat)
    let s3 := if dead.isSome then noteJump s2 a else s2
    { r1 with s := axisToRun s3 a, late := dead.isSome, fromC := dead }
  else { r1 with s := s2 }

/-- An update of an axis in RUN or HOLDOVER with error `e` (R364, R368). The velocity it leaves governs from the next tick, so that
with KP = 0 the tick takes the measured position exactly. -/
def runUpd (a : Nat) (e : Int) (r : TrackAcc) : TrackAcc :=
  let s1 := if axisState r.s a = 3 then axisToRun r.s a else updAxis r.s a (fun x => { x with loss := 0 })
  if fget s1 (PHASE_AXJUMPLIM_LIM a) < e.natAbs then { r.gain (e * 65536) with s := noteJump s1 a, late := true }
  else
    { r.gain (e * 65536 / ((2 ^ fget s1 (PHASE_AXLOOP_KP a) : Nat) : Int)) with
      s := setAxisVel s1 a (satVel (axisVel s1 a + e * 65536 / ((2 ^ fget s1 (PHASE_AXLOOP_KI a) : Nat) : Int))) }

/-- One update of a tracking axis (R364, R367): a valid one brings a DEAD axis to ACQUIRE. -/
def trackUpd (a t : Nat) (r : TrackAcc) (u : AxUpd) : TrackAcc :=
  let r0 := if axisState r.s a = 4 then { r with s := axisToAcquire r.s a } else r
  let held := heldAtTick r0 a t u.tick
  let e := updError r0.s a u (held / 65536)
  if axisState r0.s a = 1 then acquireUpd a t u held e r0 else runUpd a e r0

/-- Ticks without an update counted, and the changes they lead to (R367). -/
def axisIdle (s : State) (a : Nat) (updated : Bool) : State :=
  match axisState s a with
  | 2 =>
    if updated then updAxis s a (fun x => { x with loss := 0 })
    else
      let n := (axisS s a).loss + 1
      let s1 := updAxis s a (fun x => { x with loss := n })
      if fget s (PHASE_AXLOSSTIME_TIME a) ≠ 0 ∧ fget s (PHASE_AXLOSSTIME_TIME a) ≤ n then axisToHoldover s1 a else s1
  | 3 =>
    let n := (axisS s a).hold + 1
    let s1 := fset (updAxis s a (fun x => { x with hold := n })) (PHASE_AXSTAT_HOLDT a) (min (n / 65536) (2 ^ 23 - 1))
    if fget s (PHASE_AXHOLDMAX_MAX a) ≠ 0 ∧ fget s (PHASE_AXHOLDMAX_MAX a) * 65536 < n then axisToDead s1 a else s1
  | _ => s

/-- The coordinate of tick `t` stored, with its place in the history. -/
def putCoord (s : State) (a t c80 : Nat) : State :=
  updAxis (setAxisPos80 s a c80) a (fun x => { x with segs := segPut t c80 (axisVel s a) x.segs })

/-- The tick of a tracking axis, or of one without an update: it advances by the velocity it held before, and by the corrections of
its updates (R359, R364). -/
def trackTick (s : State) (a t : Nat) : State × AxStep :=
  let upds := (axisS s a).upds
  let p80 := axisPos80 s a
  let v := axisVel s a
  let r := upds.foldl (trackUpd a t)
    { s := updAxis s a (fun x => { x with upds := [] }), pos := (p80 : Int) + v, adv := v, isSet := false, late := false, fromC := none }
  let c80 := (r.pos % (2 ^ 80 : Nat)).toNat
  let s1 := putCoord (axisIdle r.s a (!upds.isEmpty)) a t c80
  let c := c80 / 65536
  let p := if r.isSet then r.fromC.getD c else p80 / 65536
  (if r.isSet then s1 else noteAdvance s1 a r.adv, { valid := axisValid s1 a, p := p, c := c, late := r.late, x := if r.isSet then c else p })

/-- The velocity of a direct axis filtered with the step `d` of the tick (R363). -/
def filterVel (s : State) (a : Nat) (d : Int) : State :=
  let v := axisVel s a
  setAxisVel s a (satVel (v + (d * 65536 - v) / ((2 ^ fget s (PHASE_AXLOOP_KV a) : Nat) : Int)))

/-- The tick of an axis with a direct source that reports coordinate `c` (R363, R367, R368). -/
def directTick (s : State) (a t c : Nat) : State × AxStep :=
  let s0 := if axisState s a = 4 then axisToAcquire s a else s
  let p := axisPos s0 a
  let d := sdiff c p
  if axisState s0 a = 1 then
    let dead := (axisS s0 a).dead.map (·.toNat)
    let s1 := axisToRun (if dead.isSome then noteJump s0 a else s0) a
    (putCoord (filterVel s1 a d) a t (c * 65536), { valid := true, p := dead.getD c, c := c, late := dead.isSome, x := c })
  else
    let s1 := if axisState s0 a = 3 then axisToRun s0 a else updAxis s0 a (fun x => { x with loss := 0 })
    let jump := decide (fget s1 (PHASE_AXJUMPLIM_LIM a) < d.natAbs)
    let s2 := if jump then noteJump s1 a else s1
    (noteAdvance (putCoord (filterVel s2 a d) a t (c * 65536)) a d, { valid := true, p := p, c := c, late := jump, x := p })

/-- One tick of axis `a`, the tick being `t`. -/
def axisTick (s : State) (a t : Nat) : State × AxStep :=
  if a = 0 then
    let p := axisPos s 0
    (setAxisPos80 s 0 (axis0At t), { valid := true, p := p, c := axis0At t / 65536, late := false, x := p })
  else if axisState s a = 0 then (s, AxStep.none)
  else
    match (if directSrc s a then directValue s a t else none) with
    | some c => directTick s a t c
    | none => trackTick s a t

/-- One tick of the axes listed, in turn. -/
def axesTick (t : Nat) : List Nat → State → State × List AxStep
  | [], s => (s, [])
  | a :: r, s =>
    match axisTick s a t with
    | (s1, x) =>
      match axesTick t r s1 with
      | (s2, l) => (s2, x :: l)

/-! ### Crossings (R371–R373) -/

/-- Whether a span from `p` to `c` crosses `m`: forward, backward (for a mark with the either rule), or not. -/
def crossing (p c m : Nat) (either : Bool) : Option Bool :=
  let st := sdiff c p
  let d := sdiff m p
  if 0 < st ∧ 0 < d ∧ d ≤ st then some true
  else if either ∧ st < 0 ∧ st < d ∧ d ≤ 0 then some false
  else none

/-- Whether M advanced `k` times by `i` has passed C. -/
def markPassed (m i c k : Nat) (fwd : Bool) : Bool :=
  if fwd then decide (0 < signedI 64 ((m : Int) + k * i - c)) else decide (0 ≤ signedI 64 ((c : Int) - m + k * i))

/-- The least count of increments from `k` up that passes C. -/
def passFrom (m i c : Nat) (fwd : Bool) : Nat → Nat → Nat
  | 0, k => k
  | f + 1, k => if markPassed m i c k fwd then k else passFrom m i c fwd f (k + 1)

/-- How many increments a crossing takes (R372): the repeat loop, begun where it cannot end before. -/
def incCount (m i c : Nat) (fwd : Bool) : Nat :=
  let d := if fwd then sdiff c m else sdiff m c
  let k0 := if d ≤ 0 then 1 else if fwd then d.toNat / i + 1 else (d.toNat + i - 1) / i
  passFrom m i c fwd 64 (max 1 k0)

/-- Whether a mark's crossing is suppressed for want of authority (R373, R384). -/
def markGated (s : State) (m : Nat) : Bool := fon s (PHASE_MARKCTL_GATE m) && accepted s 7 7 && !authority s

/-- What a crossing comes to (R372). -/
inductive Outcome where
  | dropped | suppressed | performed
  deriving DecidableEq, Repr

/-- The outcome of a crossing of mark `m`. -/
def outcome (s : State) (m : Nat) (late : Bool) : Outcome :=
  if late && fon s (PHASE_MARKCTL_LATEPOL m) then .dropped else if markGated s m then .suppressed else .performed

/-- Whether a mark has a pin action. -/
def pinMark (s : State) (m : Nat) : Bool := decide (1 ≤ fget s (PHASE_MARKCTL_ACTION m)) && decide (fget s (PHASE_MARKCTL_ACTION m) ≤ 3)

/-- MSTAT[7:0] of a crossing. -/
def crossFlags (o : Outcome) (merged pred late back : Bool) : Nat :=
  b2n (o = .suppressed) * 64 + b2n (o = .dropped) * 32 + b2n merged * 16 + b2n pred * 8 + b2n late * 4 + b2n back * 2 + 1

/-- The counters and events of a crossing (R372). -/
def countCrossing (s : State) (m : Nat) (o : Outcome) (late : Bool) : State :=
  match o with
  | .dropped => raise (fset (countUp s PHASE_DROP_CNT) PHASE_MEVLAST0_DROPM m) 7 33
  | .suppressed => s
  | .performed =>
    let s1 := if late then raise (fset (countUp s PHASE_LATE_CNT) PHASE_MEVLAST0_LATEM m) 7 32 else countUp s PHASE_FIRE_CNT
    if fon s (PHASE_MARKCTL_EVF m) then raise (fset s1 PHASE_MEVLAST2_EVFM m) 7 36 else s1

/-- A crossing of mark `m` handled (R372): the action queued unless it is a pin action, the mark advanced or disarmed, MSTAT, MFIRE
and the counters brought up to date. `c` is the axis's coordinate. -/
def handleCross (s : State) (m c t : Nat) (fwd late : Bool) : State :=
  let o := outcome s m late
  let a := fget s (PHASE_MARKCTL_AXIS m)
  let pred := axisState s a == 3
  let mc := markCoord s m
  let i := markInc s m
  let k := if i = 0 then 1 else incCount mc i c fwd
  let flags := crossFlags o (i != 0 && decide (1 < k)) pred late (!fwd)
  let act := fget s (PHASE_MARKCTL_ACTION m)
  let s1 :=
    if o = .performed ∧ act ≠ 0 ∧ pinMark s m = false then
      updPhase s (fun x => { x with acts := x.acts ++ [{ mark := m, action := act, arg := fget s (PHASE_MARKCTL_ARG m), axis := a, tick := t, coord := BitVec.ofNat 64 mc, flags := flags }] })
    else s
  let s2 :=
    if i = 0 then disarm s1 m
    else setPair s1 (PHASE_MCOORD_LO m) (PHASE_MCOORD_HI m)
      (((mc : Int) + (if fwd then ((k * i : Nat) : Int) else -((k * i : Nat) : Int))) % (2 ^ 64 : Nat)).toNat
  let old := (reg s (PHASE_MSTAT m)).toNat
  let stat := (bits old 31 20 + 1) % 4096 * 2 ^ 20 + bits old 19 16 * 65536 + flags
  let s3 := setPair (setReg s2 (PHASE_MSTAT m) (BitVec.ofNat 32 stat)) (PHASE_MFIRE_LO m) (PHASE_MFIRE_HI m) c
  countCrossing s3 m o late

/-! ### Pin commands (R378–R382) -/

/-- Pin commands in the order in which they land: by target tick, then by mark. -/
def pinBefore (a b : PinCmd) : Bool := decide (a.target < b.target) || (a.target == b.target && decide (a.mark ≤ b.mark))

/-- Whether a pin command for tick `target` may be committed now (R381). -/
def pinRoom (s : State) (target : Nat) : Bool :=
  decide (s.phase.commits < 8) && decide ((s.phase.pins.filter (fun p => p.target == target)).length < 64)

/-- SKEW of mark `m` written, with event 483 when it is not 0 (R379). -/
def writeSkew (s : State) (m : Nat) (skew : Int) : State :=
  let s1 := fset (fset s (PHASE_MSTAT_SKEW m) ((max (-127) (min skew 127)) % 256).toNat) (PHASE_MSTAT_NOCROSS m) 0
  if skew = 0 then s1 else raise (fset s1 PHASE_MEVLAST1_SKEWM m) 7 35

/-- A pin command of mark `m` committed for tick `target`: the firing is handled, and the crossing is watched unless it is known. -/
def commitPin (s : State) (m c t target : Nat) (fwd late : Bool) (cross : Option Nat) : State :=
  let a := fget s (PHASE_MARKCTL_AXIS m)
  let cmd : PinCmd := { target := target, mark := m, out := fget s (PHASE_MARKCTL_ARG m) % 32, action := fget s (PHASE_MARKCTL_ACTION m) }
  let w : PinWatch := { mark := m, axis := a, coord := BitVec.ofNat 64 (markCoord s m), fwd := fwd, target := target }
  let s1 := updPhase s (fun x => { x with
    pins := insertBy pinBefore cmd x.pins
    commits := x.commits + 1
    watch := if cross.isSome then x.watch else x.watch ++ [w] })
  let s2 := handleCross s1 m c t fwd late
  match cross with
  | some k => writeSkew s2 m ((target : Int) - k)
  | none => s2

/-- A pin firing due now for tick `target`: committed, put off when the tick is full, or handled without a command when it is dropped
or suppressed. -/
def pinFire (s : State) (m c t target : Nat) (fwd late : Bool) (cross : Option Nat) : State :=
  if outcome s m late ≠ .performed then handleCross s m c t fwd late
  else if pinRoom s target then commitPin s m c t target fwd late cross
  else updPhase s (fun x => { x with defer := x.defer ++ [{ mark := m, fwd := fwd, late := late, cross := cross }] })

/-- The tick for which a pin mark is committed ahead of its crossing (R378): its direction and the ticks to go. The coordinate counts
with the 16 bits below its unit, so that an axis that keeps its velocity reaches the mark at the target tick (R358, R380). -/
def aheadTicks (s : State) (m : Nat) : Option (Bool × Nat) :=
  let a := fget s (PHASE_MARKCTL_AXIS m)
  let v := axisVel s a
  let d := signedI 80 ((markCoord s m * 65536 : Nat) - (axisPos80 s a : Int))
  if v = 0 ∨ (v < 0 ∧ fon s (PHASE_MARKCTL_DIR m) = false) then none
  else
    let n := -((-(if 0 < v then d else -d)) / (v.natAbs : Int))
    if 0 < n ∧ n ≤ 48 then some (decide (0 < v), n.toNat) else none

/-- A commit put off is tried again (R381), the crossing being noted if it has happened since. -/
def retryDefer (s : State) (m t : Nat) (x : AxStep) (d : PinDefer) : State :=
  let cross := match d.cross with
    | some k => some k
    | none => if crossing x.p x.c (markCoord s m) true = some d.fwd then some t else none
  let s1 := updPhase s (fun p => { p with defer := p.defer.map (fun e => if e.mark = m then { e with cross := cross } else e) })
  if outcome s1 m d.late ≠ .performed ∨ pinRoom s1 (t + 48) then
    pinFire (updPhase s1 (fun p => { p with defer := p.defer.filter (fun e => e.mark != m) })) m x.c t (t + 48) d.fwd d.late cross
  else s1

/-! ### The test of a mark (R370, R371, R378) -/

/-- A mark with a crossing handled as its action asks. -/
def crossed (s : State) (m c t : Nat) (fwd late : Bool) : State :=
  if pinMark s m then pinFire s m c t (t + 48) fwd late (some t) else handleCross s m c t fwd late

/-- Whether the check of R370 finds mark `m` crossed late. -/
def behind (s : State) (m x : Nat) : Bool :=
  let d := sdiff (markCoord s m) x
  if fon s (PHASE_MARKCTL_DIR m) then d == 0 else decide (d ≤ 0)

/-- The test of an armed mark in tick `t` on its axis's step. -/
def testMark (t : Nat) (xs : List AxStep) (s : State) (m : Nat) : State :=
  let x := xs.getD (fget s (PHASE_MARKCTL_AXIS m)) AxStep.none
  if !x.valid then s
  else
    match s.phase.defer.find? (fun d => d.mark == m) with
    | some d => retryDefer s m t x d
    | none =>
      let isNew := s.phase.fresh.contains m
      let s0 := if isNew then updPhase s (fun p => { p with fresh := p.fresh.filter (fun k => k != m) }) else s
      if isNew && behind s0 m x.x then crossed s0 m x.c t true true
      else
        match crossing x.p x.c (markCoord s0 m) (fon s0 (PHASE_MARKCTL_DIR m)) with
        | some fwd => crossed s0 m x.c t fwd x.late
        | none =>
          if pinMark s0 m then
            match aheadTicks s0 m with
            | some (fwd, n) => pinFire s0 m x.c t (t + n) fwd false none
            | none => s0
          else s0

/-- The armed marks, in ascending number. -/
def armedMarks (s : State) : List Nat :=
  s.regs.filterMap (fun p =>
    if PHASE_MARKCTL 0 ≤ p.1 ∧ p.1 < PHASE_MARKCTL 4096 ∧ (p.1 - PHASE_MARKCTL 0) % 0x20 = 0 ∧ bit p.2.toNat 31 then
      some ((p.1 - PHASE_MARKCTL 0) / 0x20)
    else none)

/-- A watched crossing tested in tick `t` (R379): seen, given up, or still watched. -/
def watchPin (t : Nat) (xs : List AxStep) (s : State) (w : PinWatch) : State :=
  let x := xs.getD w.axis AxStep.none
  if x.valid && crossing x.p x.c w.coord.toNat true == some w.fwd then
    writeSkew (updPhase s (fun p => { p with watch := p.watch.erase w })) w.mark ((w.target : Int) - t)
  else if w.target + 48 ≤ t then
    raise (fset (fset (updPhase s (fun p => { p with watch := p.watch.erase w })) (PHASE_MSTAT_NOCROSS w.mark) 1) PHASE_MEVLAST1_SKEWM w.mark) 7 35
  else s

/-! ### Landing, issuing, and the tick -/

/-- The pin command first in line lands (R379, R382). -/
def landPin (s : State) : State :=
  match s.phase.pins with
  | [] => s
  | p :: r =>
    match pinCommand (updPhase s (fun x => { x with pins := r })) p.out p.action with
    | (s1, st) => fset s1 (PHASE_MSTAT_STATUS p.mark) (statusCode st)

/-- PIN_ACTION: the first pin command whose target tick has come lands. -/
def pinAction (s : State) : State :=
  match s.phase.pins with
  | p :: _ => if p.target ≤ s.tick then landPin s else s
  | [] => s

/-- Every pin command whose target tick has come lands. -/
def landDue : Nat → State → State
  | 0, s => s
  | n + 1, s =>
    match s.phase.pins with
    | p :: _ => if p.target ≤ s.tick then landDue n (landPin s) else s
    | [] => s

/-- A locked timer's centre is sent when its axis reaches one of its coordinates (R441). -/
def pwmLock (t : Nat) (xs : List AxStep) (s : State) (k : Nat) : State :=
  let x := xs.getD (fget s (MEAS_PWMTCFG_AXIS k)) AxStep.none
  if fon s (MEAS_PWMTCFG_LOCK k) && accepted s 9 4 && x.valid then
    let grid (c : Int) : Int := (c - fget s (MEAS_PWMTPH_PH k)) * fget s (MEAS_PWMTCFG_N k) / (2 ^ 32 : Nat)
    if grid x.p = grid ((x.p : Int) + sdiff x.c x.p) then s else pwmCentre s k t
  else s

/-- PHASE_TICK (R360): the overdue pin commands have landed; every axis is updated and advanced; the centres of locked timers, the
watched crossings, the armed marks and the timeouts are tested, the frames that lanes send are stamped (R457), and the core
watchdogs count (R543). -/
def phaseTick (s : State) : State :=
  let s0 := landDue s.phase.pins.length s
  let t := s0.tick + 1
  let s1 := twinTick (ptpTick (measTick (updPhase { s0 with tick := t } (fun p => { p with commits := 0 }))))
  match axesTick t (upTo 16) s1 with
  | (s2, xs) =>
    let s3 := (upTo 4).foldl (pwmLock t xs) s2
    let s4 := s3.phase.watch.foldl (watchPin t xs) s3
    let s5 := if running s4 7 then (armedMarks s4).foldl (testMark t xs) s4 else s4
    let s6 := (upTo 16).foldl (fun st a => if (xs.getD a AxStep.none).valid then reachTimeouts st a else st) s5
    wdrTick ((upTo 16).foldl laneTick s6)

/-- The message that a message action puts (R375). -/
def markMessage (s : State) (a : MarkAct) : PutReq :=
  let t := a.arg % 64
  { queue := fget s (PHASE_MSGTPLA_QUEUE t), sender := fget s (PHASE_MSGTPLB_CTX t), ring := none, cls := fget s (PHASE_MSGTPLA_CLASS t)
    axis := a.axis, flags := fget s (PHASE_MSGTPLA_FLAGS t), plen := 16
    payload := [⟨BitVec.ofNat 128 (a.arg / 64 % 1024 * 2 ^ 112 + a.flags % 256 * 2 ^ 80 + a.mark * 2 ^ 64 + a.coord.toNat), false⟩]
    fromEvt := false }

/-- An action performed by its target: the completion status (R374–R376). With a failed die bridge a step action ends with DISABLED, as
pin and sample actions do (R383). -/
def performAct (s : State) (a : MarkAct) : State × Nat :=
  match a.action with
  | 4 => trigger s (a.arg % 65536) a.tick
  | 5 =>
    if Config.fieldDie s.variant && !bridgeUp s then (s, 1) else
    match stepRequest s { cell := a.arg % 512, late := bit a.flags 2, pred := bit a.flags 3, depth := 0 } false with
    | (s1, st) => (s1, statusCode st)
  | 6 => queuePut s (markMessage s a)
  | 7 => (wake s (a.arg % 4096) 1, 0)
  | 8 => checkpointRequest s (a.arg % 256) true
  | _ => (s, 0)

/-- MARK_ACTION_ISSUE (R376): the first queued action is issued; a status other than OK is counted and raises event 482. -/
def issueAct (s : State) : State :=
  match s.phase.acts with
  | [] => s
  | a :: r =>
    match performAct (updPhase s (fun x => { x with acts := r })) a with
    | (s1, st) =>
      let s2 := fset s1 (PHASE_MSTAT_STATUS a.mark) st
      if st = 0 then s2 else raise (fset (countUp s2 PHASE_REFUSE_CNT) PHASE_MEVLAST1_REFM a.mark) 7 34

/-- AXIS_LOSS (R367): an axis in RUN goes without an update for LOSSTIME. -/
def axisLoss (s : State) (a : Nat) : State :=
  if 0 < a ∧ a < 16 ∧ axisState s a = 2 ∧ fget s (PHASE_AXLOSSTIME_TIME a) ≠ 0 then axisToHoldover s a else s

/-- AXIS_DEAD (R367): an axis exceeds HOLDMAX. -/
def axisDead (s : State) (a : Nat) : State :=
  if 0 < a ∧ a < 16 ∧ axisState s a = 3 ∧ fget s (PHASE_AXHOLDMAX_MAX a) ≠ 0 then axisToDead s a else s

/-! ### The page (R385, R386) -/

/-- The index of an axis register's axis. -/
def axisOfReg (a : Nat) : Nat := (offOf a - 0x1000) / 0x80

/-- The code that refuses a write of AXCTL of axis `a` with word `v` (R361, R386). -/
def axctlCode (s : State) (a v : Nat) : Nat :=
  let old := (reg s (PHASE_AXCTL a)).toNat
  let src := if a < 3 then a else bits v 30 28
  let sel := bits v 24 16
  let locked := (a ≥ 3 && bits v 30 28 != bits old 30 28) || bits v 26 26 != bits old 26 26 || sel != bits old 24 16
  let feature : Nat := match src with
    | 1 => 4
    | 2 => 1
    | 3 => 2
    | 4 => 2
    | 5 => 3
    | _ => 0
  if bit old 31 && locked then 0x10
  else if (3 ≤ a && (decide (src < 3) || src == 7)) || (feature != 0 && !accepted s 7 feature) || (src == 5 && decide (Config.cells s.variant ≤ sel)) then 0x11
  else if bit v 31 && !bit old 31 && (src == 3 || src == 4) && fget s (PHASE_AXCPR_CPR a) == 0 then 0x13
  else 0

/-- A write of AXCTL of axis `a`; the source of axes 1 and 2 is fixed, and axis 0's register is not written. -/
def axctlWrite (s : State) (q : RegWrite) (a : Nat) : State :=
  if a = 0 then s
  else
    match axctlCode s a q.v.toNat with
    | 0 =>
      let v := if a < 3 then withBits q.v.toNat 30 28 a else q.v.toNat
      axisEnable (plainWrite s { q with v := BitVec.ofNat 32 v }) a
    | c => reject s q c

/-- A write of the pair AXMEAS, held as R104 says; on a software axis it delivers an update for the next tick (R365). -/
def axmeasWrite (s : State) (q : RegWrite) (a : Nat) : State :=
  let v := q.pairVal s
  let s1 := if a = 0 then s else noteReserved (setPair s (PHASE_AXMEAS_LO a) (PHASE_AXMEAS_HI a) v) q
  if 3 ≤ a ∧ axisSrc s a = 6 then
    deliverUpd s1 a (if fon s (PHASE_AXCTL_FRAC a) then { tick := s.tick + 1, frac := true, pos := v % 2 ^ 32 } else { tick := s.tick + 1, frac := false, pos := v })
  else s1

/-- A write of the velocity of a software axis (R365). -/
def axvelWrite (s : State) (q : RegWrite) (a : Nat) : State :=
  if 3 ≤ a ∧ axisSrc s a = 6 then
    noteReserved (if q.a = PHASE_AXVEL a then setReg s q.a q.v else fset s (PHASE_AXVELX_VELX a) q.v.toNat) q
  else s

/-- A write of the PHASE page. -/
def phaseWrite (s : State) (q : RegWrite) : State :=
  let o := offOf q.a
  if 0x10000 ≤ o ∧ o < 0x30000 then (if o % 0x20 < 0x14 then markWrite s q (o / 0x20 - 0x800) else plainWrite s q)
  else if 0x1000 ≤ o ∧ o < 0x1800 then
    let a := axisOfReg q.a
    match o % 0x80 with
    | 0x00 => axctlWrite s q a
    | 0x10 => axvelWrite s q a
    | 0x14 => axvelWrite s q a
    | 0x1C => if a = 0 then s else if axisOn s a then reject s q 0x10 else plainWrite s q
    | 0x30 => if axisOn s a then reject s q 0x10 else plainWrite s q
    | 0x38 => if a = 0 then s else axmeasWrite s q a
    | _ => plainWrite s q
  else plainWrite s q

/-- PHASE leaves RUNNING (R367, R383): axes 1–15 are OFF, and the queued actions end with CANCELLED in MSTAT. -/
def phaseLeave (s : State) : State :=
  let s1 := s.phase.acts.foldl (fun st a => fset st (PHASE_MSTAT_STATUS a.mark) 2) s
  axesEnable (updPhase s1 (fun p => { p with acts := [], defer := [] }))

/-- Pin commands not landed and actions without a completion (R383). -/
def phaseInflight (s : State) : Nat := s.phase.pins.length + s.phase.acts.length

/-- SOFT_RESET (R383): axis 0 is unchanged. -/
def phaseClear (s : State) : State :=
  { s with phase := { PhaseS.empty with axes := (axisS s 0) :: List.replicate 15 AxisS.empty } }

end Sys2Proof.Machine
end

