-- ==== Sys2Proof/Machine/Pwr.lean ====
section
/-! DEFINITION. The power and clock controller: operating points, adaptive voltage, droop, throttling and the regulator (R522–R538). -/

namespace Sys2Proof.Machine

/-- Power-controller state changed. -/
def updPwr (s : State) (f : PwrS → PwrS) : State := { s with pwr := f s.pwr }

/-- The fused voltage of operating point `j`, in mV (OPVLO, OPVHI). -/
def opVolt (j : Nat) : Nat := 600 + 2 * (Config.opVoltage j).toNat

/-- The effective operating point of core `n` (R527), 0 after a regulator fault (R536). -/
def effOp (s : State) (n : Nat) : Nat :=
  if fon s PWR_REGSTAT_FAULT then 0
  else min (fget s (PWR_COREOP_REQ n)) (min (fget s PWR_THERMSTAT_CAP) (fget s PWR_AVSCTL_AVSCAP))

/-- Whether a regulator is driven (R530, R535). -/
def regulated (s : State) : Bool := fget s PWR_REGCFG_MODE != 0

/-- VTARGET set, and the regulator commanded (R529). -/
def setTarget (s : State) (mv : Nat) : State :=
  if fget s PWR_VTARGET_TARGET = mv then s
  else
    let s1 := fset s PWR_VTARGET_TARGET mv
    if regulated s then updPwr s1 (fun p => { p with cmd := some mv, want := some (mv, s.tick) }) else s1

/-- A change of core `n`'s effective operating point noted (R528): a raise first asks for the voltage it needs. -/
def retarget (s : State) (n : Nat) : State :=
  if !corePresent s n then s
  else
    let e := effOp s n
    let cur := fget s (PWR_COREOP_CUR n)
    let s1 := fset s (PWR_COREOP_BUSY n) (b2n (e != cur))
    if cur < e ∧ running s 0x0E ∧ regulated s ∧ fget s PWR_VTARGET_TARGET < opVolt e then setTarget s1 (opVolt e) else s1

/-- Every core's operating point looked at anew. -/
def retargetAll (s : State) : State := (upTo 16).foldl retarget s

/-- OP_CHANGE_COMPLETE (R528): a lowering takes effect at once, a raise when PWR is RUNNING and the voltage has been reached. -/
def opChange (s : State) (n : Nat) : State :=
  if !corePresent s n || !fon s (PWR_COREOP_BUSY n) then s
  else
    let e := effOp s n
    let cur := fget s (PWR_COREOP_CUR n)
    if e < cur ∨ (running s 0x0E ∧ s.pwr.want = none ∧ opVolt e ≤ fget s PWR_VTARGET_TARGET) then
      let s1 := fset (fset s (PWR_COREOP_CUR n) e) (PWR_COREOP_BUSY n) 0
      if fon s (PWR_COREOP_EV n) then raise s1 0x0E 7 else s1
    else s

/-- Whether core `n` has a raise pending (R528). -/
def raisePending (s : State) (n : Nat) : Bool := fon s (PWR_COREOP_BUSY n) && decide (fget s (PWR_COREOP_CUR n) < effOp s n)

/-- Pending raises cancelled: they are not started, and REQ keeps them for the next enable (R116, R118, R537). -/
def pwrLeave (s : State) : State := (upTo 16).foldl (fun st n => if raisePending st n then fset st (PWR_COREOP_BUSY n) 0 else st) s

/-- Core `n` at operating point 0. -/
def dropOp (s : State) (n : Nat) : State :=
  if !corePresent s n || fget s (PWR_COREOP_CUR n) == 0 then s
  else
    let s1 := fset (fset s (PWR_COREOP_CUR n) 0) (PWR_COREOP_BUSY n) 0
    if fon s (PWR_COREOP_EV n) then raise s1 0x0E 7 else s1

/-- PWR enters FAULT on a regulator error (R118, R536): every core's effective operating point becomes 0, at once as a lowering does. -/
def pwrFault (s : State) : State :=
  let s1 := pwrLeave (raise (updPwr s (fun p => { p with cmd := none, want := none })) 0x0E 5)
  let s2 := (upTo 16).foldl dropOp (fset s1 PWR_REGSTAT_FAULT 1)
  if blkState s2 0x0E = 1 ∨ blkState s2 0x0E = 2 then setBlkState s2 0x0E 4 else s2

/-- REGULATOR_COMMAND (R535, R536): the command in progress is acknowledged or not, and status, voltage and current are read back. The
voltage counts as reached once VSETTLE has passed and a readback lies within 10 mV of it; until then the readback is made again. -/
def regulatorCmd (s : State) (ack : Bool) (status : BitVec 16) (vout iout : Nat) : State :=
  match s.pwr.want with
  | none => s
  | some (mv, sent) =>
    let s1 := fset (fset (fset s PWR_REGSTAT_STATUS status.toNat) PWR_REGMEAS_VOUT vout) PWR_REGMEAS_IOUT iout
    let bad := status.toNat
    let statusBad := fget s PWR_REGCFG_MODE == 2 && (bit bad 15 || bit bad 14 || bit bad 6 || bit bad 5 || bit bad 4)
    let off := ((vout : Int) - mv).natAbs
    let settled := decide (sent + 200 * fget s PWR_REGCFG_VSETTLE ≤ s.tick)
    if !ack || statusBad || (settled && decide (30 < off)) then pwrFault s1
    else updPwr s1 (fun p => { p with cmd := none, want := if settled && decide (off ≤ 10) then none else p.want })

/-- The highest effective operating point of the cores. -/
def topOp (s : State) : Nat := ((upTo 16).filter (corePresent s)).foldl (fun m n => max m (fget s (PWR_COREOP_CUR n))) 0

/-- Whether a stretch is in force or ended within the last millisecond (R529, R531). -/
def stretched (s : State) : Bool :=
  s.pwr.levels.any (fun l => l != 0) || (match s.pwr.stretchEnd with
    | some t => decide (s.tick < t + 200000)
    | none => false)

/-- AVSCAP moved by the slack found (R530): down at VMAX, up after 100 ms of ample slack. -/
def avsCap (s : State) (slack : Nat) : State :=
  let cap := fget s PWR_AVSCTL_AVSCAP
  let m := fget s PWR_AVSCTL_MARGIN
  if slack < m ∧ fget s PWR_VTARGET_TARGET = fget s PWR_VTARGET_VMAX then
    raise (fset (updPwr s (fun p => { p with ampleSince := none })) PWR_AVSCTL_AVSCAP (cap - 1)) 0x0E 6
  else if m + 4 < slack then
    match s.pwr.ampleSince with
    | none => updPwr s (fun p => { p with ampleSince := some s.tick })
    | some t =>
      if t + 20000000 ≤ s.tick then fset (updPwr s (fun p => { p with ampleSince := some s.tick })) PWR_AVSCTL_AVSCAP (min (cap + 1) 7) else s
  else updPwr s (fun p => { p with ampleSince := none })

/-- AVS_EVALUATION (R529–R531): `slack` is the least slack over the monitors of the cores at the highest operating point. -/
def avsEval (s : State) (slack : Nat) : State :=
  if running s 0x0E && accepted s 0x0E 1 && fon s PWR_AVSCTL_EN && regulated s then
    let m := fget s PWR_AVSCTL_MARGIN
    let v := fget s PWR_VTARGET_TARGET
    let v1 := if slack < m then v + 5 else if m + 4 < slack ∧ stretched s = false then v - 5 else v
    let v2 := if s.pwr.bump then v1 + 5 else v1
    let lo := max (fget s PWR_AVSCTL_VMIN) (opVolt (topOp s) - 60)
    let s1 := updPwr (avsCap s slack) (fun p => { p with bump := false })
    retargetAll (setTarget s1 (min (max v2 lo) (fget s PWR_VTARGET_VMAX)))
  else s

/-! ### Droop (R531) -/

/-- Whether the variant has quadrant `q`. -/
def quadPresent (s : State) (q : Nat) : Bool := decide (4 * q < Config.cores s.variant)

/-- DROOP_LEVEL_1 and DROOP_LEVEL_2: a quadrant enters a level. -/
def droop (s : State) (q level : Nat) : State :=
  if quadPresent s q && decide (s.pwr.levels.getD q 0 < level) then
    let s1 := updPwr s (fun p => { p with levels := setAt p.levels q level, bump := true })
    if level = 1 then raise (fcount s1 PWR_DROOP_CNT_L1 1) 0x0E 0 else raise (fcount s1 PWR_DROOP_CNT_L2 1) 0x0E 1
  else s

/-- DROOP_END: level 2 falls back to level 1, level 1 ends. -/
def droopEnd (s : State) (q : Nat) : State :=
  match s.pwr.levels.getD q 0 with
  | 2 => updPwr s (fun p => { p with levels := setAt p.levels q 1 })
  | 1 => updPwr s (fun p => { p with levels := setAt p.levels q 0, stretchEnd := some s.tick })
  | _ => s

/-! ### Heat (R533, R534) -/

/-- Whether sensor `k` is fitted (R533). -/
def sensorPresent (s : State) (k : Nat) : Bool :=
  if k < 8 then decide (2 * k < Config.cores s.variant)
  else if k = 9 then decide (8 < Config.memBanks s.variant)
  else if k = 11 then Config.fieldDie s.variant
  else decide (k < 12)

/-- A reading of the list that a fitted sensor gave, in units of 0.25 °C. -/
def sensorTemp (s : State) (l : List (Option (BitVec 12))) (k : Nat) : Option Int :=
  if sensorPresent s k then
    match l.getD k none with
    | some t => some (signed 12 t.toNat)
    | none => none
  else none

/-- The sensor registers. -/
def putSensors (s : State) (l : List (Option (BitVec 12))) : State :=
  (upTo 12).foldl (fun st k => match sensorTemp s l k with
    | some t => setReg st (PWR_TSENS k) (BitVec.ofNat 32 (2 ^ 31 + (t % 4096).toNat))
    | none => setReg st (PWR_TSENS k) 0) s

/-- The hottest valid reading of sensors 0–10, and its sensor. -/
def hottest (s : State) (l : List (Option (BitVec 12))) : Option (Int × Nat) :=
  (upTo 11).foldl (fun m k => match sensorTemp s l k, m with
    | some t, some (u, j) => if u < t then some (t, k) else some (u, j)
    | some t, none => some (t, k)
    | none, _ => m) none

/-- The cap moved by the hottest reading `t` (R534). -/
def throttle (s : State) (t : Int) : State :=
  let cap := fget s PWR_THERMSTAT_CAP
  let tthr : Int := 4 * fget s PWR_THERMCFG_TTHR
  let cool := decide (t < tthr - 4 * fget s PWR_THERMCFG_HYST)
  if (4 * fget s PWR_THERMCFG_TCRIT : Nat) ≤ t then
    let s1 := fset (fset (updPwr s (fun p => { p with cool := 0, throttling := true })) PWR_THERMSTAT_CAP 0) PWR_THERMSTAT_CRIT 1
    if fon s PWR_THERMSTAT_CRIT then s1 else raise s1 0x0E 4
  else if tthr ≤ t then
    if fget s PWR_THERMCFG_TFLOOR < cap then
      let s1 := fset (updPwr s (fun p => { p with cool := 0, throttling := true })) PWR_THERMSTAT_CAP (cap - 1)
      if s.pwr.throttling then s1 else raise s1 0x0E 3
    else updPwr s (fun p => { p with cool := 0 })
  else if cool then
    let n := s.pwr.cool + 1
    let s1 := fset (updPwr s (fun p => { p with cool := n, throttling := p.throttling && n < 10 })) PWR_THERMSTAT_CRIT 0
    if 10 < n ∧ n % 10 = 0 then fset s1 PWR_THERMSTAT_CAP (min (cap + 1) 7) else s1
  else updPwr s (fun p => { p with cool := 0 })

/-- THERMAL_SENSOR_REPORT (R533, R534): the readings of sensors 0–11, none where a reading is not valid. A reading of 125 °C or more
resets the package. -/
def thermal (s : State) (l : List (Option (BitVec 12))) : State :=
  if (upTo 12).any (fun k => match sensorTemp s l k with
    | some t => decide (500 ≤ t)
    | none => false) then chipReset (putSensors s l) 1
  else
    let s1 := putSensors s l
    match hottest s l with
    | none => s1
    | some (t, k) =>
      let s2 := fset (fset s1 PWR_THERMSTAT_TMAX (t % 4096).toNat) PWR_THERMSTAT_HOT k
      retargetAll (if accepted s 0x0E 4 then throttle s2 t else fset s2 PWR_THERMSTAT_CAP 7)

/-! ### Clocks (R526) -/

/-- REFCLK_LOSS and REFCLK_RETURN. -/
def refclkLoss (s : State) : State := raise (fset (fset s PWR_CLKSTAT_REFOK 0) PWR_CLKSTAT_LOCK 0) 0x0E 2
def refclkReturn (s : State) : State := fset (fset s PWR_CLKSTAT_REFOK 1) PWR_CLKSTAT_LOCK 1

/-! ### The page (R530–R538) -/

/-- The code that refuses a write of the PWR page. -/
def pwrCode (s : State) (q : RegWrite) : Nat :=
  let v := q.v.toNat
  let bad : Bool :=
    if q.a = PWR_REGCFG then
      bits v 31 30 == 3 || (bits v 31 30 == 1 && !accepted s 0x0E 2) || (bits v 31 30 == 2 && !accepted s 0x0E 3)
    else if q.a = PWR_VTARGET then
      decide (bits v 25 16 < 600) || decide (900 < bits v 25 16) || decide (bits v 25 16 < fget s PWR_AVSCTL_VMIN)
    else if q.a = PWR_AVSCTL then
      decide (bits v 25 16 < 600) || decide (900 < bits v 25 16) || decide (fget s PWR_VTARGET_VMAX < bits v 25 16) || bits v 7 0 == 0
    else if q.a = PWR_DROOPCFG then decide (bits v 31 24 ≤ bits v 23 16)
    else if q.a = PWR_THERMCFG then decide (125 < bits v 31 24) || decide (125 < bits v 23 16)
    else false
  if bad then 0x11 else 0

/-- A write of the PWR page. -/
def pwrWrite (s : State) (q : RegWrite) : State :=
  let s1 := checkedWrite s q (pwrCode s q)
  if q.a = PWR_REGCFG then
    if fget s1 PWR_REGCFG_MODE = 0 then retargetAll (updPwr (fset s1 PWR_AVSCTL_AVSCAP 5) (fun p => { p with cmd := none, want := none })) else s1
  else if PWR_COREOP 0 ≤ q.a ∧ q.a ≤ PWR_COREOP 15 then retarget s1 q.i
  else s1

/-- A read of OPVLO or OPVHI: the fused codes of four operating points from `j`. -/
def opvRead (j : Nat) : W32 := BitVec.ofNat 32 (leVal ((upTo 4).map (fun k => Config.opVoltage (j + k))))

/-- PWR is enabled (R530, R536). -/
def pwrEnable (s : State) : State :=
  let s1 := fset s PWR_REGSTAT_FAULT 0
  retargetAll (if regulated s1 then fset s1 PWR_AVSCTL_AVSCAP 7 else s1)

/-- Commands and operating-point changes in progress (R537): a raise that waits for RUNNING is not. -/
def pwrInflight (s : State) : Nat :=
  b2n s.pwr.cmd.isSome +
    ((upTo 16).filter (fun n => fon s (PWR_COREOP_BUSY n) && (running s 0x0E || !raisePending s n))).length

/-- SOFT_RESET leaves the voltage and every core's clock as they are (R537). -/
def pwrClear (old s : State) : State :=
  let s1 := { s with pwr := { PwrS.empty with levels := old.pwr.levels } }
  retargetAll ((upTo 16).foldl (fun st n => fset st (PWR_COREOP_CUR n) (fget old (PWR_COREOP_CUR n)))
    (fset s1 PWR_VTARGET_TARGET (fget old PWR_VTARGET_TARGET)))

end Sys2Proof.Machine
end

