-- ==== Sys2Proof/Machine/RegPages.lean ====
section
/-! DEFINITION. The pages of the scheduler, the capability and tag unit, translation control, the memory bank controllers, the queue
engine and the event controller: what a write of each register does (R57, R58, R74, R91–R94, R302–R304, R327, R342, R354–R356). -/

namespace Sys2Proof.Machine

/-- A write of the SCHED page. -/
def schedWrite (s : State) (q : RegWrite) : State :=
  let v := q.v.toNat
  let who := srcReq s q.src
  if q.a = SCHED_CTXCMD then noteReserved (ctxCommand s (bits v 31 28) (bits v 11 0) (bit v 24) who) q
  else if SCHED_CORECTL 0 ≤ q.a ∧ q.a % 16 = 0 then noteReserved (corectlWrite s q.i (bit v 0) who) q
  else plainWrite s q

/-- The bits of TYPEREVn that are reserved (R58): type 0 and types 0xFC0–0xFFF. -/
def typerevReserved (n : Nat) : W32 := if n = 0 then 1 else if n = 126 ∨ n = 127 then 0xFFFFFFFF else 0

/-- A write of the CAP page. -/
def capWrite (s : State) (q : RegWrite) : State :=
  if CAP_TYPEREV 0 ≤ q.a then
    let r := typerevReserved q.i
    let s1 := setReg s q.a (q.v &&& ~~~r)
    if q.v &&& r = 0 then s1 else capture s1 2 2 q.a (srcReq s q.src)
  else plainWrite s q

/-- A write of the TRANS page (R304). -/
def transWrite (s : State) (q : RegWrite) : State :=
  if q.a = TRANS_SPTAB_HI ∧ (fon s (CTRL_ENABLE 3) ∨ (blkState s 3 ≠ 0 ∧ blkState s 3 ≠ 3)) then reject s q 0x10
  else plainWrite s q

/-- A write of BOWNn (R74, R75, R93). A reserved code is refused as such (0x10) while DOM reads 0b111 too, where R75 gives both codes
(DESIGN CHOICE, assumption 155). -/
def bownWrite (s : State) (q : RegWrite) : State :=
  let d := bits q.v.toNat 2 0
  if 6 ≤ d then reject s q 0x10
  else if fget s (MEM_BOWN_DOM q.i) = 7 then reject s q 0x11
  else noteReserved (beginHandover s q.i d) q

/-- A write of the MEM page. -/
def memPageWrite (s : State) (q : RegWrite) : State :=
  if MEM_BOWN 0 ≤ q.a ∧ q.a % 32 = 0 then bownWrite s q else plainWrite s q

/-- A write of the QUE page. -/
def quePageWrite (s : State) (q : RegWrite) : State :=
  if q.a = QUE_QCMD then noteReserved (qcmd s (bits q.v.toNat 1 0) (srcReq s q.src)) q else plainWrite s q

/-- A write of the EVT page. -/
def evtPageWrite (s : State) (q : RegWrite) : State :=
  let who := srcReq s q.src
  if q.a = EVT_SWSET then noteReserved (swsetWrite s (bits q.v.toNat 9 0) who) q
  else if EVT_SRCCFG 0 ≤ q.a then noteReserved (srccfgWrite s q.i q.v who) q
  else if EVT_PEND 0 ≤ q.a then pendClear q.i q.v.toNat (upTo 32) s
  else plainWrite s q

end Sys2Proof.Machine
end

