-- ==== Sys2Proof/Machine/Ser.lean ====
section
/-! DEFINITION. The serial ports (R484–R488). -/

namespace Sys2Proof.Machine

/-- UART `u`, and that UART changed. -/
def uartS (s : State) (u : Nat) : UartS := s.ser.getD u UartS.empty
def updUart (s : State) (u : Nat) (f : UartS → UartS) : State := { s with ser := modAt s.ser u f }

/-- Event `k` of UART `u`: 0 framing or parity error, 1 receive failure, 2 bad request, 3 break. -/
def uartEvent (s : State) (u k : Nat) : State := raise s 0x0C (4 * u + k)

/-- Whether UART `u` works. -/
def uartOn (s : State) (u : Nat) : Bool := running s 0x0C && fon s (SER_UCFG_EN u)

/-- A message of UART `u` (R486). -/
def uartPut (s : State) (u w : Nat) : State × Nat :=
  queuePut s { queue := fget s (SER_URXQ_QUEUE u), sender := fget s (SER_URXQ_CTX u), ring := none, cls := fget s (SER_URXQ_CLASS u), axis := 0,
               flags := 0, plen := 16, payload := [⟨BitVec.ofNat 128 w, false⟩, nullW, nullW], fromEvt := false }

/-- The coordinate of axis 0 at tick `t` (R362). -/
def serCoord (t : Nat) : W64 := BitVec.ofNat 64 (t * 2 ^ 32 / 200000000)

/-- A completion of NKIND 0b01, with the coordinate of its first start bit. -/
def uartComplete (s : State) (u : Nat) (r : SerReq) (st : Nat) (stamp : W64) : State :=
  (uartPut s u (r.cookie * 2 ^ 96 + st * 2 ^ 88 + 2 ^ 86 + r.slot * 2 ^ 80 + r.len % 512 * 2 ^ 64 + stamp.toNat)).1

/-- A request that ends without a start bit: the coordinate of one is not stated, a free value. -/
def uartRefuse (s : State) (u : Nat) (r : SerReq) (st : Nat) : State := uartComplete (takeWide s) u r st (freeWide s)

/-- Whether SERu_DE is used (R486, R488). -/
def uartRs485 (s : State) (u : Nat) : Bool := fon s (SER_UCFG_RS485 u) && accepted s 0x0C 1

/-- Whether SERu_DE is driven at tick `t`. -/
def uartDe (s : State) (u t : Nat) : Bool :=
  let x := uartS s u
  uartRs485 s u && ((match x.tx with | some r => decide (r.de ≤ t) | none => false) ||
    match x.lastDe with
    | some w => decide (w.1 ≤ t) && decide (t < w.2)
    | none => false)

/-- Whether the receiver ignores the line at tick `t`: while DE is driven, with ECHO = 0 (R485). -/
def uartDeaf (s : State) (u t : Nat) : Bool := uartDe s u t && !fon s (SER_UCFG_ECHO u)

/-- Whether a frame that began at tick `t` is taken: the UART works, or SER had not left RUNNING when it began (R487). -/
def uartHears (s : State) (u t : Nat) : Bool :=
  uartOn s u || (fon s (SER_UCFG_EN u) && match (uartS s u).stopped with
    | some t0 => decide (t < t0)
    | none => false)

/-- The ticks of GAP half-bit times (R484, R485): a bit takes DIV / 16 phase ticks. -/
def gapTicks (s : State) (u : Nat) : Nat := fget s (SER_UGAP_GAP u) * fget s (SER_UCFG_DIV u) / 32

/-- The tick of the first start bit of a request: DEPRE bit times after DE. -/
def firstBit (s : State) (u : Nat) (r : SerReq) : Nat := r.de + fget s (SER_UGAP_DEPRE u) * fget s (SER_UCFG_DIV u) / 16

/-- A frame whose first character began at tick `t` has been closed by its gap: the line has been idle since the gap began, and a request
taken while it was under reception has waited for it (R486). -/
def uartIdle (s : State) (u t : Nat) : State :=
  updUart s u (fun x => { x with idle := some (s.tick - gapTicks s u), tx := x.tx.map (fun r => if t < r.de then { r with de := max r.de s.tick } else r) })

/-- The characters of a frame from their starts, data, framing errors and parity errors. -/
def serChars (start : List Nat) (data : List Byte) (ferr perr : List Bool) : List SerChar :=
  ((start.zip data).zip (ferr.zip perr)).map (fun x => { start := x.1.1, data := x.1.2, ferr := x.2.1, perr := x.2.2 })

/-- UART_FRAME_RECEIVE: the characters of a frame closed by its gap (R485). Those sent while DE was driven are not seen with ECHO = 0. -/
def uartReceive (s : State) (u : Nat) (line : List SerChar) : State :=
  match line.filter (fun c => !uartDeaf s u c.start) with
  | [] => s
  | c :: r =>
    if !uartHears s u c.start || decide (8 ≤ u) then s
    else
      let chars := c :: r
      let x := uartS s u
      let bytes := (chars.take 256).map (fun c => if fon s (SER_UCFG_DATA7 u) then c.data &&& 0x7F else c.data)
      let ferr := (chars.take 256).any (fun c => c.ferr)
      let perr := (chars.take 256).any (fun c => c.perr)
      let s0 := updUart (uartIdle s u c.start) u (fun x => { x with brk := false })
      let s1 := if ferr || perr then uartEvent (fcount s0 (SER_UCNT0_FRAMERR u) 1) u 0 else s0
      let nrx := 2 ^ (fget s1 (SER_URXBASE_RXSZ u) + 2)
      if nrx - 2 < qfill (qdesc s1 (fget s1 (SER_URXQ_QUEUE u))) then uartEvent (fcount s1 (SER_UCNT0_RXFULL u) 1) u 1
      else
        let slot := x.rxcnt % nrx
        match portBWrite s1 (fget s1 (SER_URXBASE_ADDR u) * 256 + 256 * slot) bytes (blkReq 0x0C (some (fget s1 (SER_URXQ_CTX u)))) .field with
        | (s2, st) =>
          if st ≠ .ok then uartEvent s2 u 1
          else
            let w := slot * 2 ^ 80 + b2n x.brk * 2 ^ 76 + b2n ferr * 2 ^ 75 + b2n perr * 2 ^ 74 + b2n (decide (256 < chars.length)) * 2 ^ 73 +
              bytes.length * 2 ^ 64 + (serCoord c.start).toNat
            match uartPut s2 u w with
            | (s3, 0) => updUart (fcount s3 (SER_UCNT1_RXOK u) 1) u (fun x => { x with rxcnt := x.rxcnt + 1 })
            | (s3, _) => uartEvent s3 u 1

/-- BREAK: the line of UART `u` is held low for longer than a character. -/
def uartBreakSeen (s : State) (u : Nat) : State :=
  if uartOn s u && decide (u < 8) && !uartDeaf s u s.tick then uartEvent (updUart s u (fun x => { x with brk := true, idle := some s.tick })) u 3 else s

/-- UART_TRANSMIT_REQUEST (R486): a request is taken; DE rises for it once the line has been idle for GAP half-bit times. -/
def uartRequest (s : State) (u : Nat) : State :=
  if !uartOn s u || decide (8 ≤ u) || (uartS s u).tx.isSome then s
  else
    match queueGet s (fget s (SER_UTXQ_QUEUE u)) (some 0) with
    | (s1, 0, ws) =>
      let h := (ws.getD 0 nullW).bits.toNat
      let w := (ws.getD 1 nullW).bits.toNat
      let len := w % 512
      let de := match (uartS s1 u).idle with
        | some t => max s1.tick (t + gapTicks s1 u)
        | none => s1.tick
      let r : SerReq := { slot := bits w 11 9, cookie := bits w 95 64, len := len, bytes := [], de := de }
      if bits h 29 18 ≠ fget s1 (SER_URXQ_CTX u) ∨ bits w 127 96 ≠ 0 ∨ bits w 63 12 ≠ 0 ∨ len = 0 ∨ 256 < len then
        uartEvent (fcount s1 (SER_UCNT1_BADREQ u) 1) u 2
      else if fon s1 (SER_UCFG_AGATE u) && accepted s1 0x0C 2 && !authority s1 then uartRefuse s1 u r 13
      else
        match portBRead s1 (fget s1 (SER_UTXBASE_ADDR u) * 256 + 256 * r.slot) len (blkReq 0x0C (some (fget s1 (SER_URXQ_CTX u)))) with
        | (s2, bytes, st) =>
          if st ≠ .ok then uartRefuse s2 u r (statusCode st) else updUart s2 u (fun x => { x with tx := some { r with bytes := bytes } })
    | (s1, _, _) => s1

/-- DE falls, the request in progress being over; the line is idle from now on. -/
def uartRelease (s : State) (u : Nat) (r : SerReq) : State :=
  updUart s u (fun x => { x with tx := none, idle := some s.tick, lastDe := some (r.de, s.tick) })

/-- UART_TRANSMIT_COMPLETE: the last stop bit and DEPOST have passed. A request whose safe boundary is its own end completes there with OK,
in an abort as well, nothing of it being cut (DEDUCED, assumption 139). -/
def uartTransmitEnd (s : State) (u : Nat) : State :=
  match (uartS s u).tx with
  | some r => uartComplete (uartRelease s u r) u r 0 (serCoord (firstBit s u r))
  | none => s

/-- UART `u` as SER leaves RUNNING (R116, R487): it begins no frame from now on, and a taken request whose first bit has not been sent
completes with CANCELLED. -/
def uartStop (s : State) (u : Nat) : State :=
  let s1 := updUart s u (fun x => { x with stopped := some (x.stopped.getD s.tick) })
  match (uartS s1 u).tx with
  | some r => if s.tick < firstBit s1 u r then uartRefuse (uartRelease s1 u r) u r 2 else s1
  | none => s1

/-- SER leaves RUNNING, and enters it. -/
def serLeave (s : State) : State := (upTo 8).foldl uartStop s
def serEnable (s : State) : State := { s with ser := s.ser.map (fun x => { x with stopped := none }) }

/-- A write to the SER page (R484, R487). -/
def serWrite (s : State) (q : RegWrite) : State :=
  let o := offOf q.a
  let v := q.v.toNat
  let en := fon s (SER_UCFG_EN q.i)
  if o % 0x40 = 0 then
    if lockedWrite s q en then reject s q 0x10
    else checkedWrite s q (if bits v 30 29 = 3 ∨ v % 2 ^ 24 < 267 ∨ 10666666 < v % 2 ^ 24 then 0x11 else 0)
  else if lockedCompanion s q en then reject s q 0x10
  else plainWrite s q

/-- Requests taken and not completed. -/
def serInflight (s : State) : Nat := (s.ser.filter (fun x => x.tx.isSome)).length

/-- SOFT_RESET: what the serial ports hold beside their page. -/
def serClear (s : State) : State := { s with ser := List.replicate 8 UartS.empty }

end Sys2Proof.Machine
end

