-- ==== Sys2Proof/Machine/Test.lean ====
section
/-! DEFINITION. The test and scrub engine: commands, tile tests with the spare that is mirrored and swapped in, repairs and the scrub
(R79–R81, R557–R566, R576). -/

namespace Sys2Proof.Machine

/-- Test-engine state changed. -/
def updTest (s : State) (f : TestS → TestS) : State := { s with test := f s.test }

/-- Whether bank `n` is present, and whether it is listed in URGENT, has a repair, or a spare found bad. -/
def bankPresent (s : State) (n : Nat) : Bool := decide (n < Config.memBanks s.variant)
def urgent (s : State) (n : Nat) : Bool := bit (fget s TEST_URGENT_BANKS) n
def repaired (s : State) (n : Nat) : Bool := fon s (TEST_REPAIR_VALID n)
def spareBad (s : State) (n : Nat) : Bool := bit (fget s TEST_SPAREBAD_BANKS) n

/-- BMAP of a bank: its mode and whether a swap is in progress; TILE reads 0 in mode 0. -/
def setBmap (s : State) (n mode swap : Nat) : State :=
  let s1 := fset (fset s (MEM_BMAP_MODE n) mode) (MEM_BMAP_SWAP n) swap
  if mode = 0 then fset s1 (MEM_BMAP_TILE n) 0 else s1

/-- PHASE of TESTSTAT. -/
def setPhase (s : State) (p : Nat) : State := fset s TEST_TESTSTAT_PHASE p

/-- BANK and TILE of TESTSTAT. -/
def setTested (s : State) (n t : Nat) : State := fset (fset s TEST_TESTSTAT_BANK n) TEST_TESTSTAT_TILE t

/-- Whether a drain of TEST is an abort (R116, R117). -/
def testAborts (s : State) : Bool := blkState s 0x0F == 2 && fon s (CTRL_QMODE 0x0F)

/-! ### Mirror, copy back and swap (R79, R80) -/

/-- The words listed in the tile that BMAP of bank `n` names, serving or idle, as word numbers. -/
def tileWords (s : State) (n : Nat) : List Nat :=
  let t := fget s (MEM_BMAP_TILE n)
  let served : List Nat := ((s.mem.map (fun p : Nat × Byte => p.1 / 16)) ++ s.tags.map (fun p => p.1) ++ s.ecc.map (fun p => p.1)).filter
    (fun w : Nat => bankNo (16 * w) == n && tileNo (16 * w) == t)
  let idle : List Nat := (s.spare.map (fun p => p.1) ++ s.spareEcc.map (fun p => p.1)).filter (fun k => k / 65536 == n)
  (served ++ idle.map (fun k => wordAt n t (k % 65536) / 16)).eraseDups

/-- One word copied from the serving tile to the idle one with the check of R68: corrected, or with its check bits unchanged (R79). -/
def copyWord (s : State) (w : Nat) : State :=
  let a := 16 * w
  let who := blkReq 0x0F none
  match eccAt s a with
  | .none => setSpare s (spareKey a) (memWord s a) .none
  | .single => setSpare (correctedAt s a who true) (spareKey a) (memWord s a) .none
  | .double => setSpare (uncorrectableAt s a who true) (spareKey a) (memWord s a) .double

/-- The serving tile of bank `n` copied to the idle one. The words written meanwhile have been written to both. -/
def mirrorTile (s : State) (n : Nat) : State := (tileWords s n).foldl copyWord s

/-- A word of the serving tile and of the idle one exchanged. -/
def swapWord (s : State) (w : Nat) : State :=
  let a := 16 * w
  let x := spareWord s (spareKey a)
  let s1 := setSpare s (spareKey a) (memWord s a) (eccAt s a)
  setEcc (setMemTag (setMemBytes s1 a (leBytes 16 x.bits.toNat)) a x.tag) a (spareUpset s (spareKey a))

/-- The swap of R80: the idle tile serves from now on. -/
def swapTile (s : State) (n : Nat) : State := (tileWords s n).foldl swapWord s

/-! ### Repairs (R560, R563) -/

/-- The spare of bank `n` becomes the permanent replacement of its tile; event 961. -/
def repair (s : State) (n : Nat) : State :=
  let out (l : List Nat) : List Nat := l.filter (fun k => k != n)
  let s1 := setBmap (updTest s (fun t => { t with failed := out t.failed, repairing := out t.repairing })) n 3 0
  let s2 := fset (fset s1 (TEST_REPAIR_TILE n) (fget s (MEM_BMAP_TILE n))) (TEST_REPAIR_VALID n) 1
  raise (if fon s TEST_TESTCFG_AUTOBURN && accepted s 0x0F 3 then fset s2 (TEST_REPAIR_FUSED n) 1 else s2) 0x0F 1

/-- The swap into the permanent repair of bank `n` starts (R80, R81). -/
def repairSwap (s : State) (n : Nat) : State := setPhase (setTested (setBmap s n 2 1) n (fget s (MEM_BMAP_TILE n))) 2

/-- The permanent repair of bank `n` is due: its swap starts when the engine is free and the bank is not in URGENT. -/
def dueRepair (s : State) (n : Nat) : State :=
  let s1 := updTest s (fun t => { t with repairing := t.repairing ++ [n] })
  if fget s TEST_TESTSTAT_PHASE = 0 ∧ urgent s n = false then repairSwap s1 n else s1

/-- The copy back of bank `n` starts (R560, R561). -/
def copyBack (s : State) (n : Nat) : State :=
  setPhase (setTested (updTest s (fun t => { t with waiting := t.waiting.filter (fun k => k != n) })) n (fget s (MEM_BMAP_TILE n))) 4

/-- The copy back of bank `n` is due. -/
def dueBack (s : State) (n : Nat) : State :=
  if fget s TEST_TESTSTAT_PHASE = 0 ∧ urgent s n = false then copyBack s n
  else updTest s (fun t => { t with waiting := t.waiting ++ [n] })

/-! ### The background tile test (R559–R561) -/

/-- Whether a tile of bank `n` may be tested. -/
def testable (s : State) (n : Nat) : Bool :=
  bankPresent s n && !urgent s n && !repaired s n && !spareBad s n && fget s (MEM_BMAP_MODE n) == 0

/-- The bank to be tested next: in ascending order after the one tested last. -/
def nextBank (s : State) : Option Nat :=
  ((upTo 16).map (fun i => (s.test.lastBank + 1 + i) % 16)).find? (testable s)

/-- TILE_TEST: the next test starts with its mirror; a bank that waited for URGENT goes on first, with its repair or its copy back,
whether or not new tests are asked for. -/
def tileTest (s : State) : State :=
  if running s 0x0F && fget s TEST_TESTSTAT_PHASE == 0 then
    match s.test.repairing.find? (fun n => !urgent s n), s.test.waiting.find? (fun n => !urgent s n) with
    | some n, _ => repairSwap s n
    | none, some n => copyBack s n
    | none, none =>
      match (if fon s TEST_TESTCFG_BGEN && fget s TEST_TESTCFG_TESTINT != 0 && accepted s 0x0F 1 then nextBank s else none) with
      | some n =>
        let t := mget (fun _ => 0) s.test.nextTile n
        let s1 := updTest s (fun x => { x with nextTile := mput (fun _ => 0) x.nextTile n ((t + 1) % 8), lastBank := n })
        setPhase (setTested (fset (setBmap s1 n 1 0) (MEM_BMAP_TILE n) t) n t) 1
      | none => s
  else s

/-- TILE_TEST_PHASE_END: the phase in progress ends; `pass` is the result of phase 3. In an abort the test ends with its mirror; a test
past it always goes on (R576). PHASE reads 2 in the swap into a repair (DESIGN CHOICE, assumption 118). -/
def phaseEnd (s : State) (pass : Bool) : State :=
  let n := fget s TEST_TESTSTAT_BANK
  let wait (t : State) : State := setPhase (updTest t (fun x => { x with waiting := x.waiting ++ [n] })) 0
  match fget s TEST_TESTSTAT_PHASE with
  | 1 => if urgent s n || testAborts s then setPhase (setBmap s n 0 0) 0 else setPhase (setBmap (mirrorTile s n) n 1 1) 2
  | 2 => if s.test.repairing.contains n then setPhase (repair s n) 0 else setPhase (setBmap (swapTile s n) n 2 0) 3
  | 3 =>
    if !pass then
      let s1 := raise (setPhase s 0) 0x0F 0
      if fon s TEST_TESTCFG_AUTOREP && accepted s 0x0F 2 then dueRepair s1 n else updTest s1 (fun t => { t with failed := t.failed ++ [n] })
    else if urgent s n then wait s
    else setPhase s 4
  | 4 => if urgent s n then wait s else setPhase (setBmap (mirrorTile s n) n 2 1) 5
  | 5 => setPhase (setBmap (swapTile s n) n 0 0) 0
  | _ => s

/-- A write of URGENT (R561): a mirror of a bank that is now listed is abandoned. -/
def urgentWrite (s : State) (q : RegWrite) : State :=
  let s1 := plainWrite s q
  let n := fget s1 TEST_TESTSTAT_BANK
  if fget s1 TEST_TESTSTAT_PHASE = 1 ∧ urgent s1 n then setPhase (setBmap s1 n 0 0) 0 else s1

/-! ### Commands (R557, R558, R560, R563, R576) -/

/-- A command ends with status `st` and event 966. -/
def testEnd (s : State) (st : Nat) : State :=
  raise (fset (fset (updTest s (fun t => { t with cmd := none })) TEST_TESTSTAT_BUSY 0) TEST_TESTSTAT_CMDSTAT st) 0x0F 6

/-- The banks whose spares a spare test takes (R557). -/
def spareBanks (s : State) : List Nat := (upTo 16).filter (fun n => bankPresent s n && !repaired s n && !urgent s n && fget s (MEM_BMAP_MODE n) == 0)

/-- The spare test's result: the spares of `bad` that were tested have failed. -/
def spareTest (s : State) (bad : BitVec 16) : State :=
  let m := (spareBanks s).foldl (fun x n => if bit bad.toNat n then x + 2 ^ n else x) 0
  if m = 0 then s else raise (fset s TEST_SPAREBAD_BANKS ((BitVec.ofNat 16 (fget s TEST_SPAREBAD_BANKS)) ||| BitVec.ofNat 16 m).toNat) 0x0F 2

/-- Whether logic self-test may run on core `n` (R558). -/
def coreFree (s : State) (n : Nat) : Bool := !fon s (SCHED_CORECTL_ADMIT n) && (heldCtxs (core s n)).isEmpty

/-- The status that a command is refused with, 0 when it may run: BADSTATE is 9. -/
def testRefusal (s : State) (op arg : Nat) : Nat :=
  if !running s 0x0F then 1
  else
    match op with
    | 1 => 0
    | 2 => if !accepted s 0x0F 4 || !corePresent s arg then 7 else if coreFree s arg then 0 else 9
    | 3 => if !bankPresent s arg then 7 else if s.test.failed.contains arg then 0 else 9
    | 4 => if !bankPresent s arg then 7 else if s.test.failed.contains arg then 0 else 9
    | _ => if !bankPresent s arg || !accepted s 0x0F 3 then 7 else if repaired s arg then 0 else 9

/-- A command accepted: a repair or a release becomes due. -/
def testStart (s : State) (op n : Nat) : State :=
  match op with
  | 3 => dueRepair s n
  | 4 => dueBack (updTest s (fun t => { t with failed := t.failed.filter (fun k => k != n) })) n
  | _ => s

/-- Whether the tile activity of bank `n` under way is its repair's swap, or its copy back or swap back. -/
def repairGoes (s : State) (n : Nat) : Bool :=
  fget s TEST_TESTSTAT_PHASE == 2 && fget s TEST_TESTSTAT_BANK == n && s.test.repairing.contains n
def backGoes (s : State) (n : Nat) : Bool := decide (4 ≤ fget s TEST_TESTSTAT_PHASE) && fget s TEST_TESTSTAT_BANK == n

/-- TEST_COMMAND_DONE: the running command goes on to its end; `result` gives the bad spares of a spare test, or in bit 0 that a core
passed. A repair ends with its swap, a release with phases 4 and 5, each of which must first have begun. -/
def testDone (s : State) (result : BitVec 16) : State :=
  match s.test.cmd with
  | none => s
  | some (op, n) =>
    match op with
    | 1 => testEnd (spareTest s result) 0
    | 2 => testEnd (raise (fset (fset (coreReset s n) TEST_TESTSTAT_LBCORE n) TEST_TESTSTAT_LBPASS (result.toNat % 2)) 0x0F 5) 0
    | 3 =>
      let s1 := if repairGoes s n then phaseEnd s true else s
      if repaired s1 n then testEnd s1 0 else s1
    | 4 =>
      let s1 := if backGoes s n then phaseEnd s true else s
      if fget s1 (MEM_BMAP_MODE n) = 0 then testEnd s1 0 else s1
    | _ => testEnd (fset s (TEST_REPAIR_FUSED n) 1) 0

/-- A write of TESTCMD. -/
def testCmd (s : State) (q : RegWrite) : State :=
  let op := bits q.v.toNat 31 28
  let arg := bits q.v.toNat 3 0
  if s.test.cmd.isSome then reject s q 0x10
  else if op = 0 ∨ 5 < op then noteReserved s q
  else
    match testRefusal s op arg with
    | 0 => testStart (fset (updTest (noteReserved s q) (fun t => { t with cmd := some (op, arg) })) TEST_TESTSTAT_BUSY 1) op arg
    | c => testEnd (noteReserved s q) c

/-! ### The scrub (R564–R566) -/

/-- An uncorrectable word found by the scrub: latched, counted, event 964. -/
def scrubUe (s : State) (a : Nat) (cs : Bool) : State :=
  let s1 := setReg (setReg s TEST_SCRUBUE_LO (BitVec.ofNat 32 (a / 16 * 16))) TEST_SCRUBUE_HI (BitVec.ofNat 32 (a / 2 ^ 32 % 256 + b2n cs * 256))
  raise (fcount s1 TEST_SCRUBSTAT_UECNT 1) 0x0F 4

/-- One scrub read of a word of general memory: a corrected word is written back at once, nothing having written it since. -/
def scrubWord (s : State) (a : Nat) : State :=
  match eccRead s a (blkReq 0x0F none) true with
  | (s1, _, ue) =>
    if ue then scrubUe s1 a false
    else if eccAt s a = .single then putBoth { setEcc s1 a .none with wback := s1.wback.filter (fun w => w != a / 16) } a
    else s1

/-- One scrub read of word `i` of the context store. -/
def scrubStore (s : State) (i : Nat) : State :=
  match mget (fun _ => Upset.none) s.recEcc i with
  | .none => s
  | .single => { s with recEcc := mput (fun _ => Upset.none) s.recEcc i .none }
  | .double => scrubUe s (i * 16) true

/-- SCRUB_READ (R564): one word of each present bank, and of the context store with CSEN; the end of a pass raises event 963. -/
def scrubRead (s : State) : State :=
  if running s 0x0F && fon s TEST_SCRUBCFG_EN then
    let s1 := ((upTo 16).filter (bankPresent s)).foldl (fun st n => scrubWord st (n * 0x800000 + 16 * s.test.scrub)) s
    let s2 := if fon s TEST_SCRUBCFG_CSEN then
        updTest (scrubStore s1 s.test.store) (fun t => { t with store := (t.store + 1) % (64 * Config.contexts s.variant) })
      else s1
    if s.test.scrub + 1 = 524288 then raise (fcount (updTest s2 (fun t => { t with scrub := 0 })) TEST_SCRUBSTAT_PASSES 1) 0x0F 3
    else updTest s2 (fun t => { t with scrub := t.scrub + 1 })
  else s

/-- A write of the TEST page. -/
def testWrite (s : State) (q : RegWrite) : State :=
  if q.a = TEST_URGENT then urgentWrite s q
  else if q.a = TEST_TESTCMD then testCmd s q
  else if q.a = TEST_SCRUBCFG then checkedWrite s q (if bits q.v.toNat 15 0 = 0 then 0x11 else 0)
  else plainWrite s q

/-- Commands and a tile test in progress (R576). -/
def testInflight (s : State) : Nat := b2n s.test.cmd.isSome + b2n (fget s TEST_TESTSTAT_PHASE != 0)

/-- TEST leaves RUNNING (R116, R576): a repair or a release not begun is cancelled. A tile test goes on to its next safe boundary, or
with QMODE = 0 to its end, as `phaseEnd` has it. -/
def testLeave (s : State) : State :=
  match s.test.cmd with
  | some (3, n) => if repairGoes s n then s else testEnd (updTest s (fun t => { t with repairing := t.repairing.filter (fun k => k != n) })) 2
  | some (4, n) =>
    if backGoes s n then s
    else testEnd (updTest s (fun t => { t with waiting := t.waiting.filter (fun k => k != n), failed := t.failed ++ [n] })) 2
  | _ => s

end Sys2Proof.Machine
end

