-- ==== Sys2Proof/Machine/BlkCtl.lean ====
section
/-! DEFINITION. What every block shares: the operations in flight, enabling and disabling, drains, faults, soft reset and feature
negotiation (R108–R119), with what each block's chapter adds. -/

namespace Sys2Proof.Machine

/-! ### Operations in flight -/

/-- Cores that wait for a walk (R302). -/
def transInflight (s : State) : Nat :=
  (s.cores.filter (fun c => match c.held with
    | some h => (match h.why with
      | .walk _ _ => true
      | _ => false)
    | none => false)).length

/-- INFLIGHT of block `b`. -/
def inflight (s : State) (b : Nat) : Nat :=
  match b with
  | 0x01 => b2n s.suspend.isSome + s.cores.foldl (fun n c => n + c.loading.length) 0 + s.evicts.length
  | 0x03 => transInflight s
  | 0x04 => memInflight s
  | 0x05 => s.cores.foldl (fun n c => n + (c.granules.filter (fun g => !g.cancelled)).length) 0
  | 0x06 => (s.cores.filter (fun c => c.grantReq.isSome)).length
  | 0x07 => phaseInflight s
  | 0x08 => s.loop.reqs.length
  | 0x09 => measInflight s
  | 0x0A => flinkInflight s
  | 0x0B => s.net.ports.foldl (fun n p => n + (p.egress.filter (fun f => f.req.isSome)).length) 0
  | 0x0C => serInflight s
  | 0x0D => twinInflight s
  | 0x0E => pwrInflight s
  | 0x0F => testInflight s
  | 0x10 => b2n s.boot.flash
  | 0x11 => b2n s.key.job.isSome
  | _ => 0

/-! ### Enabling (R112, R114, R118) -/

/-- Whether the accepted set lacks a prerequisite (R112, R488, R520, R538). -/
def inconsistent (s : State) (b : Nat) : Bool :=
  match b with
  | 0x0B => accepted s b 2 && !accepted s b 1
  | 0x0D => accepted s b 2 && !accepted s 5 3
  | 0x0E => accepted s b 1 && !accepted s b 2 && !accepted s b 3
  | _ => false

/-- Whether the condition that put block `b` in FAULT is still there (R118, R423, R519). -/
def faultPersists (s : State) (b : Nat) : Bool :=
  match b with
  | 0x09 => !bridgeUp s || !fieldGood s
  | 0x0D => (twinKey s).isNone
  | _ => false

/-- What a block does on entering RUNNING. -/
def onEnable (s : State) (b : Nat) : State :=
  match b with
  | 0x07 => axesEnable s
  | 0x0A => flinkEnable s
  | 0x0B => netEnable s
  | 0x0C => serEnable s
  | 0x0D => twinEnable s
  | 0x0E => pwrEnable s
  | _ => s

/-- ENABLE written from 0 to 1 outside DRAINING (BLOCK_ENABLE). -/
def blockEnable (s : State) (q : RegWrite) : State :=
  let b := blkOf q.a
  if inconsistent s b then reject s q 5
  else if blkState s b = 4 ∧ faultPersists s b then reject s q 7
  else onEnable (setBlkState (noteReserved (storeWrite s q) q) b 1) b

/-! ### Disabling (R114–R117) -/

/-- The SUSPEND that has not started is cancelled (R314, R326). -/
def schedLeave (s : State) : State :=
  match s.suspend with
  | some p => if p.started then s else cmdDone { s with suspend := none } p.ctx 2 0 p.ev
  | none => s

/-- The queue engine leaves RUNNING: granules in flight are cancelled, none of them being started, since a granule is performed in one step
(R116, R341, assumption 153). -/
def queLeave (s : State) : State :=
  { s with cores := s.cores.map (fun c => { c with granules := c.granules.map (fun g => { g with cancelled := true }) }) }

/-- What a block does with its operations when ENABLE is cleared; with `abort` under QMODE = 1. -/
def onLeave (s : State) (b : Nat) (abort : Bool) : State :=
  match b with
  | 0x01 => schedLeave s
  | 0x07 => phaseLeave s
  | 0x08 => loopLeave s
  | 0x09 => measLeave s abort
  | 0x0A => flinkLeave s abort
  | 0x05 => queLeave s
  | 0x0B => netLeave s
  | 0x0C => serLeave s
  | 0x0D => twinLeave s
  | 0x0E => pwrLeave s
  | 0x0F => testLeave s
  | 0x11 => keyLeave s
  | _ => s

/-- CAP and MEM move directly between OFF and RUNNING (R55, R91). -/
def direct (b : Nat) : Bool := b == 2 || b == 4

/-- A DRAINING block with nothing in flight is QUIESCED (DRAIN_COMPLETE). -/
def drainComplete (s : State) (b : Nat) : State :=
  if blkState s b = 2 ∧ inflight s b = 0 then setBlkState s b 3 else s

/-- ENABLE written from 1 to 0 (BLOCK_DISABLE): in RUNNING the block drains or aborts; in FAULT it stays there.
Clearing the ENABLE of MEAS clears every OUTEN bit, whatever its STATE (R438). -/
def blockDisable (s : State) (q : RegWrite) : State :=
  let b := blkOf q.a
  let s0 := noteReserved (storeWrite s q) q
  let s1 := if b = 9 then clearOuten s0 else s0
  if blkState s b = 1 then
    if direct b then setBlkState s1 b 0
    else drainComplete (onLeave (setBlkState s1 b 2) b (bit q.v.toNat 1)) b
  else s1

/-- A write that leaves ENABLE as it is (QMODE_WRITE): QMODE = 1 during DRAINING aborts what is left of the drain. -/
def qmodeWrite (s : State) (q : RegWrite) : State :=
  let b := blkOf q.a
  let s1 := noteReserved (storeWrite s q) q
  if blkState s b = 2 ∧ bit q.v.toNat 1 then drainComplete (onLeave s1 b true) b else s1

/-! ### Soft reset (R114, R119) -/

/-- Whether a register keeps its value in a soft reset of its block (R55, R91, R326, R362, R383, R556, R576). -/
def keptReg (a : Nat) : Bool :=
  match blkOf a with
  | 0x01 => 0x100 ≤ offOf a && !(a == SCHED_SCHED_CFG || a == SCHED_CMDSTAT || a == SCHED_DISPATCH_CNT || a == SCHED_MIGR_CNT || a == SCHED_CSCE_CNT)
  | 0x04 => 0x200 ≤ offOf a && (offOf a % 32 == 0 || offOf a % 32 == 0x14)
  | 0x07 => 0x1000 ≤ offOf a && decide (offOf a < 0x1080)
  | 0x0F => a == TEST_URGENT || a == TEST_SPAREBAD || (decide (TEST_REPAIR 0 ≤ a) && decide (a ≤ TEST_REPAIR 15))
  | 0x10 => (decide (0x100 ≤ offOf a) && decide (offOf a ≤ 0x118)) || a == BOOT_ROLLMIN
  | 0x12 => a == WDR_CWDCTL || a == WDR_RSTCAUSE || a == WDR_TFREC || a == WDR_TFCNT
  | _ => false

/-- The registers of block `b` and its pair shadows at their reset values, those that the chapter excludes kept. -/
def resetRegs (s : State) (b : Nat) : State :=
  { s with
    regs := s.regs.filter (fun p => blkOf p.1 != b || keptReg p.1)
    rdShadow := s.rdShadow.filter (fun p => blkOf (p.1 / 32) != b)
    wrShadow := s.wrShadow.filter (fun p => blkOf (p.1 / 32) != b) }

/-- MEAS keeps what it only reports: the bridge, the field supply and the state of authority (R421, R422, R443). -/
def measLive (old s : State) : State :=
  fset (fset (fset (fset (fset (fset s MEAS_BRSTAT_UP (fget old MEAS_BRSTAT_UP)) MEAS_BRSTAT_FSUP (fget old MEAS_BRSTAT_FSUP))
    MEAS_AUTHSTAT_PRI (fget old MEAS_AUTHSTAT_PRI)) MEAS_AUTHSTAT_CLAIM (fget old MEAS_AUTHSTAT_CLAIM))
    MEAS_AUTHSTAT_TWINCL (fget old MEAS_AUTHSTAT_TWINCL)) MEAS_AUTHSTAT_LINE (fget old MEAS_AUTHSTAT_LINE)

/-- KEY keeps its failed attempts until a chip reset (R555). -/
def keyReset (old s : State) : State := fset (keyClear s) KEY_DUCTL_TRIES (fget old KEY_DUCTL_TRIES)

/-- What block `b` holds beside its page after a soft reset; `old` is the state before. -/
def clearBlock (old s : State) (b : Nat) : State :=
  match b with
  | 0x05 => { s with queues := [] }
  | 0x06 => { s with evtCount := [], evtFirst := [], evtWait := [] }
  | 0x07 => phaseClear s
  | 0x08 => loopClear s
  | 0x09 => measLive old (measClear s)
  | 0x0A => flinkClear s
  | 0x0B => netClear s
  | 0x0C => serClear s
  | 0x0E => pwrClear old s
  | 0x0F => { s with test := { TestS.empty with failed := s.test.failed, waiting := s.test.waiting, repairing := s.test.repairing } }
  | 0x10 => { s with boot := { s.boot with flash := false } }
  | 0x11 => keyReset old s
  | 0x12 => { s with wdr := { s.wdr with kick := false, left := List.replicate 16 0, mute := List.replicate 16 0 } }
  | 0x13 => dbgClear s
  | _ => s

/-- The CTRL writes made during a reset of block `b`, recorded when it completes (R114). -/
def recordSoft (b : Nat) : List (Nat × Requester) → State → State
  | [], s => s
  | p :: r, s => recordSoft b r (if p.1 = b then capture s b 6 (CTRL b) p.2 else s)

/-- SOFT_RESET_COMPLETE: the reset of block `b` ends, in OFF; that of TRANS not before every core has acknowledged (R302). -/
def softResetComplete (s : State) (b : Nat) : State :=
  if fon s (CTRL_SOFT_RESET b) && !(b == 3 && transOwed s) then
    let s0 := if b = 0x0D then twinClear s else s
    let s1 := clearBlock s (resetRegs s0 b) b
    recordSoft b s.softErr { s1 with softErr := s.softErr.filter (fun p => p.1 != b) }
  else s

/-- SOFT_RESET = 1 written (SOFT_RESET): refused in RUNNING and DRAINING, and otherwise the reset starts; that of TRANS sends every core
an invalidation of every entry (SCOPE 0b10, R296, R302). -/
def softReset (s : State) (q : RegWrite) : State :=
  let b := blkOf q.a
  if blkState s b = 1 ∨ blkState s b = 2 then reject s q 6
  else
    let s1 := noteReserved (fset s (CTRL_SOFT_RESET b) 1) q
    if b = 3 then sendInvs s1 16 (BitVec.ofNat 64 (2 ^ 63)) else s1

/-- A write of CTRL (R114). -/
def ctrlWrite (s : State) (q : RegWrite) : State :=
  let b := blkOf q.a
  let on := fon s (CTRL_ENABLE b)
  if fon s (CTRL_SOFT_RESET b) then { s with softErr := s.softErr ++ [(b, srcReq s q.src)] }
  else if bit q.v.toNat 2 then softReset s q
  else if bit q.v.toNat 0 && blkState s b == 2 then reject s q 6
  else if bit q.v.toNat 0 && !on then blockEnable s q
  else if !bit q.v.toNat 0 && on then blockDisable s q
  else qmodeWrite s q

/-! ### Faults (R118) -/

/-- BLOCK_FAULT: the internal fault of a block that has a fault condition (R448, R519, R536); the others have none. -/
def blockFaultOf (s : State) (b : Nat) : State :=
  if blkState s b = 1 ∨ blkState s b = 2 then
    match b with
    | 0x09 => measFault s
    | 0x0D => twinFault s
    | 0x0E => pwrFault s
    | _ => s
  else s

/-! ### Feature negotiation and events (R108, R111) -/

/-- A write of FEAT_ACCEPT or FEAT_ACCEPT_HI. -/
def featWrite (s : State) (q : RegWrite) : State :=
  let b := blkOf q.a
  if fon s (CTRL_ENABLE b) || (blkState s b != 0 && blkState s b != 3) then reject s q 4
  else if q.v &&& ~~~(reg s (q.a - 8)) != 0 then reject s q 1
  else setReg s q.a (if q.a = FEAT_ACCEPT b then q.v ||| 1 else q.v)

/-- A write of EV_ENABLE (`hi` = 0) or EV2_ENABLE (`hi` = 32): an event already raw is delivered when unmasked. -/
def evEnableWrite (s : State) (q : RegWrite) (hi : Nat) : State :=
  unmask (blkOf q.a) hi (reg s q.a).toNat q.v.toNat (upTo 32) (setReg s q.a q.v)

/-- A write of EV_PENDING or EV2_PENDING clears pending and raw bits. -/
def evPendingWrite (s : State) (q : RegWrite) : State :=
  setReg (setReg s q.a (reg s q.a &&& ~~~q.v)) (q.a - 8) (reg s (q.a - 8) &&& ~~~q.v)

/-- A write at an offset of the common header. -/
def headerWrite (s : State) (q : RegWrite) : State :=
  match offOf q.a with
  | 0x10 => featWrite s q
  | 0x14 => featWrite s q
  | 0x18 => ctrlWrite s q
  | 0x24 => if blkOf q.a = 6 then s else evEnableWrite s q 0
  | 0x28 => evPendingWrite s q
  | _ => plainWrite s q

/-- Whether a block has EV2 registers (R93, R385, R450, R470). -/
def hasEv2 (b : Nat) : Bool := b == 0x04 || b == 0x07 || b == 0x09 || b == 0x0A

end Sys2Proof.Machine
end

