-- ==== Sys2Proof/Machine/RegAccess.lean ====
section
/-! DEFINITION. An aligned 32-bit access to a register window (R8, R101–R104, R109, R121, R122): absent units and instances, pairs and
their shadows, registers that a read changes, and the page that a write goes to. -/

namespace Sys2Proof.Machine

/-- The number of a requester among those that hold shadows (R104): the cores and the debug unit. -/
def reqKey : Src → Nat
  | .core n => n % 16
  | .debug => 16

/-- The key of a shadow or of the last answer. -/
def shadowKey (a : Nat) (src : Src) : Nat := a * 32 + reqKey src

/-- Whether the instance of a register is absent in the variant (R122). -/
def absentInst (s : State) (t : RegRow) (is : List Nat) : Bool := decide (limitOf s.variant t.lim ≤ is.getD 0 0)

/-- The code that a block gives to a write of an absent instance; for the blocks whose chapters name none it is a free value (R122). -/
def absentCode (s : State) (b : Nat) : State × Nat :=
  match b with
  | 0x01 => (s, 0x11)
  | 0x04 => (s, 0x12)
  | 0x08 => (s, 0x14)
  | 0x0A => (s, 0x12)
  | 0x0E => (s, 0x12)
  | _ => (takeFree s, 0x10 + (Config.word s.free).toNat % 0xF0)

/-! ### Reads -/

/-- The stored word with its WO bits read as zero; the read leaves its RC bits at their reset values (R8). -/
def plainRead (s : State) (a : Nat) (t : RegRow) : State × W32 :=
  (setReg s a ((reg s a &&& ~~~(accBits t .rc)) ||| (BitVec.ofNat 32 (rowReset t) &&& accBits t .rc)), reg s a &&& ~~~(accBits t .wo))

/-- ENCSTATe as read: VALID says whether the interface delivers a valid count (R430–R432). -/
def encstatRead (s : State) (e : Nat) : State × W32 :=
  match rowOf (MEAS_ENCSTAT e) with
  | some (t, _) =>
    match plainRead s (MEAS_ENCSTAT e) t with
    | (s1, v) => (s1, BitVec.ofNat 32 (withBits v.toNat 31 31 (b2n (encDelivers s e s.tick).isSome)))
  | none => (s, 0)

/-- The registers that are not stored but computed, or that a read changes. -/
def liveRead (s : State) (a : Nat) (is : List Nat) : Option (State × W32) :=
  let i := is.getD 0 0
  if a = INFLIGHT (blkOf a) then some (s, BitVec.ofNat 32 (inflight s (blkOf a)))
  else
    match blkOf a with
    | 0x01 =>
      if a = SCHED_CORECUR i then some (s, coreCur s i)
      else if a = SCHED_CORERES01 i then some (s, coreRes s i 0)
      else if a = SCHED_CORERES23 i then some (s, coreRes s i 1)
      else none
    | 0x03 => if TRANS_WFLT_ADDR_LO ≤ a && !accepted s 3 1 then some (s, 0) else none
    | 0x04 => if a = MEM_ECTX i && 0x200 ≤ offOf a && !accepted s 4 2 then some (s, 0) else none
    | 0x06 => if a = EVT_LINEPEND i && decide (offOf a < 0x800) && decide (0x200 ≤ offOf a) then some (s, linePend s i) else none
    | 0x09 =>
      if a = MEAS_DOREAD then some (takeFree s, Config.word s.free)
      else if a = MEAS_ENCSTAT i ∧ i < 8 then some (encstatRead s i)
      else none
    | 0x0B => if a = NET_RULEW7 then some (s, ruleHits s) else none
    | 0x0E => if a = PWR_OPVLO then some (s, opvRead 0) else if a = PWR_OPVHI then some (s, opvRead 4) else none
    | 0x10 => if BOOT_BMRDATA 0 ≤ a ∧ a ≤ BOOT_BMRDATA 11 then some (s, bmrData s i) else none
    | 0x11 => if a = KEY_TRNG then some (trngRead s) else if a = KEY_DUCHAL 0 then some (challengeRead s) else none
    | 0x12 => if a = WDR_CWDCNT then some (cwdLeft s) else none
    | 0x13 =>
      if a = DBG_DBGSTAT then some (s, dbgStat s)
      else if DBG_DEVID 0 ≤ a ∧ a ≤ DBG_DEVID 3 then some (s, devid i)
      else if DBG_TRDATA 0 ≤ a ∧ a ≤ DBG_TRDATA 3 then some (trdata s i)
      else none
    | _ => none

/-- A read of a shadow of R104. -/
def readShadow (s : State) (a : Nat) (src : Src) : W32 := mget (fun _ => 0#32) s.rdShadow (shadowKey a src)

/-- A read shadow set. -/
def putShadow (s : State) (a : Nat) (src : Src) (v : W32) : State :=
  { s with rdShadow := mput (fun _ => 0#32) s.rdShadow (shadowKey a src) v }

/-- The word that the page holds at `a`, without shadows. -/
def pageRead (s : State) (a : Nat) (t : RegRow) (is : List Nat) : State × W32 :=
  match liveRead s a is with
  | some r => r
  | none => plainRead s a t

/-- The high half that a read of the low half copies. -/
def highHalf (s : State) (a : Nat) : State × W32 :=
  match rowOf a with
  | some (t, is) => pageRead s a t is
  | none => (s, 0)

/-- Whether `a` is MTICKn_LO or MTICKn_HI (R427). -/
def isMtick (a : Nat) : Bool := decide (MEAS_MRES 0 ≤ a) && decide (a < MEAS_MRES 16) && (a % 16 == 4 || a % 16 == 8)

/-- Whether `a` is MRESn. -/
def isMres (a : Nat) : Bool := decide (MEAS_MRES 0 ≤ a) && decide (a < MEAS_MRES 16) && a % 16 == 0

/-- A read of a register that is present. -/
def readRow (s : State) (a : Nat) (t : RegRow) (is : List Nat) (src : Src) : State × W32 :=
  if isMtick a then (s, readShadow s a src)
  else if isMres a then (putShadow (putShadow s (a + 4) src (reg s (a + 4))) (a + 8) src (reg s (a + 8)), reg s a)
  else
    match t.pair with
    | .none => pageRead s a t is
    | .hi => (s, readShadow s a src)
    | .lo =>
      match pageRead s a t is with
      | (s1, v) =>
        match highHalf s1 (a + 4) with
        | (s2, h) => (putShadow s2 (a + 4) src h, v)

/-- Whether the field die must answer an access and does not (R420). -/
def fieldDown (s : State) (a : Nat) : Bool := blkOf a == 9 && decide (0x1000 ≤ offOf a) && !bridgeUp s

/-- An aligned 32-bit read of address `a` of the windows, without the note of its answer. -/
def readWindow (s : State) (a : Nat) (src : Src) : State × W32 :=
  if !Config.present s.variant (blkOf a) then (s, 0)
  else
    match rowOf a with
    | none => (s, 0)
    | some (t, is) =>
      if absentInst s t is then (s, 0)
      else if fieldDown s a then (capture s 9 0x10 a (srcReq s src), 0)
      else if blkOf a == 0x13 && debugOnly a && src != .debug then (capture s 0x13 0x12 a (srcReq s src), 0)
      else readRow s a t is src

/-- An aligned 32-bit read of address `a` of the windows; the word answered is kept. -/
def regRead32 (s : State) (a : Nat) (src : Src) : State × W32 :=
  match readWindow s a src with
  | (s1, v) => ({ s1 with answer := mput (fun _ => 0#32) s1.answer (reqKey src) v }, v)

/-! ### Writes -/

/-- A write at an offset from 0x100 of block `b`'s page. -/
def pageWrite (s : State) (q : RegWrite) : State :=
  let o := offOf q.a
  if hasEv2 (blkOf q.a) && o == 0x104 then evEnableWrite s q 32
  else if hasEv2 (blkOf q.a) && o == 0x108 then evPendingWrite s q
  else
    match blkOf q.a with
    | 0x01 => schedWrite s q
    | 0x02 => capWrite s q
    | 0x03 => transWrite s q
    | 0x04 => memPageWrite s q
    | 0x05 => quePageWrite s q
    | 0x06 => evtPageWrite s q
    | 0x07 => phaseWrite s q
    | 0x08 => loopWrite s q
    | 0x09 => measWrite s q
    | 0x0A => flinkWrite s q
    | 0x0B => netWrite s q
    | 0x0C => serWrite s q
    | 0x0D => twinWrite s q
    | 0x0E => pwrWrite s q
    | 0x0F => testWrite s q
    | 0x10 => bootWrite s q
    | 0x11 => keyWrite s q
    | 0x12 => wdrWrite s q
    | 0x13 => dbgWrite s q
    | _ => s

/-- A write that its block accepts: the header or the page. -/
def blockWrite (s : State) (q : RegWrite) : State := if offOf q.a < 0x100 then headerWrite s q else pageWrite s q

/-- The write shadow of a pair set or emptied. -/
def putWrShadow (s : State) (a : Nat) (src : Src) (v : Option W32) : State :=
  { s with wrShadow := mput (fun _ => (none : Option W32)) s.wrShadow (shadowKey a src) v }

/-- A write of a register that is present (R104). A reserved bit set in the low word of a pair is reported (R103) with the write of the high
word, which makes both take effect (DESIGN CHOICE, assumption 156). -/
def writeRow (s : State) (a : Nat) (t : RegRow) (is : List Nat) (v : W32) (src : Src) : State :=
  match t.pair with
  | .none => blockWrite s { a := a, t := t, is := is, v := v, lo := none, src := src }
  | .lo => putWrShadow s a src (some v)
  | .hi =>
    blockWrite (putWrShadow s (a - 4) src none)
      { a := a, t := t, is := is, v := v, lo := mget (fun _ => (none : Option W32)) s.wrShadow (shadowKey (a - 4) src), src := src }

/-- An aligned 32-bit write of `v` to address `a` of the windows. -/
def regWrite32 (s : State) (a : Nat) (v : W32) (src : Src) : State :=
  if !Config.present s.variant (blkOf a) then fabricError s 385 6 a (srcReq s src)
  else
    match rowOf a with
    | none => s
    | some (t, is) =>
      if absentInst s t is then
        match absentCode s (blkOf a) with
        | (s1, c) => capture s1 (blkOf a) c a (srcReq s1 src)
      else if fieldDown s a then capture s 9 0x10 a (srcReq s src)
      else if blkOf a == 0x13 && debugOnly a && src != .debug then capture s 0x13 0x12 a (srcReq s src)
      else writeRow s a t is v src

end Sys2Proof.Machine
end

