-- ==== Sys2Proof/Machine/Phys.lean ====
section
/-! DEFINITION. What an access of a core does at each part of the physical map (R35, R62, R69, R95–R98, R101, R121). -/

namespace Sys2Proof.Machine

/-- Whether an address lies in the field-die part of the MEAS page, whose accesses the field die answers (R420). -/
def inFieldPart (s : State) (a : Nat) : Bool :=
  Config.present s.variant 9 && decide (0xE0901000 ≤ a) && decide (a < 0xE0902000) && fon s MEAS_BRSTAT_UP

/-- A register access of another width than 32 bits, or unaligned (R101). -/
def widthError (s : State) (a : Nat) (who : Requester) : State :=
  if Config.present s.variant (blkOf a) then capture s (blkOf a) 3 a who else s

/-- A read of `len` bytes within one word by core `n` (`cap`: by LDC or LDM): the state after it, the value in the low bytes with
the word's tag, and whether the word is poisoned. -/
def physRead (s : State) (n a len : Nat) (cap : Bool) : State × CapW × Bool :=
  if inMem s a then
    match eccRead (countTraf s (curCtx s n) a) a (coreReq s n) false with
    | (s1, w, ue) => (s1, ⟨BitVec.ofNat 128 (bits w.bits.toNat (8 * (a % 16 + len) - 1) (8 * (a % 16))), w.tag⟩, ue)
  else if inFlash a then
    match flashRead s a len (coreReq s n) with
    | (s1, v) => (s1, ⟨BitVec.ofNat 128 v, false⟩, false)
  else if inRom a then (s, ⟨BitVec.ofNat 128 (leVal ((upTo len).map (fun i => Config.bootRom (a % 0x10000 + i)))), false⟩, false)
  else if inWindows a then
    if len = 4 ∧ cap = false ∧ a % 4 = 0 then
      match regRead32 s a (.core n) with
      | (s1, v) => (s1, ⟨BitVec.ofNat 128 v.toNat, false⟩, false)
    else (widthError s a (coreReq s n), nullW, false)
  else (fabricError s 384 1 a (coreReq s n), nullW, false)

/-- A write of an entry of core `n`'s store buffer outside general memory: the address and the bytes the store put there. -/
def physWrite (s : State) (n : Nat) (who : Requester) (a : Nat) (len v : Nat) (cap : Bool) : State :=
  if inFlash a then fabricError s 384 4 a who
  else if inRom a then fabricError s 384 3 a who
  else if inWindows a then
    if Config.present s.variant (blkOf a) = false then fabricError s 385 6 a who
    else if len = 4 ∧ cap = false ∧ a % 4 = 0 then regWrite32 s a (BitVec.ofNat 32 v) (.core n)
    else widthError s a who
  else fabricError s 384 2 a who

/-- The number of the lowest byte and the count of bytes that a mask selects. -/
def maskLow (m : BitVec 16) : Nat := ((upTo 16).find? (fun i => bit m.toNat i)).getD 0
def maskCount (m : BitVec 16) : Nat := popcount 16 m.toNat

/-- The write of a store-buffer entry outside general memory, which completes with OK (R97). -/
def performOutside (s : State) (n : Nat) (e : StoreEntry) : State :=
  let lo := maskLow e.mask
  let len := maskCount e.mask
  physWrite s n (storeWho n e) (e.word * 16 + lo) len (bits e.data.toNat (8 * (lo + len) - 1) (8 * lo)) e.cap

end Sys2Proof.Machine
end

