-- ==== Sys2Proof/Machine/MemOps.lean ====
section
/-! DEFINITION. Loads and stores (R31–R35, R162–R164, R188–R190, R206–R218): what each form accesses, its checks, and the
access itself; and the lazy save and reload (R261, R263). -/

namespace Sys2Proof.Machine

/-- A load: destination, capability register, address mode, size, sign extension, and whether it is LDC. -/
structure LoadForm where
  rd : CReg
  cs : CReg
  am : Addr
  len : Nat
  sgn : Bool
  cap : Bool
  deriving DecidableEq, Repr

/-- A store: source, capability register, address mode, size, and whether it is STC. -/
structure StoreForm where
  rs : CReg
  cs : CReg
  am : Addr
  len : Nat
  cap : Bool
  deriving DecidableEq, Repr

/-- The loads of R162. -/
def loadForm (i : Instr) : Option LoadForm :=
  match i with
  | .ldb _ rd cs am => some ⟨rd, cs, am, 1, true, false⟩
  | .ldbu _ rd cs am => some ⟨rd, cs, am, 1, false, false⟩
  | .ldh _ rd cs am => some ⟨rd, cs, am, 2, true, false⟩
  | .ldhu _ rd cs am => some ⟨rd, cs, am, 2, false, false⟩
  | .ldw _ rd cs am => some ⟨rd, cs, am, 4, true, false⟩
  | .ldwu _ rd cs am => some ⟨rd, cs, am, 4, false, false⟩
  | .ldd _ rd cs am => some ⟨rd, cs, am, 8, false, false⟩
  | .ldc _ rd cs am => some ⟨rd, cs, am, 16, false, true⟩
  | _ => none

/-- The stores of R162. -/
def storeForm (i : Instr) : Option StoreForm :=
  match i with
  | .stb _ rs cs am => some ⟨rs, cs, am, 1, false⟩
  | .sth _ rs cs am => some ⟨rs, cs, am, 2, false⟩
  | .stw _ rs cs am => some ⟨rs, cs, am, 4, false⟩
  | .std _ rs cs am => some ⟨rs, cs, am, 8, false⟩
  | .stc _ rs cs am => some ⟨rs, cs, am, 16, true⟩
  | _ => none

/-- The ring and the space in which a bundle's accesses are checked. -/
def View.ring (v : View) : Nat := stRING v.st
def View.space (v : View) : Nat := v.regs.space.toNat

/-- log2 of an access size. -/
def sizeLog (len : Nat) : Nat := log2 len

/-! ### Checks -/

/-- What the checks of an access come to, as a check of its syllable: FADDR, FINFO[63:32] and the descriptor, whose UNIT bit and
size are given (R267, R268). -/
def accessChk (r : Access) (pos : Nat) (unit : Bool) (size kind vreg creg : Nat) : SylChk :=
  match r with
  | .go _ => .pass
  | .fault code sub fadr half hi => .fault (mkCause code sub fadr (descr pos unit half size kind vreg creg + hi * 2 ^ 32))
  | .need va => .hold (.walk va false)

/-- The cause of a poisoned word (R213). -/
def poisonCause (va pa : Nat) : Cause := mkCause 0x28 0x10 va (pa / 16 * 16)

/-- Whether an address has lines that the L1 data cache takes (R211): memory, boot ROM and flash. -/
def cacheable (s : State) (a : Nat) : Bool := inMem s a || inRom a || inFlash a

/-- Whether a piece of a load can be read now (R163, R211, R213, R218). -/
def pieceReady (v : View) (h : Held) (p : Piece) : SylChk :=
  let c := core v.pre v.n
  if p.leaf.se then (if c.sb.isEmpty then (if flashWaits v.pre p.pa then .hold .flash else .pass) else .hold .stores)
  else
    match forward c.sb p.pa p.len with
    | .bytes _ => .pass
    | .wait => .hold .stores
    | .clear =>
      if !cacheable v.pre p.pa || c.l1d.contains (p.pa / 64) then .pass
      else if h.fills.contains (p.pa / 64) then
        (if eccAt v.pre p.pa = .double then .fault (poisonCause p.va p.pa) else .pass)
      else .hold (.miss (p.pa / 64))

/-- The pieces of a load in turn. -/
def piecesReady (v : View) (h : Held) : List Piece → SylChk
  | [] => .pass
  | p :: r =>
    match pieceReady v h p with
    | .pass => piecesReady v h r
    | c => c

/-- The access that a load makes. -/
def loadAccess (v : View) (h : Held) (q : LoadForm) : Access :=
  checkAccess v.pre v.n h.walks v.space v.ring (v.c q.cs) (if q.cap then .capload else .load) none (effAddr (v.x q.cs) q.am q.len) q.len

/-- The checks of a load, and its wait for its data. -/
def loadChk (v : View) (h : Held) (q : LoadForm) : SylChk :=
  match loadAccess v h q with
  | .go ps => piecesReady v h ps
  | r => accessChk r v.pos false (sizeLog q.len) (if q.cap then 2 else 0) q.rd.toNat q.cs.toNat

/-- The access that a store makes. -/
def storeAccess (v : View) (h : Held) (q : StoreForm) : Access :=
  checkAccess v.pre v.n h.walks v.space v.ring (v.c q.cs) (if q.cap then .capstore else .store)
    (if q.cap then some (v.c q.rs) else none) (effAddr (v.x q.cs) q.am q.len) q.len

/-- The checks of a store. -/
def storeChk (v : View) (h : Held) (q : StoreForm) : SylChk :=
  accessChk (storeAccess v h q) v.pos false (sizeLog q.len) (if q.cap then 3 else 1) q.rs.toNat q.cs.toNat

/-! ### Performing a load -/

/-- A word's bytes from byte `off`, moved to byte 0. -/
def shiftDown (w : CapW) (off len : Nat) : CapW := ⟨BitVec.ofNat 128 (bits w.bits.toNat (8 * (off + len) - 1) (8 * off)), w.tag⟩

/-- One piece of a load read: from the store buffer, from memory (a line of the L1 never differs from it), from a line of boot ROM or
flash in the L1, or from its target. -/
def loadPiece (st : State) (n : Nat) (p : Piece) (cap : Bool) : State × CapW × Bool :=
  let s := tlbUse st n false p.va
  if p.leaf.se then physRead s n p.pa p.len cap
  else
    match forward (core s n).sb p.pa p.len with
    | .bytes w => (s, shiftDown w (p.pa % 16) p.len, false)
    | _ =>
      if inMem s p.pa then (s, shiftDown (memWord s p.pa) (p.pa % 16) p.len, false)
      else
        match (core s n).l1dRom.find? (fun l => l.line == p.pa / 64 && (core s n).l1d.contains l.line) with
        | some l => (s, ⟨BitVec.ofNat 128 (leVal ((l.bytes.drop (p.pa % 64)).take p.len)), false⟩, false)
        | none => physRead s n p.pa p.len cap

/-- The pieces of a load read: the value from byte `k` up with the tag of the last, and the cause of a poisoned one. -/
def loadPieces (n : Nat) (cap : Bool) : List Piece → Nat → State → State × CapW × Option Cause
  | [], _, s => (s, nullW, none)
  | p :: r, k, s =>
    match loadPiece s n p cap with
    | (s1, _, true) => (s1, nullW, some (poisonCause p.va p.pa))
    | (s1, w, false) =>
      match loadPieces n cap r (k + p.len) s1 with
      | (s2, w2, c) => (s2, ⟨BitVec.ofNat 128 (w.bits.toNat * 2 ^ (8 * k)) ||| w2.bits, w.tag⟩, c)

/-- What a load writes to its destination (R34, R43, R162). -/
def loadResult (q : LoadForm) (c : CapW) (cl : Bool) (w : CapW) : CapW :=
  if q.cap then { w with tag := w.tag && hasPerm c pLOADCAP && cl }
  else if q.sgn then intW (sext (8 * q.len) w.bits.toNat) else intW w.bits.toNat

/-- A load performed: the state after it and the write it owes, or the cause of poison. -/
def performLoad (v : View) (h : Held) (q : LoadForm) (s : State) : State × (Cause ⊕ List (RegId × CapW)) :=
  match loadAccess v h q with
  | .go ps =>
    match loadPieces v.n q.cap ps 0 s with
    | (s1, _, some c) => (s1, .inl c)
    | (s1, w, none) =>
      (s1, .inr [(regIdOf v.pre v.n q.rd.toNat, loadResult q (v.c q.cs) (ps.all (fun p => p.leaf.cl)) w)])
  | _ => (s, .inr [])

/-- The update of the capability register of a post-increment mode (R188, R189). -/
def postUpdate (v : View) (cs : CReg) (am : Addr) (len : Nat) (s : State) : State :=
  if postMode am then v.wr s cs (setCursor (v.c cs) (postCursor v.regs.sig (v.x cs) am len)) else s

/-! ### Performing a store -/

/-- The buffer entries that a store of `bytes` over some pieces asks for. -/
def storeReqs (tag cap : Bool) (sync : Bool) : Nat → List Piece → List Byte → List StoreReq
  | _, [], _ => []
  | k, p :: r, l =>
    { va := p.va, pa := p.pa, bytes := l.take p.len, tag := tag, cap := cap, se := p.leaf.se, tw := p.leaf.tw
      sync := if sync then some k else none } :: storeReqs tag cap sync (k + 1) r (l.drop p.len)

/-- The entries that a store asks for. -/
def storeOf (v : View) (h : Held) (q : StoreForm) (sync : Bool) : List StoreReq :=
  match storeAccess v h q with
  | .go ps => storeReqs (q.cap && (v.c q.rs).tag) q.cap sync 0 ps (leBytes q.len (v.c q.rs).bits.toNat)
  | _ => []

/-- Whether a bundle with these stores is held for room in the buffer (R216). -/
def bufferFull (s : State) (n : Nat) (l : List StoreReq) : Bool :=
  !l.isEmpty && (decide (8 ≤ (core s n).sb.length) || decide (8 < (core (enterStores n l s) n).sb.length))

/-! ### The lazy save and reload (R249, R261, R263) -/

/-- The access of the `k`th 8-byte store or load of the save or reload: through SSP, at LAZYPTR + 8k. -/
def lazyAccess (s : State) (n : Nat) (ws : List WalkDone) (kind : Kind) (k : Nat) : Access :=
  checkAccess s n ws (curRegs s n).space.toNat (stRING (status s n)) (ssp s n) kind none
    (((core s n).lazyptr.toNat + 8 * k) % 2 ^ 64) 8

/-- The checks of the twelve accesses, in turn; a faulting one reports the slot of the syllable that needs it. -/
def lazyChk (s : State) (n : Nat) (ws : List WalkDone) (kind : Kind) (pos : Nat) : List Nat → SylChk
  | [] => .pass
  | k :: r =>
    match accessChk (lazyAccess s n ws kind k) pos false 3 kind.code 0 6 with
    | .pass => lazyChk s n ws kind pos r
    | c => c

/-- The pieces of the twelve accesses. -/
def lazyPieces (s : State) (n : Nat) (ws : List WalkDone) (kind : Kind) : List Nat → List (List Piece)
  | [] => []
  | k :: r =>
    (match lazyAccess s n ws kind k with
     | .go ps => ps
     | _ => []) :: lazyPieces s n ws kind r

/-- The twelve stores of a save. -/
def lazyStores (s : State) (n : Nat) (ws : List WalkDone) : List (List StoreReq) :=
  let b := sigBytes (curRegs s n).sig
  ((lazyPieces s n ws .store (upTo 12)).zipIdx).map (fun p => storeReqs false false false 0 p.1 ((b.drop (8 * p.2)).take 8))

/-- The reload of the signal-unit state, all its checks having passed: the bytes read in turn. -/
def reloadBytes (n : Nat) : List (List Piece) → State → State × List Byte × Option Cause
  | [], s => (s, [], none)
  | ps :: r, s =>
    match loadPieces n false ps 0 s with
    | (s1, _, some c) => (s1, [], some c)
    | (s1, w, none) =>
      match reloadBytes n r s1 with
      | (s2, l, c) => (s2, leBytes 8 w.bits.toNat ++ l, c)

end Sys2Proof.Machine
end

