-- ==== Sys2Proof/Machine/QueOps.lean ====
section
/-! DEFINITION. QPUT, QGET and QPUTM as a core performs them (R50, R88, R167–R170). -/

namespace Sys2Proof.Machine

/-- Register `k` of the group that rs2 names. -/
def View.group (v : View) (rs2 : CReg) (k : Nat) : CapW := readC v.pre v.n (rs2.toNat + k)

/-- The header word g0 as a number. -/
def View.head (v : View) (rs2 : CReg) : Nat := (v.group rs2 0).bits.toNat

/-- The first four checks of R168 and R169: `perm` is STORE or LOAD with its subcode. -/
def queueCapChk (q : CapW) (perm sub : Nat) : Option (Nat × Nat) :=
  if !q.tag then some (0x10, 1)
  else if capOtype q ≠ 0 then some (0x13, 1)
  else if !hasPerm q pQUEUE then some (0x12, 0x0E)
  else if !hasPerm q perm then some (0x12, sub)
  else none

/-- The bounds check over some queues. -/
def queueBounds (q : CapW) (l : List Nat) : Option (Nat × Nat) :=
  if l.all (fun k => decide (capBase q ≤ (capCursor q + k : Nat)) && decide (((capCursor q + k : Nat) : Int) < capTop q)) then none
  else some (0x11, 1)

/-- The checks of the payload's capabilities (R50, R168). -/
def payloadChk (q : CapW) (plen : Nat) : List (Nat × CapW) → Option (Nat × Nat)
  | [] => none
  | (k, g) :: r =>
    if g.tag ∧ 16 * k ≤ plen then
      if !hasPerm q pSTORECAP then some (0x12, 4)
      else if !hasPerm g pGLOBAL then some (0x12, 0x0B)
      else payloadChk q plen r
    else payloadChk q plen r

/-- The payload registers with their numbers. -/
def View.payload (v : View) (rs2 : CReg) : List (Nat × CapW) := [(1, v.group rs2 1), (2, v.group rs2 2), (3, v.group rs2 3)]

/-- The payload length that g0 gives. -/
def View.plen (v : View) (rs2 : CReg) : Nat := bits (v.head rs2) 53 48

/-- The first failure of some checks. -/
def firstFail : List (Option (Nat × Nat)) → Option (Nat × Nat)
  | [] => none
  | some f :: _ => some f
  | none :: r => firstFail r

/-- A failure of a queue instruction as a check: FADDR q.CURSOR (R267, R268). -/
def View.queueChk (v : View) (f : Option (Nat × Nat)) (rs1 rs2 : CReg) : SylChk :=
  match f with
  | some (code, sub) => .fault (mkCause code sub (v.x rs1) (descr v.pos false false 7 7 rs2.toNat rs1.toNat))
  | none => .pass

def qputChk (v : View) (rs1 rs2 : CReg) : SylChk :=
  v.queueChk (firstFail [queueCapChk (v.c rs1) pSTORE 2, queueBounds (v.c rs1) [0], payloadChk (v.c rs1) (v.plen rs2) (v.payload rs2)]) rs1 rs2

def qgetChk (v : View) (rs1 rs2 : CReg) : SylChk :=
  v.queueChk (firstFail [queueCapChk (v.c rs1) pLOAD 1, queueBounds (v.c rs1) [0]]) rs1 rs2

def qputmChk (v : View) (rd rs1 rs2 : CReg) : SylChk :=
  v.queueChk (firstFail [queueCapChk (v.c rs1) pSTORE 2, queueBounds (v.c rs1) (maskBits (v.x rd % 2 ^ 16)),
    payloadChk (v.c rs1) (v.plen rs2) (v.payload rs2)]) rs1 rs2

/-- The put that the group spells, for queue `q` (R168). -/
def View.putReq (v : View) (s : State) (q : Nat) (rs2 : CReg) : PutReq :=
  { queue := q, sender := (curCtx s v.n).getD 0, ring := some v.ring
    cls := bits (v.head rs2) 17 14, axis := bits (v.head rs2) 33 30, flags := bits (v.head rs2) 47 34, plen := v.plen rs2
    payload := (v.payload rs2).map (fun p => p.2), fromEvt := false }

/-- The write that a queue instruction owes its register `r`. -/
def View.owes (v : View) (r : Nat) (w : CapW) : RegId × CapW := (regIdOf v.pre v.n r, w)

/-- QPUT performed (R168). -/
def performQput (v : View) (rd rs1 rs2 : CReg) (s : State) : State × List (RegId × CapW) :=
  match queuePut s (v.putReq s (v.x rs1) rs2) with
  | (s1, st) => (s1, [v.owes rd.toNat (intW st)])

/-- The message words as QGET delivers them (R50, R169). -/
def deliver (v : View) (q : CapW) (rs2 : CReg) : Nat → List CapW → List (RegId × CapW)
  | _, [] => []
  | k, w :: r => v.owes (rs2.toNat + k) { w with tag := w.tag && k != 0 && hasPerm q pLOADCAP } :: deliver v q rs2 (k + 1) r

/-- QGET performed (R169). -/
def performQget (v : View) (rd rs1 rs2 : CReg) (s : State) : State × List (RegId × CapW) :=
  match queueGet s (v.x rs1) (some v.ring) with
  | (s1, st, ws) => (s1, deliver v (v.c rs1) rs2 0 ws ++ [v.owes rd.toNat (intW st)])

/-- QPUTM performed (R170, R337). -/
def performQputm (v : View) (rd rs1 rs2 : CReg) (s : State) : State × List (RegId × CapW) :=
  let r := v.putReq s (v.x rs1) rs2
  match multiput r (v.x rs1) (axisPos s r.axis) (maskBits (v.x rd % 2 ^ 16)) s 0 0 0 with
  | (s1, ok, fail, first) => (s1, [v.owes rd.toNat (intW (multiReport ok fail first))])

end Sys2Proof.Machine
end

