-- ==== Sys2Proof/Machine/CtlOps.lean ====
section
/-! DEFINITION. Control transfer, gates, user state, system registers, waits, barriers and invalidations (R137, R156–R161,
R171–R174, R231, R251–R258, R263, R275, R296, R315–R317). -/

namespace Sys2Proof.Machine

/-! ### Transfers -/

/-- The fetch buffer emptied (R225). -/
def flushFetch (s : State) (n : Nat) : State := updCore s n (fun c => { c with fbuf := [] })

/-- A transfer to the capability `p` (its cursor is the target): KIND 1 of the trace is an ordinary one, KIND 3 a change of ring. -/
def jumpTo (s : State) (n : Nat) (p : CapW) (kind : Nat) : State :=
  traceRec (flushFetch (setPcc s n p) n) n kind (capCursor p % 2 ^ 48)

/-- The target of BR and CALL (R156). -/
def View.target (v : View) (disp : BitVec 19) : Nat := (((v.a : Int) + signed 19 disp.toNat * 4) % (2 ^ 64 : Nat)).toNat

/-- The PCC before the bundle. -/
def View.pc (v : View) : CapW := v.regs.pcc

/-- The window moved up (CALL) or down (RET), GUARD following (R157, R159, R231). -/
def rotate (s : State) (n : Nat) (up : Bool) : State :=
  updRegs s n (fun r =>
    { r with
      winctl :=
        if up then moveCur r.winctl ((winCur r.winctl + 1) % 8) (winOcc r.winctl + 1) (stEXL r.status)
        else moveCur r.winctl ((winCur r.winctl + 7) % 8) (winOcc r.winctl - 1) (stEXL r.status) })

/-- The return capability of CALL and CALLR (R157). -/
def View.link (v : View) : CapW := clearGlobal (setCursor v.pc ((v.a + v.len) % 2 ^ 64))

def doBr (v : View) (disp : BitVec 19) (s : State) : State := jumpTo s v.n (setCursor v.pc (v.target disp)) 1
def doCall (v : View) (disp : BitVec 19) (s : State) : State :=
  rotate (jumpTo (v.wr s 31 v.link) v.n (setCursor v.pc (v.target disp)) 1) v.n true
def doJmp (v : View) (rs1 : CReg) (s : State) : State := jumpTo s v.n (v.c rs1) 1
def doCallr (v : View) (rs1 : CReg) (s : State) : State := rotate (jumpTo (v.wr s 31 v.link) v.n (v.c rs1) 1) v.n true
def doRet (v : View) (s : State) : State := rotate (jumpTo s v.n (v.c 15) 1) v.n false

/-- The checks of a capability target (R158), with the descriptor of a transfer through register `r`. -/
def View.targetChk (v : View) (r : CReg) : SylChk :=
  let c := v.c r
  let bad (code sub : Nat) : SylChk := .fault (mkCause code sub (capCursor c) (descr v.pos false false 7 5 0 r.toNat))
  if !c.tag then bad 0x10 4
  else if capOtype c ≠ 0 then bad 0x13 4
  else if !hasPerm c pEXEC then bad 0x12 3
  else if capCursor c % 4 ≠ 0 then bad 0x08 3
  else .pass

/-! ### Gates (R254–R256) -/

/-- STATUS.RING set. -/
def setRing (s : State) (n r : Nat) : State :=
  let st := status s n
  setStatus s n (mkStatus (stLAZYP st) (stPRECLONG st) (stSYNCST st) (stDFL st) (stEXL st) r (stIE st))

/-- The checks of CALLG. -/
def callgChk (v : View) (rs1 : CReg) : SylChk :=
  let g := v.c rs1
  let bad (code sub : Nat) : SylChk := .fault (mkCause code sub (capCursor g) (descr v.pos false false 7 5 0 rs1.toNat))
  if !g.tag then bad 0x10 4
  else if capOtype g < 0xFC0 ∨ 0xFC3 < capOtype g then bad 0x40 1
  else if v.ring < capOtype g - 0xFC0 then bad 0x40 2
  else if capCursor g % 4 ≠ 0 ∨ cursorIn g = false then bad 0x40 3
  else .pass

/-- CALLG's effect. -/
def doCallg (v : View) (rs1 : CReg) (s : State) : State :=
  let g := v.c rs1
  let ret := setOtype (clearGlobal (setCursor v.pc ((v.a + v.len + v.ring) % 2 ^ 64))) 0xFC4
  let e := setOtype g 0
  rotate (setRing (jumpTo (v.wr (v.wr s 30 e) 31 ret) v.n e 3) v.n (capOtype g - 0xFC0)) v.n true

/-- The checks of RETG. -/
def retgChk (v : View) (rs1 : CReg) : SylChk :=
  let t := v.c rs1
  let r := capCursor t % 4
  let bad (code sub : Nat) : SylChk := .fault (mkCause code sub (capCursor t) (descr v.pos false false 7 5 0 rs1.toNat))
  if !t.tag then bad 0x10 4
  else if capOtype t ≠ 0xFC4 then bad 0x40 4
  else if r < v.ring then bad 0x40 5
  else if ((capCursor t - r : Nat) : Int) < capBase t ∨ capTop t ≤ ((capCursor t - r : Nat) : Int) then bad 0x40 6
  else .pass

/-- RETG's effect. -/
def doRetg (v : View) (rs1 : CReg) (s : State) : State :=
  let t := v.c rs1
  rotate (setRing (jumpTo s v.n (setCursor (setOtype t 0) (capCursor t - capCursor t % 4)) 3) v.n (capCursor t % 4)) v.n false

/-! ### ERET (R263, R275) -/

/-- The capability that ERET returns to. -/
def eretTarget (s : State) (n : Nat) : CapW := if stDFL (status s n) then (core s n).dfepc else (core s n).epc

/-- Whether ERET reloads the signal-unit state. -/
def eretReloads (st : BitVec 11) : Bool := !stDFL st && stEXL st && !stLAZYP st

/-- The pieces of the reload ready to be read, in turn. -/
def reloadReady (v : View) (h : Held) : List (List Piece) → SylChk
  | [] => .pass
  | ps :: r =>
    match piecesReady v h ps with
    | .pass => reloadReady v h r
    | c => c

/-- The checks of ERET: its target, then the reload's loads. -/
def eretChk (v : View) (h : Held) : SylChk :=
  let e := eretTarget v.pre v.n
  if !returnable e then .fault (mkCause 0x40 7 (capCursor e) (descr v.pos false false 7 5 0 0))
  else if eretReloads v.st then
    match lazyChk v.pre v.n h.walks .load v.pos (upTo 12) with
    | .pass => reloadReady v h (lazyPieces v.pre v.n h.walks .load (upTo 12))
    | c => c
  else .pass

/-- ERET's effect, any reload having been made. -/
def doEret (v : View) (s : State) : State :=
  let s1 := if stDFL v.st then eretDouble s v.n else eretFirst s v.n
  traceRec (flushFetch s1 v.n) v.n 3 (pcAddr s1 v.n % 2 ^ 48)

/-! ### User state (R137, R139) -/

def doMfu (v : View) (rd : CReg) (u : BitVec 6) (s : State) : State := v.wi s rd (userRead v.pre v.n v.regs u.toNat)
def doMtu (v : View) (rs1 : CReg) (u : BitVec 6) (s : State) : State := updRegs s v.n (fun r => userPut r u.toNat (v.x rs1))

/-! ### System registers (R171, R231, R252, R266) -/

def doMfs (v : View) (rd : CReg) (k : BitVec 8) (s : State) : State :=
  v.wr s rd (sysRead (core v.pre v.n) v.regs k.toNat)
def doMts (v : View) (rs1 : CReg) (k : BitVec 8) (s : State) : State := updCore (updRegs s v.n (fun r => sysPutRegs r k.toNat (v.c rs1))) v.n (fun c => sysPutCore c k.toNat (v.c rs1))

/-! ### Waits (R315–R317) -/

/-- WAITT's first part: the timeout armed, or met at once. -/
def armTimeout (s : State) (n x y : Nat) : State :=
  if ctxWake s n then s
  else
    let ax := x % 16
    let s1 := setRecBits (setRecBits (setRecBits s n 0x300 35 32 ax) n 0x308 63 0 y) n 0x300 36 36 1
    if !axisValid s ax then setRecBits (setRecBits s1 n 0x300 3 3 1) n 0x300 7 7 1
    else if y ≤ axisPos s ax then setRecBits (setRecBits s1 n 0x300 3 3 1) n 0x300 6 6 1
    else s1

/-- Whether WAIT blocks context `n`. -/
def waitBlocks (s : State) (n : Nat) (st : BitVec 11) : Bool := !ctxWake s n && stIE st

/-- The context blocks (R315): it may then be moved (R322). -/
def blockCtx (s : State) (core n : Nat) : State := maybeMove (setCtxState (setRecBits s n 0x300 13 13 1) n 1) core n

/-- WAIT completes: the reasons are taken and cleared with WAKE, BLK and TOVALID. -/
def waitTake (s : State) (n : Nat) : State :=
  setRecBits (setRecBits (setRecBits (setRecBits s n 0x300 7 4 0) n 0x300 3 3 0) n 0x300 13 13 0) n 0x300 36 36 0

/-- The reasons of a context. -/
def reasons (s : State) (n : Nat) : Nat := recBits s n 0x300 7 4

def doWait (v : View) (rd : CReg) (s : State) : State :=
  match curCtx s v.n with
  | some k => v.wi (waitTake s k) rd (reasons s k)
  | none => s

/-- YIELD (R317): with IE = 1 the core may switch, or stops issuing; the switch itself is BANK_SWITCH's. -/
def doYield (v : View) (s : State) : State :=
  if stIE v.st then
    match curCtx s v.n with
    | some k => maybeMove (updCore s v.n (fun c => { c with yhalt := true })) v.n k
    | none => s
  else s

/-- BANK_SWITCH (R187, R209, R240, R242, R319): at a permitted boundary the core takes the bank that should be current, the
long operations having been drained; an error they bring out is raised in its place. -/
def bankSwitch (s : State) (n : Nat) : State :=
  if maySwitch s n && !(core s n).halted && decide (wantedBank s n ≠ (core s n).cur) then
    let s1 := drain s n
    match dueError s1 n with
    | some op => takeCause s1 n (longCause op true)
    | none => switchTo s1 n (wantedBank s n)
  else s

/-! ### Invalidations (R173, R228, R296, R297) -/

/-- The checks of ICINV: the capability, then translation, ring and read right. -/
def icinvChk (v : View) (h : Held) (rs1 : CReg) : SylChk :=
  let c := v.c rs1
  let a := capCursor c
  let bad (code sub hi : Nat) : SylChk :=
    .fault (mkCause code sub a (descr v.pos false false 7 7 0 rs1.toNat + hi * 2 ^ 32))
  if !c.tag then bad 0x10 1 0
  else if capOtype c ≠ 0 then bad 0x13 1 0
  else if !(hasPerm c pSTORE || hasPerm c pEXEC) then bad 0x12 3 0
  else if !canonical a then bad 0x11 2 0
  else if !cursorIn c then bad 0x11 1 0
  else
    match translate v.pre v.n h.walks v.space (a % 2 ^ 48) with
    | .need va => .hold (.walk va false)
    | .fault code sub hi => bad code sub hi
    | .page l _ => if l.minring < v.ring then bad 0x15 1 0 else if !l.r then bad 0x21 1 0 else .pass

/-- The line that ICINV names. -/
def icinvLine (v : View) (h : Held) (rs1 : CReg) : Nat :=
  match translate v.pre v.n h.walks v.space (v.x rs1 % 2 ^ 48) with
  | .page _ pa => pa / 64
  | _ => 0

/-- The invalidation of a line sent to every core. -/
def doIcinv (v : View) (h : Held) (rs1 : CReg) (s : State) : State :=
  let line := icinvLine v h rs1
  let s1 := (presentCores s).foldl (fun t k => updCore t k (fun c => { c with icinvRx := c.icinvRx ++ [(v.n, line)] })) s
  updCore s1 v.n (fun c => { c with icinvWait := c.icinvWait + (presentCores s).length })

/-- TLBINV sent to every core. -/
def doTlbinv (v : View) (rs1 : CReg) (s : State) : State :=
  let s1 := sendInvs s v.n (v.xw rs1)
  countUp (updCore s1 v.n (fun c => { c with tlbWait := c.tlbWait + (presentCores s).length })) TRANS_INV_CNT

end Sys2Proof.Machine
end

