-- ==== Sys2Proof/Machine/Fetch.lean ====
section
/-! DEFINITION. The L1 caches (R82, R211, R226) and instruction fetch (R33, R127, R213, R225, R289). -/

namespace Sys2Proof.Machine

/-! ### L1 fills -/

/-- The lines of a bank's snoop-filter set that some L1 data cache holds: the filter holds 8 of a set (R82). The set of a line is
its number modulo 512 (DESIGN CHOICE, assumption 21). -/
def snoopSet (s : State) (line : Nat) : List Nat :=
  ((s.cores.map (fun c => c.l1d)).flatten.filter (fun l => l / 131072 == line / 131072 && l % 512 == line % 512)).eraseDups

/-- A line removed from every L1 data cache. -/
def dropLine (s : State) (line : Nat) : State :=
  { s with cores := s.cores.map (fun c => { c with l1d := c.l1d.filter (fun l => l != line) }) }

/-- Room made for a line in its snoop-filter set: a full set loses an entry, counted in SFBINV_CNT (R82). -/
def snoopRoom (s : State) (line : Nat) : State :=
  let l := snoopSet s line
  if l.contains line || decide (l.length < 8) then s
  else
    let v := l.getD (Config.victim s.free % l.length) 0
    countUp (takeFree (dropLine s v)) MEM_SFBINV_CNT

/-- A line entered into a list of cached lines of 128 sets and 4 ways, a victim giving way in a full set (R211). -/
def wayInsert {α : Type} [DecidableEq α] (key : α → Nat) (k : Nat) (l : List α) (x : α) : List α :=
  let ways := l.filter (fun y => key y % 128 == key x % 128 && key y != key x)
  let rest := l.filter (fun y => key y != key x)
  if ways.length < 4 then rest ++ [x]
  else rest.filter (fun y => some (key y) != (ways[Config.victim k % 4]?).map key) ++ [x]

/-- A line of general memory entered into the L1 data cache of core `n`. -/
def l1dEnter (s : State) (n line : Nat) : State :=
  let s1 := snoopRoom s line
  takeFree (updCore s1 n (fun c => { c with l1d := wayInsert (fun l => l) s1.free c.l1d line }))

/-- The four words of a line of general memory read with their checks; whether none is poisoned. -/
def lineCheck (s : State) (n line : Nat) : List Nat → State × Bool
  | [] => (s, true)
  | k :: r =>
    match eccRead s (line * 64 + 16 * k) (coreReq s n) false with
    | (s1, _, ue) =>
      match lineCheck s1 n line r with
      | (s2, ok) => (s2, ok && !ue)

/-- A line of code as it stands at its fill, entered into the L1 instruction cache. -/
def l1iEnter (s : State) (n line : Nat) (bytes : List Byte) : State :=
  takeFree (updCore s n (fun c => { c with l1i := wayInsert (fun l => l.line) s.free c.l1i { line := line, bytes := bytes } }))

/-! ### Reading a syllable -/

/-- The 4 bytes of a syllable from a line's bytes. -/
def lineWord (l : List Byte) (off : Nat) : W32 := BitVec.ofNat 32 (leVal ((l.drop off).take 4))

/-- The bytes of a line of the boot ROM or of the flash window, as a fill reads them. -/
def romLine (s : State) (n line : Nat) : State × List Byte :=
  if inRom (line * 64) then (s, (upTo 64).map (fun i => Config.bootRom (line * 64 % 0x10000 + i)))
  else
    match flashRead s (line * 64) 64 (coreReq s n) with
    | (s1, _) =>
      (s1, if !flashHas s (line * 64 % 0x10000000 + 64) then List.replicate 64 0
           else (upTo 64).map (fun i => Config.flashByte s.flashGen (line * 64 % 0x10000000 + i)))

/-- A line of boot ROM or flash, with its bytes, entered into the L1 data cache of core `n`. -/
def l1dEnterRom (s : State) (n line : Nat) (bytes : List Byte) : State :=
  takeFree (updCore s n (fun c =>
    let l := wayInsert (fun k => k) s.free c.l1d line
    { c with l1d := l, l1dRom := { line := line, bytes := bytes } :: c.l1dRom.filter (fun x => x.line != line && l.contains x.line) }))

/-- A load miss of core `n` served: the line is read and, with no poisoned word, enters the L1 data cache (R211, R213). -/
def fillLine (s : State) (n line : Nat) : State :=
  if inMem s (line * 64) then
    match lineCheck (countTraf s (curCtx s n) (line * 64)) n line [0, 1, 2, 3] with
    | (s1, ok) => if ok then l1dEnter s1 n line else s1
  else
    match romLine s n line with
    | (s1, b) => l1dEnterRom s1 n line b

/-- A syllable read at physical address `pa` by core `n`: from the L1 instruction cache, by a line fill, or, on an SE page or
outside memory, by itself (R211, R226). The flag says that the word holding it is poisoned (R213). -/
def fetchWord (s : State) (n pa : Nat) (se : Bool) : State × W32 × Bool :=
  match (if se then none else (core s n).l1i.find? (fun l => l.line == pa / 64)) with
  | some l => (s, lineWord l.bytes (pa % 64), false)
  | none =>
    if !se && inMem s pa then
      match lineCheck (countTraf s (curCtx s n) pa) n (pa / 64) [0, 1, 2, 3] with
      | (s1, true) =>
        let b := memBytes s1 (pa / 64 * 64) 64
        (l1iEnter s1 n (pa / 64) b, lineWord b (pa % 64), false)
      | (s1, false) => (s1, BitVec.ofNat 32 (leVal (memBytes s1 pa 4)), decide (eccAt s1 pa = .double))
    else if !se && (inRom pa || inFlash pa) then
      match romLine s n (pa / 64) with
      | (s1, b) => (l1iEnter s1 n (pa / 64) b, lineWord b (pa % 64), false)
    else
      match physRead s n pa 4 false with
      | (s1, w, bad) => (s1, BitVec.ofNat 32 w.bits.toNat, bad)

/-! ### The checks of a fetch -/

/-- The descriptor of a fetch (R268). -/
def fetchDescr (pos : Nat) : Nat := descr pos false false 2 4 0 0

/-- What the checks of one syllable come to: its page, a cause, or a walk. -/
inductive FetchChk where
  | page (l : Leaf) (pa : Nat)
  | fault (c : Cause)
  | need (va : Nat)
  deriving DecidableEq, Repr

/-- The checks of R33 and of R289 for the syllable at `va`, position `pos`. A sealed capability authorises no fetch (R27), and the PCC is
never sealed (R33); one that a reload, MTS to KENTRY or DFENTRY, or a debug write has put there faults with the cause of a sealed transfer
target, since the spec names none (DESIGN CHOICE, assumption 147). -/
def fetchOne (s : State) (n : Nat) (ws : List WalkDone) (va pos : Nat) : FetchChk :=
  let p := pcc s n
  let bad (code sub hi : Nat) : FetchChk := .fault (mkCause code sub va (fetchDescr pos + hi * 2 ^ 32))
  if !p.tag then bad 0x10 2 0
  else if capOtype p ≠ 0 then bad 0x13 4 0
  else if !hasPerm p pEXEC then bad 0x12 3 0
  else if (va : Int) < capBase p ∨ capTop p < (va + 4 : Nat) ∨ canonical va = false ∨ canonical (va + 3) = false then bad 0x11 6 0
  else
    match translate s n ws (curRegs s n).space.toNat (va % 2 ^ 48) with
    | .need a => .need a
    | .fault code sub hi => bad code sub hi
    | .page l pa =>
      if l.minring < stRING (status s n) then bad 0x15 2 0
      else if !l.x then bad 0x21 3 0
      else if !l.a then bad 0x24 0 0
      else .page l pa

/-- The checks of the syllables from `va` up, the first at position `pos`, in address order. -/
def fetchChks (s : State) (n : Nat) (ws : List WalkDone) (va : Nat) : Nat → Nat → SylChk
  | _, 0 => .pass
  | pos, k + 1 =>
    match fetchOne s n ws ((va + 4 * pos) % 2 ^ 64) pos with
    | .page _ _ => fetchChks s n ws va (pos + 1) k
    | .fault c => .fault c
    | .need a => .hold (.walk a true)

/-- What reading a bundle comes to: its words, a cause, or a walk. -/
inductive Read where
  | words (ws : List W32)
  | fault (c : Cause)
  | need (va : Nat)
  deriving DecidableEq, Repr

/-- The cause of a poisoned fetch: FADDR the first byte of the poisoned word; FINFO its physical address, as for a poisoned load
(DEDUCED, assumption 34). -/
def poisonedFetch (va pa : Nat) : Cause := mkCause 0x28 0x11 (va / 16 * 16) (pa / 16 * 16)

/-- A bundle's syllables read one after another from `va` until STOP or four (R127); poison is reported once every syllable has
passed its fetch checks (R271). -/
def readBundle (n : Nat) (walks : List WalkDone) (va : Nat) (noSe : Bool) : Nat → Nat → List W32 → Option Cause → State → State × Read
  | _, 0, acc, bad, s =>
    (s, match bad with
        | some c => .fault c
        | none => .words acc)
  | pos, k + 1, acc, bad, s =>
    let a := (va + 4 * pos) % 2 ^ 64
    match fetchOne s n walks a pos with
    | .fault c => (s, .fault c)
    | .need x => (s, .need x)
    | .page l pa =>
      if (noSe && l.se) || (flashWaits s pa && (l.se || !(core s n).l1i.any (fun x => x.line == pa / 64))) then (s, .words [])
      else
        match fetchWord (tlbUse s n true a) n pa l.se with
        | (s1, w, p) =>
          let bad1 := match bad with
            | some c => some c
            | none => if p then some (poisonedFetch a pa) else none
          if wStop w then
            (s1, match bad1 with
                 | some c => .fault c
                 | none => .words (acc ++ [w]))
          else readBundle n walks va noSe (pos + 1) k (acc ++ [w]) bad1 s1

/-- Readings repeated while they need a walk, each walk being made (a bundle spans at most two pages). -/
def readWalking (n va : Nat) (noSe : Bool) : Nat → List WalkDone → State → State × Read
  | 0, _, s => (s, .words [])
  | fuel + 1, ws, s =>
    match readBundle n ws va noSe 0 4 [] none s with
    | (s1, .need a) =>
      let sp := (curRegs s1 n).space.toNat
      match walk s1 n (coreReq s1 n) false sp a with
      | (s2, .leaf l) => readWalking n va noSe fuel ({ va := a, space := sp, res := .leaf l } :: ws) (tlbEnter s2 n true sp a l)
      | (s2, r) => readWalking n va noSe fuel ({ va := a, space := sp, res := r } :: ws) s2
    | (s1, r) => (s1, r)

/-- Where the fetch stage reads next: after the last bundle it holds, or at the PCC. -/
def nextFetch (s : State) (n : Nat) : Nat :=
  match (core s n).fbuf.getLast? with
  | some f => (f.addr.toNat + 4 * f.words.length) % 2 ^ 64
  | none => pcAddr s n

/-- The next bundle read into the fetch buffer; `noSe`: not on an SE page. A fault keeps the space it was found in (R293). -/
def fetchNext (s : State) (n : Nat) (noSe : Bool) : State :=
  let a := nextFetch s n
  let put (t : State) (ws : List W32) (c : Option Cause) : State :=
    updCore t n (fun k => { k with fbuf := k.fbuf ++ [{ addr := BitVec.ofNat 64 a, words := ws, cause := c }] })
  match readWalking n a noSe 5 [] s with
  | (s1, .words []) => s1
  | (s1, .words ws) => put s1 ws none
  | (s1, .fault f) => put s1 [] (some { f with space := some (curRegs s n).space.toNat })
  | (s1, .need _) => s1

/-- The fetch stage (R127, R225): one bundle is read ahead into the fetch buffer, which holds 8; a bundle on an SE page is read
only when it is the next to issue. Nothing is read after a bundle whose fetch failed. -/
def fetchAhead (s : State) (n : Nat) : State :=
  let c := core s n
  if !corePresent s n || !issues s n || decide (8 ≤ c.fbuf.length) || c.fbuf.any (fun f => f.cause.isSome) then s
  else fetchNext s n (!c.fbuf.isEmpty)

/-- The fetch buffer made to begin with the bundles of `l` (address and words), the last of which holds a store, and to hold one more: the
bundle after a store is read before the store is sent, so that it executes with the bytes it held before (R227). -/
def fetchBehind (s : State) (n : Nat) (l : List (Nat × List W32)) : State :=
  let s1 :=
    if (((core s n).fbuf.map (fun f => f.addr.toNat)).take l.length) = l.map (fun p => p.1) then s
    else updCore s n (fun c => { c with fbuf := l.map (fun p => { addr := BitVec.ofNat 64 p.1, words := p.2, cause := none }) })
  if (core s1 n).fbuf.length ≤ l.length ∧ (core s1 n).fbuf.all (fun f => f.cause.isNone) = true then fetchNext s1 n false else s1

end Sys2Proof.Machine
end

