-- ==== Sys2Proof/Machine/Bundle.lean ====
section
/-! DEFINITION. A bundle: its slots and encoding checks (R127–R129, R145–R149, R197), the checks of its syllables in the order
of R271, what holds it, and its commit (R126, R130, R131, R205–R210, R261, R315). -/

namespace Sys2Proof.Machine

/-! ### Slots -/

/-- A syllable in its slot: position in the bundle, word, long-immediate word, and whether it owns one. -/
structure Slot where
  pos : Nat
  word : W32
  li : W32
  owns : Bool
  deriving DecidableEq, Repr

/-- The slots of a bundle's words from position `pos` (R127–R129). -/
def parse : Nat → List W32 → List Slot
  | _, [] => []
  | pos, [w] => [{ pos := pos, word := w, li := 0, owns := false }]
  | pos, w :: l :: r =>
    if ownsLong w && !wStop w then { pos := pos, word := w, li := l, owns := true } :: parse (pos + 2) r
    else { pos := pos, word := w, li := 0, owns := false } :: parse (pos + 1) (l :: r)

/-- The slot that a syllable, or its long immediate, occupies last (R128). -/
def Slot.top (x : Slot) : Nat := wUnit x.word.toNat + b2n x.owns

/-- The command that a slot spells. -/
def Slot.instr (n : Nat) (x : Slot) : Instr := decodeSyl n x.word x.li

/-- Whether a syllable's condition holds (R125). -/
def condHolds (r : CtxRegs) (w : W32) : Bool := (predOf r (wCond w.toNat % 8)) != (bit (wCond w.toNat) 3)

/-- The slots whose syllables execute. -/
def executing (r : CtxRegs) (l : List Slot) : List Slot := l.filter (fun x => condHolds r x.word)

/-! ### Encoding checks (rank 4) -/

/-- The first syllable whose slot is not above the one before it. -/
def outOfOrder : Nat → List Slot → Option Slot
  | _, [] => none
  | lo, x :: r => if wUnit x.word.toNat < lo then some x else outOfOrder (x.top + 1) r

/-- Whether a syllable is a block instruction (R197), or a repeat prefix (R191), by its OP. -/
def isBlock (w : W32) : Bool := wUnit w.toNat == 2 && decide (14 ≤ wOp w.toNat) && decide (wOp w.toNat ≤ 17)
def isPrefix (w : W32) : Bool := wUnit w.toNat == 0 && wOp w.toNat == 24

/-- The checks of R147 over the whole bundle, then that of R197. -/
def bundleFault (ws : List W32) (l : List Slot) : Option (Nat × Slot) :=
  match outOfOrder 0 l with
  | some x => some (1, x)
  | none =>
    if ws.length = 4 ∧ wStop (ws.getD 3 0) = false then some (2, { pos := 3, word := ws.getD 3 0, li := 0, owns := false })
    else
      match l.find? (fun x => ownsLong x.word && !x.owns) with
      | some x => some (4, x)
      | none =>
        if 1 < l.length then (l.find? (fun x => isBlock x.word)).map (fun x => (3, x)) else none

/-- The first failing check of R145 and R146, in slot order. -/
def slotFault : List Slot → Option (Nat × Nat × Slot)
  | [] => none
  | x :: r =>
    match sylFault x.word with
    | some (code, sub) => some (code, sub, x)
    | none => slotFault r

/-- The encoding cause of a bundle at address `a`, if any (R148, R191). -/
def encodingFault (a : Nat) (ws : List W32) (l : List Slot) : Option Cause :=
  match bundleFault ws l with
  | some (sub, x) => some (sylCause 0x03 sub a x.pos x.word)
  | none =>
    match slotFault l with
    | some (code, sub, x) => some (sylCause code sub a x.pos x.word)
    | none =>
      if l.any (fun x => isPrefix x.word) then
        (l.find? (fun x => !isPrefix x.word)).map (fun x => sylCause 0x04 1 a x.pos x.word)
      else none

/-- The subcode of 0x04 for a syllable that may not stand in a repeat's target (R192). -/
def targetBan (w : W32) : Option Nat :=
  let n := w.toNat
  if wUnit n = 0 then
    match wOp n with
    | 16 => some 2
    | 17 => some 2
    | 18 => some 2
    | 19 => some 2
    | 25 => some 2
    | 30 => some 2
    | 24 => some 3
    | 26 => if bit n 8 && bits n 5 0 == 1 then some 4 else none
    | 28 => if bit n 0 then some 5 else none
    | _ => none
  else if isBlock w then some 5
  else none

/-- The first such syllable. -/
def targetFault (a : Nat) : List Slot → Option Cause
  | [] => none
  | x :: r =>
    match targetBan x.word with
    | some sub => some (sylCause 0x04 sub a x.pos x.word)
    | none => targetFault a r

/-! ### A bundle being attempted -/

/-- A bundle: the core, its address, its words and slots, and what has been delivered to it. -/
structure Bundle where
  n : Nat
  a : Nat
  words : List W32
  slots : List Slot
  deriving DecidableEq, Repr

/-- The bundle that some words at an address make. -/
def mkBundle (n a : Nat) (ws : List W32) : Bundle := { n := n, a := a, words := ws, slots := parse 0 ws }

/-- len(B). -/
def Bundle.len (b : Bundle) : Nat := 4 * b.words.length

/-- A slot's view of the state before the bundle. -/
def Bundle.view (b : Bundle) (s : State) (x : Slot) : View :=
  { pre := s, n := b.n, a := b.a, len := b.len, pos := x.pos, word := x.word }

/-- The executing slots in a state. -/
def Bundle.live (b : Bundle) (s : State) : List Slot := executing (curRegs s b.n) b.slots

/-- What an attempt to execute a bundle comes to: it commits; it is held; it raises a cause; or its WAIT blocks the context. -/
inductive Out where
  | done (s : State)
  | hold (s : State) (h : Held)
  | fault (s : State) (c : Cause)
  | block (s : State)
  deriving DecidableEq, Repr

/-- A bundle newly started. -/
def freshHeld (ws : List W32) : Held :=
  { words := ws, why := .stores, fills := [], walks := [], begun := false, done := 0, sync := [], answer := none, target := []
    opnds := [], lazyDone := 0, unitOut := false, longOk := false, sigBytes := [] }

/-! ### Interlocks (R184, R186) -/

/-- The registers that a mask selects, lowest first (R200). -/
def maskRegs (m : Nat) : List Nat := (upTo 32).filter (fun i => bit m i)

/-- The registers that an executing syllable names; of STM and LDM only those that their mask selects, rs1 and rs2 (R184). -/
def namedRegs (v : View) (i : Instr) : List Nat :=
  match i with
  | .stm _ rs1 rs2 => rs1.toNat :: rs2.toNat :: maskRegs (v.x rs2)
  | .ldm _ rs1 rs2 => rs1.toNat :: rs2.toNat :: maskRegs (v.x rs2)
  | j => regsOf j

/-- Whether an executing syllable names a register that a long operation owes. -/
def owed (s : State) (b : Bundle) : Bool :=
  (b.live s).any (fun x =>
    (namedRegs (b.view s x) (x.instr b.n)).any (fun r => (core s b.n).longs.any (fun op => op.dest != .null && op.dest == regIdOf s b.n r)))

/-- The executing LONG syllable of a bundle. -/
def longIn (s : State) (b : Bundle) : Option LongReq := (b.live s).findSome? (fun x => longOf (b.view s x) (x.instr b.n))

/-- Whether the long-operation unit holds the bundle in D. -/
def longHold (s : State) (b : Bundle) : Bool :=
  owed s b || ((longIn s b).isSome && decide (4 ≤ (core s b.n).longs.length))

/-! ### Privilege and windows (ranks 5 and 6) -/

/-- The ring-0 instructions (R144). -/
def privileged (i : Instr) : Bool :=
  match i with
  | .mfs _ _ _ => true
  | .mts _ _ _ => true
  | .eret _ => true
  | .tlbinv _ _ => true
  | .tlbsync _ => true
  | _ => false

/-- The privilege check: 0x05, then 0x12/0x0C. -/
def privChk (s : State) (b : Bundle) : SylChk :=
  match (b.live s).find? (fun x => privileged (x.instr b.n)) with
  | none => .pass
  | some x =>
    if stRING (status s b.n) ≠ 0 then .fault (sylCause 0x05 0 b.a x.pos x.word)
    else if !hasPerm (pcc s b.n) pSYSREG then .fault (sylCause 0x12 0x0C b.a x.pos x.word)
    else .pass

/-- Whether an instruction makes the window check of a call (`some true`) or of a return. -/
def windowKind (i : Instr) : Option Bool :=
  match i with
  | .call _ _ => some true
  | .callr _ _ => some true
  | .callg _ _ => some true
  | .ret _ => some false
  | .retg _ _ => some false
  | _ => none

/-- The window check (R157, R159, R235, R236). -/
def windowChk (s : State) (b : Bundle) : SylChk :=
  let w := (curRegs s b.n).winctl
  let st := status s b.n
  match (b.live s).findSome? (fun x => windowKind (x.instr b.n)) with
  | none => .pass
  | some up =>
    if up && (stEXL st || winOcc w == 7) then .fault (mkCause 0x30 0 0 w.toNat)
    else if !up && (stEXL st || decide (winOcc w ≤ 1)) then .fault (mkCause 0x31 0 0 w.toNat)
    else .pass

/-! ### The checks of each syllable (rank 7) -/

/-- The checks of one executing syllable, block instructions apart. -/
def sylChk (v : View) (h : Held) (i : Instr) : SylChk :=
  match loadForm i, storeForm i with
  | some q, _ => loadChk v h q
  | none, some q => storeChk v h q
  | none, none =>
    match i with
    | .jmp _ rs1 => v.targetChk rs1
    | .callr _ rs1 => v.targetChk rs1
    | .ret _ => v.targetChk 15
    | .callg _ rs1 => callgChk v rs1
    | .retg _ rs1 => retgChk v rs1
    | .eret _ => eretChk v h
    | .trap _ code => .fault (mkCause 0x70 code.toNat (v.a + v.len) 0)
    | .brk _ _ => .fault (mkCause 0x71 0 (v.a + v.len) 0)
    | .qput _ _ rs1 rs2 => qputChk v rs1 rs2
    | .qget _ _ rs1 rs2 => qgetChk v rs1 rs2
    | .qputm _ rd rs1 rs2 => qputmChk v rd rs1 rs2
    | .icinv _ rs1 => icinvChk v h rs1
    | j => capChk v j

/-- The checks of the executing syllables in slot order. -/
def slotChks (s : State) (b : Bundle) (h : Held) : List Slot → SylChk
  | [] => .pass
  | x :: r =>
    match sylChk (b.view s x) h (x.instr b.n) with
    | .pass => slotChks s b h r
    | c => c

/-- The precise error of a long operation under PRECLONG (R186): the bundle waits for the operation to finish. R271 does not rank the
precise form: it is raised before the checks of ranks 5 to 7 (DESIGN CHOICE, assumption 140). -/
def precChk (s : State) (b : Bundle) (h : Held) : SylChk :=
  match longIn s b with
  | none => .pass
  | some q =>
    if stPRECLONG (status s b.n) then
      if !h.longOk then .hold .longs
      else
        match q.result with
        | some _ => .pass
        | none =>
          .fault { mkCause 0x48 1 0 (q.rd.toNat + q.fn * 32) with lopc := BitVec.ofNat 64 b.a }
    else .pass

/-- Checks made one after another. -/
def seqChk : List SylChk → SylChk
  | [] => .pass
  | .pass :: r => seqChk r
  | c :: _ => c

/-- Ranks 5 to 7 of R271, after the interlocks of D. -/
def bundleChk (s : State) (b : Bundle) (h : Held) : SylChk :=
  seqChk [if longHold s b then .hold .longs else .pass, precChk s b h, privChk s b, windowChk s b, slotChks s b h (b.live s)]

/-! ### The lazy save (rank 8) -/

/-- The first executing syllable that touches the lazy-save state while LAZYP = 1 with EXL = 1. -/
def lazySlot (s : State) (b : Bundle) : Option Slot :=
  if stLAZYP (status s b.n) && stEXL (status s b.n) then (b.live s).find? (fun x => touchesSig x.word) else none

/-- LAZYP cleared. -/
def clearLazyp (s : State) (n : Nat) : State :=
  let st := status s n
  setStatus s n (mkStatus false (stPRECLONG st) (stSYNCST st) (stDFL st) (stEXL st) (stRING st) (stIE st))

/-- What has become of a group of stores under SYNCST: all complete with OK, one failed (its number and the subcode of 0x58), or
some still to complete. -/
inductive SyncRes where
  | ok
  | failed (k sub : Nat)
  | waiting
  deriving DecidableEq, Repr

/-- What has become of a group: of two failed halves of a split store the first is reported (R222 names "the failing half";
DESIGN CHOICE, assumption 141). -/
def syncRes (count : Nat) (l : List (Nat × Nat)) : SyncRes :=
  if l.length < count then .waiting
  else
    match (upTo count).find? (fun k => l.any (fun p => p.1 == k && p.2 != 0)) with
    | some k =>
      match l.find? (fun p => p.1 == k) with
      | some p => .failed k p.2
      | none => .ok
    | none => .ok

/-- The precise report of a failed store (R222). -/
def syncCause (l : List StoreReq) (k sub : Nat) : Cause :=
  match l[k]? with
  | some q => mkCause 0x58 sub q.va (q.pa % 2 ^ 40)
  | none => mkCause 0x58 sub 0 0

/-- What the lazy save comes to: none needed, made, or to be continued. -/
inductive Lazy where
  | none
  | saved (s : State)
  | out (o : Out)
  deriving DecidableEq, Repr

/-- The walks that let the checks of stores already in the buffer pass again. -/
def passedWalks (s : State) (n : Nat) (l : List StoreReq) : List WalkDone :=
  l.map (fun q =>
    { va := q.va % 2 ^ 48, space := (curRegs s n).space.toNat
      res := .leaf { identityLeaf s 0 with frame := alignDown q.pa 4096, size := 12, se := q.se, tw := q.tw } })

/-- Stores under SYNCST enter the empty buffer and are sent at once (R222). -/
def sendStores (n : Nat) (l : List StoreReq) (s : State) : State := sendEntries n l.length (enterStores n l s)

/-- The lazy save under SYNCST: its stores one after another, each held as R222 lays down. -/
def lazySync (s : State) (b : Bundle) (h : Held) (l : List (List StoreReq)) : Lazy :=
  let send (k : Nat) (g : List StoreReq) : Lazy :=
    .out (.hold (sendStores b.n g s)
      { h with why := .stores, begun := true, unitOut := true, sync := [], lazyDone := k, walks := passedWalks s b.n l.flatten ++ h.walks })
  match l[h.lazyDone]? with
  | none => .saved (clearLazyp s b.n)
  | some g =>
    if !h.unitOut then
      if (core s b.n).sb.isEmpty then send h.lazyDone g else .out (.hold s { h with why := .stores })
    else
      match syncRes g.length h.sync with
      | .waiting => .out (.hold s { h with why := .stores })
      | .failed k st => .out (.fault s (syncCause g k st))
      | .ok =>
        match l[h.lazyDone + 1]? with
        | none => .saved (clearLazyp s b.n)
        | some g2 => send (h.lazyDone + 1) g2

/-- Groups of stores entered one after another while the buffer has room, and how many have been. -/
def enterGroups (n : Nat) : List (List StoreReq) → State → State × Nat
  | [], s => (s, 0)
  | g :: r, s =>
    if bufferFull s n g then (s, 0)
    else
      match enterGroups n r (enterStores n g s) with
      | (s1, k) => (s1, k + 1)

/-- The lazy save without SYNCST: its stores enter the buffer in turn, each as soon as it has room (R216). -/
def lazyAsync (s : State) (b : Bundle) (h : Held) (l : List (List StoreReq)) : Lazy :=
  match enterGroups b.n (l.drop h.lazyDone) s with
  | (s1, k) =>
    if l.length ≤ h.lazyDone + k then .saved (clearLazyp s1 b.n)
    else
      .out (.hold s1
        { h with
          why := .stores, begun := h.begun || decide (0 < k), lazyDone := h.lazyDone + k
          walks := if h.begun || decide (0 < k) then passedWalks s b.n l.flatten ++ h.walks else h.walks })

/-- The lazy save (R261, R274): every check of its twelve stores, made before the first of them, then the stores. -/
def lazyStep (s : State) (b : Bundle) (h : Held) : Lazy :=
  match lazySlot s b with
  | none => .none
  | some x =>
    if stDFL (status s b.n) then .out (.fault s (sspCause 6))
    else
      match (if h.begun then SylChk.pass else lazyChk s b.n h.walks .store x.pos (upTo 12)) with
      | .fault c => .out (.fault s c)
      | .hold w => .out (.hold s { h with why := w })
      | .pass =>
        if stSYNCST (status s b.n) then
          lazySync s b h ((lazyStores s b.n h.walks).map (fun g => (g.zipIdx).map (fun p => { p.1 with sync := some p.2 })))
        else lazyAsync s b h (lazyStores s b.n h.walks)

/-! ### Barriers (R87, R172, R221, R228, R298) and rank 9 -/

/-- What a barrier in the bundle waits for, and the report that SBAR makes. -/
def barrierChk (s : State) (n : Nat) (i : Instr) : SylChk :=
  let c := core s n
  match i with
  | .mbar _ => if c.sb.isEmpty then .pass else .hold .stores
  | .sbar _ =>
    if !c.sb.isEmpty then .hold .stores
    else if stEXL (status s n) then .pass
    else
      match (curRegs s n).late with
      | some r => .fault (lateCause r false)
      | none => .pass
  | .lbar _ => if c.longs.isEmpty then .pass else .hold .longs
  | .ibar _ => if c.icinvWait = 0 then .pass else .hold .icinv
  | .tlbsync _ => if c.tlbWait = 0 then .pass else .hold .tlbsync
  | _ => .pass

/-- The barriers of the executing syllables (at most one: they stand in U2). -/
def barriers (s : State) (n : Nat) : List Slot → SylChk
  | [] => .pass
  | x :: r =>
    match barrierChk s n (x.instr n) with
    | .pass => barriers s n r
    | c => c

/-! ### Commit -/

/-- The store of a bundle: the entries it asks for (U2 holds at most one). -/
def bundleStores (s : State) (b : Bundle) (h : Held) : List StoreReq :=
  ((b.live s).map (fun x =>
    match storeForm (x.instr b.n) with
    | some q => storeOf (b.view s x) h q (stSYNCST (status s b.n))
    | none => [])).flatten

/-- Whether an instruction is performed only after every earlier load and store (R88): loads of SE pages wait in their own check. -/
def isPut (i : Instr) : Bool :=
  match i with
  | .qput _ _ _ _ => true
  | .qputm _ _ _ _ => true
  | _ => false

/-- The timeout that an executing WAITT arms (R315). -/
def waitArm (pre : State) (b : Bundle) : List Slot → State → State
  | [], s => s
  | x :: r, s =>
    match x.instr b.n, curCtx pre b.n with
    | .waitt _ _ rs1 rs2, some k => armTimeout s k ((b.view pre x).x rs1) ((b.view pre x).x rs2)
    | _, _ => waitArm pre b r s

/-- Whether an instruction is WAIT or WAITT. -/
def isWait (i : Instr) : Bool :=
  match i with
  | .wait _ _ => true
  | .waitt _ _ _ _ => true
  | _ => false

/-- An executing WAIT or WAITT that blocks its context, and the state it then leaves (R315). -/
def waitStep (s : State) (b : Bundle) : Option State :=
  match (b.live s).any (fun x => isWait (x.instr b.n)), curCtx s b.n with
  | true, some k =>
    let s1 := waitArm s b (b.live s) s
    if waitBlocks s1 k (status s b.n) then some (blockCtx s1 b.n k) else none
  | _, _ => none

/-- Whether a load's data must come from the field die (R420). -/
def fieldLoad (v : View) (h : Held) (i : Instr) : Bool :=
  match loadForm i with
  | some q =>
    match loadAccess v h q with
    | .go ps => h.answer.isNone && q.len == 4 && ps.any (fun p => inFieldPart v.pre p.pa)
    | _ => false
  | none => false

/-- The access of an executing syllable performed at commit: the state after it and the register writes it owes, or poison. -/
def performSyl (v : View) (h : Held) (i : Instr) (s : State) : State × (Cause ⊕ List (RegId × CapW)) :=
  match loadForm i with
  | some q =>
    match h.answer with
    | some x => (s, .inr [(regIdOf v.pre v.n q.rd.toNat, loadResult q (v.c q.cs) false ⟨BitVec.ofNat 128 x.toNat, false⟩)])
    | none => performLoad v h q s
  | none =>
    match i with
    | .qput _ rd rs1 rs2 =>
      match performQput v rd rs1 rs2 s with
      | (s1, l) => (s1, .inr l)
    | .qget _ rd rs1 rs2 =>
      match performQget v rd rs1 rs2 s with
      | (s1, l) => (s1, .inr l)
    | .qputm _ rd rs1 rs2 =>
      match performQputm v rd rs1 rs2 s with
      | (s1, l) => (s1, .inr l)
    | _ => (s, .inr [])

/-- The accesses of the executing syllables. -/
def performAll (b : Bundle) (pre : State) (h : Held) : List Slot → State → State × (Cause ⊕ List (RegId × CapW))
  | [], s => (s, .inr [])
  | x :: r, s =>
    match performSyl (b.view pre x) h (x.instr b.n) s with
    | (s1, .inl c) => (s1, .inl c)
    | (s1, .inr l) =>
      match performAll b pre h r s1 with
      | (s2, .inl c) => (s2, .inl c)
      | (s2, .inr l2) => (s2, .inr (l ++ l2))

/-- The effect on registers of an executing syllable that is no long operation (R130). -/
def applyInstr (v : View) (h : Held) (i : Instr) (s : State) : State :=
  match i with
  | .nop _ => s
  | .add _ rd rs1 rs2 => doAdd v rd rs1 rs2 s
  | .sub _ rd rs1 rs2 => doSub v rd rs1 rs2 s
  | .and _ rd rs1 rs2 => doAnd v rd rs1 rs2 s
  | .or _ rd rs1 rs2 => doOr v rd rs1 rs2 s
  | .xor _ rd rs1 rs2 => doXor v rd rs1 rs2 s
  | .andn _ rd rs1 rs2 => doAndn v rd rs1 rs2 s
  | .sll _ rd rs1 rs2 => doSll v rd rs1 rs2 s
  | .srl _ rd rs1 rs2 => doSrl v rd rs1 rs2 s
  | .sra _ rd rs1 rs2 => doSra v rd rs1 rs2 s
  | .rol _ rd rs1 rs2 => doRol v rd rs1 rs2 s
  | .min _ rd rs1 rs2 => doMin v rd rs1 rs2 s
  | .max _ rd rs1 rs2 => doMax v rd rs1 rs2 s
  | .minu _ rd rs1 rs2 => doMinu v rd rs1 rs2 s
  | .maxu _ rd rs1 rs2 => doMaxu v rd rs1 rs2 s
  | .pack _ rd rs1 rs2 => doPack v rd rs1 rs2 s
  | .addi _ rd rs1 imm => doAddi v rd rs1 imm s
  | .andi _ rd rs1 imm => doAndi v rd rs1 imm s
  | .ori _ rd rs1 imm => doOri v rd rs1 imm s
  | .xori _ rd rs1 imm => doXori v rd rs1 imm s
  | .shi _ rd rs1 kind amount => doShi v rd rs1 kind amount s
  | .cmp _ fn pd rs1 rs2 => doCmp v fn pd rs1 rs2 s
  | .cmpi _ pd rs1 imm => doCmpi v pd rs1 imm s
  | .plog _ fn pd ps1 ps2 => doPlog v fn pd ps1 ps2 s
  | .br _ disp => doBr v disp s
  | .call _ disp => doCall v disp s
  | .jmp _ rs1 => doJmp v rs1 s
  | .callr _ rs1 => doCallr v rs1 s
  | .ret _ => doRet v s
  | .callg _ rs1 => doCallg v rs1 s
  | .retg _ rs1 => doRetg v rs1 s
  | .eret _ => doEret v s
  | .rep _ => s
  | .repn _ _ => s
  | .trap _ _ => s
  | .brk _ _ => s
  | .mfu _ rd u => doMfu v rd u s
  | .mtu _ rs1 u => doMtu v rs1 u s
  | .mfs _ rd sys => doMfs v rd sys s
  | .mts _ rs1 sys => doMts v rs1 sys s
  | .wait _ rd => doWait v rd s
  | .yield _ => doYield v s
  | .waitt _ rd _ _ => doWait v rd s
  | .mul _ rd rs1 rs2 => doMul v rd rs1 rs2 s
  | .mulh _ rd rs1 rs2 => doMulh v rd rs1 rs2 s
  | .mulhu _ rd rs1 rs2 => doMulhu v rd rs1 rs2 s
  | .mulhsu _ rd rs1 rs2 => doMulhsu v rd rs1 rs2 s
  | .clz _ rd rs1 => doClz v rd rs1 s
  | .ctz _ rd rs1 => doCtz v rd rs1 s
  | .popc _ rd rs1 => doPopc v rd rs1 s
  | .bswap _ rd rs1 => doBswap v rd rs1 s
  | .sextb _ rd rs1 => doSextb v rd rs1 s
  | .sexth _ rd rs1 => doSexth v rd rs1 s
  | .sextw _ rd rs1 => doSextw v rd rs1 s
  | .zextb _ rd rs1 => doZextb v rd rs1 s
  | .zexth _ rd rs1 => doZexth v rd rs1 s
  | .zextw _ rd rs1 => doZextw v rd rs1 s
  | .ldb _ _ cs am => postUpdate v cs am 1 s
  | .ldbu _ _ cs am => postUpdate v cs am 1 s
  | .ldh _ _ cs am => postUpdate v cs am 2 s
  | .ldhu _ _ cs am => postUpdate v cs am 2 s
  | .ldw _ _ cs am => postUpdate v cs am 4 s
  | .ldwu _ _ cs am => postUpdate v cs am 4 s
  | .ldd _ _ cs am => postUpdate v cs am 8 s
  | .ldc _ _ cs am => postUpdate v cs am 16 s
  | .stb _ _ cs am => postUpdate v cs am 1 s
  | .sth _ _ cs am => postUpdate v cs am 2 s
  | .stw _ _ cs am => postUpdate v cs am 4 s
  | .std _ _ cs am => postUpdate v cs am 8 s
  | .stc _ _ cs am => postUpdate v cs am 16 s
  | .stm _ _ _ => s
  | .ldm _ _ _ => s
  | .crcblk _ _ _ _ => s
  | .mcopy _ _ _ _ => s
  | .kmov _ rd rs1 => doKmov v rd rs1 s
  | .kdrop _ rd rs1 => doKdrop v rd rs1 s
  | .kpoint _ rd rs1 rs2 => doKpoint v rd rs1 rs2 s
  | .kstep _ rd rs1 rs2 => doKstep v rd rs1 rs2 s
  | .kstepi _ rd rs1 imm => doKstepi v rd rs1 imm s
  | .ktrim _ rd rs1 rs2 => doKtrim v rd rs1 rs2 s
  | .kclip _ rd rs1 rs2 => doKclip v rd rs1 rs2 s
  | .kclips _ rd rs1 rs2 => doKclips v rd rs1 rs2 s
  | .kwrap _ rd rs1 rs2 => doKwrap v rd rs1 rs2 s
  | .kunwrap _ rd rs1 rs2 => doKunwrap v rd rs1 rs2 s
  | .krcur _ rd rs1 => doKread v 0 rd rs1 s
  | .krbase _ rd rs1 => doKread v 1 rd rs1 s
  | .krlen _ rd rs1 => doKread v 2 rd rs1 s
  | .krperm _ rd rs1 => doKread v 3 rd rs1 s
  | .krtype _ rd rs1 => doKread v 4 rd rs1 s
  | .krtag _ rd rs1 => doKread v 5 rd rs1 s
  | .qput _ _ _ _ => s
  | .qget _ _ _ _ => s
  | .qputm _ _ _ _ => s
  | .mbar _ => s
  | .sbar _ => s
  | .lbar _ => s
  | .ibar _ => flushFetch s v.n
  | .icinv _ rs1 => doIcinv v h rs1 s
  | .tlbinv _ rs1 => doTlbinv v rs1 s
  | .tlbsync _ => s
  | .macs _ ad rs1 rs2 => doMacs v ad rs1 rs2 s
  | .macu _ ad rs1 rs2 => doMacu v ad rs1 rs2 s
  | .msus _ ad rs1 rs2 => doMsus v ad rs1 rs2 s
  | .msuu _ ad rs1 rs2 => doMsuu v ad rs1 rs2 s
  | .muls _ ad rs1 rs2 => doMuls v ad rs1 rs2 s
  | .mulu _ ad rs1 rs2 => doMulu v ad rs1 rs2 s
  | .aclr _ ad => doAclr v ad s
  | .rdacc _ rd ad rs2 => doRdacc v rd ad rs2 s
  | .wracc _ ad rs1 => doWracc v ad rs1 s
  | .ashr _ ad rs2 => doAshr v ad rs2 s
  | .crcstep _ size rd rs1 rs2 => doCrcstep v size rd rs1 rs2 s
  | .parity _ rd rs1 => doParity v rd rs1 s
  | .bitrev _ rd rs1 rs2 => doBitrev v rd rs1 rs2 s
  | .fadd _ rd rs1 rs2 => doFadd v rd rs1 rs2 s
  | .fsub _ rd rs1 rs2 => doFsub v rd rs1 rs2 s
  | .fmul _ rd rs1 rs2 => doFmul v rd rs1 rs2 s
  | .fmadd _ rd rs1 rs2 => doFmadd v rd rs1 rs2 s
  | .fmin _ rd rs1 rs2 => doFmin v rd rs1 rs2 s
  | .fmax _ rd rs1 rs2 => doFmax v rd rs1 rs2 s
  | .fabs _ rd rs1 => doFabs v rd rs1 s
  | .fneg _ rd rs1 => doFneg v rd rs1 s
  | .fcvtws _ rd rs1 => doFcvtws v rd rs1 s
  | .fcvtsw _ rd rs1 => doFcvtsw v rd rs1 s
  | .feq _ pd rs1 rs2 => doFeq v pd rs1 rs2 s
  | .flt _ pd rs1 rs2 => doFlt v pd rs1 rs2 s
  | .fle _ pd rs1 rs2 => doFle v pd rs1 rs2 s
  | .funord _ pd rs1 rs2 => doFunord v pd rs1 rs2 s
  | _ => s

/-- The effect of an executing syllable on registers, with the accesses of loads, stores and queue instructions made beside it. -/
def applySyl (v : View) (h : Held) (i : Instr) (s : State) : State :=
  match longOf v i with
  | some q => doLong v q s
  | none => applyInstr v h i s

/-- The effects of the executing syllables, in slot order (R130). -/
def applyAll (b : Bundle) (pre : State) (h : Held) : List Slot → State → State
  | [], s => s
  | x :: r, s => applyAll b pre h r (applySyl (b.view pre x) h (x.instr b.n) s)

/-- The bundle's address passed: the fetch buffer gives up its head, and the PCC moves on (not in a repeat). -/
def passBundle (s : State) (b : Bundle) (adv : Bool) : State :=
  if adv then
    let s1 := updCore s b.n (fun c =>
      { c with fbuf := match c.fbuf with
        | f :: r => if f.addr.toNat = b.a then r else []
        | [] => [] })
    setPcc s1 b.n (setCursor (pcc s b.n) ((b.a + b.len) % 2 ^ 64))
  else s

/-- Whether an instruction is ERET. -/
def isEret (i : Instr) : Bool :=
  match i with
  | .eret _ => true
  | _ => false

/-- An ERET's reload of the signal-unit state read, unless that has been done (R263): the bytes, none when there is no reload. -/
def reload (s : State) (b : Bundle) (h : Held) : State × (Cause ⊕ List Byte) :=
  if (b.live s).any (fun x => isEret (x.instr b.n)) && eretReloads (status s b.n) && h.sigBytes.isEmpty then
    match reloadBytes b.n (lazyPieces s b.n h.walks .load (upTo 12)) s with
    | (s1, _, some c) => (s1, .inl c)
    | (s1, l, none) => (s1, .inr l)
  else (s, .inr h.sigBytes)

/-- The bundle commits: late loads of the bundle before are written, the PCC moves, the syllables take effect, a WAITT's timeout is
armed, a reload is written, and what its own loads and queue operations owe becomes late (R130, R208, R263, R315). -/
def commit (s pre : State) (b : Bundle) (h : Held) (adv : Bool) (owes : List (RegId × CapW)) : State :=
  let s1 := waitArm pre b (b.live pre) (passBundle (applyLate s b.n) b adv)
  let s2 := if h.sigBytes.isEmpty then s1 else updSig s1 b.n (fun _ => bytesSig h.sigBytes)
  let s3 := applyAll b pre h (b.live pre) s2
  updCore s3 b.n (fun c => { c with late := owes, held := none })

/-- What holds a bundle that is about to take effect: room for its stores, and earlier stores (R88, R216, R222). -/
def storesHold (s : State) (b : Bundle) (h : Held) (sts : List StoreReq) (sync : Bool) : Bool :=
  if h.begun then false
  else if sync then !(core s b.n).sb.isEmpty
  else bufferFull s b.n sts || ((b.live s).any (fun x => isPut (x.instr b.n)) && !(core s b.n).sb.isEmpty)

/-- The effects of a bundle that nothing stops any more: its accesses, its stores and the commit. A poisoned access stops it with
nothing done. -/
def finishEffects (s pre : State) (b : Bundle) (h : Held) (adv : Bool) (sts : List StoreReq) (sync : Bool) : Out :=
  match performAll b pre h (b.live pre) s with
  | (s1, .inl c) => .fault s1 c
  | (s1, .inr owes) =>
    if sync || sts.isEmpty then .done (commit s1 pre b h adv owes)
    else .done (commit (enterStores b.n sts (if adv then fetchBehind s1 b.n [(b.a, b.words)] else s1)) pre b h adv owes)

/-- The last part of an attempt: what holds the bundle, WAIT's block, an ERET's reload, a load that the field die answers, stores under
SYNCST, and the effects. Nothing that cannot be repeated is done before all that can stop the bundle has been met. -/
def finishBundle (s : State) (b : Bundle) (h : Held) (adv : Bool) : Out :=
  let sts := bundleStores s b h
  let sync := stSYNCST (status s b.n) && !sts.isEmpty
  if storesHold s b h sts sync then .hold s { h with why := .stores }
  else
    match (if h.begun then none else waitStep s b) with
    | some s1 => .block s1
    | none =>
      match reload s b h with
      | (s1, .inl c) => .fault s1 c
      | (s1, .inr l) =>
        let h1 := { h with sigBytes := l, begun := h.begun || !l.isEmpty }
        if (b.live s).any (fun x => fieldLoad (b.view s x) h (x.instr b.n)) then .hold s1 { h1 with why := .field }
        else if sync && !h.unitOut then
          .hold (sendStores b.n sts (if adv then fetchBehind s1 b.n [(b.a, b.words)] else s1))
            { h1 with why := .stores, begun := true, unitOut := true, sync := [], walks := passedWalks s b.n sts ++ h.walks }
        else
          match (if sync then syncRes sts.length h.sync else .ok) with
          | .waiting => .hold s1 { h1 with why := .stores }
          | .failed k st => .fault s1 (syncCause sts k st)
          | .ok => finishEffects s1 s b h1 adv sts sync

/-- The barriers of a bundle (rank 9), and its last part. -/
def attemptRest (s : State) (b : Bundle) (h : Held) (adv : Bool) : Out :=
  match barriers s b.n (b.live s) with
  | .fault c => .fault s c
  | .hold w => .hold s { h with why := w }
  | .pass => finishBundle s b h adv

/-- An attempt to execute a bundle that has passed its fetch and encoding checks: ranks 5 to 9 of R271. A lazy save made on the
way changes the state, and the bundle's own checks are then made again in it. -/
def attempt (s : State) (b : Bundle) (h : Held) (adv : Bool) : Out :=
  match bundleChk s b h with
  | .fault c => .fault s c
  | .hold w => .hold s { h with why := w }
  | .pass =>
    match lazyStep s b h with
    | .out o => o
    | .none => attemptRest s b h adv
    | .saved s1 =>
      let h1 := { h with begun := false, unitOut := false, sync := [], lazyDone := 0 }
      match bundleChk s1 b h1 with
      | .fault c => .fault s1 c
      | .hold w => .hold s1 { h1 with why := w }
      | .pass => attemptRest s1 b h1 adv

end Sys2Proof.Machine
end

