-- ==== Sys2Proof/Machine/Block.lean ====
section
/-! DEFINITION. The block instructions STM, LDM, CRCBLK and MCOPY (R51, R196–R203): their start and progress in PROG, their units
one after another, the granules of MCOPY, and their stop for an event, a halt or a fault. -/

namespace Sys2Proof.Machine

/-! ### PROG (R196, R198) -/

/-- The word of PROG that records `done` units of an operation of KIND `kind` at address `a`. -/
def progWord (kind a done : Nat) : W64 := BitVec.ofNat 64 (2 ^ 63 + kind * 2 ^ 60 + bits a 17 2 * 2 ^ 44 + done % 2 ^ 44)

/-- The unit at which an operation starts. -/
def progStart (p : W64) (kind a : Nat) : Nat :=
  if bit p.toNat 63 && bits p.toNat 62 60 == kind && bits p.toNat 59 44 == bits a 17 2 then bits p.toNat 43 0 else 0

/-- PROG of the current context set. -/
def setProg (s : State) (n : Nat) (w : W64) : State := updRegs s n (fun r => { r with prog := w })

/-! ### The instructions -/

/-- A block instruction: its KIND of PROG and its registers. -/
structure BlockReq where
  kind : Nat
  rd : CReg
  rs1 : CReg
  rs2 : CReg
  deriving DecidableEq, Repr

def blockReq (i : Instr) : Option BlockReq :=
  match i with
  | .stm _ rs1 rs2 => some ⟨1, 0, rs1, rs2⟩
  | .ldm _ rs1 rs2 => some ⟨2, 0, rs1, rs2⟩
  | .crcblk _ rd rs1 rs2 => some ⟨3, rd, rs1, rs2⟩
  | .mcopy _ rd rs1 rs2 => some ⟨4, rd, rs1, rs2⟩
  | _ => none

/-- A block instruction at work: the bundle, its slot and the request. -/
structure BlockRun where
  b : Bundle
  x : Slot
  q : BlockReq
  deriving DecidableEq, Repr

/-- The operands a block instruction read when it started. -/
def Held.opnd (h : Held) (k : Nat) : CapW := h.opnds.getD k nullW

/-- The registers that an STM or LDM moves. -/
def Held.regs (h : Held) : List Nat := maskRegs (capCursor (h.opnd 1) % 2 ^ 32)

/-- The granules of an MCOPY of `y` bytes to `a` (R202). -/
def granCount (a y : Nat) : Nat := if y = 0 then 0 else (a + y - 1) / 64 - a / 64 + 1

/-- The unit count of an instruction. -/
def unitCount (q : BlockReq) (h : Held) : Nat :=
  match q.kind with
  | 3 => capCursor (h.opnd 1)
  | 4 => granCount (capCursor (h.opnd 0)) (capCursor (h.opnd 2))
  | _ => h.regs.length

/-- What a unit comes to: performed, held, or a cause. -/
inductive UnitRes where
  | next (s : State) (h : Held)
  | stay (s : State) (h : Held)
  | bad (s : State) (c : Cause)
  deriving DecidableEq, Repr

/-- A unit that its checks stop. -/
def unitChk (s : State) (h : Held) (c : SylChk) : UnitRes :=
  match c with
  | .pass => .next s h
  | .fault f => .bad s f
  | .hold w => .stay s { h with why := w }

/-- The unit is performed; a line of it that was not entered into the L1 is missed again by the next (R213). -/
def Held.advance (h : Held) (k : Nat) : Held := { h with done := h.done + k, begun := true, unitOut := false, sync := [], fills := [] }

/-! ### STM -/

/-- The STORECAP and STORELOCAL checks of a stored value (R31). -/
def storeCapFault (c w : CapW) : Option (Nat × Nat) :=
  if w.tag then
    if !hasPerm c pSTORECAP then some (0x12, 4)
    else if !hasPerm w pGLOBAL && !hasPerm c pSTORELOCAL then some (0x12, 5)
    else none
  else none

/-- The address of unit `j` of an STM or LDM. -/
def Held.unitAddr (h : Held) (j : Nat) : Nat := (capCursor (h.opnd 0) + 16 * j) % 2 ^ 64

/-- The stores of a unit: entered, or under SYNCST performed one unit at a time (R216, R222). -/
def storeUnit (s : State) (n : Nat) (h : Held) (l : List StoreReq) (sync : Bool) : UnitRes :=
  if !sync then
    if bufferFull s n l then .stay s { h with why := .stores } else .next (enterStores n l s) (h.advance 1)
  else if !h.unitOut then
    if (core s n).sb.isEmpty then
      .stay (sendStores n l s) { h with why := .stores, unitOut := true, sync := [], walks := passedWalks s n l ++ h.walks }
    else .stay s { h with why := .stores }
  else
    match syncRes l.length h.sync with
    | .waiting => .stay s { h with why := .stores }
    | .failed k st => .bad s (syncCause l k st)
    | .ok => .next s (h.advance 1)

/-- A unit of STM (R200). -/
def stmUnit (r : BlockRun) (s : State) (h : Held) : UnitRes :=
  let v := r.b.view s r.x
  let cs := h.opnd 0
  let i := h.regs.getD h.done 0
  let a := h.unitAddr h.done
  let w := readC s r.b.n i
  match (match storeCapFault cs w with
    | some f => Access.fault f.1 f.2 a false 0
    | none => checkHalf s r.b.n h.walks v.space v.ring cs .capstore (some w) false false a 16) with
  | .go ps => storeUnit s r.b.n h (storeReqs w.tag true (stSYNCST v.st) 0 ps (leBytes 16 w.bits.toNat)) (stSYNCST v.st)
  | f => unitChk s h (accessChk f r.x.pos true 4 3 i r.q.rs1.toNat)

/-! ### LDM -/

/-- The access of unit `j` of LDM. -/
def ldmAccess (r : BlockRun) (s : State) (h : Held) (j : Nat) : Access :=
  checkHalf s r.b.n h.walks (r.b.view s r.x).space (r.b.view s r.x).ring (h.opnd 0) .capload none false false (h.unitAddr j) 16

/-- The checks of unit `j`, and, if its word is to be loaded now, the wait for it. -/
def ldmChk (r : BlockRun) (s : State) (h : Held) (j : Nat) (ready : Bool) : SylChk :=
  match ldmAccess r s h j with
  | .go ps => if ready then piecesReady (r.b.view s r.x) h ps else .pass
  | f => accessChk f r.x.pos true 4 2 (h.regs.getD j 0) r.q.rs1.toNat

/-- Whether register `i` waits for the last unit. -/
def deferred (q : BlockReq) (i : Nat) : Bool := i == q.rs1.toNat || i == q.rs2.toNat

/-- The units whose words unit `j` loads: its own, unless deferred; and in the last unit the deferred ones. -/
def ldmLoads (q : BlockReq) (h : Held) (j : Nat) : List Nat :=
  (if deferred q (h.regs.getD j 0) then [] else [j]) ++
    (if j + 1 = h.regs.length then (upTo h.regs.length).filter (fun k => deferred q (h.regs.getD k 0)) else [])

/-- The checks of the words a unit loads, in turn. -/
def ldmChks (r : BlockRun) (s : State) (h : Held) : List Nat → SylChk
  | [] => .pass
  | j :: l =>
    match ldmChk r s h j true with
    | .pass => ldmChks r s h l
    | c => c

/-- The words loaded (R34), and the cause of a poisoned one. -/
def ldmWords (r : BlockRun) (h : Held) : List Nat → State → State × List (RegId × CapW) × Option Cause
  | [], s => (s, [], none)
  | j :: l, s =>
    match ldmAccess r s h j with
    | .go ps =>
      match loadPieces r.b.n true ps 0 s with
      | (s1, _, some c) => (s1, [], some c)
      | (s1, w, none) =>
        match ldmWords r h l s1 with
        | (s2, ws, c) =>
          (s2, (regIdOf s r.b.n (h.regs.getD j 0),
            { w with tag := w.tag && hasPerm (h.opnd 0) pLOADCAP && ps.all (fun p => p.leaf.cl) }) :: ws, c)
    | _ => ldmWords r h l s

/-- A unit of LDM (R200). -/
def ldmUnit (r : BlockRun) (s : State) (h : Held) : UnitRes :=
  let own := deferred r.q (h.regs.getD h.done 0) && decide (h.done + 1 ≠ h.regs.length)
  match (if own then ldmChk r s h h.done false else ldmChks r s h (ldmLoads r.q h h.done)) with
  | .pass =>
    match ldmWords r h (ldmLoads r.q h h.done) s with
    | (s1, _, some c) => .bad s1 c
    | (s1, ws, none) => .next (putRegs r.b.n ws s1) (h.advance 1)
  | c => unitChk s h c

/-! ### CRCBLK -/

/-- Bytes fed into a CRC, eight bits each (R179, R201). -/
def crcBytes (poly : W64) : List Byte → W64 → W64
  | [], c => c
  | b :: r, c => crcBytes poly r (crcFeed poly b.toNat 8 0 c)

/-- A unit of CRCBLK (R201). -/
def crcUnit (r : BlockRun) (s : State) (h : Held) : UnitRes :=
  let v := r.b.view s r.x
  let a := (capCursor (h.opnd 0) + h.done) % 2 ^ 64
  let n := min (16 - a % 16) (capCursor (h.opnd 1) - h.done)
  match checkHalf s r.b.n h.walks v.space v.ring (h.opnd 0) .load none false false a n with
  | .go ps =>
    match piecesReady v h ps with
    | .pass =>
      match loadPieces r.b.n false ps 0 s with
      | (s1, _, some c) => .bad s1 c
      | (s1, w, none) =>
        let crc := crcBytes v.regs.sig.crcpoly (leBytes n w.bits.toNat) (BitVec.ofNat 64 (capCursor (h.opnd 2)))
        .next (v.wi s1 r.q.rd crc.toNat) { h.advance n with opnds := putAt nullW h.opnds 2 (intW crc.toNat) }
    | c => unitChk s h c
  | f => unitChk s h (accessChk f r.x.pos true 4 0 r.q.rd.toNat r.q.rs1.toNat)

/-! ### MCOPY -/

/-- Whether the ranges overlap with the destination above the source. -/
def copyDown (src dst y : Nat) : Bool := decide (src < dst) && decide (dst < src + y)

/-- The destination range of granule `k` in copy order. -/
def granRange (src dst y k : Nat) : Nat × Nat :=
  let blk := if copyDown src dst y then (dst + y - 1) / 64 - k else dst / 64 + k
  (max dst (blk * 64), min (dst + y) (blk * 64 + 64))

/-- The parts of a range within one 4-KiB page each. -/
def pageParts (a n : Nat) : List (Nat × Nat) :=
  if a % 4096 + n ≤ 4096 then [(a, n)] else [(a, 4096 - a % 4096), (a - a % 4096 + 4096, n - (4096 - a % 4096))]

/-- The page check of part of a granule (R202 step 5). -/
def granPage (r : BlockRun) (s : State) (h : Held) (c : CapW) (k : Kind) (creg : Nat) (va : Nat) : SylChk ⊕ Leaf × Nat :=
  match translate s r.b.n h.walks (r.b.view s r.x).space (va % 2 ^ 48) with
  | .need a => .inl (.hold (.walk a false))
  | .fault code sub hi => .inl (.fault (mkCause code sub va (descr r.x.pos true false 7 k.code 0 creg + hi * 2 ^ 32)))
  | .page l pa =>
    match pageCheck s (r.b.view s r.x).ring c k none false l pa with
    | some (code, sub) => .inl (.fault (mkCause code sub va (descr r.x.pos true false 7 k.code 0 creg)))
    | none => .inr (l, pa)

/-- The source parts of a granule checked. -/
def granSrcs (r : BlockRun) (s : State) (h : Held) : List (Nat × Nat) → SylChk ⊕ List GranSrc
  | [] => .inr []
  | (a, n) :: l =>
    match granPage r s h (h.opnd 1) .load (r.q.rs1.toNat + 1) a with
    | .inl c => .inl c
    | .inr (lf, pa) =>
      match granSrcs r s h l with
      | .inl c => .inl c
      | .inr gs => .inr ({ pa := pa, len := n, cl := lf.cl } :: gs)

/-- Granule `k` checked: source pages first, then the destination page (DEDUCED, assumption 37). -/
def granCheck (r : BlockRun) (s : State) (h : Held) : SylChk ⊕ Granule :=
  let src := capCursor (h.opnd 1)
  let dst := capCursor (h.opnd 0)
  let y := capCursor (h.opnd 2)
  let p := granRange src dst y h.done
  match granSrcs r s h (pageParts (src + (p.1 - dst)) (p.2 - p.1)) with
  | .inl c => .inl c
  | .inr gs =>
    match granPage r s h (h.opnd 0) .store r.q.rs1.toNat p.1 with
    | .inl c => .inl c
    | .inr (lf, pa) =>
      .inr { srcs := gs, dst := pa, len := p.2 - p.1
             tags := src % 16 == dst % 16 && hasPerm (h.opnd 1) pLOADCAP && hasPerm (h.opnd 0) pSTORECAP && lf.cs
             local_ := hasPerm (h.opnd 0) pSTORELOCAL, desc := copyDown src dst y, tw := lf.tw }

/-- A granule of MCOPY is checked and issued; up to 8 are in flight, and a fault waits for those in flight (R202, R203). -/
def mcopyUnit (r : BlockRun) (s : State) (h : Held) : UnitRes :=
  if 8 ≤ (core s r.b.n).granules.length then .stay s { h with why := .granules }
  else
    match granCheck r s h with
    | .inr g => .next (updCore s r.b.n (fun c => { c with granules := c.granules ++ [g] })) (h.advance 1)
    | .inl (.fault c) => if (core s r.b.n).granules.isEmpty then .bad s c else .stay s { h with why := .granules }
    | .inl c => unitChk s h c

/-! ### The instruction as a whole -/

/-- One unit. -/
def oneUnit (r : BlockRun) (s : State) (h : Held) : UnitRes :=
  match r.q.kind with
  | 1 => stmUnit r s h
  | 2 => ldmUnit r s h
  | 3 => crcUnit r s h
  | _ => mcopyUnit r s h

/-- PROG recorded with the units performed. -/
def recordProg (r : BlockRun) (s : State) (done : Nat) : State := setProg s r.b.n (progWord r.q.kind r.b.a done)

/-- The instruction stops for a cause (R198). -/
def blockFault (r : BlockRun) (s : State) (h : Held) (c : Cause) : Out :=
  .fault (recordProg r s h.done) { c with progress := true }

/-- The stop at a unit boundary for an event or a halt (R198, R203, R571); `mid` says that a unit is in progress, which ends first (R224). -/
def blockStop (r : BlockRun) (s : State) (h : Held) (mid : Bool) : Option Out :=
  if !h.begun || mid then none
  else if (core s r.b.n).haltReq then
    some (if (core s r.b.n).granules.isEmpty then .block (haltNow (recordProg r s h.done) r.b.n) else .hold s { h with why := .granules })
  else
    match boundaryCause s r.b.n with
    | some c => some (if (core s r.b.n).granules.isEmpty then blockFault r s h c else .hold s { h with why := .granules })
    | none => none

/-- The instruction completes (R198). -/
def blockDone (r : BlockRun) (s : State) : Out :=
  .done (updCore (passBundle (setProg (applyLate s r.b.n) r.b.n 0) r.b true) r.b.n (fun c => { c with held := none }))

/-- The units in order; `mid` says that the first has been in progress. -/
def blockLoop (r : BlockRun) : Nat → Bool → State → Held → Out
  | 0, _, s, h => .hold s h
  | fuel + 1, mid, s, h =>
    if unitCount r.q h ≤ h.done then
      if (core s r.b.n).granules.isEmpty then blockDone r s else .hold s { h with why := .granules }
    else
      match blockStop r s h mid with
      | some o => o
      | none =>
        match oneUnit r s h with
        | .next s1 h1 => blockLoop r fuel false s1 h1
        | .stay s1 h1 => .hold s1 h1
        | .bad s1 c => blockFault r s1 h c

/-- The operands read at the start. -/
def blockOpnds (r : BlockRun) (s : State) : List CapW :=
  let g (k : Nat) : CapW := readC s r.b.n k
  match r.q.kind with
  | 3 => [g r.q.rs1.toNat, g r.q.rs2.toNat, g r.q.rd.toNat]
  | 4 => [g r.q.rs1.toNat, g (r.q.rs1.toNat + 1), g r.q.rs2.toNat]
  | _ => [g r.q.rs1.toNat, g r.q.rs2.toNat]

/-- A range check of the start, as a cause. -/
def rangeChk (r : BlockRun) (c : CapW) (k : Kind) (n size vreg creg : Nat) : Option Cause :=
  let d := descr r.x.pos true false size k.code vreg creg
  match capCheck c k none (capCursor c) n with
  | some (code, sub) => some (mkCause code sub (capCursor c) d)
  | none => if k.isCap && capCursor c % 16 != 0 then some (mkCause 0x08 2 (capCursor c) d) else none

/-- The checks over the whole range (R200, R201, R202). -/
def startChk (r : BlockRun) (h : Held) : Option Cause :=
  let creg := r.q.rs1.toNat
  let vreg := h.regs.getD h.done 0
  match r.q.kind with
  | 1 => if h.regs.isEmpty then none else rangeChk r (h.opnd 0) .capstore (16 * h.regs.length) 4 vreg creg
  | 2 => if h.regs.isEmpty then none else rangeChk r (h.opnd 0) .capload (16 * h.regs.length) 4 vreg creg
  | 3 => if capCursor (h.opnd 1) = 0 then none else rangeChk r (h.opnd 0) .load (capCursor (h.opnd 1)) 4 r.q.rd.toNat creg
  | _ =>
    match rangeChk r (h.opnd 1) .load (capCursor (h.opnd 2)) 7 0 (creg + 1) with
    | some c => some c
    | none => rangeChk r (h.opnd 0) .store (capCursor (h.opnd 2)) 7 0 creg

/-- The state in which the units begin: late results are written first, but for STM, whose units store the registers as they stood
before the bundle, and which has the bundle after it read first (R227); and MCOPY clears rd when it starts at unit 0. -/
def startState (r : BlockRun) (s : State) (h : Held) : State :=
  match r.q.kind with
  | 1 => fetchBehind s r.b.n [(r.b.a, r.b.words)]
  | 4 => if h.done = 0 then (r.b.view (applyLate s r.b.n) r.x).wi (applyLate s r.b.n) r.q.rd 0 else applyLate s r.b.n
  | _ => applyLate s r.b.n

/-- A block instruction started or taken up again where it was held. -/
def blockAttempt (r : BlockRun) (s : State) (h : Held) : Out :=
  if !h.opnds.isEmpty then blockLoop r (unitCount r.q h + 1) (h.why != .granules) s h
  else if longHold s r.b then .hold s { h with why := .longs }
  else if r.q.kind = 4 && !(core s r.b.n).sb.isEmpty then .hold s { h with why := .stores }
  else if r.q.kind = 4 && !(core s r.b.n).granules.isEmpty then .hold s { h with why := .granules }
  else
    let h1 := { h with opnds := blockOpnds r s, done := progStart (curRegs s r.b.n).prog r.q.kind r.b.a }
    match startChk r h1 with -- a range check that fails records PROG, as R200 says of STM and LDM (assumption 142)
    | some c => blockFault r s h1 c
    | none => blockLoop r (unitCount r.q h1 + 1) false (startState r s h1) h1

/-- The executing block instruction of a bundle. -/
def blockIn (s : State) (b : Bundle) : Option BlockRun :=
  match b.live s with
  | [x] =>
    match blockReq (x.instr b.n) with
    | some q => some { b := b, x := x, q := q }
    | none => none
  | _ => none

/-! ### MCOPY_GRANULE (R51, R203, R341) -/

/-- Whether the queue engine performs a granule's words: a granule cancelled has none performed, and while the engine is not RUNNING it is
refused (R115, R116). -/
def granGate (s : State) (g : Granule) : Status := if g.cancelled then .cancelled else if running s 5 then .ok else .disabled

/-- The destination of a granule cut at the aligned words, as (offset, address, length). -/
def granCut (a : Nat) : Nat → Nat → Nat → List (Nat × Nat × Nat)
  | 0, _, _ => []
  | fuel + 1, off, n =>
    if n = 0 then []
    else
      let m := min n (16 - (a + off) % 16)
      (off, a + off, m) :: granCut a fuel (off + m) (n - m)

/-- The words of a granule in copy order. -/
def granWords (g : Granule) : List (Nat × Nat × Nat) :=
  let l := granCut g.dst 5 0 g.len
  if g.desc then l.reverse else l

/-- Bytes `[k, k + n)` of a granule's source read through port B. -/
def readSrc (who : Requester) : List GranSrc → Nat → Nat → State → State × List Byte × Status
  | [], _, _, s => (s, [], .ok)
  | g :: r, k, n, s =>
    if n = 0 then (s, [], .ok)
    else if g.len ≤ k then readSrc who r (k - g.len) n s
    else
      match portBRead s (g.pa + k) (min n (g.len - k)) who with
      | (s1, l, st) =>
        match readSrc who r 0 (n - min n (g.len - k)) s1 with
        | (s2, l2, st2) => (s2, l ++ l2, worst st st2)

/-- The source part that holds byte `k`, with the byte's address. -/
def srcPart : List GranSrc → Nat → Option (GranSrc × Nat)
  | [], _ => none
  | g :: r, k => if k < g.len then some (g, g.pa + k) else srcPart r (k - g.len)

/-- The next store of core `m` arrives at its bank in the cycle in which a granule's word `a` is written (R66): whether it is a store to
that word which its tile performs. -/
def rivalStore (s : State) (rival : Option Nat) (a : Nat) : State × Bool :=
  match rival with
  | none => (s, false)
  | some m =>
    match (upTo (core s m).sb.length).find? (fun i => sendable (core s m).sb i) with
    | none => (s, false)
    | some i =>
      match (core s m).sb[i]? with
      | none => (s, false)
      | some e =>
        if e.word = a / 16 ∧ ownerAdmits s (bankNo a) .compute = true then
          let s1 := sendEntry s m i
          (s1, entryStatus s1 m { e with sent := true } == some .ok)
        else (s, false)

/-- One word of a granule copied (R51): its tag is kept only where R51 lets it, and `clear` clears every tag. A store of core `rival`
to the same word in the same cycle has the word collide (R66). -/
def granWord (who : Requester) (g : Granule) (clear : Bool) (rival : Option Nat) (w : Nat × Nat × Nat) (st : State) : State × Status :=
  let p := if granGate st g = .ok && inMem st w.2.1 then rivalStore st rival w.2.1 else (st, false)
  let s := p.1
  if granGate s g ≠ .ok then (s, granGate s g)
  else if p.2 then (countUp s MEM_BCOLL, .collided)
  else if !inMem s w.2.1 then (fabricError s 384 7 w.2.1 who, .range)
  else
    match srcPart g.srcs w.1 with
    | none => (s, .ok)
    | some (p, pa) =>
      let r :=
        if w.2.2 = 16 ∧ pa % 16 = 0 then
          match portBReadWord s pa who with
          | (s1, c, .ok) =>
            portBWord s1 w.2.1 { c with tag := c.tag && g.tags && p.cl && (hasPerm c pGLOBAL || g.local_) && !clear } who .compute
          | (s1, _, st) => (s1, st)
        else
          match readSrc who g.srcs w.1 w.2.2 s with
          | (s1, l, .ok) => portBWrite s1 w.2.1 l who .compute
          | (s1, _, st) => (s1, st)
      (if g.tw && r.2 == .ok then replStore r.1 w.2.1 else r.1, r.2)

/-- The words of a granule copied in turn, with the status of each. -/
def granCopy (who : Requester) (g : Granule) (clear : Bool) (rival : Option Nat) : List (Nat × Nat × Nat) → State → State × List (Nat × Nat × Status)
  | [], s => (s, [])
  | w :: r, s =>
    match granWord who g clear rival w s with
    | (s1, st) =>
      match granCopy who g clear rival r s1 with
      | (s2, l) => (s2, (w.2.1, w.2.2, st) :: l)

/-- The report of R203 with one word added. -/
def reportWord (s : State) (x : Nat) (w : Nat × Nat × Status) : Nat :=
  if w.2.2 = .ok then withBits x 39 0 (bits x 39 0 + w.2.1)
  else
    let x1 := if bits x 43 40 = 0 then withBits x 43 40 (statusCode w.2.2) else x
    if inMem s w.1 then withBits x1 (48 + bankNo w.1) (48 + bankNo w.1) 1
    else if w.2.2 = .range then withBits x1 47 47 1
    else x1

/-- The rd of the MCOPY that core `n` holds. -/
def mcopyRd (s : State) (n : Nat) : Option CReg :=
  match (core s n).held with
  | some h =>
    match h.words with
    | [w] =>
      match decodeSyl n w 0 with
      | .mcopy _ rd _ _ => some rd
      | _ => none
    | _ => none
  | none => none

/-- The oldest granule in flight of core `n` completes (R51, R89, R203): a first trial says whether any of its words fails, and then
every word is written with its tag clear. A granule of a TW page waits for room in the replication stream (R498). -/
def completeGranule (s : State) (n : Nat) (rival : Option Nat) : State :=
  match (core s n).granules with
  | [] => s
  | g :: rest =>
    let who := blkReq 5 (curCtx s n)
    let ws := granWords g
    if g.tw && replicates s 1 && !twFree s (56 * ws.length) then s
    else
      let clear := (granCopy who g false rival ws s).2.any (fun w => w.2.2 != .ok)
      match granCopy who g clear rival ws s with
      | (s1, l) =>
        let s2 := updCore s1 n (fun c => { c with granules := rest })
        match mcopyRd s2 n with
        | some rd => writeC s2 n rd.toNat (intW (l.foldl (reportWord s) (capCursor (readC s2 n rd.toNat))))
        | none => s2

end Sys2Proof.Machine
end

