-- ==== Sys2Proof/Machine/Pipe.lean ====
section
/-! DEFINITION. The pipeline of a core as the commands drive it: the issue of syllables, the boundary before a bundle (R131,
R209, R271), a bundle run or taken up again, the repeat prefixes (R191–R195), and the events that a held bundle waits for
(R184, R211, R217–R222, R286, R297). -/

namespace Sys2Proof.Machine

/-! ### Repeats (R191–R195) -/

/-- A repeat at work: the core, the prefix's bundle, its slot, the request (none: REP; some N: REPN), and the target. -/
structure RepRun where
  b : Bundle
  x : Slot
  times : Option Nat
  t : Bundle
  deriving DecidableEq, Repr

/-- The request of a prefix: its count for REPN. -/
def prefixTimes (i : Instr) : Option (Option Nat) :=
  match i with
  | .rep _ => some none
  | .repn _ k => some (some (k.toNat + 1))
  | _ => none

/-- The held state in which an iteration begins. -/
def iterHeld (h : Held) (done : Nat) : Held := { freshHeld h.words with target := h.target, done := done }

/-- The prefix completes: execution goes on after the target. -/
def repDone (r : RepRun) (s : State) : Out :=
  let s1 := if r.times.isSome then setProg s r.b.n 0 else s
  let s2 := passBundle s1 { r.b with words := r.b.words ++ r.t.words } true
  .done (updCore s2 r.b.n (fun c =>
    { c with
      held := none
      fbuf := match c.fbuf with
        | f :: l => if f.addr.toNat = r.t.a then l else f :: l
        | [] => [] }))

/-- A cause raised at the prefix (R193, R194). -/
def repFault (r : RepRun) (s : State) (done : Nat) (c : Cause) : Out :=
  match r.times with
  | none => .fault s { c with inRep := true }
  | some _ => .fault (setProg s r.b.n (progWord 5 r.b.a done)) { c with inRep := true, progress := true }

/-- Whether iterations remain. -/
def repLeft (r : RepRun) (s : State) (h : Held) : Bool :=
  match r.times with
  | none => decide ((curRegs s r.b.n).rcnt ≠ 0)
  | some k => decide (h.done < k)

/-- What stops REP between two iterations: a halt or a cause of ranks 1 and 2; nothing stops REPN. `mid` says that an iteration is in
progress, which ends first (R224). -/
def repStop (r : RepRun) (s : State) (mid : Bool) : Option Out :=
  if r.times.isSome || mid then none
  else if (core s r.b.n).haltReq then some (.block (haltNow s r.b.n))
  else (boundaryCause s r.b.n).map (repFault r s 0)

/-- An iteration's effects are complete: its loads are written before the next (R209), and RCNT or the count moves. -/
def repNext (r : RepRun) (s : State) : State :=
  let s1 := applyLate s r.b.n
  match r.times with
  | none => updRegs s1 r.b.n (fun g => { g with rcnt := g.rcnt - 1 })
  | some _ => s1

/-- The iterations; `mid` says that the first has been in progress. -/
def repLoop (r : RepRun) : Nat → Bool → State → Held → Out
  | 0, _, s, h => .hold s h
  | fuel + 1, mid, s, h =>
    if !repLeft r s h then repDone r s
    else
      match repStop r s mid with
      | some o => o
      | none =>
        match attempt s r.t h false with
        | .done s1 => repLoop r fuel false (repNext r s1) (iterHeld h (h.done + 1))
        | .hold s1 h1 => .hold s1 { h1 with words := h.words, target := h.target, done := h.done }
        | .fault s1 c => repFault r s1 h.done c
        | .block s1 => .block s1

/-- The iterations that remain, and one more for the end. -/
def repFuel (r : RepRun) (s : State) : Nat :=
  match r.times with
  | none => (curRegs s r.b.n).rcnt.toNat + 1
  | some k => k + 1

/-- The checks of R192 on the words of the target. -/
def targetCause (a : Nat) (ws : List W32) : Option Cause :=
  match encodingFault a ws (parse 0 ws) with
  | some c => some { c with inRep := true }
  | none => (targetFault a (parse 0 ws)).map (fun c => { c with inRep := true })

/-- The words of a repeat's target: those in the fetch buffer, which no store changes (R226), or read now. -/
def targetRead (s : State) (n : Nat) (walks : List WalkDone) (ta : Nat) : State × Read :=
  match (core s n).fbuf.find? (fun f => f.addr.toNat == ta) with
  | some f =>
    match f.cause with
    | some c => (s, .fault c)
    | none => (s, .words f.words)
  | none => readBundle n walks ta false 0 4 [] none s

/-- A target that holds a store has the bundle after it read before the store is sent (R227). -/
def bufferTarget (s : State) (b : Bundle) (t : Bundle) : State :=
  if t.slots.any (fun x => (storeForm (x.instr b.n)).isSome) then fetchBehind s b.n [(b.a, b.words), (t.a, t.words)] else s

/-- A prefix whose condition holds: the target is read and checked, then executed. -/
def runPrefix (b : Bundle) (x : Slot) (times : Option Nat) (s : State) (h : Held) : Out :=
  let ta := (b.a + b.len) % 2 ^ 64
  if !h.target.isEmpty then
    let r : RepRun := { b := b, x := x, times := times, t := mkBundle b.n ta h.target }
    repLoop r (repFuel r s) true s h
  else
    match targetRead s b.n h.walks ta with
    | (s1, .need a) => .hold s1 { h with why := .walk a true }
    | (s1, .fault c) => .fault s1 { c with inRep := true }
    | (s1, .words []) => .hold s1 { h with why := .flash }
    | (s1, .words ws) =>
      match targetCause ta ws with
      | some c => .fault s1 c
      | none =>
        let r : RepRun := { b := b, x := x, times := times, t := mkBundle b.n ta ws }
        let s2 := applyLate (bufferTarget s1 b r.t) b.n
        let done := if times.isSome then progStart (curRegs s2 b.n).prog 5 b.a else 0
        repLoop r (repFuel r s2) false s2 (iterHeld { h with target := ws } done)

/-- The executing prefix of a bundle. -/
def prefixIn (s : State) (b : Bundle) : Option (Slot × Option Nat) :=
  match b.live s with
  | [x] => (prefixTimes (x.instr b.n)).map (fun k => (x, k))
  | _ => none

/-! ### A bundle -/

/-- What a bundle comes to once it is fetched and decoded. -/
def runDecoded (s : State) (b : Bundle) (h : Held) : Out :=
  match prefixIn s b with
  | some (x, k) => runPrefix b x k s h
  | none =>
    match blockIn s b with
    | some r => blockAttempt r s h
    | none => attempt s b h true

/-- A YIELD that has committed lets the core switch at once (R317). -/
def yieldSwitch (s : State) (n : Nat) : State := if (core s n).yhalt then bankSwitch s n else s

/-- What an attempt comes to. -/
def settle (n : Nat) (o : Out) : State :=
  match o with
  | .done s => afterStep (yieldSwitch s n) n
  | .hold s h => updCore s n (fun c => { c with held := some h })
  | .fault s c => takeCause s n c
  | .block s => updCore s n (fun c => { c with held := none })

/-- The bundle at the head of the fetch buffer that stands at address `a`. -/
def fetched (s : State) (n a : Nat) : Option Fetched :=
  match (core s n).fbuf with
  | f :: _ => if f.addr.toNat = a then some f else none
  | [] => none

/-- The fault of a bundle in the fetch buffer: of its fetch, or of the encoding of the syllables read (R145–R149). -/
def fetchedFault (f : Fetched) : Option Cause :=
  match f.cause with
  | some c => some c
  | none => encodingFault f.addr.toNat f.words (parse 0 f.words)

/-- The fetch checks of a bundle at the PCC: those made when it was read ahead, or made now (R33, R225, R289). -/
def fetchCause (s : State) (n : Nat) (h : Held) : SylChk :=
  match fetched s n (pcAddr s n) with
  | some f =>
    match fetchedFault f with
    | some c => .fault c
    | none => .pass
  | none => if h.begun then .pass else fetchChks s n h.walks (pcAddr s n) 0 h.words.length

/-- A bundle executed at the PCC (ranks 3 to 9 of R271). -/
def runBundle (s : State) (n : Nat) (h : Held) : State :=
  let b := mkBundle n (pcAddr s n) h.words
  match fetchCause s n h with
  | .fault c => takeCause s n c
  | .hold w => settle n (.hold s { h with why := w })
  | .pass =>
    match encodingFault b.a b.words b.slots with
    | some c => takeCause s n c
    | none => settle n (runDecoded s b h)

/-- The boundary before a bundle: a debug halt, a cause of ranks 1 and 2, or a switch of bank takes its place (R209, R240,
R271, R571). `inRep` says that the bundle is a repeat prefix at work. -/
def boundary (s : State) (n : Nat) (inRep : Bool) : Option State :=
  if (core s n).haltReq then some (haltNow s n)
  else
    match boundaryCause s n with
    | some c => some (takeCause s n { c with inRep := inRep })
    | none => if maySwitch s n && decide (wantedBank s n ≠ (core s n).cur) then some (bankSwitch s n) else none

/-- A bundle whose syllables have all been issued. An event pending before a repeat prefix is taken here, before its target is read, with
IN_REPEAT = 0 (DEDUCED, assumption 143). -/
def startBundle (s : State) (n : Nat) : State :=
  let ws := (core s n).opened
  let s1 := requestGrant (updCore s n (fun c => { c with opened := [] })) n
  match boundary s1 n false with
  | some s2 => s2
  | none => runBundle s1 n (freshHeld ws)

/-- Whether a held bundle is a REPN at work, inside which nothing is taken (R194). -/
def inRepn (n : Nat) (h : Held) : Bool :=
  !h.target.isEmpty &&
    (match h.words with
     | [w] => (match decodeSyl n w 0 with
       | .repn _ _ => true
       | _ => false)
     | _ => false)

/-- Whether a held bundle can no longer be discarded: it has done something, its stores are out, or it is a REPN at work. -/
def heldBegun (n : Nat) (h : Held) : Bool := h.begun || h.unitOut || inRepn n h

/-- The held bundle of a core taken up again. A bundle in progress is not displaced by an event, a halt or a switch (R224); a
long-operation error that falls due takes the place of one that has done nothing (R185, DEDUCED, assumption 144). -/
def resume (s : State) (n : Nat) : State :=
  match (core s n).held with
  | none => s
  | some h =>
    if (core s n).halted || clockStopped s n then s
    else
      match (if heldBegun n h then none else dueError s n) with
      | some op => takeCause s n { longCause op true with inRep := !h.target.isEmpty }
      | none => runBundle s n h

/-- The acknowledgements of TLBINV that core `n` owes: those are due whose store-buffer entries have completed and whose bundle in
progress has committed or been discarded (R297 steps 4 to 6). -/
def dueAcks (s : State) (n : Nat) : List Nat :=
  ((core s n).tlbAcks.filter (fun p => p.2.1.isEmpty && !(p.2.2 && (core s n).held.isSome))).map (fun p => p.1)

/-- The acknowledgements that are due are sent, and the cores that receive them take up their bundles. -/
def sendAcks : Nat → State → Nat → State
  | 0, s, _ => s
  | fuel + 1, s, n =>
    let l := dueAcks s n
    let s1 := updCore s n (fun c =>
      { c with
        tlbAcks := (c.tlbAcks.map (fun p => (p.1, p.2.1, p.2.2 && c.held.isSome))).filter (fun p => !p.2.1.isEmpty || p.2.2) })
    l.foldl (fun t k => sendAcks fuel (resume t k) k) (ackTlb l s1)

/-- The held bundle of a core taken up again, and the acknowledgements that waited for it. -/
def retry (s : State) (n : Nat) : State := sendAcks 16 (resume s n) n

/-! ### Issue -/

/-- Whether core `n` takes the next syllable: a context runs on it, and neither a halt nor a held bundle nor
the wait of R545 nor a stopped clock (R531) stops it. -/
def canIssue (s : State) (n : Nat) : Bool :=
  corePresent s n && (runningCtx s n).isSome && !(core s n).halted && (core s n).held.isNone && !(n == 0 && s.boot.wait) && !clockStopped s n

/-- A YIELD stop ends when a line of the core is pending (R317). -/
def wakeYield (s : State) (n : Nat) : State :=
  if (core s n).yhalt && (topLine s n).isSome then updCore s n (fun c => { c with yhalt := false }) else s

/-- The bundle that core `n` reaches next has been read and has a fault: its boundary and its cause (R271). -/
def reachFault (s : State) (n : Nat) : State :=
  let s1 := wakeYield s n
  match fetched s1 n (pcAddr s1 n) with
  | some f =>
    if (fetchedFault f).isSome && canIssue s1 n && !(core s1 n).yhalt && (core s1 n).opened.isEmpty then startBundle s1 n else s
  | none => s

/-- INSTRUCTION_FETCH (R127, R225): a bundle is read ahead; a fault of the bundle that the core reaches next is taken. -/
def instructionFetch (s : State) (n : Nat) : State :=
  reachFault (if (fetched s n (pcAddr s n)).any (fun f => (fetchedFault f).isSome) then s else fetchAhead s n) n

/-- The syllables of a command join the bundle being issued, which ends at STOP or at its fourth syllable (R127, R131). -/
def issueWords (s : State) (n : Nat) (ws : List W32) : State :=
  let s1 := wakeYield s n
  if !canIssue s1 n || (core s1 n).yhalt then s1
  else
    let l := ((core s1 n).opened ++ ws).take 4
    let s2 := updCore s1 n (fun c => { c with opened := l })
    if l.length = 4 ∨ wStop (l.getLast?.getD 0) = true then startBundle s2 n else s2

/-- The words a syllable command stands for: an owner with STOP = 1 has no long-immediate syllable after it (R129). -/
def issueOf (i : Instr) (h : Syl) : List W32 := if h.stop then (encodeSyl i).take 1 else encodeSyl i

/-- A syllable command issued on its core. -/
def issue (i : Instr) (s : State) : State :=
  match sylOf i with
  | some h => if unitOk i then issueWords s h.core (issueOf i h) else s
  | none => s

/-! ### What held bundles wait for -/

/-- LONG_OPERATION_FINISH (R184, R186, R187): the operation under `index` finishes; with none under it, the operation of a bundle
held under PRECLONG finishes. -/
def longFinish (s : State) (n index : Nat) : State :=
  if index < (core s n).longs.length then retry (finishLong s n index) n
  else
    match (core s n).held with
    | some h =>
      if h.why = .longs ∧ (core s n).longs.isEmpty = true then
        retry (updCore s n (fun c => { c with held := some { h with longOk := true } })) n
      else s
    | none => s

/-- LOAD_MISS_FILL (R211, R213): the line a bundle waits for arrives, one of the flash window not while a flash command is in progress (R550); an upset may strike one of its words first. -/
def missFill (s : State) (n word : Nat) (u : Upset) : State :=
  match (core s n).held with
  | some h =>
    match h.why with
    | .miss line =>
      if flashWaits s (line * 64) then s else
      let s1 := if u = .none then s else setEcc s (line * 64 + 16 * (word % 4)) u
      let s2 := fillLine s1 n line
      retry (updCore s2 n (fun c => { c with held := some { h with fills := line :: h.fills } })) n
    | _ => s
  | none => s

/-- STORE_BUFFER_SEND (R217): the oldest entry that may be sent is sent, and arrives at its tile. -/
def storeSend (s : State) (n : Nat) : State := sendOldest s n

/-- The acknowledgements of TLBINV wait for entry `id` no longer (R297 step 5). -/
def ackEntry (s : State) (n id : Nat) : State :=
  updCore s n (fun c => { c with tlbAcks := c.tlbAcks.map (fun p => (p.1, p.2.1.filter (fun k => k != id), p.2.2)) })

/-- How an entry completes: the subcode of 0x58, 0 for OK (R219). -/
def endSub (st : Status) : Nat := if st = .ok then 0 else lateSub st

/-- A sent entry has completed with subcode `sub`: it is reported or handed to the bundle that waits for it, and freed. -/
def endEntry (s : State) (n : Nat) (e : StoreEntry) (sub : Nat) : State :=
  let s1 := updCore s n (fun c => { c with sb := c.sb.filter (fun x => x.id != e.id) })
  let s2 :=
    match e.sync with
    | some k => updCore s1 n (fun c => { c with held := c.held.map (fun h => { h with sync := h.sync ++ [(k, sub)] }) })
    | none => if sub = 0 then s1 else lateStore s1 n sub e
  retry (ackEntry s2 n e.id) n

/-- Whether an entry's write is to be answered by the field die (R420). -/
def fieldEntry (s : State) (e : StoreEntry) : Bool := inFieldPart s (e.word * 16 + maskLow e.mask)

/-- STORE_WRITE_COMPLETION (R217, R219): the completion of the sent entry under `index` reaches the core: to general memory once its
write has been performed at its tile, elsewhere as the write is performed. An index past the buffer names an entry reported as timed out. -/
def storeComplete (s : State) (n index : Nat) : State :=
  match (core s n).sb[index]? with
  | some e =>
    if !e.sent || fieldEntry s e then s
    else if inMem s (e.word * 16) then
      match entryStatus s n e with
      | some st => endEntry (leavePort s n e) n e (endSub st)
      | none => s
    else endEntry (performOutside s n e) n e 0
  | none =>
    match (core s n).ghosts[index - (core s n).sb.length]? with
    | some e =>
      let drop (t : State) : State := updCore t n (fun c => { c with ghosts := c.ghosts.filter (fun x => x.id != e.id) })
      if inMem s (e.word * 16) then (if (entryStatus s n e).isSome then drop (leavePort s n e) else s)
      else drop (performOutside s n e)
    | none => s

/-- LATE_STORE_TIMEOUT (R219): a sent entry has not completed in time. -/
def storeTimeout (s : State) (n index : Nat) : State :=
  match (core s n).sb[index]? with
  | some e => if e.sent then endEntry (updCore s n (fun c => { c with ghosts := c.ghosts ++ [e] })) n e 3 else s
  | none => s

/-- TABLE_WALK (R286, R292): the walk that a bundle waits for is made; a leaf with A set enters the TLBs. -/
def tableWalk (s : State) (n : Nat) : State :=
  match (core s n).held with
  | some h =>
    match h.why with
    | .walk va fetch =>
      let sp := (curRegs s n).space.toNat
      match walk s n (coreReq s n) false sp va with
      | (s1, r) =>
        let s2 := match r with
          | .leaf l => tlbEnter s1 n fetch sp va l
          | .fault _ _ _ _ => s1
        retry (updCore s2 n (fun c => { c with held := some { h with walks := { va := va, space := sp, res := r } :: h.walks } })) n
    | _ => s
  | none => s

/-- A held bundle when an invalidation arrives (R297 steps 2 and 4): its walks start again, unless its accesses are under way; and one
that has done nothing is discarded, so that a repeat reads its target again. -/
def invHeld (n : Nat) (h : Held) : Held :=
  if h.unitOut || (h.begun && h.opnds.isEmpty) then h
  else { h with walks := [], target := if heldBegun n h then h.target else [] }

/-- TLB_INVALIDATION_RECEIPT (R297): the oldest invalidation received is carried out; it is acknowledged when the entries now in the
store buffer have completed and a bundle that can no longer be discarded has committed, and at once on a halted core (R571). What a
reset core left in its store buffer is not waited for. -/
def tlbReceipt (s : State) (n : Nat) : State :=
  match (core s n).tlbRx with
  | [] => s
  | (who, x) :: rest =>
    let c := tlbFilter (core s n) (invMatches x.toNat)
    let ids := if c.halted then [] else (c.sb.filter (fun e => !e.orphan)).map (fun e => e.id)
    let bundle := !c.halted && c.held.any (heldBegun n)
    sendAcks 17 (setCore s n
      { c with tlbRx := rest, fbuf := [], held := c.held.map (invHeld n), tlbAcks := c.tlbAcks ++ [(who, ids, bundle)] }) n

/-- ICINV_RECEIPT (R173, R228): the oldest line received leaves the L1 instruction cache, and its issuer is told. -/
def icinvReceipt (s : State) (n : Nat) : State :=
  match (core s n).icinvRx with
  | [] => s
  | (who, line) :: rest =>
    let s1 := updCore s n (fun c => { c with icinvRx := rest, l1i := c.l1i.filter (fun l => l.line != line) })
    retry (ackIcinv [(who, line)] s1) who

/-- Whether a boundary cause is the one a command names. -/
def isLong (c : Cause) : Bool := c.code == 0x48
def isLateStore (c : Cause) : Bool := c.code == 0x58
def isInterrupt (c : Cause) : Bool := c.code == 0x50
def isAlert (c : Cause) : Bool := c.code == 0x60

/-- The cause that stands first at the present boundary of core `n` taken, if it is the one named (R271). A bundle in progress gives way
to a long-operation error only (R224). -/
def takePending (s : State) (n : Nat) (p : Cause → Bool) : State :=
  if corePresent s n && (runningCtx s n).isSome && !(core s n).halted && !clockStopped s n then
    match (core s n).held, boundaryCause s n with
    | none, some c => if p c then takeCause s n c else s
    | some h, some c =>
      if p c && c.code == 0x48 && !heldBegun n h then takeCause s n { c with inRep := !h.target.isEmpty } else s
    | _, none => s
  else s

/-- MCOPY_GRANULE: a granule completes, and the MCOPY goes on. -/
def granuleDone (s : State) (n : Nat) (rival : Option Nat) : State := retry (completeGranule s n rival) n

/-- FIELD_REGISTER_ACCESS (R420): the field die answers the access that core `n` waits for: a load's word, or a store's write. -/
def fieldAnswer (s : State) (n : Nat) : State :=
  match (core s n).held with
  | some h =>
    match h.why with
    | .field =>
      let b := if h.target.isEmpty then mkBundle n (pcAddr s n) h.words else mkBundle n ((pcAddr s n + 4 * h.words.length) % 2 ^ 64) h.target
      match (b.live s).findSome? (fun x =>
        match loadForm (x.instr n) with
        | some q => some (loadAccess (b.view s x) h q)
        | none => none) with
      | some (.go [p]) =>
        match regRead32 s p.pa (.core n) with
        | (s1, v) => retry (updCore s1 n (fun c => { c with held := some { h with answer := some v, begun := true } })) n
      | _ => retry s n
    | _ => s
  | none => s

/-- The oldest sent entry of core `n` whose write the field die answers. -/
def fieldStore (s : State) (n : Nat) : State :=
  match (core s n).sb.find? (fun e => e.sent && fieldEntry s e) with
  | some e => endEntry (performOutside s n e) n e 0
  | none => s

end Sys2Proof.Machine
end

