-- ==== Sys2Proof/Machine/CmdBase.lean ====
section
/-! DEFINITION. What the commands other than syllables share: a command answers its effect, none while a chip reset holds the package
(R540); register accesses made by a core or by the debug unit; and which events a block's chapter defines (R343). -/

namespace Sys2Proof.Machine

/-- What a command answers. -/
abbrev Ans := Host.Outcome State Fault Refusal

/-- A command's effect `f`; while a chip reset holds the package nothing acts (R540). -/
def act (s : State) (f : State → State) : Ans := .next (if s.wdr.held.isSome then s else f s)

/-- An effect only where its condition holds. -/
def given (c : Bool) (s : State) (f : State → State) : State := if c then f s else s

/-- Whether a requester reaches a register: a core that is present, or the debug unit on the DBG page and the unlock registers (R569). -/
def reaches (s : State) (src : Src) (a : Nat) : Bool :=
  match src with
  | .core n => corePresent s n
  | .debug => blkOf a == 0x13 || (blkOf a == 0x11 && decide (0x120 ≤ offOf a) && decide (offOf a < 0x1C0))

/-- A write of `v` to address `a` of the windows. -/
def accWrite (s : State) (src : Src) (a v : Nat) : State :=
  if !inWindows a || !reaches s src a then s
  else if a % 4 = 0 then regWrite32 s a (BitVec.ofNat 32 v) src
  else widthError s a (srcReq s src)

/-- A read of address `a` of the windows: the word answered is left in `answer`. -/
def accRead (s : State) (src : Src) (a : Nat) : State :=
  if !inWindows a || !reaches s src a then s
  else if a % 4 = 0 then (regRead32 s a src).1
  else { widthError s a (srcReq s src) with answer := mput (fun _ => 0#32) s.answer (reqKey src) 0 }

/-- A register of an array of `n`: an index beyond it names no register. -/
def accWriteAt (s : State) (i n : Nat) (src : Src) (a v : Nat) : State := given (decide (i < n)) s (fun s => accWrite s src a v)

/-- Which half of a pair an address is (R104). -/
def halfAt (a : Nat) : PairHalf :=
  match rowOf a with
  | some (t, _) => t.pair
  | none => .none

/-- Whether a physical address is reserved (R95). -/
def reservedSpace (s : State) (a : Nat) : Bool := !(inMem s a || inFlash a || inRom a || inWindows a)

/-- An access of a core to the byte at an address of reserved space, of the boot ROM or of the flash window (R97, R98). -/
def reservedAccess (s : State) (src : Src) (a : Nat) (write : Bool) : State :=
  match src with
  | .core n =>
    given ((reservedSpace s a || inRom a || inFlash a) && corePresent s n) s (fun s =>
      if write then physWrite s n (coreReq s n) a 1 0 false
      else
        match physRead s n a 1 false with
        | (s1, w, _) => { s1 with answer := mput (fun _ => 0#32) s1.answer (reqKey src) (BitVec.ofNat 32 w.bits.toNat) })
  | .debug => s

/-- CTRL as a write of ENABLE and QMODE spells it. -/
def ctrlWord (enable qmode : Bool) : Nat := b2n enable + 2 * b2n qmode

/-- CTXCMD as a command, a context and EV spell it (R327). -/
def ctxWord (op : Nat) (ctx : BitVec 12) (ev : Bool) : Nat := op * 2 ^ 28 + b2n ev * 2 ^ 24 + ctx.toNat

/-- EV_ENABLE or EV2_ENABLE (R108, R93). -/
def evEnableReg (b : Nat) (second : Bool) : Nat := if second then blkBase b + 0x104 else EV_ENABLE b
/-- EV_PENDING or EV2_PENDING. -/
def evPendingReg (b : Nat) (second : Bool) : Nat := if second then blkBase b + 0x108 else EV_PENDING b

/-- Whether block `b` has an event `k` that it may raise now: its chapter defines it, for a present instance, with the feature it needs. -/
def eventKnown (s : State) (b k : Nat) : Bool :=
  Config.present s.variant b &&
  (match b with
   | 0x01 => decide (k < 4) || (decide (8 ≤ k) && decide (k < 11))
   | 0x02 => k == 1 || (k == 0 && accepted s 2 2)
   | 0x03 => decide (k < 3) && accepted s 3 1
   | 0x04 => decide (k < 4 * Config.memBanks s.variant)
   | 0x05 => decide (k < 4) && (k != 0 || accepted s 5 4)
   | 0x07 => decide (k < 37)
   | 0x08 => decide (k < 12)
   | 0x09 => decide (k < 6) || (decide (8 ≤ k) && decide (k < 56))
   | 0x0A => decide (k < 4 * Config.lanes s.variant)
   | 0x0B => decide (k < 4 * Config.ports s.variant) || (decide (16 ≤ k) && decide (k < 20))
   | 0x0C => decide (k < 32)
   | 0x0D => decide (k < 15)
   | 0x0E => decide (k < 9)
   | 0x0F => decide (k < 7)
   | 0x10 => decide (k < 2)
   | 0x11 => decide (k < 4)
   | 0x12 => decide (k < 3)
   | 0x13 => decide (k < 3)
   | _ => false)

/-- Whether source `n` is one whose occurrence can be delivered by itself (R343, R344, R354). 384 and 385 are raised by the fabric alone,
with the access that they report (R121, R123). -/
def sourceKnown (s : State) (n : Nat) : Bool :=
  if n < 128 then decide (n % 8 < 3) && corePresent s (n / 8)
  else if 384 ≤ n ∧ n < 448 then decide (386 ≤ n)
  else (upTo 20).any (fun b => b != 0 && b != 6 && decide (firstSource b ≤ n) && eventKnown s b (n - firstSource b))

/-- A put offered to the queue engine by a block (R331, R333): it carries no tag, only a QPUT's payload does (R49). -/
def blockPut (s : State) (queue owner cls axis flags plen : Nat) (payload : List CapW) : State :=
  (queuePut s { queue := queue % 16384, sender := owner % 4096, ring := none, cls := cls % 16, axis := axis % 16, flags := flags % 16384,
                plen := plen, payload := (payload.take 3).map (fun w => ⟨w.bits, false⟩), fromEvt := false }).1

/-- The held replicated write of core `n` under `index` admitted (R498). -/
def replAdmit (s : State) (n index : Nat) : State :=
  match (core s n).sb[index]? with
  | some e => if e.tw && e.sent && inMem s (e.word * 16) then storeComplete (tileCycle s (tileKey (e.word * 16))) n index else s
  | none => s

/-- CORE_HALTED: a core with a halt asked of it stops at its boundary (R571). -/
def coreHalted (s : State) (n : Nat) : State :=
  if (core s n).haltReq && !(core s n).halted then
    match (core s n).held with
    | some _ => retry s n
    | none => haltNow s n
  else s

/-- COMMAND (R517): a received PEERFENCE or PEERRESET is acted on when PEERCMD = 1 and feature bit 6 is accepted; otherwise it is
discarded. -/
def commandFrame (s : State) (_ : Nat) (f : TwFrame) : Option State :=
  let on := fon s TWIN_TWCFG_PEERCMD && accepted s 0x0D 6
  match f.body with
  | .peerFence => some (if on then (if twRole s = 0 then s else setRole s 0 8 true false) else s)
  | .peerReset => some (if on then chipReset s 4 else s)
  | _ => none

/-- Whether DBGACC may reach offset `o` of `target` at the present level (R569). -/
def dbgReach (s : State) (target o : Nat) (write : Bool) : Nat :=
  let key := decide (0x120 ≤ o) && decide (o < 0x1C0)
  if 2 ≤ target then 3
  else if target = 1 then (if key then 0 else 3)
  else if debugLevel s = 0 then (if o = 0x100 ∨ (0x180 ≤ o ∧ o < 0x190) then 0 else 2)
  else if write ∧ debugLevel s < 2 ∧ (o = 0x10C ∨ o = 0x12C) then 4
  else 0

/-- What Capture-DR will return. -/
def dbgAnswer (s : State) (v : W32) (st : Nat) : State := { s with dbg := { s.dbg with data := v, status := st } }

/-- DBGACC (R569): the access that Update-DR starts. A write of DHCMD or DMCMD that asks for OP write is refused below level 2. -/
def dbgacc (s : State) (w : BitVec 55) : State :=
  if irInForce s ≠ 0x10 then s
  else
    let data := bits w.toNat 31 0
    let o := bits w.toNat 51 32
    let wr := bit w.toNat 52
    let a := blkBase (if bits w.toNat 54 53 = 1 then 0x11 else 0x13) + o
    let r := dbgReach s (bits w.toNat 54 53) o wr
    if r = 2 ∨ (r = 4 ∧ bits data 1 0 = 2) then dbgAnswer s 0 2
    else if r = 3 ∨ o % 4 ≠ 0 then dbgAnswer s 0 3
    else if wr then dbgAnswer (regWrite32 s a (BitVec.ofNat 32 data) .debug) 0 0
    else
      match regRead32 s a .debug with
      | (s1, v) => dbgAnswer s1 v 0

end Sys2Proof.Machine
end

