-- ==== Sys2Proof/Machine/BootKeyCmds.lean ====
section
/-! DEFINITION. The commands of the boot controller and the key store (R549–R556). -/

namespace Sys2Proof.Machine

/-- FLCMD (R550). -/
def execFlcmd (src : Src) (value : W32) (s : State) : Ans := act s (fun s => accWrite s src BOOT_FLCMD (withBits value.toNat 31 31 1))

/-- FLASH_COMMAND_DONE (R550): cores whose reads of the flash window waited take up their bundles again. -/
def execFlashCommandDone (data : List Byte) (s : State) : Ans :=
  act s (fun s => (upTo 16).foldl (fun t n => if (core t n).held.any (fun h => h.why == .flash) then retry t n else t) (flashDone s data))

/-- BMR_EXTEND (R549). -/
def execBmrExtend (src : Src) (index : BitVec 2) (s : State) : Ans := act s (fun s => accWrite s src BOOT_BMRCTL (2 ^ 31 + index.toNat))

/-- ROLLMIN_WRITE (R556). -/
def execRollminWrite (src : Src) (value : BitVec 16) (s : State) : Ans := act s (fun s => accWrite s src BOOT_ROLLMIN value.toNat)

/-- AES_GCM_ENCRYPT (R553). -/
def execAesGcmEncrypt (s : State) : Ans := act s (fun s => keyPerform s (some 1))

/-- AES_GCM_DECRYPT (R553). -/
def execAesGcmDecrypt (s : State) : Ans := act s (fun s => keyPerform s (some 2))

/-- AES_CMAC (R553). -/
def execAesCmac (s : State) : Ans := act s (fun s => keyPerform s (some 3))

/-- SHA_256 (R553). -/
def execSha256 (s : State) : Ans := act s (fun s => keyPerform s (some 4))

/-- SHA_384 (R553). -/
def execSha384 (s : State) : Ans := act s (fun s => keyPerform s (some 5))

/-- ECDSA_VERIFY (R553). -/
def execEcdsaVerify (s : State) : Ans := act s (fun s => keyPerform s (some 6))

/-- LOAD_KEY (R553). -/
def execLoadKey (s : State) : Ans := act s (fun s => keyPerform s (some 7))

/-- UNWRAP (R553). -/
def execUnwrap (s : State) : Ans := act s (fun s => keyPerform s (some 8))

/-- KDF (R553). -/
def execKdf (s : State) : Ans := act s (fun s => keyPerform s (some 9))

/-- ERASE (R553). -/
def execErase (s : State) : Ans := act s (fun s => keyPerform s (some 10))

/-- QUOTE (R553). -/
def execQuote (s : State) : Ans := act s (fun s => keyPerform s (some 11))

/-- KEY_COMMAND_DONE (R553). -/
def execKeyCommandDone (s : State) : Ans := act s (fun s => keyDone s)

/-- TRNG_READ (R554). -/
def execTrngRead (src : Src) (s : State) : Ans := act s (fun s => accRead s src KEY_TRNG)

/-- TRNG_HEALTH_FAILURE (R554). -/
def execTrngHealthFailure (s : State) : Ans := act s (fun s => trngFail s)

/-- TRNG_STARTUP_TESTS_PASS (R554). -/
def execTrngStartupTestsPass (s : State) : Ans := act s (fun s => fset s KEY_TRNGSTAT_OK 1)

/-- CHALLENGE_READ (R555). -/
def execChallengeRead (src : Src) (s : State) : Ans := act s (fun s => accRead s src (KEY_DUCHAL 0))

/-- DEBUG_UNLOCK (R555). -/
def execDebugUnlock (src : Src) (level : BitVec 2) (s : State) : Ans := act s (fun s => accWrite s src KEY_DUCTL (2 ^ 31 + level.toNat * 4))

/-- DEBUG_RELOCK (R555). -/
def execDebugRelock (src : Src) (s : State) : Ans := act s (fun s => accWrite s src KEY_DUCTL 0)

end Sys2Proof.Machine
end

