-- ==== Sys2Proof/Machine/CommCmds.lean ====
section
/-! DEFINITION. The commands of the field links, the network switch and the UARTs (R451–R489). -/

namespace Sys2Proof.Machine

/-- LANE_FRAME_RECEIVE (R461). -/
def execLaneFrameReceive (lane : Nat) (preamble delimiter header payload tag crc : List Int) (s : State) : Ans :=
  act s (fun s => given (decide (lane < Config.lanes s.variant)) s (fun s =>
    laneReceive s lane (preamble ++ delimiter ++ header ++ payload ++ tag ++ crc)))

/-- LANE_REQUEST (R467). -/
def execLaneRequest (lane : Nat) (s : State) : Ans := act s (fun s => given (decide (lane < Config.lanes s.variant)) s (fun s => laneRequest s lane))

/-- LANE_TRANSMIT_END (R467). -/
def execLaneTransmitEnd (lane : Nat) (s : State) : Ans :=
  act s (fun s => given (decide (lane < Config.lanes s.variant)) s (fun s => laneTransmitEnd s lane))

/-- REPLY_WINDOW_EXPIRY (R464). -/
def execReplyWindowExpiry (lane : Nat) (s : State) : Ans :=
  act s (fun s => given (decide (lane < Config.lanes s.variant)) s (fun s => windowExpiry s lane))

/-- MALSEC_CLEAR (R465). -/
def execMalsecClear (s : State) : Ans := act s (fun s => malsecClear s)

/-- QUARANTINE_EXPIRY (R465). -/
def execQuarantineExpiry (lane partner : Nat) (s : State) : Ans :=
  act s (fun s => given (decide (lane < Config.lanes s.variant) && decide (partner < 32)) s (fun s => quarantineExpiry s lane partner))

/-- PSTAT_RELEASE (R465). -/
def execPstatRelease (src : Src) (lane partner : Nat) (s : State) : Ans :=
  act s (fun s => given (decide (partner < 32)) s (fun s => accWriteAt s lane 16 src (FLINK_PSTAT lane partner) 0x10000000))

/-- PCFG_WRITE (R460). -/
def execPcfgWrite (src : Src) (lane partner : Nat) (value : W32) (s : State) : Ans :=
  act s (fun s => given (decide (partner < 32)) s (fun s => accWriteAt s lane 16 src (FLINK_PCFG lane partner) value.toNat))

/-- ETHERNET_FRAME_RECEIVE (R474). -/
def execEthernetFrameReceive (port : Nat) (frame : List Byte) (s : State) : Ans :=
  act s (fun s => given (decide (port < Config.ports s.variant)) s (fun s => etherReceive s port frame))

/-- WRITE_RULE (R475). -/
def execWriteRule (src : Src) (s : State) : Ans := act s (fun s => accWrite s src NET_ICMD 1)

/-- READ_RULE (R475). -/
def execReadRule (src : Src) (s : State) : Ans := act s (fun s => accWrite s src NET_ICMD 2)

/-- WRITE_SA (R482). -/
def execWriteSa (src : Src) (s : State) : Ans := act s (fun s => accWrite s src NET_ICMD 3)

/-- READ_SA (R482). -/
def execReadSa (src : Src) (s : State) : Ans := act s (fun s => accWrite s src NET_ICMD 4)

/-- PORT_TRANSMIT_REQUEST (R478). -/
def execPortTransmitRequest (port : Nat) (s : State) : Ans :=
  act s (fun s => given (decide (port < Config.ports s.variant)) s (fun s => portRequest s port))

/-- PORT_TRANSMIT_COMPLETE (R478). -/
def execPortTransmitComplete (port : Nat) (s : State) : Ans :=
  act s (fun s => given (decide (port < Config.ports s.variant)) s (fun s => portComplete s port))

/-- LINK_CHANGE (R472). -/
def execLinkChange (port : Nat) (up half : Bool) (speed : BitVec 2) (s : State) : Ans :=
  act s (fun s => given (decide (port < Config.ports s.variant)) s (fun s => linkChange s port up half speed.toNat))

/-- PTPSTEP_WRITE (R480). -/
def execPtpstepWrite (src : Src) (value : W32) (s : State) : Ans := act s (fun s => accWrite s src NET_PTPSTEP_HI value.toNat)

/-- QBV_CYCLE_START (R483). -/
def execQbvCycleStart (port : Nat) (s : State) : Ans := act s (fun s => given (decide (port < Config.ports s.variant)) s (fun s => qbvCycle s port))

/-- UART_FRAME_RECEIVE (R485). -/
def execUartFrameReceive (uart : Nat) (start : List Nat) (data : List Byte) (ferr perr : List Bool) (s : State) : Ans :=
  act s (fun s => given (decide (uart < 8)) s (fun s => uartReceive s uart (serChars start data ferr perr)))

/-- BREAK (R485). -/
def execUartBreak (uart : Nat) (s : State) : Ans := act s (fun s => given (decide (uart < 8)) s (fun s => uartBreakSeen s uart))

/-- UART_TRANSMIT_REQUEST (R486). -/
def execUartTransmitRequest (uart : Nat) (s : State) : Ans := act s (fun s => given (decide (uart < 8)) s (fun s => uartRequest s uart))

/-- UART_TRANSMIT_COMPLETE (R486). -/
def execUartTransmitComplete (uart : Nat) (s : State) : Ans := act s (fun s => given (decide (uart < 8)) s (fun s => uartTransmitEnd s uart))

end Sys2Proof.Machine
end

