-- ==== Sys2Proof/Machine/CoreCmds.lean ====
section
/-! DEFINITION. The commands of the cores: each syllable is issued on its core (Pipe.lean gives its bundle its meaning when it ends),
and each event of the pipeline is the operation of Pipe.lean that its name says. -/

namespace Sys2Proof.Machine

/-- INSTRUCTION_FETCH (R127). -/
def execInstructionFetch (core : Nat) (s : State) : Ans :=
  act s (fun s => instructionFetch s core)

/-- NOP (R141). -/
def execNop (h : Syl) (s : State) : Ans :=
  act s (fun s => issue (.nop h) s)

/-- ADD (R152). -/
def execAdd (h : Syl) (rd rs1 rs2 : CReg) (s : State) : Ans :=
  act s (fun s => issue (.add h rd rs1 rs2) s)

/-- SUB (R152). -/
def execSub (h : Syl) (rd rs1 rs2 : CReg) (s : State) : Ans :=
  act s (fun s => issue (.sub h rd rs1 rs2) s)

/-- AND (R152). -/
def execAnd (h : Syl) (rd rs1 rs2 : CReg) (s : State) : Ans :=
  act s (fun s => issue (.and h rd rs1 rs2) s)

/-- OR (R152). -/
def execOr (h : Syl) (rd rs1 rs2 : CReg) (s : State) : Ans :=
  act s (fun s => issue (.or h rd rs1 rs2) s)

/-- XOR (R152). -/
def execXor (h : Syl) (rd rs1 rs2 : CReg) (s : State) : Ans :=
  act s (fun s => issue (.xor h rd rs1 rs2) s)

/-- ANDN (R152). -/
def execAndn (h : Syl) (rd rs1 rs2 : CReg) (s : State) : Ans :=
  act s (fun s => issue (.andn h rd rs1 rs2) s)

/-- SLL (R152). -/
def execSll (h : Syl) (rd rs1 rs2 : CReg) (s : State) : Ans :=
  act s (fun s => issue (.sll h rd rs1 rs2) s)

/-- SRL (R152). -/
def execSrl (h : Syl) (rd rs1 rs2 : CReg) (s : State) : Ans :=
  act s (fun s => issue (.srl h rd rs1 rs2) s)

/-- SRA (R152). -/
def execSra (h : Syl) (rd rs1 rs2 : CReg) (s : State) : Ans :=
  act s (fun s => issue (.sra h rd rs1 rs2) s)

/-- ROL (R152). -/
def execRol (h : Syl) (rd rs1 rs2 : CReg) (s : State) : Ans :=
  act s (fun s => issue (.rol h rd rs1 rs2) s)

/-- MIN (R152). -/
def execMin (h : Syl) (rd rs1 rs2 : CReg) (s : State) : Ans :=
  act s (fun s => issue (.min h rd rs1 rs2) s)

/-- MAX (R152). -/
def execMax (h : Syl) (rd rs1 rs2 : CReg) (s : State) : Ans :=
  act s (fun s => issue (.max h rd rs1 rs2) s)

/-- MINU (R152). -/
def execMinu (h : Syl) (rd rs1 rs2 : CReg) (s : State) : Ans :=
  act s (fun s => issue (.minu h rd rs1 rs2) s)

/-- MAXU (R152). -/
def execMaxu (h : Syl) (rd rs1 rs2 : CReg) (s : State) : Ans :=
  act s (fun s => issue (.maxu h rd rs1 rs2) s)

/-- PACK (R152). -/
def execPack (h : Syl) (rd rs1 rs2 : CReg) (s : State) : Ans :=
  act s (fun s => issue (.pack h rd rs1 rs2) s)

/-- ADDI (R153). -/
def execAddi (h : Syl) (rd rs1 : CReg) (imm : Imm) (s : State) : Ans :=
  act s (fun s => issue (.addi h rd rs1 imm) s)

/-- ANDI (R153). -/
def execAndi (h : Syl) (rd rs1 : CReg) (imm : Imm) (s : State) : Ans :=
  act s (fun s => issue (.andi h rd rs1 imm) s)

/-- ORI (R153). -/
def execOri (h : Syl) (rd rs1 : CReg) (imm : Imm) (s : State) : Ans :=
  act s (fun s => issue (.ori h rd rs1 imm) s)

/-- XORI (R153). -/
def execXori (h : Syl) (rd rs1 : CReg) (imm : Imm) (s : State) : Ans :=
  act s (fun s => issue (.xori h rd rs1 imm) s)

/-- SHI (R153). -/
def execShi (h : Syl) (rd rs1 : CReg) (kind : BitVec 2) (amount : BitVec 6) (s : State) : Ans :=
  act s (fun s => issue (.shi h rd rs1 kind amount) s)

/-- CMP (R155). -/
def execCmp (h : Syl) (fn : BitVec 4) (pd : PReg) (rs1 rs2 : CReg) (s : State) : Ans :=
  act s (fun s => issue (.cmp h fn pd rs1 rs2) s)

/-- CMPI (R155). -/
def execCmpi (h : Syl) (pd : PReg) (rs1 : CReg) (imm : ImmP) (s : State) : Ans :=
  act s (fun s => issue (.cmpi h pd rs1 imm) s)

/-- PLOG (R155). -/
def execPlog (h : Syl) (fn : BitVec 4) (pd ps1 ps2 : PReg) (s : State) : Ans :=
  act s (fun s => issue (.plog h fn pd ps1 ps2) s)

/-- BR (R156). -/
def execBr (h : Syl) (disp : BitVec 19) (s : State) : Ans :=
  act s (fun s => issue (.br h disp) s)

/-- CALL (R157). -/
def execCall (h : Syl) (disp : BitVec 19) (s : State) : Ans :=
  act s (fun s => issue (.call h disp) s)

/-- JMP (R158). -/
def execJmp (h : Syl) (rs1 : CReg) (s : State) : Ans :=
  act s (fun s => issue (.jmp h rs1) s)

/-- CALLR (R158). -/
def execCallr (h : Syl) (rs1 : CReg) (s : State) : Ans :=
  act s (fun s => issue (.callr h rs1) s)

/-- RET (R159). -/
def execRet (h : Syl) (s : State) : Ans :=
  act s (fun s => issue (.ret h) s)

/-- CALLG (R254). -/
def execCallg (h : Syl) (rs1 : CReg) (s : State) : Ans :=
  act s (fun s => issue (.callg h rs1) s)

/-- RETG (R256). -/
def execRetg (h : Syl) (rs1 : CReg) (s : State) : Ans :=
  act s (fun s => issue (.retg h rs1) s)

/-- ERET (R263). -/
def execEret (h : Syl) (s : State) : Ans :=
  act s (fun s => issue (.eret h) s)

/-- REP (R193). -/
def execRep (h : Syl) (s : State) : Ans :=
  act s (fun s => issue (.rep h) s)

/-- REPN (R194). -/
def execRepn (h : Syl) (count : BitVec 6) (s : State) : Ans :=
  act s (fun s => issue (.repn h count) s)

/-- TRAP (R161). -/
def execTrap (h : Syl) (code : BitVec 7) (s : State) : Ans :=
  act s (fun s => issue (.trap h code) s)

/-- BRK (R161). -/
def execBrk (h : Syl) (code : BitVec 7) (s : State) : Ans :=
  act s (fun s => issue (.brk h code) s)

/-- MFU (R137). -/
def execMfu (h : Syl) (rd : CReg) (u : BitVec 6) (s : State) : Ans :=
  act s (fun s => issue (.mfu h rd u) s)

/-- MTU (R137). -/
def execMtu (h : Syl) (rs1 : CReg) (u : BitVec 6) (s : State) : Ans :=
  act s (fun s => issue (.mtu h rs1 u) s)

/-- MFS (R171). -/
def execMfs (h : Syl) (rd : CReg) (sys : BitVec 8) (s : State) : Ans :=
  act s (fun s => issue (.mfs h rd sys) s)

/-- MTS (R171). -/
def execMts (h : Syl) (rs1 : CReg) (sys : BitVec 8) (s : State) : Ans :=
  act s (fun s => issue (.mts h rs1 sys) s)

/-- WAIT (R315). -/
def execWait (h : Syl) (rd : CReg) (s : State) : Ans :=
  act s (fun s => issue (.wait h rd) s)

/-- YIELD (R317). -/
def execYield (h : Syl) (s : State) : Ans :=
  act s (fun s => issue (.yield h) s)

/-- WAITT (R315). -/
def execWaitt (h : Syl) (rd rs1 rs2 : CReg) (s : State) : Ans :=
  act s (fun s => issue (.waitt h rd rs1 rs2) s)

/-- MUL (R154). -/
def execMul (h : Syl) (rd rs1 rs2 : CReg) (s : State) : Ans :=
  act s (fun s => issue (.mul h rd rs1 rs2) s)

/-- MULH (R154). -/
def execMulh (h : Syl) (rd rs1 rs2 : CReg) (s : State) : Ans :=
  act s (fun s => issue (.mulh h rd rs1 rs2) s)

/-- MULHU (R154). -/
def execMulhu (h : Syl) (rd rs1 rs2 : CReg) (s : State) : Ans :=
  act s (fun s => issue (.mulhu h rd rs1 rs2) s)

/-- MULHSU (R154). -/
def execMulhsu (h : Syl) (rd rs1 rs2 : CReg) (s : State) : Ans :=
  act s (fun s => issue (.mulhsu h rd rs1 rs2) s)

/-- CLZ (R154). -/
def execClz (h : Syl) (rd rs1 : CReg) (s : State) : Ans :=
  act s (fun s => issue (.clz h rd rs1) s)

/-- CTZ (R154). -/
def execCtz (h : Syl) (rd rs1 : CReg) (s : State) : Ans :=
  act s (fun s => issue (.ctz h rd rs1) s)

/-- POPC (R154). -/
def execPopc (h : Syl) (rd rs1 : CReg) (s : State) : Ans :=
  act s (fun s => issue (.popc h rd rs1) s)

/-- BSWAP (R154). -/
def execBswap (h : Syl) (rd rs1 : CReg) (s : State) : Ans :=
  act s (fun s => issue (.bswap h rd rs1) s)

/-- SEXTB (R154). -/
def execSextb (h : Syl) (rd rs1 : CReg) (s : State) : Ans :=
  act s (fun s => issue (.sextb h rd rs1) s)

/-- SEXTH (R154). -/
def execSexth (h : Syl) (rd rs1 : CReg) (s : State) : Ans :=
  act s (fun s => issue (.sexth h rd rs1) s)

/-- SEXTW (R154). -/
def execSextw (h : Syl) (rd rs1 : CReg) (s : State) : Ans :=
  act s (fun s => issue (.sextw h rd rs1) s)

/-- ZEXTB (R154). -/
def execZextb (h : Syl) (rd rs1 : CReg) (s : State) : Ans :=
  act s (fun s => issue (.zextb h rd rs1) s)

/-- ZEXTH (R154). -/
def execZexth (h : Syl) (rd rs1 : CReg) (s : State) : Ans :=
  act s (fun s => issue (.zexth h rd rs1) s)

/-- ZEXTW (R154). -/
def execZextw (h : Syl) (rd rs1 : CReg) (s : State) : Ans :=
  act s (fun s => issue (.zextw h rd rs1) s)

/-- LDB (R162). -/
def execLdb (h : Syl) (rd cs : CReg) (am : Addr) (s : State) : Ans :=
  act s (fun s => issue (.ldb h rd cs am) s)

/-- LDBU (R162). -/
def execLdbu (h : Syl) (rd cs : CReg) (am : Addr) (s : State) : Ans :=
  act s (fun s => issue (.ldbu h rd cs am) s)

/-- LDH (R162). -/
def execLdh (h : Syl) (rd cs : CReg) (am : Addr) (s : State) : Ans :=
  act s (fun s => issue (.ldh h rd cs am) s)

/-- LDHU (R162). -/
def execLdhu (h : Syl) (rd cs : CReg) (am : Addr) (s : State) : Ans :=
  act s (fun s => issue (.ldhu h rd cs am) s)

/-- LDW (R162). -/
def execLdw (h : Syl) (rd cs : CReg) (am : Addr) (s : State) : Ans :=
  act s (fun s => issue (.ldw h rd cs am) s)

/-- LDWU (R162). -/
def execLdwu (h : Syl) (rd cs : CReg) (am : Addr) (s : State) : Ans :=
  act s (fun s => issue (.ldwu h rd cs am) s)

/-- LDD (R162). -/
def execLdd (h : Syl) (rd cs : CReg) (am : Addr) (s : State) : Ans :=
  act s (fun s => issue (.ldd h rd cs am) s)

/-- LDC (R34). -/
def execLdc (h : Syl) (rd cs : CReg) (am : Addr) (s : State) : Ans :=
  act s (fun s => issue (.ldc h rd cs am) s)

/-- STB (R162). -/
def execStb (h : Syl) (rs cs : CReg) (am : Addr) (s : State) : Ans :=
  act s (fun s => issue (.stb h rs cs am) s)

/-- STH (R162). -/
def execSth (h : Syl) (rs cs : CReg) (am : Addr) (s : State) : Ans :=
  act s (fun s => issue (.sth h rs cs am) s)

/-- STW (R162). -/
def execStw (h : Syl) (rs cs : CReg) (am : Addr) (s : State) : Ans :=
  act s (fun s => issue (.stw h rs cs am) s)

/-- STD (R162). -/
def execStd (h : Syl) (rs cs : CReg) (am : Addr) (s : State) : Ans :=
  act s (fun s => issue (.std h rs cs am) s)

/-- STC (R31). -/
def execStc (h : Syl) (rs cs : CReg) (am : Addr) (s : State) : Ans :=
  act s (fun s => issue (.stc h rs cs am) s)

/-- STM (R200). -/
def execStm (h : Syl) (rs1 rs2 : CReg) (s : State) : Ans :=
  act s (fun s => issue (.stm h rs1 rs2) s)

/-- LDM (R200). -/
def execLdm (h : Syl) (rs1 rs2 : CReg) (s : State) : Ans :=
  act s (fun s => issue (.ldm h rs1 rs2) s)

/-- CRCBLK (R201). -/
def execCrcblk (h : Syl) (rd rs1 rs2 : CReg) (s : State) : Ans :=
  act s (fun s => issue (.crcblk h rd rs1 rs2) s)

/-- MCOPY (R202). -/
def execMcopy (h : Syl) (rd rs1 rs2 : CReg) (s : State) : Ans :=
  act s (fun s => issue (.mcopy h rd rs1 rs2) s)

/-- MCOPY_GRANULE (R203). -/
def execMcopyGranule (granule : GranuleEnd) (s : State) : Ans :=
  act s (fun s => granuleDone s granule.core granule.rival)

/-- KMOV (R38). -/
def execKmov (h : Syl) (rd rs1 : CReg) (s : State) : Ans :=
  act s (fun s => issue (.kmov h rd rs1) s)

/-- KDROP (R38). -/
def execKdrop (h : Syl) (rd rs1 : CReg) (s : State) : Ans :=
  act s (fun s => issue (.kdrop h rd rs1) s)

/-- KPOINT (R38). -/
def execKpoint (h : Syl) (rd rs1 rs2 : CReg) (s : State) : Ans :=
  act s (fun s => issue (.kpoint h rd rs1 rs2) s)

/-- KSTEP (R38). -/
def execKstep (h : Syl) (rd rs1 rs2 : CReg) (s : State) : Ans :=
  act s (fun s => issue (.kstep h rd rs1 rs2) s)

/-- KSTEPI (R38). -/
def execKstepi (h : Syl) (rd rs1 : CReg) (imm : Imm) (s : State) : Ans :=
  act s (fun s => issue (.kstepi h rd rs1 imm) s)

/-- KTRIM (R38). -/
def execKtrim (h : Syl) (rd rs1 rs2 : CReg) (s : State) : Ans :=
  act s (fun s => issue (.ktrim h rd rs1 rs2) s)

/-- KCLIP (R166). -/
def execKclip (h : Syl) (rd rs1 rs2 : CReg) (s : State) : Ans :=
  act s (fun s => issue (.kclip h rd rs1 rs2) s)

/-- KCLIPS (R166). -/
def execKclips (h : Syl) (rd rs1 rs2 : CReg) (s : State) : Ans :=
  act s (fun s => issue (.kclips h rd rs1 rs2) s)

/-- KWRAP (R41). -/
def execKwrap (h : Syl) (rd rs1 rs2 : CReg) (s : State) : Ans :=
  act s (fun s => issue (.kwrap h rd rs1 rs2) s)

/-- KUNWRAP (R42). -/
def execKunwrap (h : Syl) (rd rs1 rs2 : CReg) (s : State) : Ans :=
  act s (fun s => issue (.kunwrap h rd rs1 rs2) s)

/-- KRCUR (R38). -/
def execKrcur (h : Syl) (rd rs1 : CReg) (s : State) : Ans :=
  act s (fun s => issue (.krcur h rd rs1) s)

/-- KRBASE (R38). -/
def execKrbase (h : Syl) (rd rs1 : CReg) (s : State) : Ans :=
  act s (fun s => issue (.krbase h rd rs1) s)

/-- KRLEN (R38). -/
def execKrlen (h : Syl) (rd rs1 : CReg) (s : State) : Ans :=
  act s (fun s => issue (.krlen h rd rs1) s)

/-- KRPERM (R38). -/
def execKrperm (h : Syl) (rd rs1 : CReg) (s : State) : Ans :=
  act s (fun s => issue (.krperm h rd rs1) s)

/-- KRTYPE (R38). -/
def execKrtype (h : Syl) (rd rs1 : CReg) (s : State) : Ans :=
  act s (fun s => issue (.krtype h rd rs1) s)

/-- KRTAG (R38). -/
def execKrtag (h : Syl) (rd rs1 : CReg) (s : State) : Ans :=
  act s (fun s => issue (.krtag h rd rs1) s)

/-- QPUT (R168). -/
def execQput (h : Syl) (rd rs1 rs2 : CReg) (s : State) : Ans :=
  act s (fun s => issue (.qput h rd rs1 rs2) s)

/-- QGET (R169). -/
def execQget (h : Syl) (rd rs1 rs2 : CReg) (s : State) : Ans :=
  act s (fun s => issue (.qget h rd rs1 rs2) s)

/-- QPUTM (R170). -/
def execQputm (h : Syl) (rd rs1 rs2 : CReg) (s : State) : Ans :=
  act s (fun s => issue (.qputm h rd rs1 rs2) s)

/-- MBAR (R87). -/
def execMbar (h : Syl) (s : State) : Ans :=
  act s (fun s => issue (.mbar h) s)

/-- SBAR (R221). -/
def execSbar (h : Syl) (s : State) : Ans :=
  act s (fun s => issue (.sbar h) s)

/-- LBAR (R186). -/
def execLbar (h : Syl) (s : State) : Ans :=
  act s (fun s => issue (.lbar h) s)

/-- IBAR (R228). -/
def execIbar (h : Syl) (s : State) : Ans :=
  act s (fun s => issue (.ibar h) s)

/-- ICINV (R173). -/
def execIcinv (h : Syl) (rs1 : CReg) (s : State) : Ans :=
  act s (fun s => issue (.icinv h rs1) s)

/-- TLBINV (R296). -/
def execTlbinv (h : Syl) (rs1 : CReg) (s : State) : Ans :=
  act s (fun s => issue (.tlbinv h rs1) s)

/-- TLBSYNC (R298). -/
def execTlbsync (h : Syl) (s : State) : Ans :=
  act s (fun s => issue (.tlbsync h) s)

/-- MACS (R177). -/
def execMacs (h : Syl) (ad : AReg) (rs1 rs2 : CReg) (s : State) : Ans :=
  act s (fun s => issue (.macs h ad rs1 rs2) s)

/-- MACU (R177). -/
def execMacu (h : Syl) (ad : AReg) (rs1 rs2 : CReg) (s : State) : Ans :=
  act s (fun s => issue (.macu h ad rs1 rs2) s)

/-- MSUS (R177). -/
def execMsus (h : Syl) (ad : AReg) (rs1 rs2 : CReg) (s : State) : Ans :=
  act s (fun s => issue (.msus h ad rs1 rs2) s)

/-- MSUU (R177). -/
def execMsuu (h : Syl) (ad : AReg) (rs1 rs2 : CReg) (s : State) : Ans :=
  act s (fun s => issue (.msuu h ad rs1 rs2) s)

/-- MULS (R177). -/
def execMuls (h : Syl) (ad : AReg) (rs1 rs2 : CReg) (s : State) : Ans :=
  act s (fun s => issue (.muls h ad rs1 rs2) s)

/-- MULU (R177). -/
def execMulu (h : Syl) (ad : AReg) (rs1 rs2 : CReg) (s : State) : Ans :=
  act s (fun s => issue (.mulu h ad rs1 rs2) s)

/-- ACLR (R178). -/
def execAclr (h : Syl) (ad : AReg) (s : State) : Ans :=
  act s (fun s => issue (.aclr h ad) s)

/-- RDACC (R178). -/
def execRdacc (h : Syl) (rd : CReg) (ad : AReg) (rs2 : CReg) (s : State) : Ans :=
  act s (fun s => issue (.rdacc h rd ad rs2) s)

/-- WRACC (R178). -/
def execWracc (h : Syl) (ad : AReg) (rs1 : CReg) (s : State) : Ans :=
  act s (fun s => issue (.wracc h ad rs1) s)

/-- ASHR (R178). -/
def execAshr (h : Syl) (ad : AReg) (rs2 : CReg) (s : State) : Ans :=
  act s (fun s => issue (.ashr h ad rs2) s)

/-- CRCSTEP (R179). -/
def execCrcstep (h : Syl) (size : BitVec 2) (rd rs1 rs2 : CReg) (s : State) : Ans :=
  act s (fun s => issue (.crcstep h size rd rs1 rs2) s)

/-- PARITY (R180). -/
def execParity (h : Syl) (rd rs1 : CReg) (s : State) : Ans :=
  act s (fun s => issue (.parity h rd rs1) s)

/-- BITREV (R180). -/
def execBitrev (h : Syl) (rd rs1 rs2 : CReg) (s : State) : Ans :=
  act s (fun s => issue (.bitrev h rd rs1 rs2) s)

/-- FADD (R181). -/
def execFadd (h : Syl) (rd rs1 rs2 : CReg) (s : State) : Ans :=
  act s (fun s => issue (.fadd h rd rs1 rs2) s)

/-- FSUB (R181). -/
def execFsub (h : Syl) (rd rs1 rs2 : CReg) (s : State) : Ans :=
  act s (fun s => issue (.fsub h rd rs1 rs2) s)

/-- FMUL (R181). -/
def execFmul (h : Syl) (rd rs1 rs2 : CReg) (s : State) : Ans :=
  act s (fun s => issue (.fmul h rd rs1 rs2) s)

/-- FMADD (R181). -/
def execFmadd (h : Syl) (rd rs1 rs2 : CReg) (s : State) : Ans :=
  act s (fun s => issue (.fmadd h rd rs1 rs2) s)

/-- FMIN (R181). -/
def execFmin (h : Syl) (rd rs1 rs2 : CReg) (s : State) : Ans :=
  act s (fun s => issue (.fmin h rd rs1 rs2) s)

/-- FMAX (R181). -/
def execFmax (h : Syl) (rd rs1 rs2 : CReg) (s : State) : Ans :=
  act s (fun s => issue (.fmax h rd rs1 rs2) s)

/-- FABS (R181). -/
def execFabs (h : Syl) (rd rs1 : CReg) (s : State) : Ans :=
  act s (fun s => issue (.fabs h rd rs1) s)

/-- FNEG (R181). -/
def execFneg (h : Syl) (rd rs1 : CReg) (s : State) : Ans :=
  act s (fun s => issue (.fneg h rd rs1) s)

/-- FCVTWS (R181). -/
def execFcvtws (h : Syl) (rd rs1 : CReg) (s : State) : Ans :=
  act s (fun s => issue (.fcvtws h rd rs1) s)

/-- FCVTSW (R181). -/
def execFcvtsw (h : Syl) (rd rs1 : CReg) (s : State) : Ans :=
  act s (fun s => issue (.fcvtsw h rd rs1) s)

/-- FEQ (R182). -/
def execFeq (h : Syl) (pd : PReg) (rs1 rs2 : CReg) (s : State) : Ans :=
  act s (fun s => issue (.feq h pd rs1 rs2) s)

/-- FLT (R182). -/
def execFlt (h : Syl) (pd : PReg) (rs1 rs2 : CReg) (s : State) : Ans :=
  act s (fun s => issue (.flt h pd rs1 rs2) s)

/-- FLE (R182). -/
def execFle (h : Syl) (pd : PReg) (rs1 rs2 : CReg) (s : State) : Ans :=
  act s (fun s => issue (.fle h pd rs1 rs2) s)

/-- FUNORD (R182). -/
def execFunord (h : Syl) (pd : PReg) (rs1 rs2 : CReg) (s : State) : Ans :=
  act s (fun s => issue (.funord h pd rs1 rs2) s)

/-- DIV (R183). -/
def execDiv (h : Syl) (rd rs1 rs2 : CReg) (s : State) : Ans :=
  act s (fun s => issue (.div h rd rs1 rs2) s)

/-- DIVU (R183). -/
def execDivu (h : Syl) (rd rs1 rs2 : CReg) (s : State) : Ans :=
  act s (fun s => issue (.divu h rd rs1 rs2) s)

/-- REM (R183). -/
def execRem (h : Syl) (rd rs1 rs2 : CReg) (s : State) : Ans :=
  act s (fun s => issue (.rem h rd rs1 rs2) s)

/-- REMU (R183). -/
def execRemu (h : Syl) (rd rs1 rs2 : CReg) (s : State) : Ans :=
  act s (fun s => issue (.remu h rd rs1 rs2) s)

/-- FDIV (R183). -/
def execFdiv (h : Syl) (rd rs1 rs2 : CReg) (s : State) : Ans :=
  act s (fun s => issue (.fdiv h rd rs1 rs2) s)

/-- FSQRT (R183). -/
def execFsqrt (h : Syl) (rd rs1 : CReg) (s : State) : Ans :=
  act s (fun s => issue (.fsqrt h rd rs1) s)

/-- CRCP (R183). -/
def execCrcp (h : Syl) (rd rs1 rs2 : CReg) (s : State) : Ans :=
  act s (fun s => issue (.crcp h rd rs1 rs2) s)

/-- LONG_OPERATION_FINISH (R214). -/
def execLongOperationFinish (core index : Nat) (s : State) : Ans :=
  act s (fun s => longFinish s core index)

/-- LONG_OPERATION_ERROR (R185). -/
def execLongOperationError (core : Nat) (s : State) : Ans :=
  act s (fun s => takePending s core isLong)

/-- LOAD_MISS_FILL (R211). -/
def execLoadMissFill (core word : Nat) (upset : Upset) (s : State) : Ans :=
  act s (fun s => missFill s core word upset)

/-- STORE_BUFFER_SEND (R217). -/
def execStoreBufferSend (core : Nat) (s : State) : Ans :=
  act s (fun s => storeSend s core)

/-- STORE_WRITE_COMPLETION (R217). -/
def execStoreWriteCompletion (core index : Nat) (s : State) : Ans :=
  act s (fun s => storeComplete s core index)

/-- LATE_STORE_TIMEOUT (R219). -/
def execLateStoreTimeout (core index : Nat) (s : State) : Ans :=
  act s (fun s => storeTimeout s core index)

/-- LATE_STORE_ERROR (R220). -/
def execLateStoreError (core : Nat) (s : State) : Ans :=
  act s (fun s => takePending s core isLateStore)

/-- INTERRUPT (R348). -/
def execInterrupt (core : Nat) (s : State) : Ans :=
  act s (fun s => takePending s core isInterrupt)

/-- TWIN_ALERT (R515). -/
def execTwinAlert (core : Nat) (s : State) : Ans :=
  act s (fun s => takePending s core isAlert)

/-- TABLE_WALK (R286). -/
def execTableWalk (core : Nat) (s : State) : Ans :=
  act s (fun s => tableWalk s core)

/-- TLB_INVALIDATION_RECEIPT (R297). -/
def execTlbInvalidationReceipt (core : Nat) (s : State) : Ans :=
  act s (fun s => tlbReceipt s core)

/-- ICINV_RECEIPT (R228). -/
def execIcinvReceipt (core : Nat) (s : State) : Ans :=
  act s (fun s => icinvReceipt s core)

end Sys2Proof.Machine
end

