-- ==== Sys2Proof/Machine/DbgCmds.lean ====
section
/-! DEFINITION. The commands of the debug unit (R567–R575). -/

namespace Sys2Proof.Machine

/-- JTAG_INSTRUCTION (R567). -/
def execJtagInstruction (ir : BitVec 8) (s : State) : Ans := act s (fun s => jtagLoad s ir.toNat)

/-- DBGACC (R569). -/
def execDbgacc (word : BitVec 55) (s : State) : Ans := act s (fun s => dbgacc s word)

/-- HALT (R571). -/
def execHalt (cores : BitVec 16) (s : State) : Ans := act s (fun s => accWrite s .debug DBG_HALTCTL (1 * 2 ^ 30 + cores.toNat))

/-- DEBUG_RESUME (R571). -/
def execDebugResume (cores : BitVec 16) (s : State) : Ans := act s (fun s => accWrite s .debug DBG_HALTCTL (2 * 2 ^ 30 + cores.toNat))

/-- STEP (R571). -/
def execStep (cores : BitVec 16) (s : State) : Ans := act s (fun s => accWrite s .debug DBG_HALTCTL (3 * 2 ^ 30 + cores.toNat))

/-- CORE_HALTED (R571). -/
def execCoreHalted (core : Nat) (s : State) : Ans := act s (fun s => given (corePresent s core) s (fun s => coreHalted s core))

/-- DH_READ (R572). -/
def execDhRead (s : State) : Ans := act s (fun s => accWrite s .debug DBG_DHCMD 1)

/-- DH_WRITE (R572). -/
def execDhWrite (s : State) : Ans := act s (fun s => accWrite s .debug DBG_DHCMD 2)

/-- DM_READ (R573). -/
def execDmRead (s : State) : Ans := act s (fun s => accWrite s .debug DBG_DMCMD 1)

/-- DM_WRITE (R573). -/
def execDmWrite (s : State) : Ans := act s (fun s => accWrite s .debug DBG_DMCMD 2)

/-- TRACE_DATA_READ (R575). -/
def execTraceDataRead (src : Src) (s : State) : Ans := act s (fun s => accRead s src (DBG_TRDATA 3))

/-- TRSW (R574). -/
def execTrsw (src : Src) (value : W32) (s : State) : Ans := act s (fun s => accWrite s src DBG_TRSW value.toNat)

end Sys2Proof.Machine
end

