-- ==== Sys2Proof/Machine/LoopCmds.lean ====
section
/-! DEFINITION. The commands of the loop engine (R389–R419). -/

namespace Sys2Proof.Machine

/-- STEP_REQUEST (R389). -/
def execStepRequest (cell depth : Nat) (late pred chained : Bool) (s : State) : Ans :=
  act s (fun s => (stepRequest s { cell := cell, late := late, pred := pred, depth := depth } chained).1)

/-- STEPREQ (R389). -/
def execStepreq (src : Src) (cell : Nat) (s : State) : Ans := act s (fun s => accWrite s src LOOP_STEPREQ (cell % 512))

/-- CELL_STEP (R393). -/
def execCellStep (upset : Upset) (s : State) : Ans := act s (fun s => serveCell s upset)

/-- TUNE_START (R410). -/
def execTuneStart (src : Src) (value : W32) (s : State) : Ans := act s (fun s => accWrite s src LOOP_TUNE_CTL (withBits value.toNat 31 30 2))

/-- TUNE_ABORT (R413). -/
def execTuneAbort (src : Src) (s : State) : Ans := act s (fun s => accWrite s src LOOP_TUNE_CTL (withBits (reg s LOOP_TUNE_CTL).toNat 31 30 1))

/-- GCMD (R415). -/
def execGcmd (src : Src) (cell : Nat) (s : State) : Ans := act s (fun s => accWrite s src LOOP_GCMD (cell % 512))

/-- GAIN_COMMIT (R415). -/
def execGainCommit (s : State) : Ans := act s (fun s => gainCommit s)

/-- CCTL_RESUME (R406). -/
def execCctlResume (src : Src) (cell : Nat) (s : State) : Ans :=
  act s (fun s => accWriteAt s cell 512 src (LOOP_CCTL cell) (withBits (reg s (LOOP_CCTL cell)).toNat 17 17 1))

end Sys2Proof.Machine
end

