-- ==== Sys2Proof/Machine/MeasCmds.lean ====
section
/-! DEFINITION. The commands of the measurement front end (R420–R450). -/

namespace Sys2Proof.Machine

/-- BRIDGE_FRAME (R421). -/
def execBridgeFrame (crcOk : Bool) (s : State) : Ans := act s (fun s => given (Config.fieldDie s.variant) s (fun s => bridgeFrame s crcOk))

/-- BRIDGE_LOSS (R421). -/
def execBridgeLoss (s : State) : Ans := act s (fun s => given (Config.fieldDie s.variant) s (fun s => bridgeLoss s))

/-- FIELD_SUPPLY_FAULT (R422). -/
def execFieldSupplyFault (s : State) : Ans := act s (fun s => given (Config.fieldDie s.variant) s (fun s => supplyFault s))

/-- FIELD_SUPPLY_RECOVERY (R586). -/
def execFieldSupplyRecovery (pri : Bool) (s : State) : Ans := act s (fun s => given (Config.fieldDie s.variant) s (fun s => supplyRecovery s pri))

/-- FIELD_REGISTER_ACCESS (R420). -/
def execFieldRegisterAccess (core : Nat) (store : Bool) (s : State) : Ans :=
  act s (fun s => given (Config.fieldDie s.variant) s (fun s => if store then fieldStore s core else fieldAnswer s core))

/-- SIGMA_DELTA_RESULT (R427). -/
def execSigmaDeltaResult (channel : Nat) (code : Int) (overload trig : Bool) (centre : Nat) (s : State) : Ans :=
  act s (fun s => given (Config.fieldDie s.variant && decide (channel < 16)) s (fun s => sdResult s channel code overload trig centre))

/-- SAMPLE_TRIGGER (R426). -/
def execSampleTrigger (mask : BitVec 16) (tick : Nat) (s : State) : Ans :=
  act s (fun s => given (Config.fieldDie s.variant) s (fun s => (trigger s mask.toNat tick).1))

/-- TRIGSW (R426). -/
def execTrigsw (src : Src) (mask : BitVec 16) (s : State) : Ans := act s (fun s => accWrite s src MEAS_TRIGSW mask.toNat)

/-- ENCODER_EDGE (R431). -/
def execEncoderEdge (enc : Nat) (a b z : Bool) (s : State) : Ans :=
  act s (fun s => given (Config.fieldDie s.variant && decide (enc < 8)) s (fun s => encEdge s enc a b z))

/-- SSI_READ (R432). -/
def execSsiRead (enc word : Nat) (par ready : Bool) (s : State) : Ans :=
  act s (fun s => given (Config.fieldDie s.variant && decide (enc < 8)) s (fun s => ssiRead s enc word par ready))

/-- DIGITAL_INPUT_SAMPLE (R434). -/
def execDigitalInputSample (levels : List Nat) (s : State) : Ans :=
  act s (fun s => given (Config.fieldDie s.variant) s (fun s => inputSample s levels))

/-- DOCMD (R437). -/
def execDocmd (src : Src) (value : W32) (s : State) : Ans := act s (fun s => accWrite s src MEAS_DOCMD value.toNat)

/-- DOSET (R437). -/
def execDoset (src : Src) (value : W32) (s : State) : Ans := act s (fun s => accWrite s src MEAS_DOSET value.toNat)

/-- DOCLR (R437). -/
def execDoclr (src : Src) (value : W32) (s : State) : Ans := act s (fun s => accWrite s src MEAS_DOCLR value.toNat)

/-- OUTEN_WRITE (R438). -/
def execOutenWrite (src : Src) (second : Bool) (value : W32) (s : State) : Ans :=
  act s (fun s => accWrite s src (if second then MEAS_OUTEN1 else MEAS_OUTEN0) value.toNat)

/-- FIELD_OUTPUT_COMMAND (R392). -/
def execFieldOutputCommand (s : State) : Ans := act s (fun s => given (Config.fieldDie s.variant) s (fun s => fieldOutput s))

/-- OUTPUT_READBACK (R442). -/
def execOutputReadback (output : Nat) (level : Bool) (s : State) : Ans :=
  act s (fun s => given (Config.fieldDie s.variant && decide (output < 32)) s (fun s => readback s output level))

/-- PWM_PERIOD (R441). -/
def execPwmPeriod (timer : Nat) (s : State) : Ans :=
  act s (fun s => given (Config.fieldDie s.variant && decide (timer < 4)) s (fun s => pwmPeriod s timer))

/-- TWIN_CLAIM_SEEN (R443). -/
def execTwinClaimSeen (s : State) : Ans :=
  act s (fun s => given (Config.fieldDie s.variant) s (fun s => claimConflict (twinClaimSeen s) (fon s MEAS_AUTHSTAT_CLAIM)))

/-- TWIN_CLAIM_ABSENT (R443). -/
def execTwinClaimAbsent (s : State) : Ans := act s (fun s => given (Config.fieldDie s.variant) s (fun s => twinClaimAbsent s))

/-- AUTHORITY_LINE_CHANGE (R443). -/
def execAuthorityLineChange (s : State) : Ans := act s (fun s => given (Config.fieldDie s.variant) s (fun s => lineChange s))

/-- DRIVE_RISE (R443). -/
def execDriveRise (s : State) : Ans := act s (fun s => given (Config.fieldDie s.variant) s (fun s => driveRise s))

/-- MRES_READ (R427). -/
def execMresRead (src : Src) (channel : Nat) (s : State) : Ans :=
  act s (fun s => given (decide (channel < 16)) s (fun s => accRead s src (MEAS_MRES channel)))

end Sys2Proof.Machine
end

