-- ==== Sys2Proof/Machine/PhaseCmds.lean ====
section
/-! DEFINITION. The commands of the phase engine (R358–R386). -/

namespace Sys2Proof.Machine

/-- PHASE_TICK (R360). -/
def execPhaseTick (s : State) : Ans := act s (fun s => phaseTick s)

/-- PIN_ACTION (R379). -/
def execPinAction (s : State) : Ans := act s (fun s => pinAction s)

/-- MARK_ACTION_ISSUE (R376). -/
def execMarkActionIssue (s : State) : Ans := act s (fun s => issueAct s)

/-- AXMEAS_WRITE (R365). -/
def execAxmeasWrite (src : Src) (axis : Nat) (value : W32) (s : State) : Ans :=
  act s (fun s => accWriteAt s axis 16 src (PHASE_AXMEAS_HI axis) value.toNat)

/-- AXIS_LOSS (R367). -/
def execAxisLoss (axis : Nat) (s : State) : Ans := act s (fun s => given (decide (axis < 16)) s (fun s => axisLoss s axis))

/-- AXIS_DEAD (R367). -/
def execAxisDead (axis : Nat) (s : State) : Ans := act s (fun s => given (decide (axis < 16)) s (fun s => axisDead s axis))

/-- AXCTL_WRITE (R386). -/
def execAxctlWrite (src : Src) (axis : Nat) (value : W32) (s : State) : Ans :=
  act s (fun s => accWriteAt s axis 16 src (PHASE_AXCTL axis) value.toNat)

/-- MARKCTL_WRITE (R369). -/
def execMarkctlWrite (src : Src) (mark : Nat) (value : W32) (s : State) : Ans :=
  act s (fun s => accWriteAt s mark 4096 src (PHASE_MARKCTL mark) value.toNat)

end Sys2Proof.Machine
end

