-- ==== Sys2Proof/Machine/PwrTestCmds.lean ====
section
/-! DEFINITION. The commands of the power controller and the test engine (R526–R566). -/

namespace Sys2Proof.Machine

/-- REFCLK_LOSS (R526). -/
def execRefclkLoss (s : State) : Ans := act s (fun s => refclkLoss s)

/-- REFCLK_RETURN (R526). -/
def execRefclkReturn (s : State) : Ans := act s (fun s => refclkReturn s)

/-- COREOP_WRITE (R528). -/
def execCoreopWrite (src : Src) (core : Nat) (value : W32) (s : State) : Ans :=
  act s (fun s => accWriteAt s core 16 src (PWR_COREOP core) value.toNat)

/-- OP_CHANGE_COMPLETE (R528). -/
def execOpChangeComplete (core : Nat) (s : State) : Ans := act s (fun s => given (corePresent s core) s (fun s => opChange s core))

/-- AVS_EVALUATION (R529). -/
def execAvsEvaluation (slack : BitVec 8) (s : State) : Ans := act s (fun s => avsEval s slack.toNat)

/-- REGULATOR_COMMAND (R535). -/
def execRegulatorCommand (acknowledged : Bool) (status : BitVec 16) (vout : BitVec 10) (iout : BitVec 16) (s : State) : Ans :=
  act s (fun s => regulatorCmd s acknowledged status vout.toNat iout.toNat)

/-- PMB_ALERT (R536). -/
def execPmbAlert (s : State) : Ans := act s (fun s => raise s 0x0E 8)

/-- DROOP_LEVEL_1 (R531). -/
def execDroopLevel1 (quadrant : BitVec 2) (s : State) : Ans := act s (fun s => droop s quadrant.toNat 1)

/-- DROOP_LEVEL_2 (R531). -/
def execDroopLevel2 (quadrant : BitVec 2) (s : State) : Ans := act s (fun s => droop s quadrant.toNat 2)

/-- DROOP_END (R531): cores whose clock stood take up their bundles again. -/
def execDroopEnd (quadrant : BitVec 2) (s : State) : Ans :=
  act s (fun s => (upTo 4).foldl (fun t k => retry t (4 * quadrant.toNat + k)) (droopEnd s quadrant.toNat))

/-- THERMAL_SENSOR_REPORT (R534). -/
def execThermalSensorReport (readings : List (Option (BitVec 12))) (s : State) : Ans := act s (fun s => thermal s readings)

/-- SPARE_TEST (R557). -/
def execSpareTest (src : Src) (arg : BitVec 4) (s : State) : Ans := act s (fun s => accWrite s src TEST_TESTCMD (1 * 2 ^ 28 + arg.toNat))

/-- LOGIC_TEST (R558). -/
def execLogicTest (src : Src) (arg : BitVec 4) (s : State) : Ans := act s (fun s => accWrite s src TEST_TESTCMD (2 * 2 ^ 28 + arg.toNat))

/-- COMMIT (R560). -/
def execCommit (src : Src) (arg : BitVec 4) (s : State) : Ans := act s (fun s => accWrite s src TEST_TESTCMD (3 * 2 ^ 28 + arg.toNat))

/-- TILE_RELEASE (R560). -/
def execTileRelease (src : Src) (arg : BitVec 4) (s : State) : Ans := act s (fun s => accWrite s src TEST_TESTCMD (4 * 2 ^ 28 + arg.toNat))

/-- BURN (R563). -/
def execBurn (src : Src) (arg : BitVec 4) (s : State) : Ans := act s (fun s => accWrite s src TEST_TESTCMD (5 * 2 ^ 28 + arg.toNat))

/-- TEST_COMMAND_DONE (R576). -/
def execTestCommandDone (result : BitVec 16) (s : State) : Ans := act s (fun s => testDone s result)

/-- TILE_TEST (R559). -/
def execTileTest (s : State) : Ans := act s (fun s => tileTest s)

/-- TILE_TEST_PHASE_END (R559). -/
def execTileTestPhaseEnd (pass : Bool) (s : State) : Ans := act s (fun s => phaseEnd s pass)

/-- SCRUB_READ (R564). -/
def execScrubRead (s : State) : Ans := act s (fun s => scrubRead s)

/-- URGENT_WRITE (R561). -/
def execUrgentWrite (src : Src) (banks : BitVec 16) (s : State) : Ans := act s (fun s => accWrite s src TEST_URGENT banks.toNat)

end Sys2Proof.Machine
end

