-- ==== Sys2Proof/Machine/QueEvtCmds.lean ====
section
/-! DEFINITION. The commands of the queue engine and of the event controller (R333–R355). -/

namespace Sys2Proof.Machine

/-- QUEUE_PUT (R333). -/
def execQueuePut (queue owner cls axis flags plen : Nat) (payload : List CapW) (s : State) : Ans :=
  act s (fun s => blockPut s queue owner cls axis flags plen payload)

/-- QCMD_WRITE_DESCRIPTOR (R338). -/
def execQcmdWriteDescriptor (src : Src) (s : State) : Ans := act s (fun s => accWrite s src QUE_QCMD 1)

/-- QCMD_READ_DESCRIPTOR (R342). -/
def execQcmdReadDescriptor (src : Src) (s : State) : Ans := act s (fun s => accWrite s src QUE_QCMD 2)

/-- FLUSH (R342). -/
def execFlush (src : Src) (s : State) : Ans := act s (fun s => accWrite s src QUE_QCMD 3)

/-- EVENT_OCCURRENCE (R345). -/
def execEventOccurrence (source : Nat) (s : State) : Ans := act s (fun s => given (sourceKnown s source) s (fun s => evtOccur s source))

/-- GRANT_REQUEST (R348). -/
def execGrantRequest (core : Nat) (s : State) : Ans := act s (fun s => given (corePresent s core) s (fun s => grantRequest s core))

/-- EVENT_MESSAGE_PUT (R351). -/
def execEventMessagePut (s : State) : Ans := act s (fun s => eventMessagePut s)

/-- EVENT_PUT_RETRY (R351). -/
def execEventPutRetry (source : Nat) (s : State) : Ans := act s (fun s => eventPutRetry s source)

/-- SWSET (R354). -/
def execSwset (src : Src) (source : BitVec 10) (s : State) : Ans := act s (fun s => accWrite s src EVT_SWSET source.toNat)

/-- PENDW_CLEAR (R345). -/
def execPendwClear (src : Src) (word : Nat) (value : W32) (s : State) : Ans := act s (fun s => accWriteAt s word 32 src (EVT_PEND word) value.toNat)

/-- SRCCFG_WRITE (R355). -/
def execSrccfgWrite (src : Src) (source : Nat) (value : W32) (s : State) : Ans :=
  act s (fun s => accWriteAt s source 1024 src (EVT_SRCCFG source) value.toNat)

end Sys2Proof.Machine
end

