-- ==== Sys2Proof/Machine/RegCmds.lean ====
section
/-! DEFINITION. The commands common to every block: tile accesses, accesses to reserved space and absent units, CTRL and the events of a block, register reads and writes, ownership of banks (R62–R123). -/

namespace Sys2Proof.Machine

/-- TILE_ACCESS (R62). -/
def execTileAccess (tile : TileId) (portA portB : PortCycle) (s : State) : Ans :=
  act s (fun s => tileAccess s tile portA portB)

/-- CORRECTED_WORD_WRITE_BACK (R68). -/
def execCorrectedWordWriteBack (word : Nat) (s : State) : Ans := act s (fun s => writeBack s word)

/-- RESERVED_SPACE_ACCESS (R97). -/
def execReservedSpaceAccess (src : Src) (addr : Nat) (write : Bool) (s : State) : Ans := act s (fun s => reservedAccess s src addr write)

/-- ABSENT_UNIT_WRITE (R121). -/
def execAbsentUnitWrite (src : Src) (addr : Nat) (value : W32) (s : State) : Ans :=
  act s (fun s => given (!Config.present s.variant (blkOf addr)) s (fun s => accWrite s src addr value.toNat))

/-- BLOCK_ENABLE (R114). -/
def execBlockEnable (src : Src) (block : Nat) (qmode : Bool) (s : State) : Ans :=
  act s (fun s => accWriteAt s block 20 src (CTRL block) (ctrlWord true qmode))

/-- BLOCK_DISABLE (R116). -/
def execBlockDisable (src : Src) (block : Nat) (qmode : Bool) (s : State) : Ans :=
  act s (fun s => accWriteAt s block 20 src (CTRL block) (ctrlWord false qmode))

/-- QMODE_WRITE (R117). -/
def execQmodeWrite (src : Src) (block : Nat) (qmode : Bool) (s : State) : Ans :=
  act s (fun s => accWriteAt s block 20 src (CTRL block) (ctrlWord (fon s (CTRL_ENABLE block)) qmode))

/-- DRAIN_COMPLETE (R114). -/
def execDrainComplete (block : Nat) (s : State) : Ans := act s (fun s => given (Config.present s.variant block) s (fun s => drainComplete s block))

/-- SOFT_RESET (R119). -/
def execSoftReset (src : Src) (block : Nat) (s : State) : Ans := act s (fun s => accWriteAt s block 20 src (CTRL block) 4)

/-- SOFT_RESET_COMPLETE (R119). -/
def execSoftResetComplete (block : Nat) (s : State) : Ans :=
  act s (fun s => given (Config.present s.variant block) s (fun s => softResetComplete s block))

/-- BLOCK_FAULT (R118). -/
def execBlockFault (block : Nat) (s : State) : Ans := act s (fun s => given (Config.present s.variant block) s (fun s => blockFaultOf s block))

/-- FEAT_ACCEPT_WRITE (R111). -/
def execFeatAcceptWrite (src : Src) (block : Nat) (hi : Bool) (value : W32) (s : State) : Ans :=
  act s (fun s => accWriteAt s block 20 src (if hi then FEAT_ACCEPT_HI block else FEAT_ACCEPT block) value.toNat)

/-- EV_ENABLE_WRITE (R108). -/
def execEvEnableWrite (src : Src) (block : Nat) (second : Bool) (value : W32) (s : State) : Ans :=
  act s (fun s => given (!second || hasEv2 block) s (fun s => accWriteAt s block 20 src (evEnableReg block second) value.toNat))

/-- EV_PENDING_CLEAR (R108). -/
def execEvPendingClear (src : Src) (block : Nat) (second : Bool) (value : W32) (s : State) : Ans :=
  act s (fun s => given (!second || hasEv2 block) s (fun s => accWriteAt s block 20 src (evPendingReg block second) value.toNat))

/-- BLOCK_EVENT (R108). -/
def execBlockEvent (block event : Nat) (s : State) : Ans := act s (fun s => given (eventKnown s block event) s (fun s => raise s block event))

/-- ERR_CODE_READ (R109). -/
def execErrCodeRead (src : Src) (block : Nat) (s : State) : Ans :=
  act s (fun s => given (decide (block < 20)) s (fun s => accRead s src (ERR_CODE block)))

/-- RC_READ (R8). -/
def execRcRead (src : Src) (addr : Nat) (s : State) : Ans := act s (fun s => accRead s src addr)

/-- PAIR_LOW_READ (R104). -/
def execPairLowRead (src : Src) (addr : Nat) (s : State) : Ans := act s (fun s => given (halfAt addr == .lo) s (fun s => accRead s src addr))

/-- PAIR_LOW_WRITE (R104). -/
def execPairLowWrite (src : Src) (addr : Nat) (value : W32) (s : State) : Ans :=
  act s (fun s => given (halfAt addr == .lo) s (fun s => accWrite s src addr value.toNat))

/-- PAIR_HIGH_WRITE (R104). -/
def execPairHighWrite (src : Src) (addr : Nat) (value : W32) (s : State) : Ans :=
  act s (fun s => given (halfAt addr == .hi) s (fun s => accWrite s src addr value.toNat))

/-- REGISTER_WRITE (R102). -/
def execRegisterWrite (src : Src) (addr : Nat) (value : W32) (s : State) : Ans := act s (fun s => accWrite s src addr value.toNat)

/-- TYPEREV_WRITE (R58). -/
def execTyperevWrite (src : Src) (index : Nat) (value : W32) (s : State) : Ans :=
  act s (fun s => accWriteAt s index 128 src (CAP_TYPEREV index) value.toNat)

/-- BOWN_WRITE (R74). -/
def execBownWrite (src : Src) (bank : Nat) (dom : BitVec 3) (s : State) : Ans := act s (fun s => accWriteAt s bank 16 src (MEM_BOWN bank) dom.toNat)

/-- HANDOVER_COMPLETE (R74). -/
def execHandoverComplete (bank : Nat) (s : State) : Ans := act s (fun s => given (bankPresent s bank) s (fun s => handoverComplete s bank))

end Sys2Proof.Machine
end

