-- ==== Sys2Proof/Machine/ResetCmds.lean ====
section
/-! DEFINITION. The resets and the watchdogs (R524, R539–R544, R589). -/

namespace Sys2Proof.Machine

/-- POWER_ON_RESET (R524). -/
def execPowerOnReset (s : State) : Ans := .next (chipReset s 0)

/-- PIN_RESET (R589). -/
def execPinReset (s : State) : Ans := .next (chipReset s 2)

/-- CHIP_RESET_RELEASE (R540): a package that samples TESTEN high stays in chip reset (R583). -/
def execChipResetRelease (rom : Bool) (board : Board) (s : State) : Ans :=
  .next (if board.testen then s else if rom && s.wdr.held.isSome then romBoot (chipRelease s) board.flash else chipRelease s)

/-- SWRST (R539). -/
def execSwrst (src : Src) (value : W32) (s : State) : Ans := act s (fun s => accWrite s src WDR_SWRST value.toNat)

/-- CORE_WATCHDOG_EXPIRY (R543). -/
def execCoreWatchdogExpiry (core : Nat) (ieLimit : Bool) (s : State) : Ans :=
  act s (fun s => given (corePresent s core) s (fun s => corewdExpiry s core ieLimit))

/-- CORKICK (R543). -/
def execCorkick (src : Src) (core : Nat) (value : W32) (s : State) : Ans := act s (fun s => accWriteAt s core 16 src (WDR_CORKICK core) value.toNat)

/-- CHIP_WATCHDOG_EXPIRY (R544). -/
def execChipWatchdogExpiry (s : State) : Ans := act s (fun s => chipwdExpiry s)

/-- CHIP_WATCHDOG_HALF (R544). -/
def execChipWatchdogHalf (s : State) : Ans := act s (fun s => chipwdHalf s)

/-- CWDKICK (R544). -/
def execCwdkick (src : Src) (value : W32) (s : State) : Ans := act s (fun s => accWrite s src WDR_CWDKICK value.toNat)

/-- CWDCTL_ENABLE (R544). -/
def execCwdctlEnable (src : Src) (period : BitVec 16) (s : State) : Ans := act s (fun s => accWrite s src WDR_CWDCTL (2 ^ 31 + period.toNat))

end Sys2Proof.Machine
end

