-- ==== Sys2Proof/Machine/SchedCmds.lean ====
section
/-! DEFINITION. The commands of the scheduler (R241–R247, R311–R325). -/

namespace Sys2Proof.Machine

/-- CREATE (R311). -/
def execCreate (src : Src) (ctx : BitVec 12) (ev : Bool) (s : State) : Ans := act s (fun s => accWrite s src SCHED_CTXCMD (ctxWord 1 ctx ev))

/-- RESUME (R311). -/
def execResume (src : Src) (ctx : BitVec 12) (ev : Bool) (s : State) : Ans := act s (fun s => accWrite s src SCHED_CTXCMD (ctxWord 2 ctx ev))

/-- SUSPEND (R311). -/
def execSuspend (src : Src) (ctx : BitVec 12) (ev : Bool) (s : State) : Ans := act s (fun s => accWrite s src SCHED_CTXCMD (ctxWord 3 ctx ev))

/-- RELEASE (R311). -/
def execRelease (src : Src) (ctx : BitVec 12) (ev : Bool) (s : State) : Ans := act s (fun s => accWrite s src SCHED_CTXCMD (ctxWord 4 ctx ev))

/-- SETPRIO (R311). -/
def execSetprio (src : Src) (ctx : BitVec 12) (ev : Bool) (s : State) : Ans := act s (fun s => accWrite s src SCHED_CTXCMD (ctxWord 5 ctx ev))

/-- SETCORES (R311). -/
def execSetcores (src : Src) (ctx : BitVec 12) (ev : Bool) (s : State) : Ans := act s (fun s => accWrite s src SCHED_CTXCMD (ctxWord 6 ctx ev))

/-- QUERY (R311). -/
def execQuery (src : Src) (ctx : BitVec 12) (ev : Bool) (s : State) : Ans := act s (fun s => accWrite s src SCHED_CTXCMD (ctxWord 7 ctx ev))

/-- RECSAVE (R313). -/
def execRecsave (src : Src) (ctx : BitVec 12) (ev : Bool) (s : State) : Ans := act s (fun s => accWrite s src SCHED_CTXCMD (ctxWord 8 ctx ev))

/-- RECLOAD (R313). -/
def execRecload (src : Src) (ctx : BitVec 12) (ev : Bool) (s : State) : Ans := act s (fun s => accWrite s src SCHED_CTXCMD (ctxWord 9 ctx ev))

/-- ABORT (R311). -/
def execAbort (src : Src) (ctx : BitVec 12) (ev : Bool) (s : State) : Ans := act s (fun s => accWrite s src SCHED_CTXCMD (ctxWord 15 ctx ev))

/-- CORECTL_WRITE (R325). -/
def execCorectlWrite (src : Src) (core : Nat) (admitted : Bool) (s : State) : Ans :=
  act s (fun s => accWriteAt s core 16 src (SCHED_CORECTL core) (b2n admitted))

/-- PLACEMENT (R319). -/
def execPlacement (s : State) : Ans := act s (fun s => placement s)

/-- RECORD_LOAD (R243). -/
def execRecordLoad (load : RecordRead) (s : State) : Ans :=
  act s (fun s => given (corePresent s load.core) s (fun s => recordLoad s load.core load.word load.upset))

/-- BANK_SWITCH (R242). -/
def execBankSwitch (core : Nat) (s : State) : Ans := act s (fun s => given (corePresent s core) s (fun s => bankSwitch s core))

/-- EVICTION (R246). -/
def execEviction (ctx : Nat) (s : State) : Ans := act s (fun s => eviction s ctx)

/-- QUANTUM_EXPIRY (R320). -/
def execQuantumExpiry (core : Nat) (s : State) : Ans := act s (fun s => given (corePresent s core) s (fun s => quantumExpiry s core))

/-- TRAF_HALVING (R322). -/
def execTrafHalving (s : State) : Ans := act s (fun s => trafHalving s)

/-- MIGLIM_MILLISECOND (R322). -/
def execMiglimMillisecond (s : State) : Ans := act s (fun s => { s with moves := 0, movesNoted := false })

end Sys2Proof.Machine
end

