-- ==== Sys2Proof/Machine/TwinCmds.lean ====
section
/-! DEFINITION. The commands of the twin link (R490–R521). -/

namespace Sys2Proof.Machine

/-- LANE_TRAINED (R490). -/
def execLaneTrained (lane : BitVec 2) (s : State) : Ans := act s (fun s => laneTrained s lane.toNat)

/-- LANE_LOSS (R490). -/
def execLaneLoss (lane : BitVec 2) (s : State) : Ans := act s (fun s => laneLoss s lane.toNat)

/-- HELLO (R491). -/
def execHello (nonce : W128) (role : BitVec 3) (prio : Bool) (unitmap : W32) (accept : W64) (latency : Nat) (tag : W128) (s : State) : Ans :=
  act s (fun s => hello s nonce role prio unitmap accept latency tag)

/-- TWIN_FRAME_RECEIVE (R493). -/
def execTwinFrameReceive (frame : TwFrame) (tag : W128) (s : State) : Ans := act s (fun s => frameReceive s frame tag)

/-- STORE (R496). -/
def execStore (s : State) : Ans := act s (fun s => takeFrame s storeFrame)

/-- QUEUE (R500). -/
def execQueue (s : State) : Ans := act s (fun s => takeFrame s queueFrame)

/-- QUEUE_SYNC_APPLY (R501). -/
def execQueueSyncApply (s : State) : Ans := act s (fun s => takeFrame s queueSyncFrame)

/-- RECORD (R502). -/
def execRecord (s : State) : Ans := act s (fun s => takeFrame s recordFrame)

/-- CHECKPOINT (R506). -/
def execCheckpoint (s : State) : Ans := act s (fun s => takeFrame s checkpointFrame)

/-- NOTICE (R516). -/
def execNotice (s : State) : Ans := act s (fun s => takeFrame s noticeFrame)

/-- COMMAND (R517). -/
def execCommand (s : State) : Ans := act s (fun s => takeFrame s commandFrame)

/-- HEARTBEAT (R507). -/
def execHeartbeat (s : State) : Ans := act s (fun s => takeFrame s heartbeatFrame)

/-- ACK (R493). -/
def execAck (s : State) : Ans := act s (fun s => takeFrame s ackFrame)

/-- NAK (R496). -/
def execNak (s : State) : Ans := act s (fun s => takeFrame s nakFrame)

/-- RETRANSMISSION (R493). -/
def execRetransmission (s : State) : Ans := act s (fun s => resend s)

/-- HEARTBEAT_SEND (R507). -/
def execHeartbeatSend (s : State) : Ans := act s (fun s => heartbeatSend s)

/-- PEER_LOSS (R507). -/
def execPeerLoss (s : State) : Ans := act s (fun s => peerLost s)

/-- SPLIT (R511). -/
def execSplit (s : State) : Ans := act s (fun s => split s)

/-- TAKEOVER (R510). -/
def execTakeover (s : State) : Ans := act s (fun s => takeover s)

/-- REPLICATED_WRITE_ADMIT (R498). -/
def execReplicatedWriteAdmit (core index : Nat) (s : State) : Ans := act s (fun s => replAdmit s core index)

/-- GO_SOLO (R508). -/
def execGoSolo (src : Src) (s : State) : Ans := act s (fun s => accWrite s src TWIN_ROLECMD 1)

/-- JOIN (R508). -/
def execJoin (src : Src) (s : State) : Ans := act s (fun s => accWrite s src TWIN_ROLECMD 2)

/-- SWITCH (R513). -/
def execSwitch (src : Src) (tag : BitVec 8) (s : State) : Ans := act s (fun s => accWrite s src TWIN_ROLECMD (tag.toNat * 256 + 3))

/-- FENCE (R508). -/
def execFence (src : Src) (s : State) : Ans := act s (fun s => accWrite s src TWIN_ROLECMD 4)

/-- TAKE (R510). -/
def execTake (src : Src) (s : State) : Ans := act s (fun s => accWrite s src TWIN_ROLECMD 5)

/-- SYNCDONE (R508). -/
def execSyncdone (src : Src) (s : State) : Ans := act s (fun s => accWrite s src TWIN_ROLECMD 6)

/-- PEERFENCE (R517). -/
def execPeerfence (src : Src) (s : State) : Ans := act s (fun s => accWrite s src TWIN_ROLECMD 7)

/-- PEERRESET (R517). -/
def execPeerreset (src : Src) (s : State) : Ans := act s (fun s => accWrite s src TWIN_ROLECMD 8)

/-- CHECKPOINT_REQUEST (R504). -/
def execCheckpointRequest (src : Src) (tag : BitVec 8) (s : State) : Ans := act s (fun s => accWrite s src TWIN_CKREQ tag.toNat)

/-- CHECKPOINT_CAPTURE (R505). -/
def execCheckpointCapture (s : State) : Ans := act s (fun s => checkpointCapture s)

/-- RFENCE (R499). -/
def execRfence (src : Src) (s : State) : Ans := act s (fun s => accWrite s src TWIN_RFENCE 1)

/-- RFENCE_COMPLETE (R499). -/
def execRfenceComplete (s : State) : Ans := act s (fun s => fenceComplete s)

/-- RECPUSH (R502). -/
def execRecpush (src : Src) (ctx : BitVec 12) (s : State) : Ans := act s (fun s => accWrite s src TWIN_RECPUSH ctx.toNat)

/-- SYNCCMD (R503). -/
def execSynccmd (src : Src) (s : State) : Ans := act s (fun s => accWrite s src TWIN_SYNCCMD 1)

/-- SYNC_DONE (R503). -/
def execSyncDone (s : State) : Ans := act s (fun s => syncDone s)

/-- QSYNC (R501). -/
def execQsync (src : Src) (queue : BitVec 14) (s : State) : Ans := act s (fun s => accWrite s src TWIN_QSYNC queue.toNat)

end Sys2Proof.Machine
end

