-- ==== Sys2Proof/Machine/Dispatch.lean ====
section
/-! DEFINITION. One arm per command: a direct call of its meaning. -/

namespace Sys2Proof.Machine

def exec (i : Instr) (s : State) : Host.Outcome State Fault Refusal :=
  match i with
  | .instructionFetch core => Sys2Proof.Machine.execInstructionFetch core s
  | .nop h => Sys2Proof.Machine.execNop h s
  | .add h rd rs1 rs2 => Sys2Proof.Machine.execAdd h rd rs1 rs2 s
  | .sub h rd rs1 rs2 => Sys2Proof.Machine.execSub h rd rs1 rs2 s
  | .and h rd rs1 rs2 => Sys2Proof.Machine.execAnd h rd rs1 rs2 s
  | .or h rd rs1 rs2 => Sys2Proof.Machine.execOr h rd rs1 rs2 s
  | .xor h rd rs1 rs2 => Sys2Proof.Machine.execXor h rd rs1 rs2 s
  | .andn h rd rs1 rs2 => Sys2Proof.Machine.execAndn h rd rs1 rs2 s
  | .sll h rd rs1 rs2 => Sys2Proof.Machine.execSll h rd rs1 rs2 s
  | .srl h rd rs1 rs2 => Sys2Proof.Machine.execSrl h rd rs1 rs2 s
  | .sra h rd rs1 rs2 => Sys2Proof.Machine.execSra h rd rs1 rs2 s
  | .rol h rd rs1 rs2 => Sys2Proof.Machine.execRol h rd rs1 rs2 s
  | .min h rd rs1 rs2 => Sys2Proof.Machine.execMin h rd rs1 rs2 s
  | .max h rd rs1 rs2 => Sys2Proof.Machine.execMax h rd rs1 rs2 s
  | .minu h rd rs1 rs2 => Sys2Proof.Machine.execMinu h rd rs1 rs2 s
  | .maxu h rd rs1 rs2 => Sys2Proof.Machine.execMaxu h rd rs1 rs2 s
  | .pack h rd rs1 rs2 => Sys2Proof.Machine.execPack h rd rs1 rs2 s
  | .addi h rd rs1 imm => Sys2Proof.Machine.execAddi h rd rs1 imm s
  | .andi h rd rs1 imm => Sys2Proof.Machine.execAndi h rd rs1 imm s
  | .ori h rd rs1 imm => Sys2Proof.Machine.execOri h rd rs1 imm s
  | .xori h rd rs1 imm => Sys2Proof.Machine.execXori h rd rs1 imm s
  | .shi h rd rs1 kind amount => Sys2Proof.Machine.execShi h rd rs1 kind amount s
  | .cmp h fn pd rs1 rs2 => Sys2Proof.Machine.execCmp h fn pd rs1 rs2 s
  | .cmpi h pd rs1 imm => Sys2Proof.Machine.execCmpi h pd rs1 imm s
  | .plog h fn pd ps1 ps2 => Sys2Proof.Machine.execPlog h fn pd ps1 ps2 s
  | .br h disp => Sys2Proof.Machine.execBr h disp s
  | .call h disp => Sys2Proof.Machine.execCall h disp s
  | .jmp h rs1 => Sys2Proof.Machine.execJmp h rs1 s
  | .callr h rs1 => Sys2Proof.Machine.execCallr h rs1 s
  | .ret h => Sys2Proof.Machine.execRet h s
  | .callg h rs1 => Sys2Proof.Machine.execCallg h rs1 s
  | .retg h rs1 => Sys2Proof.Machine.execRetg h rs1 s
  | .eret h => Sys2Proof.Machine.execEret h s
  | .rep h => Sys2Proof.Machine.execRep h s
  | .repn h count => Sys2Proof.Machine.execRepn h count s
  | .trap h code => Sys2Proof.Machine.execTrap h code s
  | .brk h code => Sys2Proof.Machine.execBrk h code s
  | .mfu h rd u => Sys2Proof.Machine.execMfu h rd u s
  | .mtu h rs1 u => Sys2Proof.Machine.execMtu h rs1 u s
  | .mfs h rd sys => Sys2Proof.Machine.execMfs h rd sys s
  | .mts h rs1 sys => Sys2Proof.Machine.execMts h rs1 sys s
  | .wait h rd => Sys2Proof.Machine.execWait h rd s
  | .yield h => Sys2Proof.Machine.execYield h s
  | .waitt h rd rs1 rs2 => Sys2Proof.Machine.execWaitt h rd rs1 rs2 s
  | .mul h rd rs1 rs2 => Sys2Proof.Machine.execMul h rd rs1 rs2 s
  | .mulh h rd rs1 rs2 => Sys2Proof.Machine.execMulh h rd rs1 rs2 s
  | .mulhu h rd rs1 rs2 => Sys2Proof.Machine.execMulhu h rd rs1 rs2 s
  | .mulhsu h rd rs1 rs2 => Sys2Proof.Machine.execMulhsu h rd rs1 rs2 s
  | .clz h rd rs1 => Sys2Proof.Machine.execClz h rd rs1 s
  | .ctz h rd rs1 => Sys2Proof.Machine.execCtz h rd rs1 s
  | .popc h rd rs1 => Sys2Proof.Machine.execPopc h rd rs1 s
  | .bswap h rd rs1 => Sys2Proof.Machine.execBswap h rd rs1 s
  | .sextb h rd rs1 => Sys2Proof.Machine.execSextb h rd rs1 s
  | .sexth h rd rs1 => Sys2Proof.Machine.execSexth h rd rs1 s
  | .sextw h rd rs1 => Sys2Proof.Machine.execSextw h rd rs1 s
  | .zextb h rd rs1 => Sys2Proof.Machine.execZextb h rd rs1 s
  | .zexth h rd rs1 => Sys2Proof.Machine.execZexth h rd rs1 s
  | .zextw h rd rs1 => Sys2Proof.Machine.execZextw h rd rs1 s
  | .ldb h rd cs am => Sys2Proof.Machine.execLdb h rd cs am s
  | .ldbu h rd cs am => Sys2Proof.Machine.execLdbu h rd cs am s
  | .ldh h rd cs am => Sys2Proof.Machine.execLdh h rd cs am s
  | .ldhu h rd cs am => Sys2Proof.Machine.execLdhu h rd cs am s
  | .ldw h rd cs am => Sys2Proof.Machine.execLdw h rd cs am s
  | .ldwu h rd cs am => Sys2Proof.Machine.execLdwu h rd cs am s
  | .ldd h rd cs am => Sys2Proof.Machine.execLdd h rd cs am s
  | .ldc h rd cs am => Sys2Proof.Machine.execLdc h rd cs am s
  | .stb h rs cs am => Sys2Proof.Machine.execStb h rs cs am s
  | .sth h rs cs am => Sys2Proof.Machine.execSth h rs cs am s
  | .stw h rs cs am => Sys2Proof.Machine.execStw h rs cs am s
  | .std h rs cs am => Sys2Proof.Machine.execStd h rs cs am s
  | .stc h rs cs am => Sys2Proof.Machine.execStc h rs cs am s
  | .stm h rs1 rs2 => Sys2Proof.Machine.execStm h rs1 rs2 s
  | .ldm h rs1 rs2 => Sys2Proof.Machine.execLdm h rs1 rs2 s
  | .crcblk h rd rs1 rs2 => Sys2Proof.Machine.execCrcblk h rd rs1 rs2 s
  | .mcopy h rd rs1 rs2 => Sys2Proof.Machine.execMcopy h rd rs1 rs2 s
  | .mcopyGranule granule => Sys2Proof.Machine.execMcopyGranule granule s
  | .kmov h rd rs1 => Sys2Proof.Machine.execKmov h rd rs1 s
  | .kdrop h rd rs1 => Sys2Proof.Machine.execKdrop h rd rs1 s
  | .kpoint h rd rs1 rs2 => Sys2Proof.Machine.execKpoint h rd rs1 rs2 s
  | .kstep h rd rs1 rs2 => Sys2Proof.Machine.execKstep h rd rs1 rs2 s
  | .kstepi h rd rs1 imm => Sys2Proof.Machine.execKstepi h rd rs1 imm s
  | .ktrim h rd rs1 rs2 => Sys2Proof.Machine.execKtrim h rd rs1 rs2 s
  | .kclip h rd rs1 rs2 => Sys2Proof.Machine.execKclip h rd rs1 rs2 s
  | .kclips h rd rs1 rs2 => Sys2Proof.Machine.execKclips h rd rs1 rs2 s
  | .kwrap h rd rs1 rs2 => Sys2Proof.Machine.execKwrap h rd rs1 rs2 s
  | .kunwrap h rd rs1 rs2 => Sys2Proof.Machine.execKunwrap h rd rs1 rs2 s
  | .krcur h rd rs1 => Sys2Proof.Machine.execKrcur h rd rs1 s
  | .krbase h rd rs1 => Sys2Proof.Machine.execKrbase h rd rs1 s
  | .krlen h rd rs1 => Sys2Proof.Machine.execKrlen h rd rs1 s
  | .krperm h rd rs1 => Sys2Proof.Machine.execKrperm h rd rs1 s
  | .krtype h rd rs1 => Sys2Proof.Machine.execKrtype h rd rs1 s
  | .krtag h rd rs1 => Sys2Proof.Machine.execKrtag h rd rs1 s
  | .qput h rd rs1 rs2 => Sys2Proof.Machine.execQput h rd rs1 rs2 s
  | .qget h rd rs1 rs2 => Sys2Proof.Machine.execQget h rd rs1 rs2 s
  | .qputm h rd rs1 rs2 => Sys2Proof.Machine.execQputm h rd rs1 rs2 s
  | .mbar h => Sys2Proof.Machine.execMbar h s
  | .sbar h => Sys2Proof.Machine.execSbar h s
  | .lbar h => Sys2Proof.Machine.execLbar h s
  | .ibar h => Sys2Proof.Machine.execIbar h s
  | .icinv h rs1 => Sys2Proof.Machine.execIcinv h rs1 s
  | .tlbinv h rs1 => Sys2Proof.Machine.execTlbinv h rs1 s
  | .tlbsync h => Sys2Proof.Machine.execTlbsync h s
  | .macs h ad rs1 rs2 => Sys2Proof.Machine.execMacs h ad rs1 rs2 s
  | .macu h ad rs1 rs2 => Sys2Proof.Machine.execMacu h ad rs1 rs2 s
  | .msus h ad rs1 rs2 => Sys2Proof.Machine.execMsus h ad rs1 rs2 s
  | .msuu h ad rs1 rs2 => Sys2Proof.Machine.execMsuu h ad rs1 rs2 s
  | .muls h ad rs1 rs2 => Sys2Proof.Machine.execMuls h ad rs1 rs2 s
  | .mulu h ad rs1 rs2 => Sys2Proof.Machine.execMulu h ad rs1 rs2 s
  | .aclr h ad => Sys2Proof.Machine.execAclr h ad s
  | .rdacc h rd ad rs2 => Sys2Proof.Machine.execRdacc h rd ad rs2 s
  | .wracc h ad rs1 => Sys2Proof.Machine.execWracc h ad rs1 s
  | .ashr h ad rs2 => Sys2Proof.Machine.execAshr h ad rs2 s
  | .crcstep h size rd rs1 rs2 => Sys2Proof.Machine.execCrcstep h size rd rs1 rs2 s
  | .parity h rd rs1 => Sys2Proof.Machine.execParity h rd rs1 s
  | .bitrev h rd rs1 rs2 => Sys2Proof.Machine.execBitrev h rd rs1 rs2 s
  | .fadd h rd rs1 rs2 => Sys2Proof.Machine.execFadd h rd rs1 rs2 s
  | .fsub h rd rs1 rs2 => Sys2Proof.Machine.execFsub h rd rs1 rs2 s
  | .fmul h rd rs1 rs2 => Sys2Proof.Machine.execFmul h rd rs1 rs2 s
  | .fmadd h rd rs1 rs2 => Sys2Proof.Machine.execFmadd h rd rs1 rs2 s
  | .fmin h rd rs1 rs2 => Sys2Proof.Machine.execFmin h rd rs1 rs2 s
  | .fmax h rd rs1 rs2 => Sys2Proof.Machine.execFmax h rd rs1 rs2 s
  | .fabs h rd rs1 => Sys2Proof.Machine.execFabs h rd rs1 s
  | .fneg h rd rs1 => Sys2Proof.Machine.execFneg h rd rs1 s
  | .fcvtws h rd rs1 => Sys2Proof.Machine.execFcvtws h rd rs1 s
  | .fcvtsw h rd rs1 => Sys2Proof.Machine.execFcvtsw h rd rs1 s
  | .feq h pd rs1 rs2 => Sys2Proof.Machine.execFeq h pd rs1 rs2 s
  | .flt h pd rs1 rs2 => Sys2Proof.Machine.execFlt h pd rs1 rs2 s
  | .fle h pd rs1 rs2 => Sys2Proof.Machine.execFle h pd rs1 rs2 s
  | .funord h pd rs1 rs2 => Sys2Proof.Machine.execFunord h pd rs1 rs2 s
  | .div h rd rs1 rs2 => Sys2Proof.Machine.execDiv h rd rs1 rs2 s
  | .divu h rd rs1 rs2 => Sys2Proof.Machine.execDivu h rd rs1 rs2 s
  | .rem h rd rs1 rs2 => Sys2Proof.Machine.execRem h rd rs1 rs2 s
  | .remu h rd rs1 rs2 => Sys2Proof.Machine.execRemu h rd rs1 rs2 s
  | .fdiv h rd rs1 rs2 => Sys2Proof.Machine.execFdiv h rd rs1 rs2 s
  | .fsqrt h rd rs1 => Sys2Proof.Machine.execFsqrt h rd rs1 s
  | .crcp h rd rs1 rs2 => Sys2Proof.Machine.execCrcp h rd rs1 rs2 s
  | .longOperationFinish core index => Sys2Proof.Machine.execLongOperationFinish core index s
  | .longOperationError core => Sys2Proof.Machine.execLongOperationError core s
  | .loadMissFill core word upset => Sys2Proof.Machine.execLoadMissFill core word upset s
  | .storeBufferSend core => Sys2Proof.Machine.execStoreBufferSend core s
  | .storeWriteCompletion core index => Sys2Proof.Machine.execStoreWriteCompletion core index s
  | .lateStoreTimeout core index => Sys2Proof.Machine.execLateStoreTimeout core index s
  | .lateStoreError core => Sys2Proof.Machine.execLateStoreError core s
  | .interrupt core => Sys2Proof.Machine.execInterrupt core s
  | .twinAlert core => Sys2Proof.Machine.execTwinAlert core s
  | .tableWalk core => Sys2Proof.Machine.execTableWalk core s
  | .tlbInvalidationReceipt core => Sys2Proof.Machine.execTlbInvalidationReceipt core s
  | .icinvReceipt core => Sys2Proof.Machine.execIcinvReceipt core s
  | .tileAccess tile portA portB => Sys2Proof.Machine.execTileAccess tile portA portB s
  | .correctedWordWriteBack word => Sys2Proof.Machine.execCorrectedWordWriteBack word s
  | .reservedSpaceAccess src addr write => Sys2Proof.Machine.execReservedSpaceAccess src addr write s
  | .absentUnitWrite src addr value => Sys2Proof.Machine.execAbsentUnitWrite src addr value s
  | .blockEnable src block qmode => Sys2Proof.Machine.execBlockEnable src block qmode s
  | .blockDisable src block qmode => Sys2Proof.Machine.execBlockDisable src block qmode s
  | .qmodeWrite src block qmode => Sys2Proof.Machine.execQmodeWrite src block qmode s
  | .drainComplete block => Sys2Proof.Machine.execDrainComplete block s
  | .softReset src block => Sys2Proof.Machine.execSoftReset src block s
  | .softResetComplete block => Sys2Proof.Machine.execSoftResetComplete block s
  | .blockFault block => Sys2Proof.Machine.execBlockFault block s
  | .featAcceptWrite src block hi value => Sys2Proof.Machine.execFeatAcceptWrite src block hi value s
  | .evEnableWrite src block second value => Sys2Proof.Machine.execEvEnableWrite src block second value s
  | .evPendingClear src block second value => Sys2Proof.Machine.execEvPendingClear src block second value s
  | .blockEvent block event => Sys2Proof.Machine.execBlockEvent block event s
  | .errCodeRead src block => Sys2Proof.Machine.execErrCodeRead src block s
  | .rcRead src addr => Sys2Proof.Machine.execRcRead src addr s
  | .pairLowRead src addr => Sys2Proof.Machine.execPairLowRead src addr s
  | .pairLowWrite src addr value => Sys2Proof.Machine.execPairLowWrite src addr value s
  | .pairHighWrite src addr value => Sys2Proof.Machine.execPairHighWrite src addr value s
  | .registerWrite src addr value => Sys2Proof.Machine.execRegisterWrite src addr value s
  | .typerevWrite src index value => Sys2Proof.Machine.execTyperevWrite src index value s
  | .bownWrite src bank dom => Sys2Proof.Machine.execBownWrite src bank dom s
  | .handoverComplete bank => Sys2Proof.Machine.execHandoverComplete bank s
  | .create src ctx ev => Sys2Proof.Machine.execCreate src ctx ev s
  | .resume src ctx ev => Sys2Proof.Machine.execResume src ctx ev s
  | .suspend src ctx ev => Sys2Proof.Machine.execSuspend src ctx ev s
  | .release src ctx ev => Sys2Proof.Machine.execRelease src ctx ev s
  | .setprio src ctx ev => Sys2Proof.Machine.execSetprio src ctx ev s
  | .setcores src ctx ev => Sys2Proof.Machine.execSetcores src ctx ev s
  | .query src ctx ev => Sys2Proof.Machine.execQuery src ctx ev s
  | .recsave src ctx ev => Sys2Proof.Machine.execRecsave src ctx ev s
  | .recload src ctx ev => Sys2Proof.Machine.execRecload src ctx ev s
  | .abort src ctx ev => Sys2Proof.Machine.execAbort src ctx ev s
  | .corectlWrite src core admitted => Sys2Proof.Machine.execCorectlWrite src core admitted s
  | .placement => Sys2Proof.Machine.execPlacement s
  | .recordLoad load => Sys2Proof.Machine.execRecordLoad load s
  | .bankSwitch core => Sys2Proof.Machine.execBankSwitch core s
  | .eviction ctx => Sys2Proof.Machine.execEviction ctx s
  | .quantumExpiry core => Sys2Proof.Machine.execQuantumExpiry core s
  | .trafHalving => Sys2Proof.Machine.execTrafHalving s
  | .queuePut queue owner cls axis flags plen payload => Sys2Proof.Machine.execQueuePut queue owner cls axis flags plen payload s
  | .qcmdWriteDescriptor src => Sys2Proof.Machine.execQcmdWriteDescriptor src s
  | .qcmdReadDescriptor src => Sys2Proof.Machine.execQcmdReadDescriptor src s
  | .flush src => Sys2Proof.Machine.execFlush src s
  | .eventOccurrence source => Sys2Proof.Machine.execEventOccurrence source s
  | .grantRequest core => Sys2Proof.Machine.execGrantRequest core s
  | .eventMessagePut => Sys2Proof.Machine.execEventMessagePut s
  | .eventPutRetry source => Sys2Proof.Machine.execEventPutRetry source s
  | .swset src source => Sys2Proof.Machine.execSwset src source s
  | .pendwClear src word value => Sys2Proof.Machine.execPendwClear src word value s
  | .srccfgWrite src source value => Sys2Proof.Machine.execSrccfgWrite src source value s
  | .phaseTick => Sys2Proof.Machine.execPhaseTick s
  | .pinAction => Sys2Proof.Machine.execPinAction s
  | .markActionIssue => Sys2Proof.Machine.execMarkActionIssue s
  | .axmeasWrite src axis value => Sys2Proof.Machine.execAxmeasWrite src axis value s
  | .axisLoss axis => Sys2Proof.Machine.execAxisLoss axis s
  | .axisDead axis => Sys2Proof.Machine.execAxisDead axis s
  | .axctlWrite src axis value => Sys2Proof.Machine.execAxctlWrite src axis value s
  | .markctlWrite src mark value => Sys2Proof.Machine.execMarkctlWrite src mark value s
  | .stepRequest cell depth late pred chained => Sys2Proof.Machine.execStepRequest cell depth late pred chained s
  | .stepreq src cell => Sys2Proof.Machine.execStepreq src cell s
  | .cellStep upset => Sys2Proof.Machine.execCellStep upset s
  | .tuneStart src value => Sys2Proof.Machine.execTuneStart src value s
  | .tuneAbort src => Sys2Proof.Machine.execTuneAbort src s
  | .gcmd src cell => Sys2Proof.Machine.execGcmd src cell s
  | .gainCommit => Sys2Proof.Machine.execGainCommit s
  | .cctlResume src cell => Sys2Proof.Machine.execCctlResume src cell s
  | .bridgeFrame crcOk => Sys2Proof.Machine.execBridgeFrame crcOk s
  | .bridgeLoss => Sys2Proof.Machine.execBridgeLoss s
  | .fieldSupplyFault => Sys2Proof.Machine.execFieldSupplyFault s
  | .fieldSupplyRecovery pri => Sys2Proof.Machine.execFieldSupplyRecovery pri s
  | .fieldRegisterAccess core store => Sys2Proof.Machine.execFieldRegisterAccess core store s
  | .sigmaDeltaResult channel code overload trig centre => Sys2Proof.Machine.execSigmaDeltaResult channel code overload trig centre s
  | .sampleTrigger mask tick => Sys2Proof.Machine.execSampleTrigger mask tick s
  | .trigsw src mask => Sys2Proof.Machine.execTrigsw src mask s
  | .encoderEdge enc a b z => Sys2Proof.Machine.execEncoderEdge enc a b z s
  | .ssiRead enc word par ready => Sys2Proof.Machine.execSsiRead enc word par ready s
  | .digitalInputSample levels => Sys2Proof.Machine.execDigitalInputSample levels s
  | .docmd src value => Sys2Proof.Machine.execDocmd src value s
  | .doset src value => Sys2Proof.Machine.execDoset src value s
  | .doclr src value => Sys2Proof.Machine.execDoclr src value s
  | .outenWrite src second value => Sys2Proof.Machine.execOutenWrite src second value s
  | .fieldOutputCommand => Sys2Proof.Machine.execFieldOutputCommand s
  | .outputReadback output level => Sys2Proof.Machine.execOutputReadback output level s
  | .pwmPeriod timer => Sys2Proof.Machine.execPwmPeriod timer s
  | .twinClaimSeen => Sys2Proof.Machine.execTwinClaimSeen s
  | .twinClaimAbsent => Sys2Proof.Machine.execTwinClaimAbsent s
  | .authorityLineChange => Sys2Proof.Machine.execAuthorityLineChange s
  | .driveRise => Sys2Proof.Machine.execDriveRise s
  | .laneFrameReceive lane preamble delimiter header payload tag crc => Sys2Proof.Machine.execLaneFrameReceive lane preamble delimiter header payload tag crc s
  | .laneRequest lane => Sys2Proof.Machine.execLaneRequest lane s
  | .laneTransmitEnd lane => Sys2Proof.Machine.execLaneTransmitEnd lane s
  | .replyWindowExpiry lane => Sys2Proof.Machine.execReplyWindowExpiry lane s
  | .malsecClear => Sys2Proof.Machine.execMalsecClear s
  | .quarantineExpiry lane partner => Sys2Proof.Machine.execQuarantineExpiry lane partner s
  | .pstatRelease src lane partner => Sys2Proof.Machine.execPstatRelease src lane partner s
  | .pcfgWrite src lane partner value => Sys2Proof.Machine.execPcfgWrite src lane partner value s
  | .ethernetFrameReceive port frame => Sys2Proof.Machine.execEthernetFrameReceive port frame s
  | .writeRule src => Sys2Proof.Machine.execWriteRule src s
  | .readRule src => Sys2Proof.Machine.execReadRule src s
  | .writeSa src => Sys2Proof.Machine.execWriteSa src s
  | .readSa src => Sys2Proof.Machine.execReadSa src s
  | .portTransmitRequest port => Sys2Proof.Machine.execPortTransmitRequest port s
  | .portTransmitComplete port => Sys2Proof.Machine.execPortTransmitComplete port s
  | .linkChange port up half speed => Sys2Proof.Machine.execLinkChange port up half speed s
  | .ptpstepWrite src value => Sys2Proof.Machine.execPtpstepWrite src value s
  | .qbvCycleStart port => Sys2Proof.Machine.execQbvCycleStart port s
  | .uartFrameReceive uart start data ferr perr => Sys2Proof.Machine.execUartFrameReceive uart start data ferr perr s
  | .uartBreak uart => Sys2Proof.Machine.execUartBreak uart s
  | .uartTransmitRequest uart => Sys2Proof.Machine.execUartTransmitRequest uart s
  | .uartTransmitComplete uart => Sys2Proof.Machine.execUartTransmitComplete uart s
  | .hello nonce role prio unitmap accept latency tag => Sys2Proof.Machine.execHello nonce role prio unitmap accept latency tag s
  | .laneLoss lane => Sys2Proof.Machine.execLaneLoss lane s
  | .twinFrameReceive frame tag => Sys2Proof.Machine.execTwinFrameReceive frame tag s
  | .store => Sys2Proof.Machine.execStore s
  | .queue => Sys2Proof.Machine.execQueue s
  | .queueSyncApply => Sys2Proof.Machine.execQueueSyncApply s
  | .record => Sys2Proof.Machine.execRecord s
  | .checkpoint => Sys2Proof.Machine.execCheckpoint s
  | .notice => Sys2Proof.Machine.execNotice s
  | .command => Sys2Proof.Machine.execCommand s
  | .heartbeat => Sys2Proof.Machine.execHeartbeat s
  | .ack => Sys2Proof.Machine.execAck s
  | .nak => Sys2Proof.Machine.execNak s
  | .retransmission => Sys2Proof.Machine.execRetransmission s
  | .heartbeatSend => Sys2Proof.Machine.execHeartbeatSend s
  | .peerLoss => Sys2Proof.Machine.execPeerLoss s
  | .split => Sys2Proof.Machine.execSplit s
  | .takeover => Sys2Proof.Machine.execTakeover s
  | .replicatedWriteAdmit core index => Sys2Proof.Machine.execReplicatedWriteAdmit core index s
  | .goSolo src => Sys2Proof.Machine.execGoSolo src s
  | .join src => Sys2Proof.Machine.execJoin src s
  | .switch src tag => Sys2Proof.Machine.execSwitch src tag s
  | .fence src => Sys2Proof.Machine.execFence src s
  | .take src => Sys2Proof.Machine.execTake src s
  | .syncdone src => Sys2Proof.Machine.execSyncdone src s
  | .peerfence src => Sys2Proof.Machine.execPeerfence src s
  | .peerreset src => Sys2Proof.Machine.execPeerreset src s
  | .checkpointRequest src tag => Sys2Proof.Machine.execCheckpointRequest src tag s
  | .checkpointCapture => Sys2Proof.Machine.execCheckpointCapture s
  | .rfence src => Sys2Proof.Machine.execRfence src s
  | .rfenceComplete => Sys2Proof.Machine.execRfenceComplete s
  | .recpush src ctx => Sys2Proof.Machine.execRecpush src ctx s
  | .synccmd src => Sys2Proof.Machine.execSynccmd src s
  | .syncDone => Sys2Proof.Machine.execSyncDone s
  | .qsync src queue => Sys2Proof.Machine.execQsync src queue s
  | .powerOnReset => Sys2Proof.Machine.execPowerOnReset s
  | .pinReset => Sys2Proof.Machine.execPinReset s
  | .chipResetRelease rom board => Sys2Proof.Machine.execChipResetRelease rom board s
  | .swrst src value => Sys2Proof.Machine.execSwrst src value s
  | .coreWatchdogExpiry core ieLimit => Sys2Proof.Machine.execCoreWatchdogExpiry core ieLimit s
  | .corkick src core value => Sys2Proof.Machine.execCorkick src core value s
  | .chipWatchdogExpiry => Sys2Proof.Machine.execChipWatchdogExpiry s
  | .chipWatchdogHalf => Sys2Proof.Machine.execChipWatchdogHalf s
  | .cwdkick src value => Sys2Proof.Machine.execCwdkick src value s
  | .cwdctlEnable src period => Sys2Proof.Machine.execCwdctlEnable src period s
  | .flcmd src value => Sys2Proof.Machine.execFlcmd src value s
  | .flashCommandDone data => Sys2Proof.Machine.execFlashCommandDone data s
  | .bmrExtend src index => Sys2Proof.Machine.execBmrExtend src index s
  | .rollminWrite src value => Sys2Proof.Machine.execRollminWrite src value s
  | .aesGcmEncrypt => Sys2Proof.Machine.execAesGcmEncrypt s
  | .aesGcmDecrypt => Sys2Proof.Machine.execAesGcmDecrypt s
  | .aesCmac => Sys2Proof.Machine.execAesCmac s
  | .sha256 => Sys2Proof.Machine.execSha256 s
  | .sha384 => Sys2Proof.Machine.execSha384 s
  | .ecdsaVerify => Sys2Proof.Machine.execEcdsaVerify s
  | .loadKey => Sys2Proof.Machine.execLoadKey s
  | .unwrap => Sys2Proof.Machine.execUnwrap s
  | .kdf => Sys2Proof.Machine.execKdf s
  | .erase => Sys2Proof.Machine.execErase s
  | .quote => Sys2Proof.Machine.execQuote s
  | .keyCommandDone => Sys2Proof.Machine.execKeyCommandDone s
  | .trngRead src => Sys2Proof.Machine.execTrngRead src s
  | .trngHealthFailure => Sys2Proof.Machine.execTrngHealthFailure s
  | .challengeRead src => Sys2Proof.Machine.execChallengeRead src s
  | .debugUnlock src level => Sys2Proof.Machine.execDebugUnlock src level s
  | .debugRelock src => Sys2Proof.Machine.execDebugRelock src s
  | .refclkLoss => Sys2Proof.Machine.execRefclkLoss s
  | .refclkReturn => Sys2Proof.Machine.execRefclkReturn s
  | .coreopWrite src core value => Sys2Proof.Machine.execCoreopWrite src core value s
  | .opChangeComplete core => Sys2Proof.Machine.execOpChangeComplete core s
  | .avsEvaluation slack => Sys2Proof.Machine.execAvsEvaluation slack s
  | .regulatorCommand acknowledged status vout iout => Sys2Proof.Machine.execRegulatorCommand acknowledged status vout iout s
  | .pmbAlert => Sys2Proof.Machine.execPmbAlert s
  | .droopLevel1 quadrant => Sys2Proof.Machine.execDroopLevel1 quadrant s
  | .droopLevel2 quadrant => Sys2Proof.Machine.execDroopLevel2 quadrant s
  | .droopEnd quadrant => Sys2Proof.Machine.execDroopEnd quadrant s
  | .thermalSensorReport readings => Sys2Proof.Machine.execThermalSensorReport readings s
  | .spareTest src arg => Sys2Proof.Machine.execSpareTest src arg s
  | .logicTest src arg => Sys2Proof.Machine.execLogicTest src arg s
  | .commit src arg => Sys2Proof.Machine.execCommit src arg s
  | .tileRelease src arg => Sys2Proof.Machine.execTileRelease src arg s
  | .burn src arg => Sys2Proof.Machine.execBurn src arg s
  | .testCommandDone result => Sys2Proof.Machine.execTestCommandDone result s
  | .tileTest => Sys2Proof.Machine.execTileTest s
  | .tileTestPhaseEnd pass => Sys2Proof.Machine.execTileTestPhaseEnd pass s
  | .scrubRead => Sys2Proof.Machine.execScrubRead s
  | .urgentWrite src banks => Sys2Proof.Machine.execUrgentWrite src banks s
  | .jtagInstruction ir => Sys2Proof.Machine.execJtagInstruction ir s
  | .dbgacc word => Sys2Proof.Machine.execDbgacc word s
  | .halt cores => Sys2Proof.Machine.execHalt cores s
  | .coreHalted core => Sys2Proof.Machine.execCoreHalted core s
  | .debugResume cores => Sys2Proof.Machine.execDebugResume cores s
  | .step cores => Sys2Proof.Machine.execStep cores s
  | .dhRead => Sys2Proof.Machine.execDhRead s
  | .dhWrite => Sys2Proof.Machine.execDhWrite s
  | .dmRead => Sys2Proof.Machine.execDmRead s
  | .dmWrite => Sys2Proof.Machine.execDmWrite s
  | .traceDataRead src => Sys2Proof.Machine.execTraceDataRead src s
  | .trsw src value => Sys2Proof.Machine.execTrsw src value s
  | .laneTrained lane => Sys2Proof.Machine.execLaneTrained lane s
  | .trngStartupTestsPass => Sys2Proof.Machine.execTrngStartupTestsPass s
  | .mresRead src channel => Sys2Proof.Machine.execMresRead src channel s
  | .miglimMillisecond => Sys2Proof.Machine.execMiglimMillisecond s

end Sys2Proof.Machine
end

