-- ==== Sys2Proof/Safety.lean ====
section
/-! DEFINITION. The terms in which the statements speak of a machine that runs as it should: the canonical form of memory, a core that
stands ready to take a bundle, a syllable issued alone, and what an instruction leaves unchanged. -/

namespace Sys2Proof.Machine

/-- General memory in canonical form: addresses strictly rising, no byte equal to what an unlisted address reads as. -/
def Memory.wf (m : List Host.Cell) : Bool := mwf (fun _ => (0 : Byte)) m

/-- Core `n` stands at a bundle boundary and takes the bundle `ws` at once: no chip reset holds the package, a context runs on the core, no
syllable has been issued yet, nothing is taken at the boundary in the bundle's place, no interrupt is asked for, no load result and
no long operation is outstanding, no single step is on, and the fetch of `ws` passes its checks. -/
structure Ready (s : State) (n : Nat) (ws : List W32) : Prop where
  free : s.wdr.held = none
  issues : canIssue s n = true
  awake : (core s n).yhalt = false
  empty : (core s n).opened = []
  noGrant : requestGrant s n = s
  go : boundary s n false = none
  noLate : (core s n).late = []
  noLongs : (core s n).longs = []
  noStep : (core s n).stepping = false
  fetch : fetchCause s n (freshHeld ws) = .pass

/-- The condition of a syllable holds on its core (R125). -/
def condOn (s : State) (h : Syl) : Bool := predOf (curRegs s h.core) (h.cond.toNat % 8) != decide (8 ≤ h.cond.toNat)

/-- The well-formed syllable `i` with head `h` makes a whole bundle of its own: its last word has STOP = 1 (R127). -/
structure Whole (h : Syl) (i : Instr) : Prop where
  syl : sylOf i = some h
  wf : wellFormed i = true
  ends : wStop ((encodeSyl i).getLastD 0) = true

/-- The whole syllable `i` is issued on a core that is ready for it, and its condition holds. -/
structure Alone (s : State) (h : Syl) (i : Instr) : Prop extends Whole h i where
  ready : Ready s h.core (encodeSyl i)
  cond : condOn s h = true

/-- The address of the bundle after the one that `i` makes alone. -/
def nextPc (s : State) (n : Nat) (i : Instr) : Nat := (pcAddr s n + 4 * (encodeSyl i).length) % 2 ^ 64

/-- What the syllable `i`, alone in its bundle, sees of the state before it (R130). -/
def viewOf (s : State) (n : Nat) (i : Instr) : View :=
  { pre := s, n := n, a := pcAddr s n, len := 4 * (encodeSyl i).length, pos := 0, word := (encodeSyl i).getD 0 0 }

/-- The bundle that `i` makes alone, and the state with its address passed (R127). -/
def soleBundle (s : State) (n : Nat) (i : Instr) : Bundle := mkBundle n (pcAddr s n) (encodeSyl i)
def passed (s : State) (n : Nat) (i : Instr) : State := passBundle s (soleBundle s n i) true

/-- x and y of a syllable: the low 64 bits of a register. -/
def xreg (s : State) (n : Nat) (r : CReg) : W64 := BitVec.ofNat 64 (capCursor (readC s n r.toNat))

/-- What a register holds after `w` is written to it: c0 discards the write (R43, R133). -/
def kept (r : CReg) (w : CapW) : CapW := if r = 0 then nullW else w

/-- `t` differs from `s` in nothing but the banks, the fault bank and the fetch buffer of core `n`, and in its banks in nothing but
the registers of the current one. -/
structure RegsOnly (s t : State) (n : Nat) : Prop where
  outside : t = { s with cores := s.cores.set n (core t n) }
  inside : core t n = { core s n with banks := (core t n).banks, fbank := (core t n).fbank, fbuf := (core t n).fbuf }
  others : ∀ b, some b ≠ (core s n).cur → bankOf (core t n) b = bankOf (core s n) b
  context : curCtx t n = curCtx s n

/-- `i`, alone in its bundle on core `n`, wrote `w` to register `rd` and did nothing else: every other register, the predicates, RCNT,
PROG, WINCTL, STATUS, SPACE, the signal-unit state, the core's system registers, every other core and all of memory are as before, and the
PCC's cursor has moved past the bundle (R130, R127). -/
structure Wrote (s t : State) (n : Nat) (i : Instr) (rd : CReg) (w : CapW) : Prop where
  dest : readC t n rd.toNat = kept rd w
  regs : ∀ r : CReg, r ≠ rd → readC t n r.toNat = readC s n r.toNat
  rest : curRegs t n = { curRegs s n with
    pcc := setCursor (pcc s n) (nextPc s n i), glob := (curRegs t n).glob, own := (curRegs t n).own, pas := (curRegs t n).pas }
  frame : RegsOnly s t n

/-- The registers of the context of core `n` once the address of `i` has been passed. -/
def after (s : State) (n : Nat) (i : Instr) : CtxRegs := { curRegs s n with pcc := setCursor (pcc s n) (nextPc s n i) }

/-- The context's registers are now `r`, and nothing but them (and the fetch buffer) has changed. -/
structure Left (s t : State) (n : Nat) (r : CtxRegs) : Prop where
  regs : curRegs t n = r
  fault : (core t n).fbank = (core s n).fbank
  frame : RegsOnly s t n

/-- The places of `w` hold what `w` says (c0 discards), every other place what it held, and of the context's other registers `r` says
what they hold. -/
structure Changed (s t : State) (n : Nat) (w : List (RegId × CapW)) (r : CtxRegs) : Prop where
  dest : ∀ p ∈ w, getReg t n p.1 = if p.1 = .null then nullW else p.2
  kept : ∀ id, (∀ p ∈ w, p.1 ≠ id) → getReg t n id = getReg s n id
  rest : curRegs t n = { r with glob := (curRegs t n).glob, own := (curRegs t n).own, pas := (curRegs t n).pas }

/-- A transfer of control: the fetch buffer is empty, and the occurrence of KIND `kind` with `payload` has been traced if DBG traces it;
if not, nothing but the context's registers has changed. -/
structure Jumped (s t : State) (n kind payload : Nat) : Prop where
  flushed : (core t n).fbuf = []
  frame : traced s n (curCtx s n) kind = false → RegsOnly s t n
  record : traced s n (curCtx s n) kind = true →
    mget (fun _ => 0) t.trace (fget s DBG_TRWR_NEXT) = traceWord s n ((curCtx s n).getD 0) kind payload

/-- `t` differs from `s` in nothing but registers of the pages and the event controller's counts. -/
def PagesOnly (s t : State) : Prop := t = { s with regs := t.regs, evtCount := t.evtCount, evtFirst := t.evtFirst }

/-- A capability to which a transfer may go (R158). -/
structure Target (c : CapW) : Prop where
  tag : c.tag = true
  plain : capOtype c = 0
  exec : hasPerm c pEXEC = true
  aligned : capCursor c % 4 = 0

/-- The window moved by CALL (`up`) or RET: CUR, OCC, GUARD one above CUR, and SDEPTH kept (R157, R159, R231). -/
structure Rotated (old new : W32) (up : Bool) : Prop where
  cur : winCur new = (if up then winCur old + 1 else winCur old + 7) % 8
  occ : winOcc new = if up then winOcc old + 1 else winOcc old - 1
  guard_ : winGuard new = (winCur new + 1) % 8
  depth : winSdepth new = winSdepth old

/-- The state for which the lazy save of the signal unit's state is not owed (R261). -/
def noLazySave (s : State) (n : Nat) : Prop := stLAZYP (status s n) = false ∨ stEXL (status s n) = false

/-- Ring 0 with SYSREG: what the instructions of R144 need. -/
def mayPrivileged (s : State) (n : Nat) : Prop := stRING (status s n) = 0 ∧ hasPerm (pcc s n) pSYSREG = true

/-- An aligned access of `src` to address `a` reaches a register: no chip reset holds the package, the requester reaches the window,
the block and the instance are present (R121, R122), a register of the field die is behind a bridge that is up (R420), and one that is
the debug unit's alone is accessed by it (R569). -/
structure Open (s : State) (src : Src) (a : Nat) : Prop where
  free : s.wdr.held = none
  window : inWindows a = true
  reach : reaches s src a = true
  word : a % 4 = 0
  present : Config.present s.variant (blkOf a) = true
  row : ∃ t is, rowOf a = some (t, is) ∧ absentInst s t is = false
  field : fieldDown s a = false
  level : (blkOf a == 0x13 && debugOnly a && src != .debug) = false

/-- `t` differs from `s` in core `n` alone, and there from the core `c` in nothing but registers and the fetch buffer. -/
structure CoreOnly (s t : State) (n : Nat) (c : Core) : Prop where
  outside : t = { s with cores := s.cores.set n (core t n) }
  inside : core t n = { c with banks := (core t n).banks, fbank := (core t n).fbank, fbuf := (core t n).fbuf }
  others : ∀ b, some b ≠ (core s n).cur → bankOf (core t n) b = bankOf (core s n) b
  context : curCtx t n = curCtx s n

/-- Core `n` stands at a boundary with a context running and its clock on, nothing held and no long operation in flight, and an exception would enter
at the first level: no level is active, SSP passes its check (R260), and KENTRY does not lead into the boot ROM. -/
structure Enterable (s : State) (n : Nat) : Prop where
  free : s.wdr.held = none
  present : corePresent s n = true
  clock : clockStopped s n = false
  here : n < s.cores.length
  running : (runningCtx s n).isSome = true
  going : (core s n).halted = false
  unheld : (core s n).held = none
  noLongs : (core s n).longs = []
  noLate : (core s n).late = []
  noStep : (core s n).stepping = false
  level : stEXL (status s n) = false ∧ stDFL (status s n) = false
  ssp : sspFault (ssp s n) = 0
  kentry : inRom (capCursor (core s n).kentry) = false

/-- The first-level entry for the cause `c` has been made on core `n` (R232, R259): EPC and ESTAT hold the PCC and STATUS of before, CAUSE,
FADDR, FINFO and LAZYPTR what R259 gives them, the core runs at KENTRY in ring 0 with EXL = 1, LAZYP = 1 and IE = 0, in the register
window that GUARD names, its pipeline is empty, and no register, no other core and no memory has changed. -/
structure Entered (s t : State) (n : Nat) (c : Cause) : Prop where
  epc : (core t n).epc = pcc s n
  estat : (core t n).estat = status s n
  cause : (core t n).cause = causeWord c
  fadr : (core t n).fadr = c.fadr
  finfo : (core t n).finfo = c.finfo
  lazyptr : (core t n).lazyptr = BitVec.ofNat 64 (lazyOf (ssp s n))
  status : Machine.status t n = mkStatus true (stPRECLONG (Machine.status s n)) (stSYNCST (Machine.status s n)) false true 0 false
  pc : pcc t n = (core s n).kentry
  cur : winCur (curRegs t n).winctl = winGuard (curRegs s n).winctl
  guard_ : winGuard (curRegs t n).winctl = winGuard (curRegs s n).winctl
  occ : winOcc (curRegs t n).winctl = winOcc (curRegs s n).winctl
  empty : (core t n).fbuf = [] ∧ (core t n).opened = [] ∧ (core t n).held = none
  regs : ∀ id, getReg t n id = getReg s n id
  others : ∀ m, m ≠ n → core t m = core s m
  mem : t.mem = s.mem ∧ t.tags = s.tags

/-- CTRL of block `b` has taken ENABLE and QMODE, its STATE is `st`, and no other register and nothing outside the pages has changed. -/
structure CtrlSet (s t : State) (b : Nat) (enable qmode : Bool) (st : Nat) : Prop where
  enable : fon t (CTRL_ENABLE b) = enable
  qmode : fon t (CTRL_QMODE b) = qmode
  state : blkState t b = st
  others : ∀ a, a ≠ CTRL b → a ≠ STATE b → reg t a = reg s a
  only : PagesOnly s t

/-- A context's registers are seated in a bank of core `n`. -/
def Seated (s : State) (n : Nat) : Prop := n < s.cores.length ∧ ∃ b, (core s n).cur = some b ∧ b < (core s n).banks.length

/-- A load's pieces that the L1 data cache of core `n` answers (R211): each lies in general memory, at the place in its word that its
virtual address gives, in a page without SE and in a line that the cache holds. -/
def Hits (s : State) (n : Nat) (ps : List Piece) : Prop :=
  ∀ p ∈ ps, p.leaf.se = false ∧ inMem s p.pa = true ∧ p.pa % 16 = p.va % 16 ∧ (core s n).l1d.contains (p.pa / 64) = true

/-- The state in which core `n` has used the translations of some pieces: their TLB entries count as recently used (R291). -/
def uses (s : State) (n : Nat) (ps : List Piece) : State := ps.foldl (fun t p => tlbUse t n false p.va) s

/-- The bytes of general memory that some pieces cover, in order. -/
def pieceBytes (s : State) (ps : List Piece) : List Byte := (ps.map (fun p => memBytes s p.pa p.len)).flatten

end Sys2Proof.Machine
end

