-- ==== Sys2Proof/Certificates/Slice0/Obligations.lean ====
section
/-! DEFINITION. The statements for the provers, by family of commands. Each says, for every state and operands that meet its hypotheses,
that the command answers a next state and what that state holds; the last ones are about decoding, reset, memory and the step. -/

open Sys2Proof Sys2Proof.Machine

/-- The register-register instructions of U0 (R152). The register-immediate instructions of U0 (R153). The multiply, count and extension
instructions of U1 (R154). The comparisons, PLOG and the binary32 comparisons (R155, R182). -/
def Obligations.IntegerArithmetic : Prop :=
  (∀ (s : State) (h : Syl) (rd rs1 rs2 : CReg),
      let x := xreg s h.core rs1
      let y := xreg s h.core rs2
      let k := y.toNat % 64
      ∀ p ∈ ([(.add h rd rs1 rs2, x + y), (.sub h rd rs1 rs2, x - y), (.and h rd rs1 rs2, x &&& y), (.or h rd rs1 rs2, x ||| y),
          (.xor h rd rs1 rs2, x ^^^ y), (.andn h rd rs1 rs2, x &&& ~~~y), (.sll h rd rs1 rs2, x <<< k), (.srl h rd rs1 rs2, x >>> k),
          (.sra h rd rs1 rs2, x.sshiftRight k), (.rol h rd rs1 rs2, x.rotateLeft k),
          (.min h rd rs1 rs2, if x.slt y then x else y), (.max h rd rs1 rs2, if x.slt y then y else x),
          (.minu h rd rs1 rs2, if x.ult y then x else y), (.maxu h rd rs1 rs2, if x.ult y then y else x),
          (.pack h rd rs1 rs2, BitVec.ofNat 64 (x.toNat % 2 ^ 32 + y.toNat % 2 ^ 32 * 2 ^ 32))] : List (Instr × W64)),
        Alone s h p.1 → ∃ t, exec p.1 s = .next t ∧ Wrote s t h.core p.1 rd (intW p.2.toNat)) ∧
  (∀ (s : State) (h : Syl) (rd rs1 : CReg) (imm : Imm) (kind : BitVec 2) (amount : BitVec 6),
      let x := xreg s h.core rs1
      let k := amount.toNat
      ∀ p ∈ ([(.addi h rd rs1 imm, x + BitVec.ofNat 64 (immSext imm)), (.andi h rd rs1 imm, x &&& BitVec.ofNat 64 (immZext imm)),
          (.ori h rd rs1 imm, x ||| BitVec.ofNat 64 (immZext imm)), (.xori h rd rs1 imm, x ^^^ BitVec.ofNat 64 (immZext imm)),
          (.shi h rd rs1 kind amount, if kind = 0 then x <<< k else if kind = 1 then x >>> k else if kind = 2 then x.sshiftRight k
            else x.rotateLeft k)] : List (Instr × W64)),
        Alone s h p.1 → ∃ t, exec p.1 s = .next t ∧ Wrote s t h.core p.1 rd (intW p.2.toNat)) ∧
  (∀ (s : State) (h : Syl) (rd rs1 rs2 : CReg),
      let x := xreg s h.core rs1
      let y := xreg s h.core rs2
      ∀ p ∈ ([(.mul h rd rs1 rs2, x * y), (.mulh h rd rs1 rs2, BitVec.ofInt 64 (x.toInt * y.toInt / (2 ^ 64 : Nat))),
          (.mulhu h rd rs1 rs2, BitVec.ofNat 64 (x.toNat * y.toNat / 2 ^ 64)),
          (.mulhsu h rd rs1 rs2, BitVec.ofInt 64 (x.toInt * (y.toNat : Int) / (2 ^ 64 : Nat))),
          (.clz h rd rs1, BitVec.ofNat 64 (clzW x)), (.ctz h rd rs1, BitVec.ofNat 64 (ctzW x)),
          (.popc h rd rs1, BitVec.ofNat 64 (popcount 64 x.toNat)), (.bswap h rd rs1, bswapW x),
          (.sextb h rd rs1, (x.setWidth 8).signExtend 64), (.sexth h rd rs1, (x.setWidth 16).signExtend 64),
          (.sextw h rd rs1, (x.setWidth 32).signExtend 64), (.zextb h rd rs1, x &&& 0xFF), (.zexth h rd rs1, x &&& 0xFFFF),
          (.zextw h rd rs1, x &&& 0xFFFFFFFF)] : List (Instr × W64)),
        Alone s h p.1 → ∃ t, exec p.1 s = .next t ∧ Wrote s t h.core p.1 rd (intW p.2.toNat)) ∧
  (∀ (s : State) (h : Syl) (pd ps1 ps2 : PReg) (rs1 rs2 : CReg) (imm : ImmP),
      let x := xreg s h.core rs1
      let y := xreg s h.core rs2
      let z := BitVec.ofNat 64 (immCmp imm).2
      let cc := (immCmp imm).1
      let a := predOf (curRegs s h.core) ps1.toNat
      let b := predOf (curRegs s h.core) ps2.toNat
      let f := x.setWidth 32
      let g := y.setWidth 32
      ∀ p ∈ ([(.cmp h 0 pd rs1 rs2, x == y), (.cmp h 1 pd rs1 rs2, x != y), (.cmp h 2 pd rs1 rs2, x.slt y), (.cmp h 3 pd rs1 rs2, y.sle x),
          (.cmp h 4 pd rs1 rs2, x.ult y), (.cmp h 5 pd rs1 rs2, y.ule x),
          (.cmpi h pd rs1 imm, if cc = 0 then x == z else if cc = 1 then x != z else if cc = 2 then x.slt z else if cc = 3 then z.sle x
            else if cc = 4 then x.ult z else z.ule x),
          (.plog h 0 pd ps1 ps2, a && b), (.plog h 1 pd ps1 ps2, a || b), (.plog h 2 pd ps1 ps2, a ^^ b), (.plog h 3 pd ps1 ps2, a && !b),
          (.feq h pd rs1 rs2, f32Eq f g), (.flt h pd rs1 rs2, f32Lt f g), (.fle h pd rs1 rs2, f32Le f g),
          (.funord h pd rs1 rs2, f32IsNaN f || f32IsNaN g)] : List (Instr × Bool)),
        Alone s h p.1 → (usesSig p.1 = true → noLazySave s h.core) →
        ∃ t, exec p.1 s = .next t ∧
          (∀ k : PReg, predOf (curRegs t h.core) k.toNat = if k = pd ∧ k ≠ 0 then p.2 else predOf (curRegs s h.core) k.toNat) ∧
          Left s t h.core { after s h.core p.1 with preds := (curRegs t h.core).preds })

/-- BR and JMP (R156, R158). CALL, CALLR and RET (R157, R158, R159). -/
def Obligations.JumpsAndCalls : Prop :=
  (∀ (s : State) (h : Syl) (disp : BitVec 19) (rs1 : CReg),
      let n := h.core
      let dest := setCursor (pcc s n) (BitVec.ofNat 64 (pcAddr s n) + disp.signExtend 64 * 4).toNat
      (Alone s h (.br h disp) → ∃ t, exec (.br h disp) s = .next t ∧
        Changed s t n [] { curRegs s n with pcc := dest } ∧ Jumped s t n 1 (capCursor dest % 2 ^ 48)) ∧
      (Alone s h (.jmp h rs1) → Target (readC s n rs1.toNat) → ∃ t, exec (.jmp h rs1) s = .next t ∧
        Changed s t n [] { curRegs s n with pcc := readC s n rs1.toNat } ∧ Jumped s t n 1 (capCursor (readC s n rs1.toNat) % 2 ^ 48))) ∧
  (∀ (s : State) (h : Syl) (disp : BitVec 19) (rs1 : CReg),
      let n := h.core
      let dest := setCursor (pcc s n) (BitVec.ofNat 64 (pcAddr s n) + disp.signExtend 64 * 4).toNat
      let link (i : Instr) := clearGlobal (setCursor (pcc s n) (nextPc s n i))
      let w := (curRegs s n).winctl
      stEXL (status s n) = false →
      (Alone s h (.call h disp) → winOcc w ≠ 7 → ∃ t, exec (.call h disp) s = .next t ∧
        Changed s t n [(regIdOf s n 31, link (.call h disp))] { curRegs s n with pcc := dest, winctl := (curRegs t n).winctl } ∧
        Rotated w (curRegs t n).winctl true ∧ Jumped s t n 1 (capCursor dest % 2 ^ 48)) ∧
      (Alone s h (.callr h rs1) → winOcc w ≠ 7 → Target (readC s n rs1.toNat) → ∃ t, exec (.callr h rs1) s = .next t ∧
        Changed s t n [(regIdOf s n 31, link (.callr h rs1))]
          { curRegs s n with pcc := readC s n rs1.toNat, winctl := (curRegs t n).winctl } ∧
        Rotated w (curRegs t n).winctl true ∧ Jumped s t n 1 (capCursor (readC s n rs1.toNat) % 2 ^ 48)) ∧
      (Alone s h (.ret h) → 1 < winOcc w → Target (readC s n 15) → ∃ t, exec (.ret h) s = .next t ∧
        Changed s t n [] { curRegs s n with pcc := readC s n 15, winctl := (curRegs t n).winctl } ∧
        Rotated w (curRegs t n).winctl false ∧ Jumped s t n 1 (capCursor (readC s n 15) % 2 ^ 48)))

/-- CALLG and RETG (R254, R256). ERET without a reload, at the first level and from a double fault (R263, R264, R234, R275). -/
def Obligations.GatesAndReturns : Prop :=
  (∀ (s : State) (h : Syl) (rs1 : CReg),
      let n := h.core
      let g := readC s n rs1.toNat
      let st := status s n
      let w := (curRegs s n).winctl
      let r := capOtype g - 0xFC0
      let k := capCursor g % 4
      let ret := setOtype (clearGlobal (setCursor (pcc s n) ((nextPc s n (.callg h rs1) + stRING st) % 2 ^ 64))) 0xFC4
      let back := setCursor (setOtype g 0) (capCursor g - k)
      stEXL st = false → g.tag = true →
      (Alone s h (.callg h rs1) → winOcc w ≠ 7 → 0xFC0 ≤ capOtype g → capOtype g ≤ 0xFC3 → r ≤ stRING st → k = 0 →
        capBase g ≤ capCursor g → (capCursor g : Int) < capTop g → ∃ t, exec (.callg h rs1) s = .next t ∧
        Changed s t n [(regIdOf s n 30, setOtype g 0), (regIdOf s n 31, ret)]
          { curRegs s n with
            pcc := setOtype g 0, winctl := (curRegs t n).winctl
            status := mkStatus (stLAZYP st) (stPRECLONG st) (stSYNCST st) (stDFL st) false r (stIE st) } ∧
        Rotated w (curRegs t n).winctl true ∧ Jumped s t n 3 (capCursor g % 2 ^ 48)) ∧
      (Alone s h (.retg h rs1) → 1 < winOcc w → capOtype g = 0xFC4 → stRING st ≤ k → capBase g ≤ (capCursor g : Int) - k →
        (capCursor g : Int) - k < capTop g → ∃ t, exec (.retg h rs1) s = .next t ∧
        Changed s t n []
          { curRegs s n with
            pcc := back, winctl := (curRegs t n).winctl
            status := mkStatus (stLAZYP st) (stPRECLONG st) (stSYNCST st) (stDFL st) false k (stIE st) } ∧
        Rotated w (curRegs t n).winctl false ∧ Jumped s t n 3 (capCursor back % 2 ^ 48))) ∧
  (∀ (s : State) (h : Syl),
      let n := h.core
      let st := status s n
      let e := (core s n).estat
      let d := (core s n).dfstat
      Alone s h (.eret h) → mayPrivileged s n →
      (stDFL st = false → (stEXL st = false ∨ stLAZYP st = true) → Target (core s n).epc → ∃ t, exec (.eret h) s = .next t ∧
        Changed s t n []
          { curRegs s n with
            pcc := (core s n).epc, winctl := (curRegs t n).winctl
            status := mkStatus false (stPRECLONG e) (stSYNCST e) false false (stRING e) (stIE e) } ∧
        winCur (curRegs t n).winctl = (winGuard (curRegs s n).winctl + 7) % 8 ∧
        winGuard (curRegs t n).winctl = (winCur (curRegs t n).winctl + 1) % 8 ∧
        winOcc (curRegs t n).winctl = winOcc (curRegs s n).winctl ∧ winSdepth (curRegs t n).winctl = winSdepth (curRegs s n).winctl ∧
        Jumped s t n 3 (capCursor (core s n).epc % 2 ^ 48)) ∧
      (stDFL st = true → Target (core s n).dfepc → ∃ t, exec (.eret h) s = .next t ∧
        Changed s t n []
          { curRegs s n with
            pcc := (core s n).dfepc
            status := mkStatus (stLAZYP d) (stPRECLONG d) (stSYNCST d) false (stEXL d) (stRING d) (stIE d && !stEXL d) } ∧
        Jumped s t n 3 (capCursor (core s n).dfepc % 2 ^ 48)))

/-- MFU and MTU (R137). MFS and MTS (R171). -/
def Obligations.UserAndSystemRegisters : Prop :=
  (∀ (s : State) (h : Syl) (rd rs1 : CReg) (u : BitVec 6),
      let n := h.core
      let x := (xreg s n rs1).toNat
      (Alone s h (.mfu h rd u) → (usesSig (.mfu h rd u) = true → noLazySave s n) → ∃ t, exec (.mfu h rd u) s = .next t ∧
        Wrote s t n (.mfu h rd u) rd (intW (userRead s n (curRegs s n) u.toNat))) ∧
      (Alone s h (.mtu h rs1 u) → (usesSig (.mtu h rs1 u) = true → noLazySave s n) → ∃ t, exec (.mtu h rs1 u) s = .next t ∧
        Left s t n (userPut (after s n (.mtu h rs1 u)) u.toNat x) ∧
        (u = 1 → (curRegs t n).rcnt = BitVec.ofNat 32 x) ∧ (u = 16 → (curRegs t n).sig.crcpoly = BitVec.ofNat 64 x))) ∧
  (∀ (s : State) (h : Syl) (rd rs1 : CReg) (k : BitVec 8),
      let n := h.core
      let w := readC s n rs1.toNat
      mayPrivileged s n →
      (Alone s h (.mfs h rd k) → ∃ t, exec (.mfs h rd k) s = .next t ∧
        Wrote s t n (.mfs h rd k) rd (sysRead (core s n) (curRegs s n) k.toNat)) ∧
      (Alone s h (.mts h rs1 k) → ∃ t, exec (.mts h rs1 k) s = .next t ∧
        core t n = { sysPutCore (core s n) k.toNat w with banks := (core t n).banks, fbuf := (core t n).fbuf } ∧
        (∀ b, some b ≠ (core s n).cur → bankOf (core t n) b = bankOf (core s n) b) ∧
        curRegs t n = sysPutRegs (after s n (.mts h rs1 k)) k.toNat w ∧ t = { s with cores := s.cores.set n (core t n) } ∧
        (k = 0x10 → (core t n).epc = w) ∧ (k = 0x11 → (core t n).kentry = w) ∧ (k = 0x18 → (core t n).dfentry = w) ∧
        (k = 0x19 → (core t n).dfepc = w)))

/-- WAIT and WAITT that do not block, and those that do (R315). YIELD with IE = 0, and with IE = 1 while no other context of the core is
runnable (R317). -/
def Obligations.WaitsAndYields : Prop :=
  (∀ (s : State) (h : Syl) (rd rs1 rs2 : CReg) (k : Nat),
      let n := h.core
      let s1 := armTimeout s k (xreg s n rs1).toNat (xreg s n rs2).toNat
      curCtx s n = some k →
      (Alone s h (.wait h rd) → (ctxWake s k = true ∨ stIE (status s n) = false) → ∃ t u, exec (.wait h rd) s = .next t ∧
        t = waitTake u k ∧ Wrote s u n (.wait h rd) rd (intW (reasons s k)) ∧
        ctxWake t k = false ∧ reasons t k = 0 ∧ recBits t k 0x300 13 13 = 0 ∧ recBits t k 0x300 36 36 = 0) ∧
      (Alone s h (.waitt h rd rs1 rs2) → (ctxWake s1 k = true ∨ stIE (status s n) = false) → ∃ t u, exec (.waitt h rd rs1 rs2) s = .next t ∧
        t = waitTake u k ∧ Wrote s1 u n (.waitt h rd rs1 rs2) rd (intW (reasons s1 k)) ∧
        ctxWake t k = false ∧ reasons t k = 0 ∧ recBits t k 0x300 13 13 = 0 ∧ recBits t k 0x300 36 36 = 0) ∧
      (stIE (status s n) = true → accepted s 1 1 = false →
        (Alone s h (.wait h rd) → ctxWake s k = false →
          ∃ t, exec (.wait h rd) s = .next t ∧ t = setCtxState (setRecBits s k 0x300 13 13 1) k 1 ∧ ctxState t k = 1) ∧
        (Alone s h (.waitt h rd rs1 rs2) → ctxWake s1 k = false →
          ∃ t, exec (.waitt h rd rs1 rs2) s = .next t ∧ t = setCtxState (setRecBits s1 k 0x300 13 13 1) k 1 ∧ ctxState t k = 1))) ∧
  (∀ (s : State) (h : Syl),
      let n := h.core
      Alone s h (.yield h) →
      (stIE (status s n) = false → ∃ t, exec (.yield h) s = .next t ∧ Left s t n (after s n (.yield h))) ∧
      (stIE (status s n) = true → accepted s 1 1 = false → (∀ p ∈ runnableBanks s n, (core s n).cur = some p.1) →
        ∃ t, exec (.yield h) s = .next t ∧ curRegs t n = after s n (.yield h) ∧ (core t n).yhalt = true ∧
          t = { s with cores := s.cores.set n (core t n) }))

/-- The capability instructions that make a capability (R38, R40–R43). The capability instructions that read a field (R38, R166). -/
def Obligations.Capabilities : Prop :=
  (∀ (s : State) (h : Syl) (rd rs1 rs2 : CReg) (imm : Imm) (e : CapW),
      let c := readC s h.core rs1.toNat
      let a := readC s h.core rs2.toNat
      let y := capCursor a
      let plain := c.tag = true → capOtype c = 0
      let sealer := a.tag = true ∧ capOtype a = 0 ∧ capBase a ≤ capCursor a ∧ (capCursor a : Int) < capTop a
      ∀ p ∈ ([(.kmov h rd rs1, True, c), (.kdrop h rd rs1, True, { c with tag := false }),
          (.kpoint h rd rs1 rs2, plain, setCursor c y), (.kstep h rd rs1 rs2, plain, setCursor c ((capCursor c + y) % 2 ^ 64)),
          (.kstepi h rd rs1 imm, plain, setCursor c ((capCursor c + immSext imm) % 2 ^ 64)),
          (.ktrim h rd rs1 rs2, plain, setPerm c (capPerm c &&& (y % 2 ^ 16 &&& 0x3FFF))),
          (.kclip h rd rs1 rs2, kClip c y false = .ok e, e), (.kclips h rd rs1 rs2, kClip c y true = .ok e, e),
          (.kwrap h rd rs1 rs2, plain ∧ sealer ∧ hasPerm a pSEAL = true ∧
            ((1 ≤ y ∧ y ≤ 4031 ∧ typeRevoked s y = false) ∨
              (0xFC0 ≤ y ∧ y ≤ 0xFC3 ∧ (c.tag = true → hasPerm c pEXEC = true) ∧ hasPerm a pGATE = true)), setOtype c y),
          (.kunwrap h rd rs1 rs2, sealer ∧ hasPerm a pUNSEAL = true ∧ typeRevoked s y = false ∧
            (c.tag = true → 1 ≤ capOtype c ∧ capOtype c ≤ 4031 ∧ y = capOtype c),
            if hasPerm c pGLOBAL && hasPerm a pGLOBAL then setOtype c 0 else clearGlobal (setOtype c 0))] : List (Instr × Prop × CapW)),
        p.2.1 → Alone s h p.1 → ∃ t, exec p.1 s = .next t ∧ Wrote s t h.core p.1 rd p.2.2) ∧
  (∀ (s : State) (h : Syl) (rd rs1 : CReg),
      let c := readC s h.core rs1.toNat
      ∀ p ∈ ([(.krcur h rd rs1, capCursor c), (.krbase h rd rs1, (capBase c % (2 ^ 64 : Nat)).toNat),
          (.krlen h rd rs1, min (capTop c - capBase c).toNat (2 ^ 64 - 1)), (.krperm h rd rs1, capPerm c), (.krtype h rd rs1, capOtype c),
          (.krtag h rd rs1, if c.tag then 1 else 0)] : List (Instr × Nat)),
        Alone s h p.1 → ∃ t, exec p.1 s = .next t ∧ Wrote s t h.core p.1 rd (intW p.2))

/-- What a clipped capability may reach: never more than the one it was made from (R26, R40). -/
def Obligations.ClipNeverWidens : Prop :=
  ∀ (c w : CapW) (y : Nat) (exact : Bool), kClip c y exact = .ok w → w.tag = true → y < 2 ^ 64 →
    c.tag = true ∧ capBase c ≤ capBase w ∧ capTop w ≤ capTop c ∧ capBase w ≤ capCursor w ∧ ((capCursor w : Int) + y ≤ capTop w) ∧
      capCursor w = capCursor c ∧ capPerm w = capPerm c ∧ capOtype w = 0 ∧
      (exact = true → capBase w = capCursor c ∧ capTop w = capCursor c + (if y = 0 then 1 else y : Nat))

/-- The accumulators (R177, R178). CRCSTEP, PARITY and BITREV (R179, R180). -/
def Obligations.SignalUnit : Prop :=
  (∀ (s : State) (h : Syl) (rd rs1 rs2 : CReg) (ad : AReg),
      let n := h.core
      let x := xreg s n rs1
      let y := xreg s n rs2
      let g := (curRegs s n).sig
      let a := (g.acc.getD ad.toNat 0).toInt
      let ps := (x.setWidth 32).toInt * (y.setWidth 32).toInt
      let pu : Int := ((x.setWidth 32).toNat * (y.setWidth 32).toNat : Nat)
      let k := min (y.toNat % 128) 79
      let q := a / (2 ^ k : Nat)
      let lim : Int := (2 ^ 63 : Nat)
      noLazySave s n →
      (∀ p ∈ ([(.macs h ad rs1 rs2, a + ps), (.macu h ad rs1 rs2, a + pu), (.msus h ad rs1 rs2, a - ps), (.msuu h ad rs1 rs2, a - pu),
          (.muls h ad rs1 rs2, ps), (.mulu h ad rs1 rs2, pu), (.aclr h ad, 0), (.wracc h ad rs1, x.toInt),
          (.ashr h ad rs2, q)] : List (Instr × Int)),
        Alone s h p.1 → ∃ t, exec p.1 s = .next t ∧
          Left s t n { after s n p.1 with sig := { g with acc := putAt 0 g.acc ad.toNat (BitVec.ofInt 80 p.2) } }) ∧
      (Alone s h (.rdacc h rd ad rs2) → ∃ t, exec (.rdacc h rd ad rs2) s = .next t ∧
        Wrote s t n (.rdacc h rd ad rs2) rd
          (intW (BitVec.ofInt 64 (if y.getLsbD 7 then max (-lim) (min q (lim - 1)) else q)).toNat))) ∧
  (∀ (s : State) (h : Syl) (rd rs1 rs2 : CReg) (size : BitVec 2),
      let n := h.core
      let x := xreg s n rs1
      let y := xreg s n rs2
      let poly := (curRegs s n).sig.crcpoly
      let w := y.toNat % 64 + 1
      let step (c : W64) (b : Bool) : W64 := if c.getLsbD 0 != b then (c >>> 1) ^^^ poly else c >>> 1
      (Alone s h (.crcstep h size rd rs1 rs2) → noLazySave s n → ∃ t, exec (.crcstep h size rd rs1 rs2) s = .next t ∧
        Wrote s t n (.crcstep h size rd rs1 rs2) rd
          (intW (((List.range (8 * 2 ^ size.toNat)).map (fun i => y.getLsbD i)).foldl step x).toNat)) ∧
      (Alone s h (.parity h rd rs1) → ∃ t, exec (.parity h rd rs1) s = .next t ∧
        Wrote s t n (.parity h rd rs1) rd (intW (((List.range 64).filter (fun i => x.getLsbD i)).length % 2))) ∧
      (Alone s h (.bitrev h rd rs1 rs2) → ∃ t v, exec (.bitrev h rd rs1 rs2) s = .next t ∧
        Wrote s t n (.bitrev h rd rs1 rs2) rd (intW v) ∧ v < 2 ^ w ∧ ∀ i < w, v.testBit i = x.getLsbD (w - 1 - i)))

/-- The binary32 instructions that write a register (R181, R182). -/
def Obligations.FloatingPoint : Prop :=
  ∀ (s : State) (h : Syl) (rd rs1 rs2 : CReg),
    let x := (xreg s h.core rs1).setWidth 32
    let y := (xreg s h.core rs2).setWidth 32
    let z := (xreg s h.core rd).setWidth 32
    ∀ p ∈ ([(.fadd h rd rs1 rs2, (f32Add x y).setWidth 64), (.fsub h rd rs1 rs2, (f32Sub x y).setWidth 64),
        (.fmul h rd rs1 rs2, (f32Mul x y).setWidth 64), (.fmadd h rd rs1 rs2, (f32Fma z x y).setWidth 64),
        (.fmin h rd rs1 rs2, (f32Min x y).setWidth 64), (.fmax h rd rs1 rs2, (f32Max x y).setWidth 64),
        (.fabs h rd rs1, (x &&& 0x7FFFFFFF).setWidth 64), (.fneg h rd rs1, (x ^^^ 0x80000000).setWidth 64),
        (.fcvtws h rd rs1, BitVec.ofInt 64 (f32ToInt x)), (.fcvtsw h rd rs1, (f32OfInt x.toInt).setWidth 64)] : List (Instr × W64)),
      Alone s h p.1 → ∃ t, exec p.1 s = .next t ∧ Wrote s t h.core p.1 rd (intW p.2.toNat)

/-- A syllable whose condition is false (R125, R126). NOP, and the barriers with nothing outstanding (R87, R172, R221, R228, R298). A
barrier that has something to wait for holds its bundle (R87, R221, R228, R298). -/
def Obligations.SkipsAndBarriers : Prop :=
  (∀ (s : State) (h : Syl) (i : Instr), Whole h i → Ready s h.core (encodeSyl i) → condOn s h = false →
      ∃ t, exec i s = .next t ∧ Left s t h.core (after s h.core i)) ∧
  (∀ (s : State) (h : Syl),
      let n := h.core
      let c := core s n
      ∀ p ∈ ([(.nop h, True), (.mbar h, c.sb = []), (.sbar h, c.sb = [] ∧ (stEXL (status s n) = true ∨ (curRegs s n).late = none)),
          (.lbar h, True), (.ibar h, c.icinvWait = 0), (.tlbsync h, c.tlbWait = 0 ∧ mayPrivileged s n)] : List (Instr × Prop)),
        Alone s h p.1 → p.2 → ∃ t, exec p.1 s = .next t ∧ Left s t n (after s n p.1) ∧ (p.1 = .ibar h → (core t n).fbuf = [])) ∧
  (∀ (s : State) (h : Syl),
      let n := h.core
      let c := core s n
      ∀ p ∈ ([(.mbar h, Hold.stores, c.sb ≠ []), (.sbar h, Hold.stores, c.sb ≠ []), (.ibar h, Hold.icinv, c.icinvWait ≠ 0),
          (.tlbsync h, Hold.tlbsync, c.tlbWait ≠ 0 ∧ mayPrivileged s n)] : List (Instr × Hold × Prop)),
        Alone s h p.1 → p.2.2 → ∃ t, exec p.1 s = .next t ∧
          t = updCore s n (fun c => { c with held := some { freshHeld (encodeSyl p.1) with why := p.2.1 } }))

/-- REP and REPN over an ADDI of a register to itself (R191, R193, R194, R196). -/
def Obligations.Repeats : Prop :=
  ∀ (s : State) (h g : Syl) (k : BitVec 6) (rd : CReg) (v : BitVec 8),
    let n := h.core
    let i : Instr := .addi g rd rd (.short v)
    let next := (pcAddr s n + 4) % 2 ^ 64
    let sum (j : Nat) : CapW := intW (xreg s n rd + BitVec.ofNat 64 j * v.signExtend 64).toNat
    let pc := setCursor (pcc s n) ((pcAddr s n + 8) % 2 ^ 64)
    let r := (curRegs s n).rcnt.toNat
    g.core = n → Whole g i → condOn s g = true → rd ≠ 0 → targetRead s n [] next = (s, .words (encodeSyl i)) →
    (Alone s h (.rep h) → ∃ t, exec (.rep h) s = .next t ∧ RegsOnly s t n ∧
      readC t n rd.toNat = (if r = 0 then readC s n rd.toNat else sum r) ∧
      (∀ q : CReg, q ≠ rd → readC t n q.toNat = readC s n q.toNat) ∧
      curRegs t n = { curRegs s n with pcc := pc, rcnt := 0, glob := (curRegs t n).glob, own := (curRegs t n).own, pas := (curRegs t n).pas }) ∧
    (Alone s h (.repn h k) → bit (curRegs s n).prog.toNat 63 = false → ∃ t, exec (.repn h k) s = .next t ∧ RegsOnly s t n ∧
      readC t n rd.toNat = sum (k.toNat + 1) ∧ (∀ q : CReg, q ≠ rd → readC t n q.toNat = readC s n q.toNat) ∧
      curRegs t n = { curRegs s n with pcc := pc, prog := 0, glob := (curRegs t n).glob, own := (curRegs t n).own, pas := (curRegs t n).pas })

/-- TRAP and BRK enter the handler (R160, R232, R259). The events that interrupt a program enter the handler with their cause and are used
up (R185, R219, R220, R271, R348, R515). -/
def Obligations.ExceptionEntry : Prop :=
  (∀ (s : State) (h : Syl) (code : BitVec 7),
      let n := h.core
      Enterable s n →
      (Alone s h (.trap h code) → ∃ t, exec (.trap h code) s = .next t ∧
        Entered s t n (mkCause 0x70 code.toNat (nextPc s n (.trap h code)) 0)) ∧
      (Alone s h (.brk h code) → ∃ t, exec (.brk h code) s = .next t ∧ Entered s t n (mkCause 0x71 0 (nextPc s n (.brk h code)) 0))) ∧
  (∀ (s : State) (n : Nat) (a : Cause) (l : List Cause) (r : LateReport) (g : Grant) (op : LongOp),
      Enterable s n →
      (dueError s n = some op → ∃ t, exec (.longOperationError n) s = .next t ∧ Entered s t n (longCause op true) ∧
        (core t n).longErrs = (core s n).longErrs.erase op ∧ (core t n).lopc = op.lopc) ∧
      (dueError s n = none → stIE (status s n) = true →
        ((core s n).alerts = a :: l → a.code = 0x60 → ∃ t, exec (.twinAlert n) s = .next t ∧ Entered s t n a ∧ (core t n).alerts = l) ∧
        ((core s n).alerts = [] →
          ((curRegs s n).late = some r → ∃ t, exec (.lateStoreError n) s = .next t ∧ Entered s t n (lateCause r true) ∧
            (curRegs t n).late = none) ∧
          ((curRegs s n).late = none → (core s n).grant = some g → ∃ t, exec (.interrupt n) s = .next t ∧ Entered s t n (grantCause g) ∧
            (core t n).grant = none))))

/-- Loads that hit the L1 data cache (R162, R188, R189, R208). A load miss holds its bundle for the line; stores of the buffer hold a load
that meets them and one of an SE page, and a flash command in progress holds one of the flash window (R163, R211, R218, R550). -/
def Obligations.Loads : Prop :=
  (∀ (s : State) (h : Syl) (rd cs : CReg) (am : Addr) (ps : List Piece) (q : Piece),
      let n := h.core
      let c := readC s n cs.toNat
      let a (len : Nat) := effAddr (capCursor c) am len
      let post (len : Nat) : List (RegId × CapW) :=
        if postMode am then [(regIdOf s n cs.toNat, setCursor c (postCursor (curRegs s n).sig (capCursor c) am len))] else []
      let owes (ps : List Piece) (i : Instr) (len : Nat) (w : CapW) : Prop :=
        Alone s h i → (postMode am = true → noLazySave s n) → (core s n).sb = [] →
          ∃ t, exec i s = .next t ∧ Changed s t n (post len) (after s n i) ∧
            CoreOnly (uses s n ps) t n { core (uses s n ps) n with late := [(regIdOf s n rd.toNat, w)] } ∧
            readC (applyLate t n) n rd.toNat = kept rd w
      (∀ p ∈ ([(.ldb h rd cs am, 1, true), (.ldbu h rd cs am, 1, false), (.ldh h rd cs am, 2, true), (.ldhu h rd cs am, 2, false),
          (.ldw h rd cs am, 4, true), (.ldwu h rd cs am, 4, false), (.ldd h rd cs am, 8, false)] : List (Instr × Nat × Bool)),
        checkAccess s n [] (curRegs s n).space.toNat (stRING (status s n)) c .load none (a p.2.1) p.2.1 = .go ps → Hits s n ps →
          owes ps p.1 p.2.1 (intW (if p.2.2 then sext (8 * p.2.1) (leVal (pieceBytes s ps)) else leVal (pieceBytes s ps)))) ∧
      (checkAccess s n [] (curRegs s n).space.toNat (stRING (status s n)) c .capload none (a 16) 16 = .go [q] → Hits s n [q] →
        owes [q] (.ldc h rd cs am) 16 { memWord s q.pa with tag := memTag s q.pa && hasPerm c pLOADCAP && q.leaf.cl })) ∧
  (∀ (s : State) (h : Syl) (rd cs : CReg) (am : Addr) (q : Piece),
      let n := h.core
      let c := readC s n cs.toNat
      let holds (i : Instr) (w : Hold) : Prop := ∃ t, exec i s = .next t ∧
        t = updCore s n (fun c => { c with held := some { freshHeld (encodeSyl i) with why := w } })
      ∀ p ∈ ([(.ldb h rd cs am, 1), (.ldbu h rd cs am, 1), (.ldh h rd cs am, 2), (.ldhu h rd cs am, 2), (.ldw h rd cs am, 4),
          (.ldwu h rd cs am, 4), (.ldd h rd cs am, 8), (.ldc h rd cs am, 16)] : List (Instr × Nat)),
        Alone s h p.1 → (postMode am = true → noLazySave s n) → checkAccess s n [] (curRegs s n).space.toNat (stRING (status s n)) c
          (if p.2 = 16 then .capload else .load) none (effAddr (capCursor c) am p.2) p.2 = .go [q] →
        (q.leaf.se = false → cacheable s q.pa = true → forward (core s n).sb q.pa q.len = .clear →
          (core s n).l1d.contains (q.pa / 64) = false → holds p.1 (.miss (q.pa / 64))) ∧
        (q.leaf.se = false → forward (core s n).sb q.pa q.len = .wait → holds p.1 .stores) ∧
        (q.leaf.se = true → (core s n).sb ≠ [] → holds p.1 .stores) ∧
        (q.leaf.se = true → (core s n).sb = [] → inFlash q.pa = true → s.boot.flash = true → holds p.1 .flash))

/-- Stores enter the store buffer (R162, R188, R206, R216). A store that crosses a 16-byte boundary enters two parts (R164, R216). -/
def Obligations.Stores : Prop :=
  (∀ (s : State) (h : Syl) (rs cs : CReg) (am : Addr) (ps : List Piece) (q : Piece),
      let n := h.core
      let c := readC s n cs.toNat
      let w := readC s n rs.toNat
      let post (len : Nat) : List (RegId × CapW) :=
        if postMode am then [(regIdOf s n cs.toNat, setCursor c (postCursor (curRegs s n).sig (capCursor c) am len))] else []
      ∀ p ∈ ([(.stb h rs cs am, 1, false), (.sth h rs cs am, 2, false), (.stw h rs cs am, 4, false), (.std h rs cs am, 8, false),
          (.stc h rs cs am, 16, true)] : List (Instr × Nat × Bool)),
        let a := effAddr (capCursor c) am p.2.1
        let reqs := storeReqs (p.2.2 && w.tag) p.2.2 false 0 ps (leBytes p.2.1 w.bits.toNat)
        let u := fetchBehind s n [(pcAddr s n, encodeSyl p.1)]
        let v := enterStores n reqs u
        Alone s h p.1 → (postMode am = true → noLazySave s n) → stSYNCST (status s n) = false → bufferFull s n reqs = false →
        checkAccess s n [] (curRegs s n).space.toNat (stRING (status s n)) c (if p.2.2 then .capstore else .store)
          (if p.2.2 then some w else none) a p.2.1 = .go ps →
        ∃ t, exec p.1 s = .next t ∧ Changed s t n (post p.2.1) (after s n p.1) ∧ CoreOnly v t n (core v n) ∧
          ((core s n).sb = [] → ps = [q] →
            (core t n).sb = [{ id := u.seq, word := q.pa / 16, mask := byteMask (q.pa % 16) p.2.1
                               data := mergeWord 0 (q.pa % 16) (leBytes p.2.1 w.bits.toNat), tag := p.2.2 && w.tag, cap := p.2.2
                               pa := q.pa, va := BitVec.ofNat 64 a, ctx := (curCtx s n).getD 0, se := q.leaf.se, tw := q.leaf.tw
                               sent := false, answer := none, sync := none, orphan := false }])) ∧
  (∀ (s : State) (h : Syl) (rs cs : CReg) (am : Addr) (q r : Piece),
      let n := h.core
      let c := readC s n cs.toNat
      let bytes (len : Nat) := leBytes len (readC s n rs.toNat).bits.toNat
      ∀ p ∈ ([(.sth h rs cs am, 2), (.stw h rs cs am, 4), (.std h rs cs am, 8)] : List (Instr × Nat)),
        let u := fetchBehind s n [(pcAddr s n, encodeSyl p.1)]
        Alone s h p.1 → (postMode am = true → noLazySave s n) → stSYNCST (status s n) = false → (core s n).sb = [] →
        checkAccess s n [] (curRegs s n).space.toNat (stRING (status s n)) c .store none (effAddr (capCursor c) am p.2) p.2 = .go [q, r] →
        q.pa / 16 ≠ r.pa / 16 →
        ∃ t, exec p.1 s = .next t ∧ (postMode am = false → curRegs t n = after s n p.1) ∧ t.mem = u.mem ∧ t.tags = u.tags ∧
          q.len + r.len = p.2 ∧
          (core t n).sb.map (fun e => (e.word, e.mask, e.data)) =
            [(q.pa / 16, byteMask (q.pa % 16) q.len, mergeWord 0 (q.pa % 16) ((bytes p.2).take q.len)),
             (r.pa / 16, byteMask (r.pa % 16) r.len, mergeWord 0 (r.pa % 16) ((bytes p.2).drop q.len))])

/-- What a queue instruction offers, takes and reports (R167–R170). -/
def Obligations.QueueInstructions : Prop :=
  ∀ (s : State) (h : Syl) (rd rs1 rs2 : CReg),
    let n := h.core
    let q := readC s n rs1.toNat
    let g (k : Nat) := readC s n (rs2.toNat + k)
    let head := (g 0).bits.toNat
    let req : PutReq :=
      { queue := capCursor q, sender := (curCtx s n).getD 0, ring := some (stRING (status s n)), cls := bits head 17 14
        axis := bits head 33 30, flags := bits head 47 34, plen := bits head 53 48, payload := [g 1, g 2, g 3], fromEvt := false }
    let own (k : Nat) (w : CapW) : RegId × CapW := (regIdOf s n k, w)
    let chk (perm sub : Nat) := queueCapChk q perm sub = none ∧ queueBounds q [0] = none
    let loads := payloadChk q (bits head 53 48) [(1, g 1), (2, g 2), (3, g 3)] = none
    (Alone s h (.qput h rd rs1 rs2) → (core s n).sb = [] → chk pSTORE 2 → loads → ∃ t, exec (.qput h rd rs1 rs2) s = .next t ∧
      CoreOnly (queuePut s req).1 t n { core (queuePut s req).1 n with late := [own rd.toNat (intW (queuePut s req).2)] } ∧
      curRegs t n = after s n (.qput h rd rs1 rs2)) ∧
    (Alone s h (.qget h rd rs1 rs2) → chk pLOAD 1 → ∃ t u st ws, exec (.qget h rd rs1 rs2) s = .next t ∧
      queueGet s (capCursor q) (some (stRING (status s n))) = (u, st, ws) ∧
      CoreOnly u t n
        { core u n with
          late := (ws.zipIdx.map (fun p => own (rs2.toNat + p.2) { p.1 with tag := p.1.tag && p.2 != 0 && hasPerm q pLOADCAP })) ++
            [own rd.toNat (intW st)] } ∧
      curRegs t n = after s n (.qget h rd rs1 rs2)) ∧
    (Alone s h (.qputm h rd rs1 rs2) → (core s n).sb = [] → queueCapChk q pSTORE 2 = none →
      queueBounds q (maskBits (capCursor (readC s n rd.toNat) % 2 ^ 16)) = none → loads → ∃ t u ok fail first,
      exec (.qputm h rd rs1 rs2) s = .next t ∧
      multiput req (capCursor q) (axisPos s req.axis) (maskBits (capCursor (readC s n rd.toNat) % 2 ^ 16)) s 0 0 0 = (u, ok, fail, first) ∧
      CoreOnly u t n { core u n with late := [own rd.toNat (intW (multiReport ok fail first))] } ∧
      curRegs t n = after s n (.qputm h rd rs1 rs2))

/-- The long operations enter the unit (R183, R184). A long operation finishes: it writes its result, or keeps its error for the next
boundary; under PRECLONG the bundle that waits for its own operation goes on (R184–R187). -/
def Obligations.LongOperations : Prop :=
  (∀ (s : State) (h : Syl) (rd rs1 rs2 : CReg),
      let n := h.core
      let x := xreg s n rs1
      let y := xreg s n rs2
      let y2 := xreg s n (rs2 ||| 1)
      let f := x.setWidth 32
      let g := y.setWidth 32
      let st := status s n
      ∀ p ∈ ([(.div h rd rs1 rs2, 0, if y = 0 then none else some (x.sdiv y)), (.divu h rd rs1 rs2, 1, if y = 0 then none else some (x / y)),
          (.rem h rd rs1 rs2, 2, if y = 0 then none else some (x - y * x.sdiv y)), (.remu h rd rs1 rs2, 3, if y = 0 then none else some (x % y)),
          (.fdiv h rd rs1 rs2, 4, some ((f32Div f g).setWidth 64)), (.fsqrt h rd rs1, 5, some ((f32Sqrt f).setWidth 64)),
          (.crcp h rd rs1 rs2, 6, some (crcPair (curRegs s n).sig.crcpoly x y.toNat y2.toNat))] : List (Instr × Nat × Option W64)),
        Alone s h p.1 → (usesSig p.1 = true → noLazySave s n) → stPRECLONG st = false → ∃ t, exec p.1 s = .next t ∧
          CoreOnly s t n
            { core s n with
              longs := [{ dest := regIdOf s n rd.toNat, rd := rd.toNat, fn := p.2.1, result := p.2.2, lopc := BitVec.ofNat 64 (pcAddr s n)
                          lvl := if stDFL st then 2 else if stEXL st then 1 else 0 }] } ∧
          curRegs t n = after s n p.1) ∧
  (∀ (s : State) (n k : Nat) (op : LongOp) (h : Held),
      s.wdr.held = none → Seated s n →
      ((core s n).longs[k]? = some op → ∃ t u, exec (.longOperationFinish n k) s = .next t ∧ t = retry u n ∧
        ((core s n).held = none → (core s n).tlbAcks = [] → t = u) ∧ (core u n).held = (core s n).held ∧
        (core u n).longs = (core s n).longs.eraseIdx k ∧ u.mem = s.mem ∧ u.regs = s.regs ∧ (∀ m, m ≠ n → core u m = core s m) ∧
        (∀ id, id ≠ op.dest → getReg u n id = getReg s n id) ∧
        (core u n).longErrs = (if op.result = none then (core s n).longErrs ++ [op] else (core s n).longErrs) ∧
        getReg u n op.dest = (if op.dest = .null then nullW else match op.result with
          | some v => intW v.toNat
          | none => getReg s n op.dest)) ∧
      ((core s n).longs = [] → (core s n).held = some h → h.why = .longs → ∃ t, exec (.longOperationFinish n k) s = .next t ∧
        t = retry (updCore s n (fun c => { c with held := some { h with longOk := true } })) n))

/-- ICINV and TLBINV send an invalidation to every core (R173, R228, R296, R297). Invalidations received are carried out and acknowledged
(R173, R228, R297). -/
def Obligations.Invalidations : Prop :=
  (∀ (s : State) (h : Syl) (rs1 : CReg) (l : Leaf) (pa k : Nat),
      let n := h.core
      let c := readC s n rs1.toNat
      let a := capCursor c
      let all := Config.cores s.variant
      k < all → all ≤ s.cores.length →
      (Alone s h (.icinv h rs1) → c.tag = true → capOtype c = 0 → (hasPerm c pSTORE = true ∨ hasPerm c pEXEC = true) → canonical a = true →
        cursorIn c = true → translate s n [] (curRegs s n).space.toNat (a % 2 ^ 48) = .page l pa → stRING (status s n) ≤ l.minring → l.r = true →
        ∃ t, exec (.icinv h rs1) s = .next t ∧ (core t k).icinvRx = (core s k).icinvRx ++ [(n, pa / 64)] ∧
          (core t n).icinvWait = (core s n).icinvWait + all ∧ curRegs t n = after s n (.icinv h rs1) ∧ t = { s with cores := t.cores }) ∧
      (Alone s h (.tlbinv h rs1) → mayPrivileged s n → ∃ t, exec (.tlbinv h rs1) s = .next t ∧
        (core t k).tlbRx = (core s k).tlbRx ++ [(n, xreg s n rs1)] ∧ (core t n).tlbWait = (core s n).tlbWait + all ∧
        curRegs t n = after s n (.tlbinv h rs1) ∧ reg t TRANS_INV_CNT = satInc (reg s TRANS_INV_CNT) ∧
        t = { s with cores := t.cores, regs := t.regs })) ∧
  (∀ (s : State) (n who line : Nat) (x : W64) (l : List (Nat × W64)) (m : List (Nat × Nat)),
      let c := core s n
      let ids := if c.halted then [] else (c.sb.filter (fun e => !e.orphan)).map (fun e => e.id)
      let bundle := !c.halted && c.held.any (heldBegun n)
      s.wdr.held = none → n < s.cores.length →
      (c.icinvRx = (who, line) :: m → who < s.cores.length → ∃ t u, exec (.icinvReceipt n) s = .next t ∧ t = retry u who ∧
        (core u n).icinvRx = m ∧ (core u n).l1i = c.l1i.filter (fun y => y.line != line) ∧
        (core u who).icinvWait = (core s who).icinvWait - 1 ∧ u = { s with cores := u.cores }) ∧
      (c.tlbRx = (who, x) :: l → ∃ t u, exec (.tlbInvalidationReceipt n) s = .next t ∧ t = sendAcks 17 u n ∧
        u = { s with cores := s.cores.set n (core u n) } ∧ (core u n).tlbRx = l ∧ (core u n).fbuf = [] ∧
        (core u n).utlb = c.utlb.filter (fun e => !invMatches x.toNat e) ∧ (core u n).dtlb = c.dtlb.filter (fun e => !invMatches x.toNat e) ∧
        (core u n).itlb = c.itlb.filter (fun e => !invMatches x.toNat e) ∧ (core u n).tlbAcks = c.tlbAcks ++ [(who, ids, bundle)] ∧
        (c.tlbAcks = [] →
          ((ids ≠ [] ∨ bundle = true) → t = u) ∧
          (ids = [] → c.held = none → who < s.cores.length → (core s who).held = none → (core s who).tlbAcks = [] →
            (core t n).tlbAcks = [] ∧ (core t who).tlbWait = (core s who).tlbWait - 1 ∧ t = { s with cores := t.cores }))))

/-- STM and LDM (R196, R198, R200). CRCBLK over up to one word, and MCOPY of nothing and of one granule (R198, R201, R202). A granule of
MCOPY is copied, and its bundle is taken up again (R51, R62, R203). -/
def Obligations.BlockInstructions : Prop :=
  (∀ (s : State) (h : Syl) (rs1 rs2 : CReg) (pc : Nat → Piece),
      let n := h.core
      let c := readC s n rs1.toNat
      let a := capCursor c
      let l := maskRegs ((xreg s n rs2).toNat % 2 ^ 32)
      let m := l.length
      let reg (j : Nat) := l.getD j 0
      let u := fetchBehind s n [(pcAddr s n, encodeSyl (.stm h rs1 rs2))]
      let check (s : State) (k : Kind) (v : Option CapW) (j : Nat) :=
        checkHalf s n [] (curRegs s n).space.toNat (stRING (status s n)) c k v false false ((a + 16 * j) % 2 ^ 64) 16 = .go [pc j]
      (core s n).sb = [] → (core s n).granules = [] → bit (curRegs s n).prog.toNat 63 = false →
      (Alone s h (.ldm h rs1 rs2) → (m ≠ 0 → a % 16 = 0 ∧ capCheck c .capload none a (16 * m) = none) →
        (∀ j < m, check s .capload none j ∧ Hits s n [pc j]) → ∃ (t : State) (js : List Nat), exec (.ldm h rs1 rs2) s = .next t ∧
        js.Perm (List.range m) ∧ RegsOnly (uses s n (js.map pc)) t n ∧
        (∀ j < m, readC t n (reg j) = if reg j = 0 then nullW else
          { memWord s (pc j).pa with tag := memTag s (pc j).pa && hasPerm c pLOADCAP && (pc j).leaf.cl }) ∧
        (∀ q : CReg, q.toNat ∉ l → readC t n q.toNat = readC s n q.toNat) ∧
        curRegs t n = { after s n (.ldm h rs1 rs2) with
          prog := 0, glob := (curRegs t n).glob, own := (curRegs t n).own, pas := (curRegs t n).pas }) ∧
      (Alone s h (.stm h rs1 rs2) → stSYNCST (status s n) = false → m ≤ 8 →
        (m ≠ 0 → a % 16 = 0 ∧ capCheck c .capstore none a (16 * m) = none) →
        (∀ j < m, storeCapFault c (readC s n (reg j)) = none ∧ check u .capstore (some (readC s n (reg j))) j ∧ (pc j).pa % 16 = 0) →
        ∃ t, exec (.stm h rs1 rs2) s = .next t ∧ curRegs t n = { after s n (.stm h rs1 rs2) with prog := 0 } ∧ t.mem = u.mem ∧ t.tags = u.tags ∧
        (core t n).sb.map (fun e => (e.word, e.mask, e.data, e.tag)) =
          (List.range m).map (fun j => ((pc j).pa / 16, (0xFFFF : BitVec 16), (readC s n (reg j)).bits, (readC s n (reg j)).tag)))) ∧
  (∀ (s : State) (h : Syl) (rd rs1 rs2 : CReg) (p d : Piece),
      let n := h.core
      let c := readC s n rs1.toNat
      let a := capCursor c
      let b := readC s n (rs1.toNat + 1)
      let y := (xreg s n rs2).toNat
      let go (c : CapW) (k : Kind) (x len : Nat) (q : Piece) :=
        checkHalf s n [] (curRegs s n).space.toNat (stRING (status s n)) c k none false false x len = .go [q]
      (core s n).sb = [] → (core s n).granules = [] → bit (curRegs s n).prog.toNat 63 = false →
      (Alone s h (.crcblk h rd rs1 rs2) → y ≤ 16 - a % 16 → (y ≠ 0 → capCheck c .load none a y = none ∧ go c .load a y p ∧ Hits s n [p]) →
        ∃ t, exec (.crcblk h rd rs1 rs2) s = .next t ∧ RegsOnly (if y = 0 then s else uses s n [p]) t n ∧
        (y = 0 → readC t n rd.toNat = readC s n rd.toNat) ∧
        (y ≠ 0 → readC t n rd.toNat = kept rd (intW (crcBytes (curRegs s n).sig.crcpoly (memBytes s p.pa y) (xreg s n rd)).toNat)) ∧
        (∀ q : CReg, q ≠ rd → readC t n q.toNat = readC s n q.toNat) ∧
        curRegs t n = { after s n (.crcblk h rd rs1 rs2) with
          prog := 0, glob := (curRegs t n).glob, own := (curRegs t n).own, pas := (curRegs t n).pas }) ∧
      (Alone s h (.mcopy h rd rs1 rs2) → y = 0 → capCheck b .load none (capCursor b) 0 = none → capCheck c .store none a 0 = none →
        ∃ t, exec (.mcopy h rd rs1 rs2) s = .next t ∧ RegsOnly s t n ∧ readC t n rd.toNat = nullW ∧
        (∀ q : CReg, q ≠ rd → readC t n q.toNat = readC s n q.toNat) ∧
        curRegs t n = { after s n (.mcopy h rd rs1 rs2) with
          prog := 0, glob := (curRegs t n).glob, own := (curRegs t n).own, pas := (curRegs t n).pas }) ∧
      (Alone s h (.mcopy h rd rs1 rs2) → 0 < y → a % 64 + y ≤ 64 → capCursor b % 4096 + y ≤ 4096 → a % 16 = capCursor b % 16 →
        capCheck b .load none (capCursor b) y = none → capCheck c .store none a y = none → go b .load (capCursor b) y p → go c .store a y d →
        ∃ t g, exec (.mcopy h rd rs1 rs2) s = .next t ∧ (core t n).granules = [g] ∧ g.srcs = [{ pa := p.pa, len := y, cl := p.leaf.cl }] ∧
          g.dst = d.pa ∧ g.len = y ∧ g.tags = (hasPerm b pLOADCAP && hasPerm c pSTORECAP && d.leaf.cs) ∧
          readC t n rd.toNat = nullW ∧ (core t n).held.isSome = true ∧ pcc t n = pcc s n ∧ t.mem = s.mem ∧ t.tags = s.tags)) ∧
  (∀ (s : State) (n src len : Nat) (g : Granule) (rest : List Granule),
      s.wdr.held = none → n < s.cores.length → (core s n).granules = g :: rest → g.srcs = [{ pa := src, len := len, cl := true }] → g.len = len →
      0 < len → len ≤ 64 → g.tw = false → running s 5 = true → (src + len ≤ g.dst ∨ g.dst + len ≤ src) →
      (∀ k < len, inMem s (src + k) = true ∧ inMem s (g.dst + k) = true ∧ eccAt s (src + k) = .none ∧ eccAt s (g.dst + k) = .none ∧
        fget s (MEM_BOWN_DOM (bankNo (g.dst + k))) = 0) →
      ∃ t u, exec (.mcopyGranule ⟨n, none⟩) s = .next t ∧ t = retry u n ∧ (core u n).granules = rest ∧
        (∀ k < len, memByte u (g.dst + k) = memByte s (src + k)) ∧
        (∀ x, (x < g.dst ∨ g.dst + len ≤ x) → memByte u x = memByte s x) ∧ u.regs = s.regs ∧ (core u n).sb = (core s n).sb)

/-- Entries of the store buffer are sent, written to general memory at their tiles, and freed when their completions come back (R62–R65,
R97, R216, R217, R219). A write that fails or does not complete in time is reported to its context, and its entry is freed (R219, R220).
-/
def Obligations.StoreBuffer : Prop :=
  (∀ (s : State) (n i k : Nat) (e : StoreEntry) (st : Status) (h : Held),
      let w := e.word * 16
      let key := tileKey w
      let job : PortJob := .store n { e with sent := true }
      let sent := { s with cores := s.cores.set n { core s n with sb := (core s n).sb.set i { e with sent := true } } }
      let gone := (core s n).sb.filter (fun x => x.id != e.id)
      s.wdr.held = none → n < s.cores.length → n < 16 → (core s n).sb[i]? = some e →
      (sendable (core s n).sb i = true → (∀ j < i, sendable (core s n).sb j = false) → ∃ t, exec (.storeBufferSend n) s = .next t ∧
        (inMem s w = false → t = sent) ∧
        (inMem s w = true → t = tileCycle (updTilePort sent key false (fun p => { p with wait := p.wait ++ [job] })) key) ∧
        (inMem s w = true → (tilePort s key false).wait = [] → (tilePort s key false).busy = [] → (tilePort s key true).wait = [] →
          (tilePort s key true).busy = [] → stalled s w = false → fget s (MEM_BOWN_DOM (bankNo w)) = 0 → e.tw = false → eccAt s w = .none →
          (∀ k < 16, memByte t (w + k) =
            if bit e.mask.toNat k then BitVec.ofNat 8 (bits e.data.toNat (8 * k + 7) (8 * k)) else memByte s (w + k)) ∧
          (∀ x, x / 16 ≠ e.word → memByte t x = memByte s x ∧ memTag t x = memTag s x) ∧ memTag t w = (e.tag && e.mask == 0xFFFF) ∧
          (tilePort t key false).busy = [{ job := job, fin := some (.ok, nullW) }] ∧ (core t n).sb = (core sent n).sb ∧ t.regs = s.regs)) ∧
      (e.sent = true → inMem s w = true → entryStatus s n e = none → ∃ t, exec (.storeWriteCompletion n i) s = .next t ∧ t = s) ∧
      (e.sent = true → inMem s w = true → entryStatus s n e = some st → ∃ t u, exec (.storeWriteCompletion n i) s = .next t ∧ t = retry u n ∧
        (core u n).sb = gone ∧ u.mem = s.mem ∧ u.tags = s.tags ∧ u.regs = s.regs ∧
        (∀ x ∈ (tilePort u key false).busy, isEntry n e.id x.job = false) ∧ (st = .ok → curRegs u n = curRegs s n) ∧
        (e.sync = some k → (core s n).held = some h → (core u n).held = some { h with sync := h.sync ++ [(k, endSub st)] }) ∧
        (e.sync = none → (core u n).held = (core s n).held)) ∧
      (e.sent = true → inMem s w = false → fieldEntry s e = false → ∃ t u, exec (.storeWriteCompletion n i) s = .next t ∧ t = retry u n ∧
        (core u n).sb = (core (performOutside s n e) n).sb.filter (fun x => x.id != e.id) ∧ u.mem = (performOutside s n e).mem ∧
        u.regs = (performOutside s n e).regs)) ∧
  (∀ (s : State) (n i b : Nat) (e : StoreEntry) (st : Status),
      let told (t : State) (sub : Nat) : Prop :=
        (core t n).sb = (core s n).sb.filter (fun x => x.id != e.id) ∧ t.mem = s.mem ∧
        (bankOf (core t n) b).regs.late = some (match (bankOf (core s n) b).regs.late with
          | none => { sub := sub, fadr := e.va, finfo := BitVec.ofNat 64 (e.pa % 2 ^ 40) }
          | some r => { r with finfo := r.finfo ||| (1#64 <<< 40) }) ∧
        (∀ k, k ≠ b → bankOf (core t n) k = bankOf (core s n) k) ∧ (∀ m, m ≠ n → core t m = core s m)
      s.wdr.held = none → n < s.cores.length → (core s n).sb[i]? = some e → e.sent = true → e.sync = none → e.orphan = false →
      bankHolding (core s n) e.ctx = some b →
      (∃ t u, exec (.lateStoreTimeout n i) s = .next t ∧ t = retry u n ∧ told u 3 ∧ (core u n).ghosts = (core s n).ghosts ++ [e] ∧
        ((core s n).held = none → (core s n).tlbAcks = [] → t = u)) ∧
      (inMem s (e.word * 16) = true → entryStatus s n e = some st → st ≠ .ok → ∃ t u, exec (.storeWriteCompletion n i) s = .next t ∧
        t = retry u n ∧ told u (if st = .notOwner then 2 else 1)))

/-- What a held bundle waits for arrives, and the bundle is taken up again (R211, R213, R286, R292). A bundle is read ahead into the fetch
buffer (R127, R225). -/
def Obligations.HeldBundlesAndFetch : Prop :=
  (∀ (s : State) (n line word va : Nat) (upset : Upset) (fetch : Bool) (h : Held),
      let struck := if upset = .none then s else setEcc s (line * 64 + 16 * (word % 4)) upset
      s.wdr.held = none → n < s.cores.length → (core s n).held = some h →
      (h.why = .miss line → flashWaits s (line * 64) = true → ∃ t, exec (.loadMissFill n word upset) s = .next t ∧ t = s) ∧
      (h.why = .miss line → flashWaits s (line * 64) = false → ∃ t u, exec (.loadMissFill n word upset) s = .next t ∧ t = retry u n ∧
        (core u n).held = some { h with fills := line :: h.fills } ∧ u.mem = s.mem ∧ u.tags = s.tags ∧
        (inMem s (line * 64) = false → (core u n).l1d.contains line = true) ∧
        ((∀ k < 4, eccAt struck (line * 64 + 16 * k) ≠ .double) → (core u n).l1d.contains line = true) ∧
        (inMem s (line * 64) = true → (∃ k < 4, eccAt struck (line * 64 + 16 * k) = .double) → (core u n).l1d = (core s n).l1d)) ∧
      (h.why = .walk va fetch → ∃ t u s1 r, exec (.tableWalk n) s = .next t ∧ t = retry u n ∧
        walk s n (coreReq s n) false (curRegs s n).space.toNat va = (s1, r) ∧
        (core u n).held = some { h with walks := { va := va, space := (curRegs s n).space.toNat, res := r } :: h.walks } ∧ u.mem = s1.mem ∧
        u.regs = s1.regs ∧
        (∀ l, r = .leaf l → l.a = true →
          { space := (curRegs s n).space.toNat, vbase := alignDown va (2 ^ l.size), leaf := l, used := true } ∈ (core u n).utlb) ∧
        ((∀ l, r = .leaf l → l.a = false) → (core u n).utlb = (core s1 n).utlb))) ∧
  (∀ (s s1 : State) (n : Nat) (ws : List W32),
      s.wdr.held = none → corePresent s n = true → n < s1.cores.length → issues s n = true → (core s n).fbuf = [] → (core s1 n).fbuf = [] →
      pcAddr s1 n = pcAddr s n →
      readWalking n (pcAddr s n) false 5 [] s = (s1, .words ws) → ws ≠ [] → encodingFault (pcAddr s n) ws (parse 0 ws) = none →
      ∃ t, exec (.instructionFetch n) s = .next t ∧
        t = { s1 with cores := s1.cores.set n { core s1 n with fbuf := [{ addr := BitVec.ofNat 64 (pcAddr s n), words := ws, cause := none }] } })

/-- Enabling, disabling and QMODE (R112, R114, R116, R117). CTRL writes that are refused (R112, R114, R118). Drains that end, soft resets
and their end, and faults (R114, R118, R119). -/
def Obligations.BlockControl : Prop :=
  (∀ (s : State) (src : Src) (b : Nat) (qmode : Bool),
      b < 20 → Open s src (CTRL b) → fon s (CTRL_SOFT_RESET b) = false →
      (fon s (CTRL_ENABLE b) = false → blkState s b ≠ 2 → inconsistent s b = false → (blkState s b = 4 → faultPersists s b = false) →
        ∃ t u, exec (.blockEnable src b qmode) s = .next t ∧ CtrlSet s u b true qmode 1 ∧ t = onEnable u b) ∧
      (fon s (CTRL_ENABLE b) = true → blkState s b = 1 → ∃ t u, exec (.blockDisable src b qmode) s = .next t ∧
        (direct b = true → CtrlSet s t b false qmode 0) ∧
        (direct b = false → b ≠ 9 → CtrlSet s u b false qmode 2 ∧ t = drainComplete (onLeave u b qmode) b) ∧
        (b = 9 → CtrlSet s u b false qmode 1 ∧ t = drainComplete (onLeave (setBlkState (clearOuten u) b 2) b qmode) b)) ∧
      (fon s (CTRL_ENABLE b) = true → blkState s b ≠ 1 → ∃ t u, exec (.blockDisable src b qmode) s = .next t ∧
        CtrlSet s u b false qmode (blkState s b) ∧ t = if b = 9 then clearOuten u else u) ∧
      ((fon s (CTRL_ENABLE b) = true → blkState s b ≠ 2) → ∃ t, exec (.qmodeWrite src b qmode) s = .next t ∧
        (blkState s b ≠ 2 → CtrlSet s t b (fon s (CTRL_ENABLE b)) qmode (blkState s b)) ∧
        (blkState s b = 2 → ∃ u, CtrlSet s u b false qmode 2 ∧ t = if qmode then drainComplete (onLeave u b true) b else u))) ∧
  (∀ (s : State) (src : Src) (b : Nat) (qmode : Bool),
      b < 20 → Open s src (CTRL b) → fon s (CTRL_SOFT_RESET b) = false →
      ((blkState s b = 1 ∨ blkState s b = 2) → ∃ t, exec (.softReset src b) s = .next t ∧ t = capture s b 6 (CTRL b) (srcReq s src)) ∧
      (fon s (CTRL_ENABLE b) = false →
        (blkState s b = 2 → ∃ t, exec (.blockEnable src b qmode) s = .next t ∧ t = capture s b 6 (CTRL b) (srcReq s src)) ∧
        (blkState s b ≠ 2 → inconsistent s b = true → ∃ t, exec (.blockEnable src b qmode) s = .next t ∧
          t = capture s b 5 (CTRL b) (srcReq s src)) ∧
        (blkState s b = 4 → inconsistent s b = false → faultPersists s b = true → ∃ t, exec (.blockEnable src b qmode) s = .next t ∧
          t = capture s b 7 (CTRL b) (srcReq s src)))) ∧
  (∀ (s : State) (src : Src) (b : Nat),
      b < 20 → s.wdr.held = none → Config.present s.variant b = true →
      (∃ t, exec (.drainComplete b) s = .next t ∧
        t = if blkState s b = 2 ∧ inflight s b = 0 then fset s (STATE_STATE b) 3 else s) ∧
      (Open s src (CTRL b) → fon s (CTRL_SOFT_RESET b) = false → blkState s b ≠ 1 → blkState s b ≠ 2 →
        ∃ t, exec (.softReset src b) s = .next t ∧ (b ≠ 3 → t = fset s (CTRL_SOFT_RESET b) 1) ∧
          (b = 3 → t = sendInvs (fset s (CTRL_SOFT_RESET b) 1) 16 (BitVec.ofNat 64 (2 ^ 63)))) ∧
      (fon s (CTRL_SOFT_RESET b) = true → b = 3 → transOwed s = true → ∃ t, exec (.softResetComplete b) s = .next t ∧ t = s) ∧
      (fon s (CTRL_SOFT_RESET b) = true → b ∈ [0x01, 0x02, 0x03, 0x04, 0x05, 0x06, 0x0C, 0x0F, 0x10, 0x12] → (b = 3 → transOwed s = false) →
        s.softErr = [] →
        ∃ t, exec (.softResetComplete b) s = .next t ∧ (∀ a, blkOf a = b → keptReg a = false → reg t a = regReset s.variant a) ∧
          (∀ a, (blkOf a ≠ b ∨ keptReg a = true) → reg t a = reg s a) ∧ (b = 0x05 → t.queues = []) ∧
          (b = 0x06 → t.evtCount = [] ∧ t.evtFirst = [] ∧ t.evtWait = []) ∧
          (b = 0x0C → t.ser = List.replicate 8 UartS.empty) ∧ t.mem = s.mem ∧ t.cores = s.cores) ∧
      ((blkState s b = 1 ∨ blkState s b = 2) → (b = 0x09 ∨ b = 0x0E) → ∃ t, exec (.blockFault b) s = .next t ∧ blkState t b = 4 ∧
        (b = 0x0E → fon t PWR_REGSTAT_FAULT = true) ∧ t.mem = s.mem ∧ t.cores = s.cores) ∧
      ((blkState s b = 1 ∨ blkState s b = 2) → b = 0x0D → twRole s = 0 → ∃ t, exec (.blockFault b) s = .next t ∧
        t = fset s (STATE_STATE b) 4))

/-- Feature negotiation (R111). -/
def Obligations.FeatureNegotiation : Prop :=
  ∀ (s : State) (src : Src) (b : Nat) (hi : Bool) (v : W32),
    let a := if hi then FEAT_ACCEPT_HI b else FEAT_ACCEPT b
    let offer := reg s (if hi then FEAT_OFFER_HI b else FEAT_OFFER b)
    let refuse (code : Nat) := ∃ t, exec (.featAcceptWrite src b hi v) s = .next t ∧ t = capture s b code a (srcReq s src)
    b < 20 → Open s src a →
    (fon s (CTRL_ENABLE b) = true ∨ (blkState s b ≠ 0 ∧ blkState s b ≠ 3) → refuse 4) ∧
    (fon s (CTRL_ENABLE b) = false → (blkState s b = 0 ∨ blkState s b = 3) →
      (v &&& ~~~offer ≠ 0 → refuse 1) ∧
      (v &&& ~~~offer = 0 → ∃ t, exec (.featAcceptWrite src b hi v) s = .next t ∧ t = setReg s a (if hi then v else v ||| 1)))

/-- The words of revoked types, the owners of banks and their handover (R58, R74). -/
def Obligations.TagsAndOwners : Prop :=
  ∀ (s : State) (src : Src) (i : Nat) (v : W32) (d : BitVec 3),
    let own := fget s (MEM_BOWN_DOM i)
    (i < 128 → Open s src (CAP_TYPEREV i) → v &&& typerevReserved i = 0 → ∃ t, exec (.typerevWrite src i v) s = .next t ∧
      t = setReg s (CAP_TYPEREV i) v) ∧
    (Open s src (MEM_BOWN i) → i < 16 → d.toNat < 6 → own ≠ 7 → ∃ t, exec (.bownWrite src i d) s = .next t ∧ PagesOnly s t ∧
      (own = d.toNat → t = s) ∧
      (own ≠ d.toNat → fget t (MEM_BOWN_DOM i) = 7 ∧ fget t (MEM_BOWN_TARGET i) = d.toNat ∧ fget t (MEM_BOWN_PREV i) = own ∧
        ∀ a, a ≠ MEM_BOWN i → reg t a = reg s a)) ∧
    (Open s src (MEM_BOWN i) → i < 16 → own = 7 ∨ 6 ≤ d.toNat → ∃ t, exec (.bownWrite src i d) s = .next t ∧
      t = capture s 4 (if 6 ≤ d.toNat then 0x10 else 0x11) (MEM_BOWN i) (srcReq s src)) ∧
    (s.wdr.held = none → bankPresent s i = true → own = 7 → ∃ t, exec (.handoverComplete i) s = .next t ∧
      (oldWrites s i = true → t = s) ∧
      (oldWrites s i = false → fget t (MEM_BOWN_DOM i) = fget s (MEM_BOWN_TARGET i) ∧ PagesOnly s t ∧
        t = raise (fset s (MEM_BOWN_DOM i) (fget s (MEM_BOWN_TARGET i))) 4 (4 * i + 3)))

/-- The context commands that act on the record alone, and what refuses a command (R308, R311, R312, R314, R326). SUSPEND of a resident
context, ABORT, and CORECTL (R311, R314, R325). -/
def Obligations.ContextCommands : Prop :=
  (∀ (s : State) (src : Src) (ctx : BitVec 12) (ev : Bool),
      let c := ctx.toNat
      let st := ctxState s c
      let arg := (reg s SCHED_CTXARG).toNat
      let ok (i : Instr) (u : State) := ∃ t, exec i s = .next t ∧ t = cmdDone u c 0 0 ev
      let ops : List (Nat × Instr) := [(1, .create src ctx ev), (2, .resume src ctx ev), (3, .suspend src ctx ev), (4, .release src ctx ev),
        (5, .setprio src ctx ev), (6, .setcores src ctx ev), (7, .query src ctx ev), (8, .recsave src ctx ev), (9, .recload src ctx ev)]
      Open s src SCHED_CTXCMD →
      ((∃ p, s.suspend = some p) → ∀ p ∈ ops, ∃ t, exec p.2 s = .next t ∧ t = capture s 1 0x10 SCHED_CTXCMD (srcReq s src)) ∧
      (running s 1 = true → s.suspend = none → c < Config.contexts s.variant → ∀ p ∈ ops, permitted p.1 st = false → ∃ t, exec p.2 s = .next t ∧
        t = cmdDone s c 9 0 ev) ∧
      (running s 1 = true → s.suspend = none → c < Config.contexts s.variant →
        (st = 0 → ok (.create src ctx ev) (createRecord s c) ∧ ctxState (createRecord s c) c = 4) ∧
        (st = 4 ∨ st = 5 → ∃ u, ok (.resume src ctx ev) u ∧ recBits u c 0x300 47 40 = 0 ∧
          ctxState u c = if recBits s c 0x300 13 13 = 1 ∧ ctxWake s c = false then 1 else 2) ∧
        (c ≠ 0 → st = 4 ∨ st = 5 → ∃ u, ok (.release src ctx ev) u ∧ ctxState u c = 0) ∧
        (st ≠ 0 → ∃ u, ok (.setprio src ctx ev) u ∧ ctxPrio u c = bits arg 3 0 ∧ ctxState u c = st) ∧
        (st ≠ 0 → bits arg 15 0 % 2 ^ Config.cores s.variant ≠ 0 → ∃ u, ok (.setcores src ctx ev) u ∧ ctxCores u c = bits arg 15 0 ∧
          recBits u c 0x300 12 12 = bits arg 16 16 ∧
          ∀ n b, heldAt s c = some (n, b) → bit (bits arg 15 0) n = false → c ∈ u.evicts) ∧
        ok (.query src ctx ev) s ∧
        (c ≠ 0 → st = 1 ∨ st = 2 ∨ st = 3 → heldAt s c = none → ∃ u, ok (.suspend src ctx ev) u ∧ ctxState u c = 4) ∧
        (c ≠ 0 → st = 4 → ok (.suspend src ctx ev) s)) ∧
      (running s 1 = false → s.suspend = none → ∀ p ∈ ops, ∃ t, exec p.2 s = .next t ∧ t = cmdDone s c 1 0 ev)) ∧
  (∀ (s : State) (src : Src) (ctx : BitVec 12) (ev : Bool) (n b : Nat) (p : Suspend),
      let c := ctx.toNat
      (Open s src SCHED_CTXCMD → running s 1 = true →
        (s.suspend = none → c < Config.contexts s.variant → c ≠ 0 → (ctxState s c = 1 ∨ ctxState s c = 2 ∨ ctxState s c = 3) → heldAt s c = some (n, b) →
          ∃ t, exec (.suspend src ctx ev) s = .next t ∧ fon t SCHED_CMDSTAT_BUSY = true ∧ leaving t c = true ∧ t.evicts = s.evicts ∧
            t.suspend = some { ctx := c, ev := ev, started := (core s n).cur != some b } ∧ t.recs = s.recs ∧ t.cores = s.cores) ∧
        (s.suspend = some p → p.started = false → ∃ t, exec (.abort src ctx ev) s = .next t ∧
          t = cmdDone { s with suspend := none } p.ctx 2 0 p.ev)) ∧
      (Open s src SCHED_CTXCMD →
        (s.suspend = some p → (p.started = true ∨ running s 1 = false) → ∃ t, exec (.abort src ctx ev) s = .next t ∧ t = s) ∧
        (s.suspend = none → ∃ t u, exec (.abort src ctx ev) s = .next t ∧ t = (if ev then raise u 1 2 else u) ∧
          u = fset (fset s SCHED_CMDSTAT_STATUS (if running s 1 then 0 else 1)) SCHED_CMDSTAT_WORDS 0)) ∧
      (n < 16 → Open s src (SCHED_CORECTL n) → corePresent s n = true →
        (∃ t, exec (.corectlWrite src n true) s = .next t ∧ fon t (SCHED_CORECTL_ADMIT n) = true ∧ fon t (SCHED_CORECTL_PARKED n) = false ∧
          (∀ a, a ≠ SCHED_CORECTL n → reg t a = reg s a)) ∧
        (∃ t, exec (.corectlWrite src n false) s = .next t ∧ fon t (SCHED_CORECTL_ADMIT n) = false ∧
          (∀ q ∈ heldCtxs (core s n), q.2 ∈ t.evicts) ∧ (∀ a, a ≠ SCHED_CORECTL n → reg t a = reg s a) ∧ t.recs = s.recs ∧ t.cores = s.cores)))

/-- RECSAVE and RECLOAD of one record word (R245, R313). What the scheduler does of its own accord (R240–R243, R246, R319–R322). -/
def Obligations.RecordsAndScheduling : Prop :=
  (∀ (s : State) (src : Src) (ctx : BitVec 12) (ev : Bool) (w : Nat),
      let c := ctx.toNat
      let arg := (reg s SCHED_CTXARG).toNat
      let a := alignDown (pair s SCHED_RECX_ADDR_LO SCHED_RECX_ADDR_HI) 16
      Open s src SCHED_CTXCMD → running s 1 = true → s.suspend = none → c < Config.contexts s.variant → c ≠ 0 →
      (ctxState s c = 4 ∨ ctxState s c = 5) → bits arg 5 0 = w →
      (64 < w + bits arg 21 16 + 1 → ∃ t, exec (.recsave src ctx ev) s = .next t ∧ t = cmdDone s c 10 0 ev) ∧
      (48 < w + bits arg 21 16 + 1 → ∃ t, exec (.recload src ctx ev) s = .next t ∧ t = cmdDone s c 10 0 ev) ∧
      (bits arg 21 16 = 0 → running s 4 = true → inMem s a = true → fget s (MEM_BOWN_DOM (bankNo a)) = 0 → eccAt s a = .none →
        (recUpset s c w = .none → ∃ t u, exec (.recsave src ctx ev) s = .next t ∧ t = cmdDone u c 0 1 ev ∧ memWord u a = recWord s c w ∧
          (∀ x, x / 16 ≠ a / 16 → memByte u x = memByte s x ∧ memTag u x = memTag s x) ∧ u.recs = s.recs) ∧
        (w < 48 → ∃ t u, exec (.recload src ctx ev) s = .next t ∧ t = cmdDone u c 0 1 ev ∧ recWord u c w = recLoadWord w (memWord s a) ∧
          (∀ c' w', (c', w') ≠ (c, w) → w' < 64 → recWord u c' w' = recWord s c' w') ∧ u.mem = s.mem ∧ u.tags = s.tags))) ∧
  (∀ (s : State) (n c b v word : Nat) (w : Option Nat) (l : List (Nat × Nat)) (cs ns : List Nat),
      s.wdr.held = none →
      (running s 1 = true → readyOrder s = c :: cs → coreOrder s c = n :: ns → (s.cores.any (fun k => k.loading.any (fun p => p.1 == c))) = false →
        (freeBank s n = some b → ∃ t, exec .placement s = .next t ∧ t = updCore s n (fun k => { k with loading := k.loading ++ [(c, b)] })) ∧
        (freeBank s n = none → (heldCtxs (core s n)).any (fun p => leaving s p.2) = false → victimOn s n c = some v →
          ∃ t, exec .placement s = .next t ∧ t = askEvict s v ∧ v ∈ t.evicts)) ∧
      (corePresent s n = true → n < s.cores.length → b < (core s n).banks.length → (core s n).loading = (c, b) :: l →
        (maySwitch s n = false → ∃ t, exec (.recordLoad ⟨n, word, .none⟩) s = .next t ∧ t = s) ∧
        (maySwitch s n = true → ctxState s c = 2 → eligible s c n = true → (∀ w < 48, recUpset s c w = .none) →
          ∃ t, exec (.recordLoad ⟨n, word, .none⟩) s = .next t ∧ (core t n).loading = l ∧
          bankOf (core t n) b = { ctx := some c, regs := imageRegs (recImage s c), lastCur := 0 } ∧ ctxState t c = 3 ∧
          reg t SCHED_DISPATCH_CNT = satInc (reg s SCHED_DISPATCH_CNT) ∧ (∀ m, m ≠ n → core t m = core s m) ∧ t.mem = s.mem)) ∧
      (corePresent s n = true → n < s.cores.length → maySwitch s n = true → (core s n).halted = false → wantedBank s n = w → w ≠ (core s n).cur →
        (core s n).longs = [] → (core s n).longErrs = [] → (core s n).late = [] → (∀ k, traced s n k 4 = false) →
        ∃ t, exec (.bankSwitch n) s = .next t ∧ (core t n).cur = w ∧ (core t n).fbuf = [] ∧ t.regs = s.regs ∧ t.recs = s.recs ∧ t.mem = s.mem) ∧
      (heldAt s c = some (n, b) → leaving s c = true → maySwitch s n = true → (core s n).cur ≠ some b → (entriesOf (core s n) c).isEmpty = true →
        (core s n).halted = false → replicates s 1 = false → ∃ t, exec (.eviction c) s = .next t ∧ t = evictBank s n b ∧
          bankOf (core t n) b = ResBank.empty ∧ (core t n).cur = (core s n).cur) ∧
      (corePresent s n = true → runningCtx s n = some c → accepted s 1 2 = true → fget s SCHED_SCHED_CFG_QUANTUM ≠ 0 → accepted s 1 1 = false →
        ((∃ p ∈ runnableBanks s n, p.2 ≠ c ∧ ctxPrio s p.2 = ctxPrio s c) ∨
          (∃ k ∈ readyCtxs s, ctxPrio s k = ctxPrio s c ∧ eligible s k n = true)) → ∃ t, exec (.quantumExpiry n) s = .next t ∧
        mget (fun _ => false) t.quanta n = true ∧ t = { s with quanta := t.quanta }) ∧
      (accepted s 1 1 = true → ∃ t, exec .trafHalving s = .next t ∧ (∀ q < 4, traf t c q = traf s c q / 2) ∧
        (∀ w < 64, w ≠ 50 → recWord t c w = recWord s c w) ∧ t = { s with recs := t.recs }) ∧
      (∃ t, exec .miglimMillisecond s = .next t ∧ t = { s with moves := 0, movesNoted := false }))

/-- A put by a block into a ring of general memory that it may write (R329, R330, R333, R334, R336). The three commands of QCMD (R328,
R338, R342). -/
def Obligations.QueueMessages : Prop :=
  (∀ (s : State) (q owner cls axis flags plen : Nat) (payload : List CapW),
      let d := qdesc s q
      let r : PutReq :=
        { queue := q, sender := owner, ring := none, cls := cls, axis := axis, flags := flags, plen := plen
          payload := payload.map (fun w => ⟨w.bits, false⟩), fromEvt := false }
      let c : Instr := .queuePut q owner cls axis flags plen payload
      s.wdr.held = none → q < 16384 → owner < 4096 → cls < 16 → axis < 16 → flags < 16384 → payload.length ≤ 3 →
      (putRefusal s r ≠ 0 → ∃ t, exec c s = .next t ∧ t = countUp s QUE_REFUSE_CNT) ∧
      (putRefusal s r = 0 → qfill d = qslots d → (d.ovwr && accepted s 5 2) = false → ∃ t, exec c s = .next t ∧
        qdesc t q = { d with ovf := (d.ovf + 1) % 2 ^ 32 } ∧ fget t QUE_QEVQ0_FULLQ = q ∧
        (∀ x, (x < d.base ∨ d.base + 64 ≤ x) → d.base % 16 = 0 → memByte t x = memByte s x)) ∧
      (putRefusal s r = 0 → qfill d ≠ qslots d → d.base % 64 = 0 →
        (∀ x, d.base ≤ x → x < d.base + 64 + 64 * qslots d → inMem s x = true ∧ ownerAdmits s (bankNo x) (domOf d.dom) = true) →
        ∃ t, exec c s = .next t ∧ qdesc t q = { d with put := (d.put + 1) % 2 ^ 32 } ∧
        (∀ k < 4, memWord t (slotAddr d d.put + 16 * k) = (messageWords r (axisPos s axis)).getD k nullW) ∧
        memWord t d.base = ⟨BitVec.ofNat 128 ((d.put + 1) % 2 ^ 32 + d.get * 2 ^ 32 + d.ovf * 2 ^ 64), false⟩ ∧
        (∀ x, (x < d.base ∨ d.base + 64 + 64 * qslots d ≤ x) → memByte t x = memByte s x) ∧
        reg t QUE_PUT_CNT = satInc (reg s QUE_PUT_CNT) ∧ (d.bound = true → ctxState s d.ctx ≠ 0 → ctxWake t d.ctx = true))) ∧
  (∀ (s : State) (src : Src),
      let q := fget s QUE_QSEL_Q
      let d := qdesc s q
      let n := stagedDesc s
      let refused (i : Instr) := ∃ t, exec i s = .next t ∧ t = capture s 5 0x10 QUE_QCMD (srcReq s src)
      Open s src QUE_QCMD → running s 5 = true → q < Config.queues s.variant →
      (q = 0 → refused (.qcmdWriteDescriptor src) ∧ refused (.flush src)) ∧
      (q ≠ 0 → (d.en = true → n.base ≠ d.base ∨ n.size ≠ d.size ∨ n.ovwr ≠ d.ovwr ∨ n.twin ≠ d.twin → refused (.qcmdWriteDescriptor src)) ∧
        (d.en = false → ringOk s n = false ∨ 6 ≤ n.dom → refused (.qcmdWriteDescriptor src)) ∧
        (d.en = false → ringOk s n = true → n.dom < 6 → ∃ t, exec (.qcmdWriteDescriptor src) s = .next t ∧
          (n.en = true → t = rewriteHeader (setQdesc s q n) q ∧ qdesc t q = n ∧ n.put = 0 ∧ n.get = 0 ∧ n.ovf = 0) ∧
          (n.en = false → t = setQdesc s q { n with put := d.put, get := d.get, ovf := d.ovf, desync := d.desync })) ∧
        (∃ t, exec (.qcmdReadDescriptor src) s = .next t ∧ reg t QUE_QD0 = BitVec.ofNat 32 (d.base % 2 ^ 32) ∧
          reg t QUE_QD2 = BitVec.ofNat 32 (d.classmask * 2 ^ 16 + d.hiwat) ∧ reg t QUE_QPUTC = BitVec.ofNat 32 d.put ∧
          reg t QUE_QGETC = BitVec.ofNat 32 d.get ∧ reg t QUE_QOVFC = BitVec.ofNat 32 d.ovf ∧ t = { s with regs := t.regs }) ∧
        (∃ t, exec (.flush src) s = .next t ∧ t = rewriteHeader (setQdesc s q { d with get := d.put }) q ∧ qfill (qdesc t q) = 0)))

/-- The events of a block (R108, R345). The event controller: occurrences, software-set sources, pending words and configuration (R345,
R352, R354, R355). Grants to a core, and event messages (R347, R348, R351). -/
def Obligations.Events : Prop :=
  (∀ (s : State) (src : Src) (b k : Nat) (second : Bool) (v : W32),
      let en := if second then blkBase b + 0x104 else EV_ENABLE b
      let pend := if second then blkBase b + 0x108 else EV_PENDING b
      let raw := pend - 8
      let p := evRegs b k
      let can := delivers s b && bit (reg s p.2.1).toNat p.2.2.2 && !bit (reg s p.2.2.1).toNat p.2.2.2
      (s.wdr.held = none → eventKnown s b k = true → b < 20 → ∃ t, exec (.blockEvent b k) s = .next t ∧ PagesOnly s t ∧
        bit (reg t p.1).toNat p.2.2.2 = true ∧
        (can = true → bit (reg t p.2.2.1).toNat p.2.2.2 = true ∧ evtPending t (firstSource b + k) = true) ∧
        (can = false → t = setReg s p.1 (BitVec.ofNat 32 (withBits (reg s p.1).toNat p.2.2.2 p.2.2.2 1)))) ∧
      (b < 20 → (second = true → hasEv2 b = true) → Open s src en → b ≠ 6 → ∃ t, exec (.evEnableWrite src b second v) s = .next t ∧ PagesOnly s t ∧
        reg t en = v ∧ (v &&& reg s raw = 0 → t = setReg s en v)) ∧
      (b < 20 → (second = true → hasEv2 b = true) → Open s src pend → ∃ t, exec (.evPendingClear src b second v) s = .next t ∧
        t = setReg (setReg s pend (reg s pend &&& ~~~v)) raw (reg s raw &&& ~~~v))) ∧
  (∀ (s : State) (src : Src) (n w : Nat) (k : BitVec 10) (v : W32),
      let target := bits v.toNat 13 0
      (s.wdr.held = none → sourceKnown s n = true → ∃ t, exec (.eventOccurrence n) s = .next t ∧ PagesOnly s t ∧
        (∀ m, evtPending t m = (evtPending s m || m == n)) ∧
        mget (fun _ => 0) t.evtCount n = (if evtPending s n then min (mget (fun _ => 0) s.evtCount n + 1) 65535 else 1) ∧
        (evtPending s n = false → mget (fun _ => 0#64) t.evtFirst n = BitVec.ofNat 64 (axisPos s 0))) ∧
      (Open s src EVT_SWSET → ∃ t, exec (.swset src k) s = .next t ∧
        t = if accepted s 6 2 ∧ 386 ≤ k.toNat ∧ k.toNat ≤ 447 then evtOccur s k.toNat else capture s 6 0x11 EVT_SWSET (srcReq s src)) ∧
      (w < 32 → Open s src (EVT_PEND w) → ∃ t, exec (.pendwClear src w v) s = .next t ∧
        ∀ m, evtPending t m = (evtPending s m && !(m / 32 == w && bit v.toNat (m % 32)))) ∧
      (n < 1024 → Open s src (EVT_SRCCFG n) → v &&& 0x03FFC000 = 0 →
        (if bit v.toNat 30 then target < Config.queues s.variant else bits target 6 3 < Config.cores s.variant ∧ bits target 13 7 = 0) →
        ∃ t, exec (.srccfgWrite src n v) s = .next t ∧
          t = { setReg s (EVT_SRCCFG n) v with
                evtWait := if bit v.toNat 31 && bit v.toNat 30 then s.evtWait else s.evtWait.filter (fun k => k != n) }) ∧
      (n < 1024 → Open s src (EVT_SRCCFG n) → v &&& 0x03FFC000 = 0 → bit v.toNat 30 = true → Config.queues s.variant ≤ target →
        ∃ t, exec (.srccfgWrite src n v) s = .next t ∧ t = capture s 6 0x10 (EVT_SRCCFG n) (srcReq s src))) ∧
  (∀ (s u : State) (n l m st : Nat),
      s.wdr.held = none →
      (corePresent s n = true → (core s n).held.isSome = true → (core s n).grantReq = none → ∃ t, exec (.grantRequest n) s = .next t ∧ t = s) ∧
      (corePresent s n = true → n < s.cores.length → issues s n = true → (core s n).held = none → stIE (status s n) = true → (core s n).grant = none →
        (core s n).grantReq = none →
        (topLine s n = none → ∃ t, exec (.grantRequest n) s = .next t ∧ t = s) ∧
        (topLine s n = some (l, m) → lineSource s n l = some m → ∃ t, exec (.grantRequest n) s = .next t ∧
          (core t n).grant = some { line := l, source := m } ∧ (core t n).grantReq = none ∧ evtPending t m = false ∧
          reg t EVT_GRANT_CNT = satInc (reg s EVT_GRANT_CNT) ∧ (∀ j, j ≠ n → core t j = core s j) ∧ t.mem = s.mem)) ∧
      (∀ p ∈ ([(.eventMessagePut, ((pendingSources s).filter (fun n => queueRouted s n && !s.evtWait.contains n)).foldl (betterSrc s) none = some m),
          (.eventPutRetry m, m ∈ s.evtWait ∧ queueRouted s m = true)] : List (Instr × Prop)), p.2 → queuePut s (eventPut s m) = (u, st) →
        (st = 0 → ∃ t, exec p.1 s = .next t ∧ t = countUp (clearEvt u m) EVT_QPUT_CNT ∧ evtPending t m = false) ∧
        (st ≠ 0 → ∃ t, exec p.1 s = .next t ∧ m ∈ t.evtWait ∧ reg t EVT_QREFUSE_CNT = satInc (reg u EVT_QREFUSE_CNT) ∧
          reg t EVT_QFAIL = BitVec.ofNat 32 (st * 2 ^ 28 + m * 2 ^ 16 + srcTARGET s m) ∧ t.mem = u.mem)))

/-- The phase tick, axes, and updates by software (R360, R362, R365–R367, R386). -/
def Obligations.PhaseAxes : Prop :=
  ∀ (s : State) (src : Src) (a n : Nat) (v : W32),
    let now := (s.tick + 1) * 2 ^ 32 / 200000000
    let lo := (mget (fun _ => (none : Option W32)) s.wrShadow (shadowKey (PHASE_AXMEAS_LO a) src)).getD (reg s (PHASE_AXMEAS_LO a))
    let m := v.toNat * 2 ^ 32 + lo.toNat
    let frac := fon s (PHASE_AXCTL_FRAC a)
    (s.wdr.held = none → ∃ t, exec .phaseTick s = .next t ∧ t.tick = s.tick + 1 ∧ axisPos t 0 = now % 2 ^ 64) ∧
    (3 ≤ a → a < 16 → a < s.phase.axes.length → Open s src (PHASE_AXMEAS_HI a) → fget s (PHASE_AXCTL_SRC a) = 6 → axisState s a ≠ 0 →
      ∃ t, exec (.axmeasWrite src a v) s = .next t ∧
        (axisS t a).upds = (axisS s a).upds ++ [{ tick := s.tick + 1, frac := frac, pos := if frac then m % 2 ^ 32 else m }] ∧
        reg t (PHASE_AXMEAS_HI a) = v ∧ reg t (PHASE_AXMEAS_LO a) = lo ∧
        (∀ x, x ≠ PHASE_AXMEAS_HI a → x ≠ PHASE_AXMEAS_LO a → reg t x = reg s x)) ∧
    (s.wdr.held = none → 0 < a → a < 16 →
      (axisState s a = 2 → fget s (PHASE_AXLOSSTIME_TIME a) ≠ 0 → ∃ t, exec (.axisLoss a) s = .next t ∧ axisState t a = 3 ∧
        fon t (PHASE_AXSTAT_LOSS a) = true ∧ fget t (PHASE_AXCNT_LOSSN a) = min (fget s (PHASE_AXCNT_LOSSN a) + 1) 255 ∧
        axisPos t a = axisPos s a) ∧
      (axisState s a = 3 → fget s (PHASE_AXHOLDMAX_MAX a) ≠ 0 → ∃ t, exec (.axisDead a) s = .next t ∧ axisState t a = 4 ∧
        fon t (PHASE_AXSTAT_DEADF a) = true ∧ fget t (PHASE_AXCNT_DEADN a) = min (fget s (PHASE_AXCNT_DEADN a) + 1) 255 ∧
        ∀ n, recBits s n 0x300 36 36 = 1 → recBits s n 0x300 35 32 = a → ctxState s n ≠ 0 →
          recBits t n 0x300 36 36 = 0 ∧ ctxWake t n = true ∧ recBits t n 0x300 7 7 = 1)) ∧
    (0 < a → a < 16 → Open s src (PHASE_AXCTL a) →
      (axctlCode s a v.toNat = n → n ≠ 0 → ∃ t, exec (.axctlWrite src a v) s = .next t ∧ t = capture s 7 n (PHASE_AXCTL a) (srcReq s src)) ∧
      (axctlCode s a v.toNat = 0 → running s 7 = true → axisState s a = 0 → bit v.toNat 31 = true → ∃ t, exec (.axctlWrite src a v) s = .next t ∧
        axisOn t a = true ∧ axisState t a = 1) ∧
      (axctlCode s a v.toNat = 0 → bit v.toNat 31 = false → ∃ t, exec (.axctlWrite src a v) s = .next t ∧ axisOn t a = false ∧ axisState t a = 0))

/-- Arming and disarming a mark, and what the engine does with its queues (R369, R370, R374, R376, R379, R385). -/
def Obligations.PhaseMarks : Prop :=
  ∀ (s u : State) (src : Src) (m : Nat) (v : W32) (p : PinCmd) (r : List PinCmd) (a : MarkAct) (l : List MarkAct) (st : Status) (k : Nat),
    (m < 4096 → Open s src (PHASE_MARKCTL m) → v &&& 0x00700000 = 0 →
      (bit v.toNat 31 = false → ∃ t, exec (.markctlWrite src m v) s = .next t ∧ reg t (PHASE_MARKCTL m) = v ∧ markArmed t m = false ∧
        m ∉ t.phase.fresh ∧ (∀ x, x ≠ PHASE_MARKCTL m → reg t x = reg s x)) ∧
      (bit v.toNat 31 = true → markArmed s m = true → ∃ t, exec (.markctlWrite src m v) s = .next t ∧
        t = capture s 7 0x10 (PHASE_MARKCTL m) (srcReq s src)) ∧
      (bit v.toNat 31 = true → markArmed s m = false → armCode s m v.toNat = k → k ≠ 0 → ∃ t, exec (.markctlWrite src m v) s = .next t ∧
        t = capture s 7 k (PHASE_MARKCTL m) (srcReq s src)) ∧
      (bit v.toNat 31 = true → markArmed s m = false → armCode s m v.toNat = 0 → ∃ t, exec (.markctlWrite src m v) s = .next t ∧
        reg t (PHASE_MARKCTL m) = v ∧ markArmed t m = true ∧ reg t (PHASE_MSTAT m) = 0 ∧ m ∈ t.phase.fresh ∧
        (∀ x, x ≠ PHASE_MARKCTL m → x ≠ PHASE_MSTAT m → reg t x = reg s x))) ∧
    (s.wdr.held = none → s.phase.pins = p :: r →
      (s.tick < p.target → ∃ t, exec .pinAction s = .next t ∧ t = s) ∧
      (p.target ≤ s.tick → pinCommand { s with phase := { s.phase with pins := r } } p.out p.action = (u, st) →
        ∃ t, exec .pinAction s = .next t ∧ t = fset u (PHASE_MSTAT_STATUS p.mark) (statusCode st) ∧ t.phase.pins = r ∧
          fget t (PHASE_MSTAT_STATUS p.mark) = statusCode st)) ∧
    (s.wdr.held = none → s.phase.acts = a :: l →
      (a.action = 7 → ∃ t, exec .markActionIssue s = .next t ∧ t.phase.acts = l ∧ fget t (PHASE_MSTAT_STATUS a.mark) = 0 ∧
        (ctxState s (a.arg % 4096) ≠ 0 → ctxWake t (a.arg % 4096) = true ∧ recBits t (a.arg % 4096) 0x300 5 5 = 1)) ∧
      (performAct { s with phase := { s.phase with acts := l } } a = (u, k) → ∃ t, exec .markActionIssue s = .next t ∧
        t = (if k = 0 then fset u (PHASE_MSTAT_STATUS a.mark) 0
          else raise (fset (countUp (fset u (PHASE_MSTAT_STATUS a.mark) k) PHASE_REFUSE_CNT) PHASE_MEVLAST1_REFM a.mark) 7 34)))

/-- A request for a step becomes pending, or merges with the one that is pending (R389, R390). Tuning started and aborted, gains
committed, a latched fallback released (R406, R410, R413, R415). -/
def Obligations.StepRequestsAndTuning : Prop :=
  (∀ (s : State) (src : Src) (c depth : Nat) (late pred chained : Bool),
      let r : LoopReq := { cell := c, late := late, pred := pred, depth := depth }
      let merged := s.loop.reqs.map (fun q => if q.cell = c then { q with late := q.late || late, pred := q.pred || pred } else q)
      c < Config.cells s.variant → c < 512 → running s 8 = true →
      (s.wdr.held = none → fon s (LOOP_CCTL_EN c) = true →
        (s.loop.reqs.any (fun q => q.cell == c) = false → ∃ t, exec (.stepRequest c depth late pred chained) s = .next t ∧
          t.loop = { s.loop with reqs := if chained then r :: s.loop.reqs else s.loop.reqs ++ [r] } ∧ PagesOnly { s with loop := t.loop } t) ∧
        (s.loop.reqs.any (fun q => q.cell == c) = true → ∃ t, exec (.stepRequest c depth late pred chained) s = .next t ∧
          t.loop = { s.loop with reqs := merged } ∧ fon t (LOOP_CSTAT_OVR c) = true ∧ reg t LOOP_MERGE_CNT = satInc (reg s LOOP_MERGE_CNT))) ∧
      (s.wdr.held = none → fon s (LOOP_CCTL_EN c) = false → ∃ t, exec (.stepRequest c depth late pred chained) s = .next t ∧ t = s) ∧
      (Open s src LOOP_STEPREQ → fon s (LOOP_CCTL_EN c) = true → s.loop.reqs.any (fun q => q.cell == c) = false →
        ∃ t, exec (.stepreq src c) s = .next t ∧
          t.loop = { s.loop with reqs := s.loop.reqs ++ [{ cell := c, late := false, pred := false, depth := 0 }] } ∧
          PagesOnly { s with loop := t.loop } t)) ∧
  (∀ (s : State) (src : Src) (c : Nat) (v : W32) (x : TuneS),
      let k := v.toNat % 512
      (Open s src LOOP_TUNE_CTL →
        (tuneRefused s k = true → ∃ t, exec (.tuneStart src v) s = .next t ∧ t = capture s 8 0x13 LOOP_TUNE_CTL (srcReq s src)) ∧
        (tuneRefused s k = false → ∃ t, exec (.tuneStart src v) s = .next t ∧ fget t LOOP_TUNE_STAT_STATE = 1 ∧
          t.loop.tune = some { cell := k, u0 := if bit v.toNat 26 then cw s k 0x3C else reg s LOOP_TUNE_U0, high := none, steps := 0, cycles := 0
                               inCycle := false, len := 0, ymin := 0, ymax := 0, lenSum := 0, ampSum := 0 } ∧
          fon t LOOP_TUNE_CTL_START = true ∧ fon t (LOOP_CSTAT_TUNING k) = true) ∧
        (s.loop.tune = some x → x.cell < 512 → ∃ t, exec (.tuneAbort src) s = .next t ∧ t.loop.tune = none ∧ fget t LOOP_TUNE_STAT_STATE = 4 ∧
          fget t LOOP_TUNE_STAT_CODE = 7 ∧ fon t LOOP_TUNE_CTL_START = false ∧ fon t (LOOP_CSTAT_TUNING x.cell) = false ∧ cw t x.cell 0xC0 = x.u0)) ∧
      (c < 512 → Open s src LOOP_GCMD →
        (fon s LOOP_GCMD_BUSY = true → ∃ t, exec (.gcmd src c) s = .next t ∧ t = capture s 8 0x12 LOOP_GCMD (srcReq s src)) ∧
        (fon s LOOP_GCMD_BUSY = false → Config.cells s.variant ≤ c → ∃ t, exec (.gcmd src c) s = .next t ∧
          t = capture s 8 0x14 LOOP_GCMD (srcReq s src)) ∧
        (fon s LOOP_GCMD_BUSY = false → c < Config.cells s.variant → ∃ t, exec (.gcmd src c) s = .next t ∧
          t = fset { s with loop := { s.loop with commit := some c } } LOOP_GCMD_BUSY 1)) ∧
      (s.wdr.held = none → s.loop.commit = some c → c < 512 → ∃ t, exec .gainCommit s = .next t ∧ cw t c 0x80 = reg s LOOP_GSTAGE_KP ∧
        cw t c 0x84 = reg s LOOP_GSTAGE_KI ∧ cw t c 0x88 = reg s LOOP_GSTAGE_KD ∧ cw t c 0x8C = reg s LOOP_GSTAGE_KT ∧
        fon t LOOP_GCMD_BUSY = false ∧ t = { s with regs := t.regs, loop := { s.loop with commit := none } }) ∧
      (c < 512 → Open s src (LOOP_CCTL c) → fon s (LOOP_CCTL_EN c) = true → mget (fun _ => 0) s.loop.latch c = 1 →
        ∃ t, exec (.cctlResume src c) s = .next t ∧ mget (fun _ => 0) t.loop.latch c = 2 ∧ fon t (LOOP_CCTL_EN c) = true))

/-- A step of a PID cell whose inputs are constants: normal, and without authority (R393–R395, R404, R405). -/
def Obligations.CellStep : Prop :=
  ∀ (s : State) (c : Nat) (q : LoopReq) (rest : List LoopReq),
    let x (n : Nat) : W32 := if fget s (LOOP_INB_KIND c n) = 5 then reg s (LOOP_OFS c n) else 0
    let sgn (v : W32) : W32 := f32Mul (if fon s (LOOP_CCTL_OPT c) then 0xBF800000 else 0x3F800000) v
    let clamp (v : W32) : W32 := f32Max (cw s c 0x68) (f32Min v (cw s c 0x6C))
    let e := sgn (f32Sub (x 1) (x 0))
    let ep := sgn (f32Sub (f32Mul (cw s c 0x90) (x 1)) (x 0))
    let ed := sgn (f32Sub (f32Mul (cw s c 0x94) (x 1)) (x 0))
    let old := if mget (fun _ => false) s.loop.normal c then cw s c 0xC8 else ed
    let d := f32Add (f32Mul (cw s c 0x98) (cw s c 0xC4)) (f32Mul (f32Mul (f32Sub 0x3F800000 (cw s c 0x98)) (cw s c 0x88)) (f32Sub ed old))
    let v := f32Add (f32Add (f32Add (f32Mul (cw s c 0x80) ep) (cw s c 0xC0)) d) (x 2)
    let w := if fget s (LOOP_INB_KIND c 3) = 5 then x 3 else clamp v
    let i := clamp (f32Add (f32Add (cw s c 0xC0) (f32Mul (cw s c 0x84) e)) (f32Mul (cw s c 0x8C) (f32Sub w v)))
    let stepped (t : State) (u : W32) := cw t c 0x3C = u ∧ cw t c 0x38 = cw s c 0x38 + 1 ∧ fon t (LOOP_CSTAT_VALID c) = true ∧
      reg t LOOP_STEP_CNT = satInc (reg s LOOP_STEP_CNT) ∧ t.loop.reqs = rest ∧ t.mem = s.mem
    s.wdr.held = none → running s 8 = true → c < 512 → s.loop.reqs = q :: rest → q.cell = c → (∀ p ∈ rest, p.cell ≠ c) → q.late = false →
    stepDue s c = true → fon s (LOOP_CCTL_EN c) = true → cellType s c = 0 → (∀ n < 4, fget s (LOOP_INB_KIND c n) = 0 ∨ fget s (LOOP_INB_KIND c n) = 5) →
    s.loop.tune = none → fon s (LOOP_SCHD_EN c) = false → fget s (LOOP_OUTB_KIND c) = 0 → fon s (LOOP_NEXT_EN c) = false →
    (fon s (LOOP_CCTL_AGATE c) = false → fon s (LOOP_CCTL_FBLATCH c) = false → f32Finite (clamp v) = true →
      ∃ t, exec (.cellStep .none) s = .next t ∧ stepped t (clamp v) ∧ cw t c 0xC0 = i ∧ cw t c 0xC4 = d ∧ cw t c 0xC8 = ed ∧
        fon t (LOOP_CSTAT_FB c) = false) ∧
    (fon s (LOOP_CCTL_AGATE c) = true → authority s = false → fget s (LOOP_CCTL_AMODE c) = 2 →
      ∃ t, exec (.cellStep .none) s = .next t ∧ stepped t (clamp (cw s c 0x28)) ∧ cw t c 0xC0 = clamp (cw s c 0x28) ∧ cw t c 0xC4 = 0 ∧
        fon t (LOOP_CSTAT_FB c) = true ∧ fget t (LOOP_CSTAT_FBREASON c) = 2)

/-- The die bridge and the field supplies (R14, R118, R420–R422, R427, R438–R440, R443, R509). -/
def Obligations.FieldDie : Prop :=
  ∀ (s : State) (n k : Nat) (h : Syl) (rd cs : CReg) (am : Addr) (p : Piece) (e : StoreEntry) (pri : Bool),
    let c := readC s n cs.toNat
    let i : Instr := .ldw h rd cs am
    let a := e.word * 16 + 4 * k
    s.wdr.held = none → Config.fieldDie s.variant = true →
    (∃ t, exec (.bridgeFrame true) s = .next t ∧ bridgeUp t = true ∧ fon t MEAS_AUTHSTAT_CLAIM =
      (fon s MEAS_AUTHSTAT_CLAIM || (fon s MEAS_AUTHSTAT_LINE && !fon s MEAS_AUTHSTAT_TWINCL && fieldGood s)) ∧
      t = { s with regs := t.regs } ∧ ∀ a, a ≠ MEAS_BRSTAT → a ≠ MEAS_AUTHSTAT → reg t a = reg s a) ∧
    (∃ t, exec (.bridgeFrame false) s = .next t ∧ t = countUp s MEAS_BRERR_CNT) ∧
    (bridgeUp s = true → ∃ t, exec .bridgeLoss s = .next t ∧ bridgeUp t = false ∧ reg t MEAS_OUTEN0 = 0 ∧ reg t MEAS_OUTEN1 = 0 ∧
      fon t MEAS_AUTHSTAT_CLAIM = false ∧ fon t MEAS_AUTHSTAT_DRIVE = false ∧ (∀ j < 16, fon t (MEAS_MRES_VALID j) = false) ∧ fget t MEAS_BRSTAT_DOWNN = min (fget s MEAS_BRSTAT_DOWNN + 1) 65535 ∧
      ((blkState s 9 = 1 ∨ blkState s 9 = 2) → blkState t 9 = 4) ∧ (∀ x ∈ t.meas.chans, x.trigs = [])) ∧
    (fieldGood s = true → ∃ t, exec .fieldSupplyFault s = .next t ∧ fieldGood t = false ∧ fon t MEAS_AUTHSTAT_DRIVE = false ∧
      fon t MEAS_AUTHSTAT_CLAIM = false ∧ reg t MEAS_OUTEN0 = 0 ∧ reg t MEAS_OUTEN1 = 0 ∧ (∀ j < 32, doLevel t j = .hiZ) ∧
      (∀ j < 8, aoLevel t j = none) ∧ ((blkState s 9 = 1 ∨ blkState s 9 = 2) → blkState t 9 = 4)) ∧
    (fieldGood s = false → ∃ t, exec (.fieldSupplyRecovery pri) s = .next t ∧ fieldGood t = true ∧ fon t MEAS_AUTHSTAT_PRI = pri ∧
      fon t MEAS_AUTHSTAT_CLAIM = (fon s MEAS_AUTHSTAT_CLAIM || (fon s MEAS_AUTHSTAT_LINE && !fon s MEAS_AUTHSTAT_TWINCL && bridgeUp s)) ∧
      PagesOnly s t) ∧
    (h.core = n → n < s.cores.length → Whole h i → condOn s h = true → (core s n).held = some { freshHeld (encodeSyl i) with why := .field } →
      checkAccess s n [] (curRegs s n).space.toNat (stRING (status s n)) c .load none (effAddr (capCursor c) am 4) 4 = .go [p] →
      ∃ t u, exec (.fieldRegisterAccess n false) s = .next t ∧ t = retry u n ∧ u.regs = (regRead32 s p.pa (.core n)).1.regs ∧
        (core u n).held = some { freshHeld (encodeSyl i) with why := .field, answer := some (regRead32 s p.pa (.core n)).2, begun := true }) ∧
    (n < s.cores.length → k < 4 → (core s n).sb.find? (fun e => e.sent && fieldEntry s e) = some e → e.mask = byteMask (4 * k) 4 →
      e.cap = false → e.sync = none → (core s n).held = none → (core s n).tlbAcks = [] →
      ∃ t, exec (.fieldRegisterAccess n true) s = .next t ∧ (core t n).sb = (core s n).sb.filter (fun x => x.id != e.id) ∧
        t.regs = (regWrite32 s a (BitVec.ofNat 32 (bits e.data.toNat (32 * k + 31) (32 * k))) (.core n)).regs)

/-- The outputs: commanded levels, enables, commands on their way, periods and readback (R392, R437, R438, R441, R442). The authority pins
(R438, R443). -/
def Obligations.FieldOutputs : Prop :=
  (∀ (s : State) (src : Src) (v : W32) (x : OutCmd) (r : List OutCmd) (j t0 : Nat) (level : Bool),
      (∀ p ∈ ([(.docmd src v, MEAS_DOCMD, fun _ => v), (.doset src v, MEAS_DOSET, fun d => d ||| v),
          (.doclr src v, MEAS_DOCLR, fun d => d &&& ~~~v)] : List (Instr × Nat × (W32 → W32))),
        Open s src p.2.1 → ∃ t, exec p.1 s = .next t ∧ (s.meas.landed = [] → t = setReg s MEAS_DOCMD (p.2.2 (reg s MEAS_DOCMD))) ∧
          (s.meas.landed ≠ [] → reg t MEAS_DOCMD = s.meas.landed.foldl pinLevels (p.2.2 s.meas.levels) ∧
            t = { s with regs := t.regs, meas := { s.meas with levels := p.2.2 s.meas.levels } })) ∧
      (∀ p ∈ ([(.outenWrite src false v, MEAS_OUTEN0), (.outenWrite src true v, MEAS_OUTEN1)] : List (Instr × Nat)),
        Open s src p.2 → ∃ t, exec p.1 s = .next t ∧ t = setReg s p.2 v) ∧
      (s.wdr.held = none → Config.fieldDie s.variant = true →
        (s.meas.outs = x :: r → running s 9 = true → bridgeUp s = true → ∃ t, exec .fieldOutputCommand s = .next t ∧ t.meas = { s.meas with outs := r } ∧
          (x.kind = 1 → fget t (MEAS_PWMDUTY_DUTY x.idx) = x.code % 65536) ∧ (x.kind ≠ 1 → fget t (MEAS_AOUT_CODE x.idx) = x.code % 65536)) ∧
        (s.meas.outs = x :: r → bridgeUp s = false → ∃ t, exec .fieldOutputCommand s = .next t ∧ t = { s with meas := { s.meas with outs := r } }) ∧
        (j < 32 → (doLevel s j = .hiZ ∨ doLevel s j = boolLevel level) → ∃ t, exec (.outputReadback j level) s = .next t ∧ t = s) ∧
        (j < 32 → doLevel s j ≠ .hiZ → doLevel s j ≠ boolLevel level → ∃ t, exec (.outputReadback j level) s = .next t ∧
          bit (reg t MEAS_DOFLT).toNat j = true ∧ PagesOnly s t) ∧
        (t0 < 4 → ∃ t, exec (.pwmPeriod t0) s = .next t ∧ (∀ i < 6, dutyNow t (6 * t0 + i) = fget s (MEAS_PWMDUTY_DUTY (6 * t0 + i))) ∧
          (∀ i < 3, deadNow t (3 * t0 + i) = fget s (MEAS_PWMPAIR_DT (3 * t0 + i))) ∧ t = { s with meas := t.meas } ∧
          (t0 < s.meas.pwms.length → (pwmS t t0).centre = (pwmS s t0).centre + (pwmS t t0).period ∧
            (pwmS t t0).period = if pwmFollows s t0 then (pwmS s t0).period else fget s (MEAS_PWMTPER_PER t0))))) ∧
  (∀ (s : State), s.wdr.held = none → Config.fieldDie s.variant = true →
      (∃ t, exec .twinClaimSeen s = .next t ∧ fon t MEAS_AUTHSTAT_TWINCL = true ∧
        (fon s MEAS_AUTHSTAT_CLAIM = true → fon t MEAS_AUTHSTAT_DRIVE = false ∧ fon t MEAS_AUTHSTAT_CLAIM = fon s MEAS_AUTHSTAT_PRI ∧
          (fon s MEAS_AUTHSTAT_DRIVE = true → reg t MEAS_OUTEN0 = 0 ∧ reg t MEAS_OUTEN1 = 0))) ∧
      (∃ t, exec .twinClaimAbsent s = .next t ∧ fon t MEAS_AUTHSTAT_TWINCL = false ∧
        fon t MEAS_AUTHSTAT_CLAIM = (fon s MEAS_AUTHSTAT_CLAIM || (fon s MEAS_AUTHSTAT_LINE && bridgeUp s && fieldGood s)) ∧ fon t MEAS_AUTHSTAT_DRIVE = fon s MEAS_AUTHSTAT_DRIVE ∧
        (∀ a, a ≠ MEAS_AUTHSTAT → reg t a = reg s a)) ∧
      (∃ t, exec .authorityLineChange s = .next t ∧ fon t MEAS_AUTHSTAT_LINE = authority s ∧
        (authority s = fon s MEAS_AUTHSTAT_LINE → t = s) ∧
        (authority s = true → fon s MEAS_AUTHSTAT_LINE = false →
          fon t MEAS_AUTHSTAT_CLAIM = (fon s MEAS_AUTHSTAT_CLAIM || (!fon s MEAS_AUTHSTAT_TWINCL && bridgeUp s && fieldGood s))) ∧
        (authority s = false → fon s MEAS_AUTHSTAT_LINE = true → fon t MEAS_AUTHSTAT_CLAIM = false ∧ fon t MEAS_AUTHSTAT_DRIVE = false ∧
          (fon s MEAS_AUTHSTAT_DRIVE = true → reg t MEAS_OUTEN0 = 0 ∧ reg t MEAS_OUTEN1 = 0 ∧ fon t MEAS_AUTHSTAT_DROP = true))) ∧
      (fon s MEAS_AUTHSTAT_CLAIM = true → fon s MEAS_AUTHSTAT_TWINCL = false → fon s MEAS_AUTHSTAT_DRIVE = false → bridgeUp s = true →
        fieldGood s = true → ∃ t, exec .driveRise s = .next t ∧ fon t MEAS_AUTHSTAT_DRIVE = true ∧ t = raise (fset s MEAS_AUTHSTAT_DRIVE 1) 9 2))

/-- Triggers, results and their shadows (R425–R427). Encoders and digital inputs (R430–R432, R434, R435). -/
def Obligations.MeasurementsAndEncoders : Prop :=
  (∀ (s : State) (src : Src) (n k tick tk centre : Nat) (l : List Nat) (mask : BitVec 16) (code : Int) (overload trig : Bool),
      let ovl := overload || decide (code < -8388608) || decide (8388607 < code)
      let full := if overload then (if code < 0 then -8388608 else 8388607) else max (-8388608) (min code 8388607)
      let v := if fon s (MEAS_CHCFG_RATE n) then full - full % 16 else full
      let valid := !ovl && decide (3 ≤ (chanS s n).results)
      let word := b2n valid * 2 ^ 31 + b2n ovl * 2 ^ 30 + b2n trig * 2 ^ 29 + (fget s (MEAS_MRES_SEQ n) + 1) % 32 * 2 ^ 24 +
        (v % (2 ^ 24 : Nat)).toNat
      let shown (at' : Nat) (t : State) := reg t (MEAS_MRES n) = BitVec.ofNat 32 word ∧ pair t (MEAS_MTICK_LO n) (MEAS_MTICK_HI n) = at' % 2 ^ 64
      n < 16 → Config.fieldDie s.variant = true →
      (s.wdr.held = none → bridgeUp s = true → fon s (MEAS_CHCFG_EN n) = true →
        (trig = false → blkState s 9 = 1 → fon s (MEAS_CHCFG_CONT n) = true → centre % (25 * sdRatio s n) = 0 →
          ∃ t, exec (.sigmaDeltaResult n code overload trig centre) s = .next t ∧ shown centre t) ∧
        (trig = true → blkState s 9 = 1 ∨ blkState s 9 = 2 → (chanS s n).trigs = tk :: l → n < s.meas.chans.length →
          ∃ t, exec (.sigmaDeltaResult n code overload trig centre) s = .next t ∧ shown tk t ∧ (chanS t n).trigs = l)) ∧
      (s.wdr.held = none → bridgeUp s = false → ∃ t, exec (.sigmaDeltaResult n code overload trig centre) s = .next t ∧ t = s) ∧
      ((∀ j < 16, bit mask.toNat j = (j == n)) → ∀ p ∈ ([(.sampleTrigger mask tick, tick, s.wdr.held = none),
          (.trigsw src mask, s.tick, Open s src MEAS_TRIGSW)] : List (Instr × Nat × Prop)), p.2.2 → trigStatus s n p.2.1 = k →
        ∃ t, exec p.1 s = .next t ∧
          (k = 0 → n < s.meas.chans.length → (chanS t n).trigs = (chanS s n).trigs ++ [p.2.1 / 25 * 25] ∧ t = { s with meas := t.meas }) ∧
          (k = 9 → t = raise s 9 5) ∧ (k ≠ 0 → k ≠ 9 → t = s)) ∧
      (Open s src (MEAS_MRES n) → ∃ t, exec (.mresRead src n) s = .next t ∧ mget (fun _ => 0#32) t.answer (reqKey src) = reg s (MEAS_MRES n) ∧
        readShadow t (MEAS_MTICK_LO n) src = reg s (MEAS_MTICK_LO n) ∧ readShadow t (MEAS_MTICK_HI n) src = reg s (MEAS_MTICK_HI n) ∧
        t = { s with rdShadow := t.rdShadow, answer := t.answer })) ∧
  (∀ (s : State) (e word x : Nat) (a b z : Bool),
      let q := encS s e
      let w := fget s (MEAS_SSICFG_NBITS e) + 1
      let raw := word % 2 ^ w
      let next := q.count + signed w ((raw + 2 ^ w - q.word.getD 0) % 2 ^ w)
      let pos (t : State) (k : Int) := pair t (MEAS_ENCPOS_LO e) (MEAS_ENCPOS_HI e) = (k % (2 ^ 64 : Nat)).toNat
      let failed (t : State) := fon t (MEAS_ENCSTAT_ERR e) = true ∧
        fget t (MEAS_ENCSTAT_ERRCNT e) = min (fget s (MEAS_ENCSTAT_ERRCNT e) + 1) 65535 ∧ (encS t e).count = q.count
      let settled (p : EncPin) : Prop := p.level = p.accepted ∧ p.since ≤ s.tick
      let edge (P : State → Prop) : Prop := ∃ t, exec (.encoderEdge e a b z) s = .next t ∧ P t
      let d := s.meas.dins.getD 0 DinS.empty
      let thr := fget s (MEAS_DICFG_THR 0)
      let out := (if d.comp then decide (thr ≤ x + 2) else decide (thr + 2 ≤ x)) != fon s (MEAS_DICFG_INV 0)
      let st := bit (reg s (MEAS_DISTATE 0)).toNat 0
      let turns := decide (out ≠ st) && decide (fget s (MEAS_DICFG_DEB 0) ≤ d.differ)
      let beat := b2n (decide (2 ^ fget s MEAS_DITHLIM_DECAY ≤ d.decay + 1))
      let hi := max x (fget s (MEAS_DILEVEL_H 0) - beat)
      let lo := min x (fget s (MEAS_DILEVEL_L 0) + beat)
      let weak := decide (hi - lo < fget s MEAS_DITHLIM_MINSWING)
      s.wdr.held = none → Config.fieldDie s.variant = true →
      (e < 8 → e < s.meas.encs.length → encOn s e 0 = true → settled q.a → settled q.b → settled q.z →
        (fget s (MEAS_ENCCFG_FILT e) = 0 →
          (a ≠ q.a.level → b = q.b.level → z = q.z.level → edge (fun t =>
            (encS t e).count = q.count + (if (a != q.b.level) != fon s (MEAS_ENCCFG_INV e) then 1 else -1) ∧ pos t (encS t e).count ∧
            (encS t e).a.accepted = a)) ∧
          (a = q.a.level → b ≠ q.b.level → z = q.z.level → edge (fun t =>
            (encS t e).count = q.count + (if (b == q.a.level) != fon s (MEAS_ENCCFG_INV e) then 1 else -1) ∧ pos t (encS t e).count ∧
            (encS t e).b.accepted = b)) ∧
          (a ≠ q.a.level → b ≠ q.b.level → edge failed) ∧
          (a = q.a.level → b = q.b.level → q.z.level = false → z = true → edge (fun t => fon t (MEAS_ENCSTAT_IDX e) = true ∧
            pair t (MEAS_ENCIDX_LO e) (MEAS_ENCIDX_HI e) = (q.count % (2 ^ 64 : Nat)).toNat))) ∧
        (fget s (MEAS_ENCCFG_FILT e) ≠ 0 → edge (fun t => t.regs = s.regs ∧
          encS t e = { q with a := q.a.set s.tick a, b := q.b.set s.tick b, z := q.z.set s.tick z }))) ∧
      (e < 8 → e < s.meas.encs.length → encOn s e 1 = true →
        (∃ t, exec (.ssiRead e word a false) s = .next t ∧ failed t) ∧
        (fon s (MEAS_SSICFG_PAR e) = false → fon s (MEAS_SSICFG_GRAY e) = false → ∃ t, exec (.ssiRead e word a true) s = .next t ∧
          (encS t e).count = next ∧ (encS t e).word = some raw ∧ pos t next ∧ fon t (MEAS_ENCSTAT_VALID e) = true)) ∧
      (bridgeUp s = true → fieldGood s = true → x < 256 →
        (fon s (MEAS_DICFG_ADAPT 0) = false →
          ∃ t, exec (.digitalInputSample [x]) s = .next t ∧ bit (reg t (MEAS_DISTATE 0)).toNat 0 = (if turns then out else st) ∧
            bit (reg t (MEAS_DICHG 0)).toNat 0 = (turns || bit (reg s (MEAS_DICHG 0)).toNat 0)) ∧
        (fon s (MEAS_DICFG_ADAPT 0) = true → accepted s 9 5 = true →
          ∃ t, exec (.digitalInputSample [x]) s = .next t ∧ fget t (MEAS_DILEVEL_H 0) = hi ∧ fget t (MEAS_DILEVEL_L 0) = lo ∧
            fget t (MEAS_DILEVEL_THR 0) = (if weak then fget s (MEAS_DILEVEL_THR 0)
              else max (fget s MEAS_DITHLIM_THMIN) (min ((hi + lo) / 2) (fget s MEAS_DITHLIM_THMAX))) ∧
            bit (reg t (MEAS_DIWEAK 0)).toNat 0 = weak)))

/-- A field-link frame received: not heard, not a frame, with a bad CRC, addressed to another lane, from an unknown station, and good: in
its partner's window or unsolicited, with a MAC or without (R454, R455, R458, R459, R461, R462). Requests of a field link, reply windows,
partners and quarantine (R457, R460, R464–R467). -/
def Obligations.FieldLink : Prop :=
  (∀ (s u w : State) (l p : Nat) (pre del hdr pay tg crc : List Int) (f : List Byte),
      let c : Instr := .laneFrameReceive l pre del hdr pay tg crc
      let samples := pre ++ del ++ hdr ++ pay ++ tg ++ crc
      let m := samples.length
      let q := eqRun (laneAdapts s l) (eqStart s l) samples
      let delim := frameStart s l m + 64 * bitTime s l
      let s0 := updLane s l (fun x => { x with idle := some (s.tick - 2 * bitTime s l) })
      let s1 := noteEye s0 l q
      let s2 := setPart s1 l p { partS s1 l p with tokens := tokensNow s l p - 200000000, at_ := s.tick }
      let crcOk := crc32 (f.take (f.length - 4)) = BitVec.ofNat 32 (leVal (f.drop (f.length - 4)))
      let len := frameField f 20 1
      let seq := frameField f 8 4
      let mac := bit (frameField f 1 1) 6
      let d := (seq + 2 ^ 32 - fget s (FLINK_PRXSEQ_SEQ l p)) % 2 ^ 32
      let slot := (partS s l p).rxcnt % partnerNrx s l p
      let awaited := match (laneS s l).win with
        | some r => r.entry == p
        | none => false
      s.wdr.held = none → l < Config.lanes s.variant → l < 16 → l < s.flink.lanes.length →
      (laneHears s l m = false → ∃ t, exec c s = .next t ∧ t = s0) ∧
      (laneHears s l m = true →
        (lineFrame q.out.reverse = none →
          ∃ t, exec c s = .next t ∧ fget t (FLINK_LCNT0_HDRERR l) = min (fget s (FLINK_LCNT0_HDRERR l) + 1) 65535 ∧ t.mem = s.mem) ∧
        (lineFrame q.out.reverse = some f → 276 < f.length →
          ∃ t, exec c s = .next t ∧ fget t (FLINK_LCNT0_HDRERR l) = min (fget s (FLINK_LCNT0_HDRERR l) + 1) 65535 ∧ t.mem = s.mem) ∧
        (lineFrame q.out.reverse = some f → f.length ≤ 276 →
          (f.length < 4 ∨ ¬crcOk →
            ∃ t, exec c s = .next t ∧ fget t (FLINK_LCNT0_CRCERR l) = min (fget s (FLINK_LCNT0_CRCERR l) + 1) 65535 ∧ t.mem = s.mem) ∧
          (4 ≤ f.length → crcOk → frameField f 0 1 % 64 ≠ fget s (FLINK_LCFG_LADDR l) → ∃ t, exec c s = .next t ∧ t = s1) ∧
          (4 ≤ f.length → crcOk → frameField f 0 1 % 64 = fget s (FLINK_LCFG_LADDR l) →
            (partnerAt s l (frameField f 1 1 % 64) = none → ∃ t, exec c s = .next t ∧
              fget t (FLINK_LCNT1_UNKNOWN l) = min (fget s (FLINK_LCNT1_UNKNOWN l) + 1) 65535 ∧ t.mem = s.mem) ∧
            (p < 32 → partnerAt s l (frameField f 1 1 % 64) = some p → frameField f 0 1 < 128 → frameField f 1 1 < 128 → frameField f 22 2 = 0 →
              len ≤ 240 → f.length = 28 + len + 8 * b2n mac → frameField f 2 4 = (reg s (FLINK_PID l p)).toNat →
              fget s (FLINK_PSTAT_STATE l p) ≠ 3 →
              (mac = true → accepted s 0x0A 1 = true ∧ frameTag s l p (f.take (24 + len)) = some ((f.drop (24 + len)).take 8)) →
              (fon s (FLINK_PCFG_MACREQ l p) = true → mac = true) → awaited = true ∨ fon s (FLINK_PCFG_UNSOL l p) = true →
              fon s (FLINK_PCFG_SEQSYNC l p) = true ∨ (d ≠ 0 ∧ d < 2 ^ 31) → 200000000 ≤ tokensNow s l p →
              qfill (qdesc s (fget s (FLINK_PRXQ_QUEUE l p))) ≤ partnerNrx s l p - 2 →
              portBWrite s2 (fget s (FLINK_PRXBASE_ADDR l p) * 256 + 256 * slot) (pad16 ((f.drop 24).take len))
                (blkReq 0x0A (some (fget s (FLINK_PRXQ_CTX l p)))) .field = (u, .ok) →
              partnerPut u l p (flinkWord mac 0 p 0 slot (frameField f 21 1 % 16) (frameField f 21 1 / 16) len (frameField f 6 2)
                (BitVec.ofNat 64 (frameField f 12 8))) (seq * 2 ^ 64 + (laneStampAt u l delim).toNat) = (w, 0) →
              ∃ t, exec c s = .next t ∧ fget t (FLINK_PRXSEQ_SEQ l p) = seq ∧ fget t (FLINK_PSTAT_STATE l p) = 1 ∧
                fget t (FLINK_PSTAT_MISS l p) = 0 ∧ fon t (FLINK_PCFG_SEQSYNC l p) = false ∧
                fget t (FLINK_PCNT2_RXOK l p) = min (fget s (FLINK_PCNT2_RXOK l p) + 1) 65535 ∧
                (laneAdapts s l = true → reg t (FLINK_PDFE0 l p) = q.word ∧ fget t (FLINK_PDFE1_T4 l p) = q.tap 4 ∧
                  fget t (FLINK_PDFE1_SLICE l p) = byteOf q.thr) ∧
                (laneAdapts s l = false → reg t (FLINK_PDFE0 l p) = reg s (FLINK_PDFE0 l p) ∧ reg t (FLINK_PDFE1 l p) = reg s (FLINK_PDFE1 l p)) ∧
                (laneS t l).win = (if awaited then none else (laneS s l).win) ∧
                partS t l p = { tokens := tokensNow s l p - 200000000, at_ := s.tick, rxcnt := (partS s l p).rxcnt + 1 } ∧
                t.mem = w.mem ∧ t.queues = w.queues))))) ∧
  (∀ (s u w : State) (src : Src) (l p : Nat) (ws : List CapW) (data : List Byte) (key : Option (List Byte)) (st : Status) (x : LaneTx)
        (r : FlinkReq) (v : W32),
      let head := (ws.getD 0 nullW).bits.toNat
      let word := (ws.getD 1 nullW).bits.toNat
      let req : FlinkReq := { entry := p, slot := bits word 7 5, cookie := bits word 95 64, len := bits word 15 8, flags := bits word 51 48
                              qtag := bits word 47 32, reply := bit word 16, stamp := 0 }
      let bad := fon s (FLINK_PCFG_EN l p) = false ∨ bits head 29 18 ≠ fget s (FLINK_PRXQ_CTX l p) ∨ bits head 53 48 < 16 ∨ bits word 127 96 ≠ 0 ∨
        bits word 63 52 ≠ 0 ∨ bits word 31 18 ≠ 0 ∨ 240 < bits word 15 8
      let held := fon s (FLINK_LCFG_AGATE l) && accepted s 0x0A 3 && !authority u
      let seq := (fget s (FLINK_PTXSEQ_SEQ l p) + 1) % 2 ^ 32
      let made : LaneTx := { req := req, at_ := u.tick, seq := seq, body := frameBody s l p req (bit word 17) seq data, key := key, frame := none }
      let sent := (x.stamped (laneStamp s l)).req
      let miss := min (fget s (FLINK_PSTAT_MISS l r.entry) + 1) 15
      let works := running s 0x0A && fon s (FLINK_LCFG_EN l)
      l < Config.lanes s.variant → l < 16 → l < s.flink.lanes.length → p < 32 →
      (s.wdr.held = none → works = true → (laneS s l).tx = none → (laneS s l).win = none → lineIdle s l = true →
        queueGet s (fget s (FLINK_LTXQ_QUEUE l)) (some 0) = (u, 0, ws) → bits word 4 0 = p →
        (bad → ∃ t, exec (.laneRequest l) s = .next t ∧ t = laneEvent (fcount u (FLINK_LCNT1_BADREQ l) 1) l 3) ∧
        (¬bad → fget s (FLINK_PSTAT_STATE l p) = 3 → ∃ t, exec (.laneRequest l) s = .next t ∧ t = refuseRequest u l req 9) ∧
        (¬bad → fget s (FLINK_PSTAT_STATE l p) ≠ 3 → held = true → ∃ t, exec (.laneRequest l) s = .next t ∧ t = refuseRequest u l req 11) ∧
        (¬bad → fget s (FLINK_PSTAT_STATE l p) ≠ 3 → held = false →
          portBRead u (fget s (FLINK_PTXBASE_ADDR l p) * 256 + 256 * bits word 7 5) (bits word 15 8)
            (blkReq 0x0A (some (fget s (FLINK_PRXQ_CTX l p)))) = (w, data, st) →
          (if fon s (FLINK_PCFG_MACREQ l p) then useSlot w (fget s (FLINK_PCFG_KSLOT l p)) 1 else none) = key →
          (st ≠ .ok → ∃ t, exec (.laneRequest l) s = .next t ∧ t = refuseRequest w l req (statusCode st)) ∧
          (st = .ok → fon s (FLINK_PCFG_MACREQ l p) = true → key = none → ∃ t, exec (.laneRequest l) s = .next t ∧ t = refuseRequest w l req 12) ∧
          (st = .ok → (fon s (FLINK_PCFG_MACREQ l p) = true → key ≠ none) → ∃ t, exec (.laneRequest l) s = .next t ∧
            (laneS t l).tx = some made ∧ t.regs = w.regs ∧ t.mem = w.mem))) ∧
      (s.wdr.held = none → (laneS s l).tx = some x → x.req.entry < 32 → ∃ t, exec (.laneTransmitEnd l) s = .next t ∧ (laneS t l).tx = none ∧
        fon t (FLINK_LSTAT_TXACT l) = false ∧ fget t (FLINK_PTXSEQ_SEQ l x.req.entry) = x.seq % 2 ^ 32 ∧
        (x.req.reply = false → t = notify (fset (endTx s l) (FLINK_PTXSEQ_SEQ l x.req.entry) x.seq) l sent 1 0 sent.stamp ∧
          (laneS t l).win = (laneS s l).win) ∧
        (x.req.reply = true → fon s (FLINK_PCFG_EN l x.req.entry) = true → works = true ∨ fon s (CTRL_QMODE 0x0A) = false →
          (laneS t l).win = some sent ∧ fon t (FLINK_LSTAT_WIN l) = true ∧ fget t (FLINK_LSTAT_WINP l) = x.req.entry) ∧
        (x.req.reply = true → works = false → fon s (CTRL_QMODE 0x0A) = true → (laneS s l).win = none → (laneS t l).win = none)) ∧
      (s.wdr.held = none → (laneS s l).win = some r → r.entry < 32 → ∃ t, exec (.replyWindowExpiry l) s = .next t ∧ (laneS t l).win = none ∧
        fon t (FLINK_LSTAT_WIN l) = false ∧ fget t (FLINK_PCNT1_TIMEOUT l r.entry) = min (fget s (FLINK_PCNT1_TIMEOUT l r.entry) + 1) 65535 ∧
        fget t (FLINK_PSTAT_MISS l r.entry) = miss ∧
        (fget s (FLINK_PTIME_MISSN l r.entry) ≠ 0 → fget s (FLINK_PSTAT_MISS l r.entry) < fget s (FLINK_PTIME_MISSN l r.entry) →
          fget s (FLINK_PTIME_MISSN l r.entry) ≤ miss → fget t (FLINK_PSTAT_STATE l r.entry) = 2)) ∧
      (s.wdr.held = none → ∃ t, exec .malsecClear s = .next t ∧ (∀ i < 16, ∀ j < 32, fget t (FLINK_PSTAT_MALSEC i j) = 0 ∧
        fget t (FLINK_PSTAT_STATE i j) = fget s (FLINK_PSTAT_STATE i j)) ∧ t = { s with regs := t.regs }) ∧
      (s.wdr.held = none → (fget s (FLINK_PTIME_QTIME l p) = 0 → ∃ t, exec (.quarantineExpiry l p) s = .next t ∧ t = s) ∧
        (fget s (FLINK_PTIME_QTIME l p) ≠ 0 → fget s (FLINK_PSTAT_STATE l p) = 3 → ∃ t, exec (.quarantineExpiry l p) s = .next t ∧
          fget t (FLINK_PSTAT_STATE l p) = 1 ∧ fget t (FLINK_PSTAT_MISS l p) = 0 ∧ ∀ a, a ≠ FLINK_PSTAT l p → reg t a = reg s a)) ∧
      (Open s src (FLINK_PSTAT l p) → ∃ t, exec (.pstatRelease src l p) s = .next t ∧
        fget t (FLINK_PSTAT_STATE l p) = (if fget s (FLINK_PSTAT_STATE l p) = 3 then 1 else fget s (FLINK_PSTAT_STATE l p)) ∧
        (fget s (FLINK_PSTAT_STATE l p) = 3 → fget t (FLINK_PSTAT_MISS l p) = 0)) ∧
      (Open s src (FLINK_PCFG l p) → v &&& 0x0C0CE0FF = 0 → fon s (FLINK_PCFG_EN l p) = false → bit v.toNat 31 = true →
        (pcfgRefused s l p v.toNat = true → ∃ t, exec (.pcfgWrite src l p v) s = .next t ∧ t = capture s 0x0A 0x11 (FLINK_PCFG l p) (srcReq s src)) ∧
        (pcfgRefused s l p v.toNat = false → ∃ t, exec (.pcfgWrite src l p v) s = .next t ∧ reg t (FLINK_PCFG l p) = v ∧
          fget t (FLINK_PSTAT_STATE l p) = 1 ∧ fget t (FLINK_PSTAT_MISS l p) = 0 ∧ fget t (FLINK_PSTAT_MALSEC l p) = 0 ∧
          partS t l p = { tokens := fget s (FLINK_PLIMIT_BURST l p) * 200000000, at_ := s.tick, rxcnt := 0 })))

/-- Frames of the network switch received, queued for sending and sent (R472–R474, R476–R478, R480, R482). -/
def Obligations.NetworkFrames : Prop :=
  ∀ (s s1 u w : State) (p i k : Nat) (raw data key : List Byte) (r : List W32) (fr : NetFrame) (sa : SaS) (st : Status) (ws : List CapW),
    let f := raw.take (raw.length - 4)
    let crcOk := crc32 f = BitVec.ofNat 32 (leVal (raw.drop (raw.length - 4)))
    let c := ruleW r 6 % 64
    let n := mget (fun _ => 0) s.net.rxcnt c
    let v := frameView s p f
    let tsv := bit (ruleW r 6) 29 && accepted s 0x0B 1
    let word := (n % rxSlots s c) * 2 ^ 112 + b2n tsv * 2 ^ 100 + b2n v.tagged * 2 ^ 99 + v.pcp * 2 ^ 96 + v.vid * 2 ^ 84 + p * 2 ^ 80 +
      f.length * 2 ^ 64 + (if tsv then ptpStamp s p raw.length else 0)
    let secured := macsecOn s p && netField f 12 2 == 0x88E5
    let counted := { s1 with net := { s1.net with rules := mput (fun _ => []) s1.net.rules i (r.set 7 (satInc (r.getD 7 0))) } }
    let s2 := ((upTo 4).filter (fun k => k != p && bit (bits (ruleW r 6) 27 24) k)).foldl
      (fun st k => netForward st k { bytes := f, tc := v.pcp, req := none }) counted
    let full := { s2 with net := { s2.net with rxFull := mput (fun _ => 0) s2.net.rxFull c (mget (fun _ => 0) s2.net.rxFull c + 1) } }
    s.wdr.held = none → p < Config.ports s.variant → p < 4 → p < s.net.ports.length →
    (netHears s p raw.length = false → ∃ t, exec (.ethernetFrameReceive p raw) s = .next t ∧ t = s) ∧
    (netHears s p raw.length = true → fon s (NET_PCFG_EN p) = true → fon s (NET_PSTAT_LINK p) = true →
      (raw.length < 64 ∨ 2004 < raw.length ∨ ¬crcOk → ∃ t, exec (.ethernetFrameReceive p raw) s = .next t ∧ t = fcount s (NET_PCNT1_ERRDROP p) 1) ∧
      (64 ≤ raw.length → raw.length ≤ 2004 → crcOk → stormCheck (countUp s (NET_PCNT0 p)) p f = (s1, true) →
        ∃ t, exec (.ethernetFrameReceive p raw) s = .next t ∧ t = portEvent (fcount s1 (NET_PCNT1_STORMDROP p) 1) p 1) ∧
      (64 ≤ raw.length → raw.length ≤ 2004 → crcOk → stormCheck (countUp s (NET_PCNT0 p)) p f = (s1, false) →
        (secured = true → validate s1 p f = (u, none) →
          ∃ t, exec (.ethernetFrameReceive p raw) s = .next t ∧ t = portEvent (fcount u (NET_PCNT1_ERRDROP p) 1) p 2) ∧
        (secured = true → validate s1 p f = (u, some data) →
          ∃ t, exec (.ethernetFrameReceive p raw) s = .next t ∧ t = classify u p data true (ptpStamp s p raw.length)) ∧
        (secured = false → firstRule s p v false = none → ∃ t, exec (.ethernetFrameReceive p raw) s = .next t ∧ t = fcount s1 (NET_PCNT3_NOMATCH p) 1) ∧
        (secured = false → firstRule s p v false = some (i, r) →
          (bit (ruleW r 6) 30 = false → ∃ t, exec (.ethernetFrameReceive p raw) s = .next t ∧ t = s2) ∧
          (bit (ruleW r 6) 30 = true → fon s (NET_RCFG_EN c) = false → ∃ t, exec (.ethernetFrameReceive p raw) s = .next t ∧ t = raise s2 0x0B 17) ∧
          (bit (ruleW r 6) 30 = true → fon s (NET_RCFG_EN c) = true → rxSlots s c - 2 < qfill (qdesc s2 (fget s (NET_RCFG_QUEUE c))) →
            ∃ t, exec (.ethernetFrameReceive p raw) s = .next t ∧ t = raise full 0x0B 17) ∧
          (bit (ruleW r 6) 30 = true → fon s (NET_RCFG_EN c) = true → qfill (qdesc s2 (fget s (NET_RCFG_QUEUE c))) ≤ rxSlots s c - 2 →
            portBWrite s2 (fget s (NET_RBASE_ADDR c) * 2048 + 2048 * (n % rxSlots s c)) f (blkReq 0x0B (some (fget s (NET_RBASE_CTX c)))) .network
              = (u, .ok) →
            queuePut u { queue := fget s (NET_RCFG_QUEUE c), sender := fget s (NET_RBASE_CTX c), ring := none, cls := fget s (NET_RCFG_CLASS c)
                         axis := 0, flags := 0, plen := 32
                         payload := [⟨BitVec.ofNat 128 word, false⟩, ⟨BitVec.ofNat 128 i, false⟩, nullW], fromEvt := false } = (w, 0) →
            ∃ t, exec (.ethernetFrameReceive p raw) s = .next t ∧
              t = { w with net := { w.net with rxcnt := mput (fun _ => 0) w.net.rxcnt c (n + 1) } } ∧
              mget (fun _ => []) t.net.rules i = r.set 7 (satInc (r.getD 7 0)) ∧ reg t (NET_PCNT0 p) = satInc (reg s (NET_PCNT0 p)))))) ∧
    (running s 0x0B = true → fon s (NET_PCFG_EN p) = true → egressBytes (portS s p) + 2000 ≤ 65536 →
      queueGet s (fget s (NET_PTXQ_QUEUE p)) (some 0) = (u, 0, ws) →
      let head := (ws.getD 0 nullW).bits.toNat
      let word := (ws.getD 1 nullW).bits.toNat
      let q : NetReq := { chan := word % 64, slot := bits word 8 6, cookie := bits word 95 64, ts := bit word 11, onestep := bit word 12
                          ofs := bits word 39 32 }
      let len := bits word 26 16
      let bad := fon s (NET_TCFG_EN q.chan) = false ∨ bits head 29 18 ≠ fget s (NET_TBASE_CTX q.chan) ∨ bits head 53 48 < 16 ∨
        bit (fget s (NET_TCFG_PORTS q.chan)) p = false ∨ bits word 127 96 ≠ 0 ∨ bits word 63 40 ≠ 0 ∨ bits word 31 27 ≠ 0 ∨
        bits word 15 13 ≠ 0 ∨ bits word 10 9 ≠ 0 ∨ len < 14 ∨ 2000 < len
      let made : NetFrame := { bytes := data ++ List.replicate (60 - data.length) 0, tc := fget s (NET_TCFG_TC q.chan), req := some q }
      (bad → ∃ t, exec (.portTransmitRequest p) s = .next t ∧ t = raise (updPort u p (fun x => { x with badReq := x.badReq + 1 })) 0x0B 18) ∧
      (¬bad → portBRead u (fget s (NET_TBASE_ADDR q.chan) * 2048 + 2048 * q.slot) len
          (blkReq 0x0B (some (fget s (NET_TBASE_CTX q.chan)))) = (w, data, st) →
        (st ≠ .ok → ∃ t, exec (.portTransmitRequest p) s = .next t ∧ t = txComplete w q (statusCode st) none) ∧
        (st = .ok → (fon s (NET_TCFG_VIDEN q.chan) = true → netTagged data = true ∧ netField data 14 2 % 4096 = fget s (NET_TCFG_VID q.chan)) →
          (macsecOn s p = true → (txSa w p).isSome = true) → (q.onestep = true → accepted s 0x0B 2 = true → q.ofs + 44 ≤ len) →
          (neverStarts w p made = true → ∃ t, exec (.portTransmitRequest p) s = .next t ∧ t = dropTooLong w p made) ∧
          (neverStarts w p made = false → ∃ t, exec (.portTransmitRequest p) s = .next t ∧
            t = updPort w p (fun x => { x with egress := x.egress ++ [made] }))))) ∧
    (egressPick s p = none → ∃ t, exec (.portTransmitComplete p) s = .next t ∧ t = s) ∧
    (egressPick s p = some fr → macsecOn s p = false → fr.req = none → ∃ t, exec (.portTransmitComplete p) s = .next t ∧
      (portS t p).egress = (portS s p).egress.erase fr ∧ (portS t p).wire = fr.bytes ++ leBytes 4 (crc32 fr.bytes).toNat ∧
      reg t (NET_PCNT2 p) = satInc (reg s (NET_PCNT2 p)) ∧ (∀ a, a ≠ NET_PCNT2 p → reg t a = reg s a)) ∧
    (∀ q : NetReq, egressPick s p = some fr → fr.req = some q →
      let stamp := ptpStamp s p (frameLen s p fr)
      let sealed := if macsecOn s p then protect s sa key fr.bytes else fr.bytes
      let out := if q.onestep && accepted s 0x0B 2 then oneStep s q stamp sealed else sealed
      (macsecOn s p = true → txSa s p = none → ∃ t, exec (.portTransmitComplete p) s = .next t ∧
        t = txComplete (updPort s p (fun x => { x with egress := x.egress.erase fr })) q 11 none) ∧
      ((macsecOn s p = true → txSa s p = some (k, sa, key)) → ∃ t, exec (.portTransmitComplete p) s = .next t ∧
        (portS t p).egress = (portS s p).egress.erase fr ∧ (portS t p).wire = out ++ leBytes 4 (crc32 out).toNat ∧
        (macsecOn s p = true → saAt t k = { sa with pn := sa.pn + 1 }) ∧
        (macsecOn s p = false → t = txComplete (countUp (updPort s p (fun x =>
          { x with egress := x.egress.erase fr, wire := out ++ leBytes 4 (crc32 out).toNat })) (NET_PCNT2 p)) q 0
          (if q.ts && accepted s 0x0B 1 then some stamp else none))))

/-- The switch's tables, its clock and its gates, and the links (R472, R475, R480, R482, R483). -/
def Obligations.NetworkTables : Prop :=
  ∀ (s : State) (src : Src) (p start : Nat) (use : Nat × Nat) (up half : Bool) (speed : BitVec 2) (v : W32),
    let n := fget s NET_RSEL_RULE
    let w := (upTo 7).map (fun i => reg s (NET_RULEW i))
    let bad := bits (ruleW w 5) 15 12 ≠ 0 ∨ bits (ruleW w 6) 23 6 ≠ 0 ∨ (bit (ruleW w 6) 30 = true ∧ fon s (NET_RCFG_EN (ruleW w 6 % 64)) = false)
    let k := saKey (fget s NET_SASEL_PORT) (fget s NET_SASEL_DIR) (fget s NET_SASEL_SC) (fget s NET_SASEL_SA)
    let x := saAt s k
    let lo := (mget (fun _ => (none : Option W32)) s.wrShadow (shadowKey NET_PTPSTEP_LO src)).getD (reg s NET_PTPSTEP_LO)
    let bank := fget s (NET_QBVCTL_BANK p)
    let started := { portS s p with gates := gateBank s p bank, cycle := some start }
    let swapped := { portS s p with swap := none, inUse := some use, gates := gateBank s p (1 - bank), cycle := some start }
    let link := up && !(half && fget s (NET_PCFG_MODE p) == 2) && fon s (NET_PCFG_EN p)
    (Open s src NET_ICMD →
      (bad → ∃ t, exec (.writeRule src) s = .next t ∧ t = capture s 0x0B 0x11 NET_ICMD (srcReq s src)) ∧
      (¬bad → ∃ t, exec (.writeRule src) s = .next t ∧ mget (fun _ => []) t.net.rules n = w ++ [0] ∧ ruleHits t = 0 ∧
        t = { s with net := { s.net with rules := t.net.rules } }) ∧
      (∃ t, exec (.readRule src) s = .next t ∧ (∀ i < 7, reg t (NET_RULEW i) = (mget (fun _ => []) s.net.rules n).getD i 0) ∧
        t = { s with regs := t.regs }) ∧
      (∃ t, exec (.writeSa src) s = .next t ∧
        saAt t k = { en := fon s NET_SACFG_EN, xpn := fon s NET_SACFG_XPN, an := fget s NET_SACFG_AN, kslot := fget s NET_SACFG_KSLOT
                     sci := pair s NET_SASCI_LO NET_SASCI_HI, pn := pair s NET_SAPN_LO NET_SAPN_HI } ∧ t.regs = s.regs) ∧
      (∃ t, exec (.readSa src) s = .next t ∧ fon t NET_SACFG_EN = x.en ∧ fon t NET_SACFG_XPN = x.xpn ∧ fget t NET_SACFG_AN = x.an % 4 ∧
        fget t NET_SACFG_KSLOT = x.kslot % 32 ∧ pair t NET_SASCI_LO NET_SASCI_HI = x.sci % 2 ^ 64 ∧ pair t NET_SAPN_LO NET_SAPN_HI = x.pn % 2 ^ 64 ∧
        t = { s with regs := t.regs })) ∧
    (Open s src NET_RULEW7 → ∃ t, exec (.rcRead src NET_RULEW7) s = .next t ∧ mget (fun _ => 0#32) t.answer (reqKey src) = ruleHits s) ∧
    (Open s src NET_PTPSTEP_HI → ∃ t, exec (.ptpstepWrite src v) s = .next t ∧
      t.net = { s.net with step := some (s.net.step.getD 0 + signed 64 (v.toNat * 2 ^ 32 + lo.toNat)) } ∧
      reg t NET_PTPSTEP_HI = v ∧ reg t NET_PTPSTEP_LO = lo ∧ (∀ x, x ≠ NET_PTPSTEP_HI → x ≠ NET_PTPSTEP_LO → reg t x = reg s x)) ∧
    (s.wdr.held = none → p < Config.ports s.variant → p < 4 → p < s.net.ports.length →
      (∃ t, exec (.linkChange p up half speed) s = .next t ∧ fon t (NET_PSTAT_LINK p) = link ∧ fget t (NET_PSTAT_SPEED p) = speed.toNat ∧
        PagesOnly s t) ∧
      (fon s (NET_QBVCTL_EN p) = false ∨ accepted s 0x0B 3 = false → ∃ t, exec (.qbvCycleStart p) s = .next t ∧ t = s) ∧
      (fon s (NET_QBVCTL_EN p) = true → accepted s 0x0B 3 = true →
        ((portS s p).swap = none → (portS s p).inUse.bind (fun u => cycleStart u (ptpNs s)) = none →
          ∃ t, exec (.qbvCycleStart p) s = .next t ∧ t = s) ∧
        ((portS s p).swap = none → (portS s p).inUse = some use → cycleStart use (ptpNs s) = some start →
          ((portS s p).cycle = some start → ∃ t, exec (.qbvCycleStart p) s = .next t ∧ t = s) ∧
          ((portS s p).cycle ≠ some start → ∃ t, exec (.qbvCycleStart p) s = .next t ∧
            portS t p = { started with egress := (portS s p).egress.filter (fun f => !neverStarts (updPort s p (fun _ => started)) p f) } ∧
            ((portS s p).egress = [] → t.regs = s.regs))) ∧
        ((portS s p).swap = some use → cycleStart use (ptpNs s) = some start → ∃ t, exec (.qbvCycleStart p) s = .next t ∧
          fget t (NET_QBVCTL_BANK p) = 1 - bank ∧ fon t (NET_QBVCTL_SWAP p) = false ∧
          portS t p = { swapped with egress := (portS s p).egress.filter (fun f => !neverStarts (updPort s p (fun _ => swapped)) p f) })))

/-- The serial ports (R484–R487). -/
def Obligations.SerialPorts : Prop :=
  ∀ (s x w : State) (u : Nat) (c : SerChar) (rest : List SerChar) (sts : List Nat) (das : List Byte) (fes pes : List Bool) (data : List Byte) (r : SerReq) (st : Status) (ws : List CapW),
    let line := serChars sts das fes pes
    let heard := line.filter (fun c => !uartDeaf s u c.start)
    let taken := heard.take 256
    let nrx := 2 ^ (fget s (SER_URXBASE_RXSZ u) + 2)
    let slot := (uartS s u).rxcnt % nrx
    let chars := taken.map (fun c => if fon s (SER_UCFG_DATA7 u) then c.data &&& 0x7F else c.data)
    let ferr := taken.any (fun c => c.ferr)
    let perr := taken.any (fun c => c.perr)
    let s0 := updUart (uartIdle s u c.start) u (fun x => { x with brk := false })
    let s1 := if ferr || perr then uartEvent (fcount s0 (SER_UCNT0_FRAMERR u) 1) u 0 else s0
    let got := slot * 2 ^ 80 + b2n (uartS s u).brk * 2 ^ 76 + b2n ferr * 2 ^ 75 + b2n perr * 2 ^ 74 + b2n (decide (256 < heard.length)) * 2 ^ 73 +
      chars.length * 2 ^ 64 + (c.start * 2 ^ 32 / 200000000) % 2 ^ 64
    let head := (ws.getD 0 nullW).bits.toNat
    let word := (ws.getD 1 nullW).bits.toNat
    let bad := bits head 29 18 ≠ fget s (SER_URXQ_CTX u) ∨ bits word 127 96 ≠ 0 ∨ bits word 63 12 ≠ 0 ∨ word % 512 = 0 ∨ 256 < word % 512
    let held := fon s (SER_UCFG_AGATE u) && accepted s 0x0C 2 && !authority x
    let rise := match (uartS s u).idle with
      | some t => max x.tick (t + gapTicks s u)
      | none => x.tick
    let req : SerReq := { slot := bits word 11 9, cookie := bits word 95 64, len := word % 512, bytes := [], de := rise }
    let put (st : State) (w : Nat) := queuePut st
      { queue := fget s (SER_URXQ_QUEUE u), sender := fget s (SER_URXQ_CTX u), ring := none, cls := fget s (SER_URXQ_CLASS u), axis := 0
        flags := 0, plen := 16, payload := [⟨BitVec.ofNat 128 w, false⟩, nullW, nullW], fromEvt := false }
    s.wdr.held = none → u < 8 → u < s.ser.length →
    (heard = [] → ∃ t, exec (.uartFrameReceive u sts das fes pes) s = .next t ∧ t = s) ∧
    (heard = c :: rest → uartHears s u c.start = false → ∃ t, exec (.uartFrameReceive u sts das fes pes) s = .next t ∧ t = s) ∧
    (heard = c :: rest → uartHears s u c.start = true →
      (nrx - 2 < qfill (qdesc s1 (fget s (SER_URXQ_QUEUE u))) →
        ∃ t, exec (.uartFrameReceive u sts das fes pes) s = .next t ∧ t = uartEvent (fcount s1 (SER_UCNT0_RXFULL u) 1) u 1) ∧
      (qfill (qdesc s1 (fget s (SER_URXQ_QUEUE u))) ≤ nrx - 2 →
        portBWrite s1 (fget s (SER_URXBASE_ADDR u) * 256 + 256 * slot) chars (blkReq 0x0C (some (fget s (SER_URXQ_CTX u)))) .field = (x, .ok) →
        put x got = (w, 0) →
        ∃ t, exec (.uartFrameReceive u sts das fes pes) s = .next t ∧ (uartS t u).rxcnt = (uartS s u).rxcnt + 1 ∧ (uartS t u).brk = false ∧
          fget t (SER_UCNT1_RXOK u) = min (fget s (SER_UCNT1_RXOK u) + 1) 65535 ∧ t.mem = w.mem ∧ t.queues = w.queues)) ∧
    (uartOn s u = true → uartDeaf s u s.tick = false → ∃ t, exec (.uartBreak u) s = .next t ∧
      t = uartEvent (updUart s u (fun x => { x with brk := true, idle := some s.tick })) u 3 ∧ (uartS t u).brk = true) ∧
    (uartOn s u = true → (uartS s u).tx = none → queueGet s (fget s (SER_UTXQ_QUEUE u)) (some 0) = (x, 0, ws) →
      (bad → ∃ t, exec (.uartTransmitRequest u) s = .next t ∧ t = uartEvent (fcount x (SER_UCNT1_BADREQ u) 1) u 2) ∧
      (¬bad → held = true → ∃ t, exec (.uartTransmitRequest u) s = .next t ∧ t = uartRefuse x u req 13) ∧
      (¬bad → held = false → portBRead x (fget s (SER_UTXBASE_ADDR u) * 256 + 256 * bits word 11 9) (word % 512)
          (blkReq 0x0C (some (fget s (SER_URXQ_CTX u)))) = (w, data, st) →
        (st ≠ .ok → ∃ t, exec (.uartTransmitRequest u) s = .next t ∧ t = uartRefuse w u req (statusCode st)) ∧
        (st = .ok → ∃ t, exec (.uartTransmitRequest u) s = .next t ∧ (uartS t u).tx = some { req with bytes := data } ∧ t.mem = w.mem))) ∧
    ((uartS s u).tx = some r → put (uartRelease s u r)
        (r.cookie * 2 ^ 96 + 2 ^ 86 + r.slot * 2 ^ 80 + r.len % 512 * 2 ^ 64 + (serCoord (firstBit s u r)).toNat) = (w, 0) →
      ∃ t, exec (.uartTransmitComplete u) s = .next t ∧ t = w ∧ (uartS t u).tx = none)

/-- The lanes of the twin link, HELLO with its session keys, and the delivery, acknowledgement and repetition of frames, those that wait
for room among them (R490, R491, R493). Heartbeats, the loss of the peer, notices, commands and refusals received (R496, R501, R507, R508,
R516, R517). -/
def Obligations.TwinLink : Prop :=
  (∀ (s : State) (l : BitVec 2) (nonce tag : W128) (role : BitVec 3) (prio b : Bool) (unitmap : W32) (accept : W64) (lat x n at_ : Nat)
      (key : List Byte) (f : TwFrame) (body : TwBody) (r : List (Nat × TwFrame)) (rest : List (Nat × Bool × TwBody)),
      let fresh := if linkUp s then linkDown s else s
      let own := (if fresh.twin.nonce.isNone then sendHello fresh else fresh).twin.nonce.getD 0
      let lane (u : State) (k : Nat) := bit (fget u TWIN_LINKSTAT_LANES) k
      let lo := if own.toNat ≤ nonce.toNat then own else nonce
      let hi := if own.toNat ≤ nonce.toNat then nonce else own
      let label : Byte := if own.toNat ≤ nonce.toNat then 1 else 2
      let session (b : Byte) := kdfCtr key ([b, 0] ++ beBytes 16 lo.toNat ++ beBytes 16 hi.toNat) key.length
      let hello : Instr := .hello nonce role prio unitmap accept lat tag
      s.wdr.held = none →
      (∃ t, exec (.laneTrained l) s = .next t ∧ lane t l.toNat = true ∧ (∀ k < 4, k ≠ l.toNat → lane t k = lane s k) ∧ t.twin.nonce.isSome = true ∧
        (s.twin.nonce.isSome = true → t.twin = s.twin)) ∧
      (lane s l.toNat = true → ∃ t, exec (.laneLoss l) s = .next t ∧ lane t l.toNat = false ∧ bit (reg t (EV_RAW 0x0D)).toNat 10 = true ∧
        (∀ k < 4, k ≠ l.toNat → lane t k = lane s k) ∧ ((∃ k < 4, k ≠ l.toNat ∧ lane s k = true) → linkUp t = linkUp s ∧ t.twin = s.twin) ∧
        ((∀ k < 4, k ≠ l.toNat → lane s k = false) → linkUp t = false ∧ t.twin.tx = [] ∧ t.twin.waiting = [] ∧ backlog t = 0 ∧ t.twin.nonce = none ∧
          fon t TWIN_ROLE_PEERVALID = false)) ∧
      (fget s TWIN_LINKSTAT_LANES ≠ 0 →
        (twinKey s = none → blkState s 0x0D = 1 ∨ blkState s 0x0D = 2 → ∃ t, exec hello s = .next t ∧ blkState t 0x0D = 4 ∧ twRole t = 0) ∧
        (twinKey s = some key → tag ≠ helloTag key nonce role prio unitmap accept → ∃ t, exec hello s = .next t ∧ t = countUp s TWIN_AUTHERR_CNT) ∧
        (twinKey s = some key → tag = helloTag key nonce role prio unitmap accept → ∃ t, exec hello s = .next t ∧ linkUp t = true ∧
          fget t TWIN_LINKSTAT_LATENCY = lat % 65536 ∧ fget t TWIN_ROLE_PEERROLE = role.toNat ∧ bit (reg t (EV_RAW 0x0D)).toNat 9 = true ∧
          t.twin.keyTx = session label ∧ t.twin.keyRx = session (3 - label) ∧ t.twin.txSeq = 0 ∧ t.twin.rxSeq = 0 ∧ t.twin.tx = [] ∧
          t.twin.waiting = [] ∧ t.twin.rxq = [] ∧ t.twin.closed = false ∧
          (twRole fresh = 1 → role = 1 → prio = true ∨ fon s TWIN_TWCFG_PRIO = false → twRole t = 0 ∧ fget t TWIN_ROLE_REASON = 10) ∧
          (twRole fresh ≠ 1 ∨ role ≠ 1 ∨ (prio = false ∧ fon s TWIN_TWCFG_PRIO = true) → twRole t = twRole fresh))) ∧
      (linkUp s = true →
        (tag ≠ twTag s.twin.keyRx f → ∃ t, exec (.twinFrameReceive f tag) s = .next t ∧ t = raise (countUp s TWIN_AUTHERR_CNT) 0x0D 4) ∧
        (tag = twTag s.twin.keyRx f → f.seq ≠ s.twin.rxSeq + 1 → ∃ t, exec (.twinFrameReceive f tag) s = .next t ∧ t = s) ∧
        (tag = twTag s.twin.keyRx f → f.seq = s.twin.rxSeq + 1 →
          let queue := if s.twin.closed then s.twin.rxq else s.twin.rxq ++ [(s.tick, { f with body := legalBody f.body })]
          ((∀ k, f.body ≠ .ack k) → ∃ t, exec (.twinFrameReceive f tag) s = .next t ∧
            t.twin = { s.twin with
              rxSeq := f.seq, rxq := queue, txSeq := s.twin.txSeq + 1
              tx := s.twin.tx ++ [{ seq := s.twin.txSeq + 1, last := false, body := .ack f.seq }] } ∧
            reg t TWIN_RXFR_CNT = satInc (reg s TWIN_RXFR_CNT)) ∧
          (f.body = .ack n → ∃ t, exec (.twinFrameReceive f tag) s = .next t ∧ t.twin = { s.twin with rxSeq := f.seq, rxq := queue }))) ∧
      (s.twin.rxq = (x, f) :: r → f.body = .ack n →
        let left := s.twin.tx.filter (fun g => decide (n < g.seq))
        let room := (left.foldl (fun k g => k + frameBytes g) 0) + (32 + bodyBytes body) ≤ 262144
        (s.twin.waiting = [] → ∃ t, exec .ack s = .next t ∧ t.twin = { s.twin with rxq := r, tx := left } ∧
          fget t TWIN_BACKLOG_BYTES = backlog t % 2 ^ 19 ∧ fon t TWIN_QSYNC_BUSY = false) ∧
        (s.twin.waiting = (at_, b, body) :: rest → ¬room → ∃ t, exec .ack s = .next t ∧ t.twin = { s.twin with rxq := r, tx := left }) ∧
        (s.twin.waiting = [(at_, b, body)] → room → s.twin.fenceLeft = 0 → ∃ t, exec .ack s = .next t ∧
          t.twin = { s.twin with
            rxq := r, waiting := [], txSeq := s.twin.txSeq + 1
            tx := left ++ [{ seq := s.twin.txSeq + 1, last := b, body := agedBody (s.tick - at_) body }] })) ∧
      (∃ t, exec .retransmission s = .next t ∧ t = { s with regs := t.regs } ∧
        (reg t TWIN_TXFR_CNT).toNat = min ((reg s TWIN_TXFR_CNT).toNat + s.twin.tx.length) (2 ^ 32 - 1) ∧
        ∀ a, a ≠ TWIN_TXFR_CNT → reg t a = reg s a)) ∧
  (∀ (s : State) (x k role c ctx df cause a st q : Nat) (b ready line claim twincl drive : Bool) (ax : W64) (r : List (Nat × TwFrame)),
      let pop := updTwin s (fun w => { w with rxq := r })
      let joined := updTwin pop (fun w => { w with peerReady := false })
      let got (body : TwBody) := s.twin.rxq = (x, { seq := k, last := b, body := body }) :: r
      let wiring := Config.fieldDie s.variant = true ∧ (claim ≠ fon s MEAS_AUTHSTAT_TWINCL ∨ fon s MEAS_AUTHSTAT_CLAIM ≠ twincl)
      let ev (u : State) (n : Nat) := bit (reg u (EV_RAW 0x0D)).toNat n = true
      s.wdr.held = none →
      (linkUp s = true → ∃ t, exec .heartbeatSend s = .next t ∧
        t.twin = { s.twin with
          txSeq := s.twin.txSeq + 1
          tx := s.twin.tx ++ [{ seq := s.twin.txSeq + 1, last := false
                                body := .heartbeat (twRole s) (fon s TWIN_ROLE_READY) (authority s) (fon s MEAS_AUTHSTAT_CLAIM)
                                  (fon s MEAS_AUTHSTAT_TWINCL) (fon s MEAS_AUTHSTAT_DRIVE) (BitVec.ofNat 64 (axisPos s 0)) }] }) ∧
      (got (.heartbeat role ready line claim twincl drive ax) → role < 8 → ∃ t, exec .heartbeat s = .next t ∧ fon t TWIN_ROLE_PEERVALID = true ∧
        fget t TWIN_ROLE_PEERROLE = role ∧ t.twin.peerReady = ready ∧ t.twin.lost = (s.twin.lost && twRole s == 3) ∧ (¬wiring → t.twin.disagree = 0) ∧
        (wiring → s.twin.disagree < 2 → t.twin.disagree = s.twin.disagree + 1) ∧ (wiring → s.twin.disagree = 2 → ev t 14) ∧
        (twRole s = 2 → role = 0 → twRole t = 1 ∧ fget t TWIN_ROLE_REASON = 5) ∧ (twRole s ≠ 2 ∨ role ≠ 0 → twRole t = twRole s)) ∧
      (fon s TWIN_ROLE_PEERVALID = true → ∃ t, exec .peerLoss s = .next t ∧ fon t TWIN_ROLE_PEERVALID = false ∧ ev t 1 ∧ t.twin.lost = true ∧
        (twRole s = 2 → twRole t = 1 ∧ fget t TWIN_ROLE_REASON = 3) ∧ (twRole s < 2 → twRole t = twRole s) ∧
        (twRole s = 3 → fon s TWIN_ROLE_READY = false → twRole t = 0 ∧ fget t TWIN_ROLE_REASON = 3) ∧
        (twRole s = 3 → fon s TWIN_ROLE_READY = true → twRole t = 3 ∧ t.twin.closed = true ∧ t.twin.rxq = [] ∧ (autoTake s = true → t.twin.take = some 3))) ∧
      (got .relinquish → twRole s = 3 → fon s TWIN_ROLE_READY = true → ∃ t, exec .notice s = .next t ∧ t = updTwin pop (fun w => { w with take := some 4 })) ∧
      (got (.triple c ctx df cause) → ∃ t, exec .notice s = .next t ∧
        t = alert (raise pop 0x0D 5) 5 0 (c + ctx * 16 + df * 2 ^ 16 + cause * 2 ^ 24)) ∧
      (got .join → twRole s = 1 → running s 0x0D = true →
        (mayPair s = true → ∃ t, exec .notice s = .next t ∧ t = syncQueues (setRole joined 2 2 false false) ∧
          twRole (setRole joined 2 2 false false) = 2 ∧ fget (setRole joined 2 2 false false) TWIN_ROLE_REASON = 2) ∧
        (mayPair s = false → ∃ t, exec .notice s = .next t ∧ t = raise pop 0x0D 12)) ∧
      (got .syncDone → twRole s = 3 → ∃ t, exec .notice s = .next t ∧ t = fset pop TWIN_ROLE_READY 1) ∧
      (got .peerFence → fon s TWIN_TWCFG_PEERCMD = true → accepted s 0x0D 6 = true → twRole s ≠ 0 →
        ∃ t, exec .command s = .next t ∧ twRole t = 0 ∧ fget t TWIN_ROLE_REASON = 8 ∧ authority t = false) ∧
      (got .peerReset → fon s TWIN_TWCFG_PEERCMD = true → accepted s 0x0D 6 = true → ∃ t, exec .command s = .next t ∧ t = chipReset pop 4) ∧
      (got .peerFence ∨ got .peerReset → fon s TWIN_TWCFG_PEERCMD = false → ∃ t, exec .command s = .next t ∧ t = pop) ∧
      (twRole s = 2 →
        let u := raise (countUp pop TWIN_NAK_CNT) 0x0D 3
        (got (.nakStore a st) → ∃ t, exec .nak s = .next t ∧ t = resend (alert u 4 a st)) ∧
        (got (.nakRecord c st) → ∃ t, exec .nak s = .next t ∧ t = resend (alert u 4 0 (st + 32 + c * 256))) ∧
        (got (.nakQueue q st) → st ≠ 12 → ∃ t, exec .nak s = .next t ∧ t = resend (alert u 4 0 (st + 16 + q * 256))) ∧
        (got (.nakQueue q 12) → replicates s 2 = true → (qdesc s q).en = true → (qdesc s q).twin = true →
          ∃ t, exec .nak s = .next t ∧ t = queueSyncSend (resend (alert u 4 0 (28 + q * 256))) q)))

/-- What the standby does with the replication stream (R496, R500–R502, R506). -/
def Obligations.TwinStandby : Prop :=
  ∀ (s u w : State) (x k a q put get ovf c tag age : Nat) (b : Bool) (v : CapW) (st : Status) (msg : List CapW) (slots : List (List CapW))
    (ws : List CapW) (axes : List (Bool × W64)) (m : MarkCk) (cell : CellCk) (p : W64) (r : List (Nat × TwFrame)),
    let pop := updTwin s (fun w => { w with rxq := r })
    let frame (b : Bool) (body : TwBody) : TwFrame := { seq := k, last := b, body := body }
    let got (b : Bool) (body : TwBody) := s.twin.rxq = (x, frame b body) :: r
    let d := qdesc s q
    let d' : QDesc := { d with put := put, get := get, ovf := ovf }
    let axis := bits m.ctl.toNat 30 27
    let t0 := x - fget s TWIN_LINKSTAT_LATENCY - age
    s.wdr.held = none →
    (standsBy s 1 = true → got b (.store [(a, v)]) →
      (portBWord pop a v twinWho .twin = (u, .ok) → ∃ t, exec .store s = .next t ∧ t = u) ∧
      (portBWord pop a v twinWho .twin = (u, st) → st ≠ .ok → ∃ t, exec .store s = .next t ∧ t = twSend u false (.nakStore a (statusCode st))) ∧
      (a % 16 = 0 → inMem s a = true → fget s (MEM_BOWN_DOM (bankNo a)) = 4 → ∃ t, exec .store s = .next t ∧ memWord t a = v ∧
        ∀ y, (y < a ∨ a + 16 ≤ y) → memByte t y = memByte s y)) ∧
    (standsBy s 2 = true → got b (.queueOp q put get ovf (some msg)) →
      (d.desync = true → ∃ t, exec .queue s = .next t ∧ t = pop) ∧
      (d.desync = false → (d.en && d.twin && countsFollow d put get ovf true) = false → ∃ t, exec .queue s = .next t ∧ t = desync pop q ∧
        qdesc t q = { d with desync := true }) ∧
      (d.desync = false → d.en = true → d.twin = true → countsFollow d put get ovf true = true →
        putWords (blkReq 5 none) .twin (slotAddr d d.put) msg pop = (u, .ok) → twinHeader u d' = (w, .ok) → ∃ t, exec .queue s = .next t ∧
        t = setQdesc w q { qdesc w q with put := put, get := get, ovf := ovf })) ∧
    (standsBy s 2 = true → s.twin.qsPart = [] →
      (got false (.queueSync q put get ovf slots) → ∃ t, exec .queueSyncApply s = .next t ∧
        t = updTwin pop (fun w => { w with qsPart := [frame false (.queueSync q put get ovf slots)] })) ∧
      (got true (.queueSync q put get ovf slots) → d.en = true → d.twin = true → writeSlots d get slots pop = (u, .ok) → twinHeader u d' = (w, .ok) →
        ∃ t, exec .queueSyncApply s = .next t ∧ t = setQdesc w q { qdesc w q with put := put, get := get, ovf := ovf, desync := false })) ∧
    (standsBy s 3 = true → s.twin.recPart = [] →
      (got false (.record c 0 ws) → ∃ t, exec .record s = .next t ∧ t = updTwin pop (fun w => { w with recPart := [frame false (.record c 0 ws)] })) ∧
      (got true (.record c 0 ws) → c < Config.contexts s.variant → ctxState s c = 4 → ws.length = 48 → ∃ t, exec .record s = .next t ∧
        (∀ i < 48, recWord t c i = ws.getD i nullW) ∧ (∀ c' i, i < 64 → (c' ≠ c ∨ 48 ≤ i) → recWord t c' i = recWord s c' i)) ∧
      (got true (.record c 0 ws) → ctxState s c ≠ 4 → ∃ t, exec .record s = .next t ∧ t = twSend (raise pop 0x0D 12) false (.nakRecord c 11))) ∧
    (standsBy s 4 = true → s.twin.ckPart = [] →
      (got false (.checkpoint tag age axes [m] [cell]) → ∃ t, exec .checkpoint s = .next t ∧
        t = updTwin pop (fun w => { w with ckPart := [frame false (.checkpoint tag age axes [m] [cell])] })) ∧
      (got true (.checkpoint tag age axes [m] []) → axes[axis]? = some (b, p) → ∃ t, exec .checkpoint s = .next t ∧
        t = raise (fset (restoreMark pop m.mark (((m.coord.toNat : Int) + axisShift s axis (sdiff (posAt s axis t0) p.toNat)) % (2 ^ 64 : Nat)).toNat m.inc.toNat
          (if b && axisValid s axis then m.ctl else BitVec.ofNat 32 (m.ctl.toNat % 2 ^ 31))) TWIN_CKLAST_APPLIED (tag % 256)) 0x0D 6) ∧
      (got true (.checkpoint tag age axes [] [cell]) → cell.cell < Config.cells s.variant → cell.words.length = 32 → ∃ t, exec .checkpoint s = .next t ∧
        reg t (LOOP_COUT cell.cell) = cell.cout ∧ (∀ i < 32, cw t cell.cell (0x80 + 4 * i) = cell.words.getD i 0) ∧
        fget t TWIN_CKLAST_APPLIED = tag % 256 ∧ bit (reg t (EV_RAW 0x0D)).toNat 6 = true))

/-- Checkpoints, fences, pushes and copies on the primary (R498, R499, R501–R505, R513, R519). -/
def Obligations.TwinPrimary : Prop :=
  ∀ (s u : State) (src : Src) (tag : BitVec 8) (ctx : BitVec 12) (queue : BitVec 14) (n i a k : Nat) (e : StoreEntry) (cap : CapS) (v : CapW)
      (st : Status),
    let c := ctx.toNat
    let q := queue.toNat
    let sent (body : TwBody) (b : Bool) : TwFrame := { seq := s.twin.txSeq + 1, last := b, body := body }
    let from_ := fget s TWIN_SYNCADDR_LO_ADDR * 16 + fget s TWIN_SYNCADDR_HI_ADDR * 2 ^ 32
    let words := fget s TWIN_SYNCLEN_WORDS
    let no (i : Instr) (t : State) := exec i s = .next t
    let key := tileKey (e.word * 16)
    (s.wdr.held = none → n < s.cores.length → n < 16 → (core s n).sb[i]? = some e → e.tw = true → e.sent = true → e.answer = none →
      inMem s (e.word * 16) = true → (tilePort s key false).wait = [.store n e] → (tilePort s key false).busy = [] →
      (tilePort s key true).wait = [] → (tilePort s key true).busy = [] →
      (replHeld s = true → ∃ t, no (.replicatedWriteAdmit n i) t ∧ t = s) ∧
      (replHeld s = false → replicates s 1 = true → stalled s (e.word * 16) = false → fget s (MEM_BOWN_DOM (bankNo (e.word * 16))) = 0 →
        eccAt s (e.word * 16) = .none → ∃ t w, no (.replicatedWriteAdmit n i) t ∧ t = retry w n ∧
        (∀ k < 16, memByte w (e.word * 16 + k) =
          if bit e.mask.toNat k then BitVec.ofNat 8 (bits e.data.toNat (8 * k + 7) (8 * k)) else memByte s (e.word * 16 + k)) ∧
        w.twin.tx = s.twin.tx ++ [sent (.store [(e.word * 16, memWord w (e.word * 16))]) false] ∧
        (core w n).sb = (core s n).sb.filter (fun x => x.id != e.id))) ∧
    (Open s src TWIN_CKREQ →
      (s.twin.capture = some cap → ∃ t, no (.checkpointRequest src tag) t ∧ t = capture s 0x0D 0x10 TWIN_CKREQ (srcReq s src)) ∧
      (s.twin.capture = none → running s 0x0D = true → twRole s = 2 → accepted s 0x0D 4 = true → ∃ t, no (.checkpointRequest src tag) t ∧
        t.twin = { s.twin with capture := some (captureNow s tag.toNat) } ∧ fon t TWIN_CKREQ_BUSY = true) ∧
      (s.twin.capture = none → twRole s ≠ 2 → ∃ t, no (.checkpointRequest src tag) t ∧ t = s)) ∧
    (s.wdr.held = none → s.twin.capture = some cap → cap.tag < 256 →
      let age := s.tick - cap.tick
      let marks := (chunks 90 (cap.marks.length + 1) cap.marks).map (fun l => TwBody.checkpoint cap.tag age [] l [])
      let cells := (ckCells s cap.tag).map (cellCk s)
      let cellParts := (chunks 14 (cells.length + 1) cells).map (fun l => TwBody.checkpoint cap.tag age [] [] l)
      let body := TwBody.checkpoint cap.tag age cap.axes [] []
      let all := sendAll (markLast (body :: (marks ++ cellParts))) s
      let f := sent body true
      (s.twin.switching = none → ∃ t, no .checkpointCapture t ∧ fget t TWIN_CKLAST_SENT = cap.tag ∧ fon t TWIN_CKREQ_BUSY = false ∧
        t.twin = { all.twin with capture := none }) ∧
      (s.twin.switching = some (k, 0) → ∃ t, no .checkpointCapture t ∧ fon t TWIN_CKREQ_BUSY = true ∧
        t.twin = { all.twin with capture := some (captureNow s k), switching := some (k, 1) }) ∧
      (s.twin.switching = some (k, 1) → ∃ t, no .checkpointCapture t ∧ fon t TWIN_RFENCE_FENCE = true ∧
        t.twin = { all.twin with
          capture := none, switching := some (k, 2), fence := some all.twin.txSeq, fenceLeft := all.twin.waiting.length }) ∧
      (linkUp s = true → cap.marks = [] → ckCells s cap.tag = [] →
        (twFree s (32 + bodyBytes body) = true → all.twin = { s.twin with txSeq := f.seq, tx := s.twin.tx ++ [f] }) ∧
        (twFree s (32 + bodyBytes body) = false → all.twin = { s.twin with waiting := s.twin.waiting ++ [(s.tick, true, body)] }))) ∧
    (Open s src TWIN_RFENCE →
      (linkUp s = true → ∃ t, no (.rfence src) t ∧ t.twin = { s.twin with fence := some s.twin.txSeq, fenceLeft := s.twin.waiting.length } ∧
        fon t TWIN_RFENCE_FENCE = true) ∧
      (linkUp s = false → ∃ t, no (.rfence src) t ∧ t = s)) ∧
    (s.wdr.held = none → s.twin.fence = some n →
      let met := s.twin.fenceLeft = 0 ∧ ∀ f ∈ s.twin.tx, inStream f.body = true → n < f.seq
      (linkUp s = true → ¬met → ∃ t, no .rfenceComplete t ∧ t = s) ∧
      (linkUp s = false ∨ met → s.twin.switching = none → ∃ t, no .rfenceComplete t ∧
        t = fset (updTwin s (fun w => { w with fence := none, fenceLeft := 0 })) TWIN_RFENCE_FENCE 0) ∧
      (linkUp s = true → met → s.twin.switching = some (k, 2) → twRole s = 2 →
        ∃ t, no .rfenceComplete t ∧ twRole t = 3 ∧ fget t TWIN_ROLE_REASON = 1 ∧ fon t TWIN_ROLE_READY = true ∧ authority t = false ∧
        t.twin.tx = [{ seq := t.twin.txSeq, last := false, body := .relinquish }])) ∧
    (Open s src TWIN_RECPUSH →
      (s.twin.push = some k → ∃ t, no (.recpush src ctx) t ∧ t = capture s 0x0D 0x10 TWIN_RECPUSH (srcReq s src)) ∧
      (s.twin.push = none → running s 0x0D = false → ∃ t, no (.recpush src ctx) t ∧ t = fset s TWIN_RECPUSH_STATUS 1) ∧
      (s.twin.push = none → running s 0x0D = true → replicates s 3 = false → ∃ t, no (.recpush src ctx) t ∧ t = fset s TWIN_RECPUSH_STATUS 10) ∧
      (s.twin.push = none → replicates s 3 = true → Config.contexts s.variant ≤ c → ∃ t, no (.recpush src ctx) t ∧
        t = fset s TWIN_RECPUSH_STATUS 7) ∧
      (s.twin.push = none → replicates s 3 = true → c < Config.contexts s.variant → heldAt s c = none → recCheck c (upTo 48) s = (u, true) →
        ∃ t, no (.recpush src ctx) t ∧ t = fset u TWIN_RECPUSH_STATUS 5) ∧
      (s.twin.push = none → replicates s 3 = true → c < Config.contexts s.variant → heldAt s c = none → recCheck c (upTo 48) s = (u, false) →
        ∃ t, no (.recpush src ctx) t ∧ t = fset (twSend u true (.record c 0 (recImage u c))) TWIN_RECPUSH_STATUS 0) ∧
      (s.twin.push = none → replicates s 3 = true → c < Config.contexts s.variant → heldAt s c = some (n, i) → ∃ t, no (.recpush src ctx) t ∧
        t.twin = { s.twin with push := some c } ∧ fon t TWIN_RECPUSH_BUSY = true ∧ c ∈ t.evicts)) ∧
    (Open s src TWIN_SYNCCMD →
      (s.twin.sync = some (a, k) → ∃ t, no (.synccmd src) t ∧ t = capture s 0x0D 0x10 TWIN_SYNCCMD (srcReq s src)) ∧
      (s.twin.sync = none → running s 0x0D = false → ∃ t, no (.synccmd src) t ∧ t = syncEnd s 1) ∧
      (s.twin.sync = none → running s 0x0D = true → replicates s 1 = false → ∃ t, no (.synccmd src) t ∧ t = syncEnd s 10) ∧
      (s.twin.sync = none → replicates s 1 = true → Config.memBytes s.variant < from_ + 16 * words → ∃ t, no (.synccmd src) t ∧ t = syncEnd s 8) ∧
      (s.twin.sync = none → replicates s 1 = true → from_ + 16 * words ≤ Config.memBytes s.variant → ∃ t, no (.synccmd src) t ∧
        t.twin = { s.twin with sync := some (from_, words) } ∧ fon t TWIN_SYNCCMD_BUSY = true)) ∧
    (s.wdr.held = none →
      (s.twin.sync = some (a, 0) → ∃ t, no .syncDone t ∧ fon t TWIN_SYNCCMD_BUSY = false ∧ fget t TWIN_SYNCCMD_STATUS = 0 ∧ t.twin.sync = none) ∧
      (s.twin.sync = some (a, 1) → twFree s 56 = true → portBReadWord s a twinWho = (u, v, st) →
        (st = .ok → ∃ t, no .syncDone t ∧ t = syncEnd (twSend u false (.store [(a, v)])) 0) ∧
        (st ≠ .ok → ∃ t, no .syncDone t ∧ t = syncEnd u (statusCode st))) ∧
      (s.twin.sync = some (a, k + 1) → twFree s 56 = false → ∃ t, no .syncDone t ∧ t = s)) ∧
    (Open s src TWIN_QSYNC →
      (fon s TWIN_QSYNC_BUSY = true → ∃ t, no (.qsync src queue) t ∧ t = capture s 0x0D 0x10 TWIN_QSYNC (srcReq s src)) ∧
      (fon s TWIN_QSYNC_BUSY = false →
        (running s 0x0D = false → ∃ t, no (.qsync src queue) t ∧ t = fset s TWIN_QSYNC_STATUS 1) ∧
        (running s 0x0D = true → replicates s 2 = false → ∃ t, no (.qsync src queue) t ∧ t = fset s TWIN_QSYNC_STATUS 10) ∧
        (replicates s 2 = true → q = 0 ∨ Config.queues s.variant ≤ q ∨ (qdesc s q).en = false ∨ (qdesc s q).twin = false →
          ∃ t, no (.qsync src queue) t ∧ t = fset s TWIN_QSYNC_STATUS 11) ∧
        (replicates s 2 = true → 0 < q → q < Config.queues s.variant → (qdesc s q).en = true → (qdesc s q).twin = true →
          ∃ t, no (.qsync src queue) t ∧
            t = if fon (queueSyncSend s q) TWIN_QSYNC_BUSY then queueSyncSend s q else fset (queueSyncSend s q) TWIN_QSYNC_STATUS 0)))

/-- The role and its changes by command, by takeover and by a split link (R508–R511, R513, R516, R517). -/
def Obligations.TwinRoles : Prop :=
  ∀ (s : State) (src : Src) (tag : BitVec 8) (reason n : Nat),
    let denied (i : Instr) := ∃ t, exec i s = .next t ∧ t = capture s 0x0D 0x12 TWIN_ROLECMD (srcReq s src)
    let sends (i : Instr) (body : TwBody) := ∃ t, exec i s = .next t ∧ t = twSend s false body
    let role (t : State) (r : Nat) (why : Nat) := twRole t = r ∧ fget t TWIN_ROLE_REASON = why ∧ bit (reg t (EV_RAW 0x0D)).toNat 0 = true
    let pairs := reason = 4 ∧ fon s TWIN_ROLE_PEERVALID = true
    (Open s src TWIN_ROLECMD → running s 0x0D = true →
      (twRole s = 0 → ∃ t, exec (.goSolo src) s = .next t ∧ role t 1 1 ∧ (lineMay s = true → authority t = true)) ∧
      (twRole s ≠ 0 → denied (.goSolo src)) ∧
      (twRole s = 0 → linkUp s = true → fon s TWIN_ROLE_PEERVALID = true → fget s TWIN_ROLE_PEERROLE = 1 → mayPair s = true →
        ∃ t, exec (.join src) s = .next t ∧ role t 3 2 ∧ fon t TWIN_ROLE_READY = false ∧ authority t = false ∧
        t.twin.tx = s.twin.tx ++ [{ seq := s.twin.txSeq + 1, last := false, body := .join }] ∧ ∀ q ∈ twinnedQueues s, (qdesc t q).dom = 4) ∧
      (twRole s = 0 → mayPair s = false → ∃ t, exec (.join src) s = .next t ∧ t = raise (twSend s false .join) 0x0D 12) ∧
      (twRole s ≠ 0 → denied (.join src)) ∧
      (twRole s = 2 → s.twin.peerReady = true → s.twin.capture = none → ∃ t, exec (.switch src tag) s = .next t ∧ fon t TWIN_CKREQ_BUSY = true ∧
        t.twin = { s.twin with switching := some (tag.toNat, 1), capture := some (captureNow s tag.toNat) }) ∧
      (twRole s = 2 → s.twin.peerReady = true → s.twin.capture.isSome = true → ∃ t, exec (.switch src tag) s = .next t ∧
        t = updTwin s (fun w => { w with switching := some (tag.toNat, 0) })) ∧
      (twRole s ≠ 2 ∨ s.twin.peerReady = false → denied (.switch src tag)) ∧
      (twRole s ≠ 0 → ∃ t, exec (.fence src) s = .next t ∧ role t 0 1 ∧ authority t = false ∧
        (twRole s = 2 → linkUp s = true → t.twin.tx = [{ seq := s.twin.txSeq + 1, last := false, body := .relinquish }])) ∧
      (twRole s = 0 → denied (.fence src)) ∧
      (twRole s = 3 → fon s TWIN_ROLE_READY = true → fon s TWIN_ROLE_PEERVALID = false → ∃ t, exec (.take src) s = .next t ∧
        t = updTwin s (fun w => { w with take := some 3 })) ∧
      (twRole s ≠ 3 ∨ fon s TWIN_ROLE_READY = false ∨ fon s TWIN_ROLE_PEERVALID = true → denied (.take src)) ∧
      (twRole s = 2 → sends (.syncdone src) .syncDone) ∧ (twRole s ≠ 2 → denied (.syncdone src)) ∧
      (accepted s 0x0D 6 = true → sends (.peerfence src) .peerFence ∧ sends (.peerreset src) .peerReset) ∧
      (accepted s 0x0D 6 = false → ∀ i ∈ [Instr.peerfence src, .peerreset src], ∃ t, exec i s = .next t ∧
        t = capture s 0x0D 0x11 TWIN_ROLECMD (srcReq s src))) ∧
    (s.wdr.held = none → twRole s = 3 →
      (s.twin.take = some reason → reason < 16 → fon s TWIN_ROLE_READY = true → lineMay s = true → running s 0x0D = true →
        ∃ t, exec .takeover s = .next t ∧ fget t TWIN_ROLE_REASON = reason ∧ authority t = true ∧ t.twin.take = none ∧
        (pairs → twRole t = 2) ∧ (¬pairs → twRole t = 1) ∧
        (n < Config.memBanks s.variant → tkdom s n < 6 → fget s (MEM_BOWN_DOM n) = 4 → fget t (MEM_BOWN_DOM n) = tkdom s n)) ∧
      (s.twin.lost = true → fon s MEAS_AUTHSTAT_TWINCL = true → fon s TWIN_ROLE_SPLIT = false → ∃ t, exec .split s = .next t ∧
        fon t TWIN_ROLE_SPLIT = true ∧ bit (reg t (EV_RAW 0x0D)).toNat 2 = true ∧
        (fon s TWIN_TWCFG_SPLITFENCE = false → twRole t = 3 ∧ (s.twin.take.isSome = true → t.twin.take = some 7)) ∧
        (fon s TWIN_TWCFG_SPLITFENCE = true → twRole t = 0 ∧ authority t = false)))

/-- The chip reset: its sources, what it leaves while it holds the package, and its release (R539–R541, R544, R583). -/
def Obligations.ChipReset : Prop :=
  ∀ (s : State) (src : Src) (k mask : Nat) (rom : Bool) (dev : Option (Nat × Bool)),
    let reset (i : Instr) (k : Nat) := ∃ t, exec i s = .next t ∧ t = chipReset s k
    let m := withBits (s.wdr.held.getD 0) k k 1
    let t := chipReset s k
    reset .powerOnReset 0 ∧ reset .pinReset 2 ∧
    (s.wdr.held = none → fon s WDR_CWDCTL_EN = true → reset .chipWatchdogExpiry 3) ∧
    (Open s src WDR_SWRST → reset (.swrst src 0x52530010) 5) ∧
    (k < 6 → t.wdr.held = some m ∧ reg t WDR_RSTCAUSE = BitVec.ofNat 32 m ∧ authority t = false ∧
      (bit m 0 = false → bit m 1 = false → reg t WDR_TFREC = reg s WDR_TFREC ∧ reg t WDR_TFCNT = reg s WDR_TFCNT) ∧
      (bit m 0 = true ∨ bit m 1 = true → reg t WDR_TFREC = 0 ∧ reg t WDR_TFCNT = 0) ∧
      ∃ u, exec (.chipResetRelease false ⟨false, dev⟩) t = .next u ∧ u.tags = [] ∧ u.key = KeyS.empty ∧ u.tick = 0 ∧
        u.boot.bmr = List.replicate 4 (List.replicate 48 0) ∧ (∀ b < 20, blkState u b = 0) ∧ reg u BOOT_ROLLMIN = reg s BOOT_ROLLMIN ∧
        reg u WDR_RSTCAUSE = BitVec.ofNat 32 m ∧ reg u WDR_TFREC = reg t WDR_TFREC ∧ reg u WDR_TFCNT = reg t WDR_TFCNT ∧
        (bit m 0 = false → bit m 1 = false → u.mem = s.mem)) ∧
    (s.wdr.held = some mask → mask < 64 →
      (∃ t, exec (.chipResetRelease false ⟨false, dev⟩) s = .next t ∧ t.wdr.held = none ∧ pcAddr t 0 = 0xF0000000 ∧ runningCtx t 0 = some 0 ∧
        reg t WDR_RSTCAUSE = BitVec.ofNat 32 mask ∧ t.tags = [] ∧ (bit mask 0 = false → bit mask 1 = false → t.mem = s.mem)) ∧
      (∃ t, exec (.chipResetRelease true ⟨false, none⟩) s = .next t ∧ t.boot.wait = true ∧ fget t BOOT_BOOTSTAT_CODE = 1 ∧ fget t BOOT_BOOTSTAT_SLOT = 3 ∧
        fon t BOOT_BOOTSTAT_DONE = false ∧ t.wdr.held = none)) ∧
    (∃ t, exec (.chipResetRelease rom ⟨true, dev⟩) s = .next t ∧ t = s) ∧
    (s.wdr.held = none → ∃ t, exec (.chipResetRelease rom ⟨false, dev⟩) s = .next t ∧ t = s)

/-- Core resets by SWRST and by the core watchdogs, and the chip watchdog's half, kick and enable (R539, R542–R544, R556). -/
def Obligations.CoreResets : Prop :=
  ∀ (s : State) (src : Src) (n : Nat) (ie : Bool) (v : W32) (period : BitVec 16),
    let c := (curCtx s n).getD 0
    let rst (t : State) (code : Nat) := core t n = core (coreResetBy s n code) n ∧ (core t n).cur = none ∧ (core t n).opened = [] ∧
      (core t n).kentry = (core s n).kentry ∧ fon t (SCHED_CORECTL_ADMIT n) = false ∧
      reg t WDR_TFREC = BitVec.ofNat 32 (code * 2 ^ 24 + n * 2 ^ 12 + c) ∧
      fget t WDR_TFCNT_CRN = min (fget s WDR_TFCNT_CRN + 1) 65535
    let refused (i : Instr) (a : Nat) := ∃ t, exec i s = .next t ∧ t = capture s 0x12 0x11 a (srcReq s src)
    (Open s src WDR_SWRST → n < 16 → n < s.cores.length →
      (corePresent s n = true → ∃ t, exec (.swrst src (BitVec.ofNat 32 (0x52530000 + n))) s = .next t ∧ rst t 0xFC) ∧
      (corePresent s n = false → refused (.swrst src (BitVec.ofNat 32 (0x52530000 + n))) WDR_SWRST) ∧
      (v.toNat / 65536 ≠ 0x5253 → refused (.swrst src v) WDR_SWRST)) ∧
    (s.wdr.held = none → n < 16 → n < s.cores.length → corewdCounts s n = true → ie = true → fget s (WDR_CORWD_IELIM n) ≠ 0 →
      200 * fget s (WDR_CORWD_IELIM n) ≤ s.wdr.mute.getD n 0 →
      ∃ t, exec (.coreWatchdogExpiry n ie) s = .next t ∧ rst t 0xFD ∧ bit (reg t (EV_RAW 0x12)).toNat 1 = true ∧ t.wdr = (corewdLoad s n).wdr) ∧
    (s.wdr.held = none → n < 16 → n < s.cores.length → corewdCounts s n = true → ie = false → s.wdr.left.getD n 0 = 0 →
      ∃ t, exec (.coreWatchdogExpiry n ie) s = .next t ∧ rst t 0xFE ∧ bit (reg t (EV_RAW 0x12)).toNat 1 = true ∧ t.wdr = (corewdLoad s n).wdr) ∧
    (s.wdr.held = none → corewdDue s n ie = false → ∃ t, exec (.coreWatchdogExpiry n ie) s = .next t ∧ t = s) ∧
    (n < 16 → Open s src (WDR_CORKICK n) →
      (∃ t, exec (.corkick src n 0x6B1D) s = .next t ∧ t = corewdLoad s n) ∧ (v ≠ 0x6B1D → refused (.corkick src n v) (WDR_CORKICK n))) ∧
    (s.wdr.held = none → fon s WDR_CWDCTL_EN = true → s.wdr.half = false → ∃ t, exec .chipWatchdogHalf s = .next t ∧ t.wdr.half = true ∧
      bit (reg t (EV_RAW 0x12)).toNat 2 = true) ∧
    (Open s src WDR_CWDKICK →
      (∃ t, exec (.cwdkick src 0xC35A) s = .next t ∧ t = { s with wdr := { s.wdr with kick := true } }) ∧
      (s.wdr.kick = true → ∃ t, exec (.cwdkick src 0x3CA5) s = .next t ∧ t = { s with wdr := { s.wdr with kick := false, half := false } }) ∧
      (v ≠ 0xC35A → v ≠ 0x3CA5 ∨ s.wdr.kick = false → ∃ t, exec (.cwdkick src v) s = .next t ∧
        t = capture { s with wdr := { s.wdr with kick := false } } 0x12 0x11 WDR_CWDKICK (srcReq s src))) ∧
    (Open s src WDR_CWDCTL →
      (fon s WDR_CWDCTL_EN = false → period ≠ 0 → ∃ t, exec (.cwdctlEnable src period) s = .next t ∧ fon t WDR_CWDCTL_EN = true ∧
        fget t WDR_CWDCTL_PERIOD = period.toNat) ∧
      (fon s WDR_CWDCTL_EN = false → period = 0 → refused (.cwdctlEnable src period) WDR_CWDCTL) ∧
      (fon s WDR_CWDCTL_EN = true → ∃ t, exec (.cwdctlEnable src period) s = .next t ∧ t = s))

/-- Flash transactions, measurement registers and the rollback minimum (R549, R550, R556). -/
def Obligations.BootController : Prop :=
  ∀ (s u : State) (src : Src) (v : W32) (data d : List Byte) (st : Status) (i : BitVec 2) (w : BitVec 16),
    let a := pair s BOOT_FLBUF_LO BOOT_FLBUF_HI % 2 ^ 40
    let x := pair s BOOT_EXTADDR_LO BOOT_EXTADDR_HI % 2 ^ 40
    let n := fget s BOOT_FLCMD_LEN
    let resumed (t : State) := (upTo 16).foldl (fun w n => if (core w n).held.any (fun h => h.why == .flash) then retry w n else w) t
    let idle (t : State) (st : Nat) := t.boot.flash = false ∧ fon t BOOT_FLCMD_START = false ∧ fget t BOOT_FLSTAT_STATUS = st ∧
      bit (reg t (EV_RAW 0x10)).toNat 0 = true
    (Open s src BOOT_FLCMD →
      (s.boot.flash = true → ∃ t, exec (.flcmd src v) s = .next t ∧ t = capture s 0x10 0x10 BOOT_FLCMD (srcReq s src)) ∧
      (s.boot.flash = false → bits v.toNat 29 28 = 3 ∨ 256 < bits v.toNat 24 16 → ∃ t, exec (.flcmd src v) s = .next t ∧
        t = capture s 0x10 0x11 BOOT_FLCMD (srcReq s src)) ∧
      (s.boot.flash = false → accepted s 0x10 1 = true → bits v.toNat 29 28 < 3 → bits v.toNat 24 16 ≤ 256 → v &&& 0x0E000000 = 0 →
        (running s 0x10 = false → ∃ t, exec (.flcmd src v) s = .next t ∧ idle t 1) ∧
        (running s 0x10 = true → bits v.toNat 29 28 ≠ 0 → 2 ^ fget s BOOT_FLSIZE_LOG2 ≤ (reg s BOOT_FLADDR).toNat →
          ∃ t, exec (.flcmd src v) s = .next t ∧ idle t 8) ∧
        (running s 0x10 = true → bits v.toNat 29 28 = 0 ∨ (reg s BOOT_FLADDR).toNat < 2 ^ fget s BOOT_FLSIZE_LOG2 →
          ∃ t, exec (.flcmd src v) s = .next t ∧ t.boot = { s.boot with flash := true } ∧ fon t BOOT_FLCMD_START = true ∧
            fon t BOOT_FLCMD_WRITE = bit v.toNat 30 ∧ fget t BOOT_FLCMD_ADDRN = bits v.toNat 29 28 ∧ fget t BOOT_FLCMD_LEN = bits v.toNat 24 16 ∧
            fget t BOOT_FLCMD_DUMMY = bits v.toNat 15 8 ∧ fget t BOOT_FLCMD_OP = bits v.toNat 7 0))) ∧
    (s.wdr.held = none → s.boot.flash = true →
      (fon s BOOT_FLCMD_WRITE = false → data.length = n →
        portBWrite { s with flashGen := s.flashGen + 1 } a data (blkReq 0x10 none) .compute = (u, st) →
        ∃ t w, exec (.flashCommandDone data) s = .next t ∧ t = resumed w ∧ idle w (statusCode st) ∧ w.mem = u.mem ∧ w.tags = u.tags ∧
          w.cores = u.cores) ∧
      (fon s BOOT_FLCMD_WRITE = true → portBRead { s with flashGen := s.flashGen + 1 } a n (blkReq 0x10 none) = (u, d, st) →
        ∃ t w, exec (.flashCommandDone data) s = .next t ∧ t = resumed w ∧ idle w (statusCode st) ∧ w.mem = u.mem ∧ w.cores = u.cores)) ∧
    (Open s src BOOT_BMRCTL →
      (i.toNat < 2 → fon s BOOT_BOOTSTAT_DONE = true → ∃ t, exec (.bmrExtend src i) s = .next t ∧ t = capture s 0x10 0x11 BOOT_BMRCTL (srcReq s src)) ∧
      (2 ≤ i.toNat ∨ fon s BOOT_BOOTSTAT_DONE = false → accepted s 0x10 2 = true → running s 0x10 = true → i.toNat < s.boot.bmr.length →
        (∀ y, x ≤ y → y < x + 48 → inMem s y = true ∧ eccAt s y = .none) → ∃ t, exec (.bmrExtend src i) s = .next t ∧
        t.boot.bmr.getD i.toNat [] = sha384 (s.boot.bmr.getD i.toNat [] ++ memBytes s x 48) ∧ t.mem = s.mem ∧
        ∀ j, j ≠ i.toNat → t.boot.bmr.getD j [] = s.boot.bmr.getD j [])) ∧
    (Open s src BOOT_ROLLMIN →
      (w.toNat < fget s BOOT_ROLLMIN_MIN → ∃ t, exec (.rollminWrite src w) s = .next t ∧ t = capture s 0x10 0x11 BOOT_ROLLMIN (srcReq s src)) ∧
      (fget s BOOT_ROLLMIN_MIN ≤ w.toNat → ∃ t, exec (.rollminWrite src w) s = .next t ∧ fget t BOOT_ROLLMIN_MIN = w.toNat))

/-- The operations of the key store (R552, R553). -/
def Obligations.KeyCommands : Prop :=
  ∀ (s u u1 u2 w : State) (a c : Nat) (b m x key : List Byte),
    let d := keyDesc b
    let done (i : Instr) (v : State) (st : Nat) := ∃ t, exec i s = .next t ∧ t = { v with key := { v.key with job := some { desc := a, status := some st } } }
    let k := slotKey u2 d.slot
    let ct := gcmCrypt k x (m.drop d.aad)
    let read1 (v : State) (n : Nat) := portBRead u d.src n keyWho = (v, m, .ok)
    let read2 (n : Nat) := portBRead u1 d.aux n keyWho = (u2, x, .ok)
    let out (v : State) (l : List Byte) := portBWrite v d.dst l keyWho .crypto = (w, .ok)
    let slot (i : Instr) (key : List Byte) := ∃ t, exec i s = .next t ∧ t.key.job = some { desc := a, status := some 0 } ∧ slotKey t d.dslot = key ∧
      fon t (KEY_SLOTATTR_VALID d.dslot) = true ∧ fon t (KEY_SLOTATTR_LOCK d.dslot) = bit d.flags 5 ∧
      fon t (KEY_SLOTATTR_L256 d.dslot) = (key.length == 32) ∧ fget t (KEY_SLOTATTR_USE d.dslot) = d.flags % 32 ∧ t.mem = w.mem
    s.wdr.held = none → s.key.job = some { desc := a, status := none } → portBRead s a 64 keyWho = (u, b, .ok) → d.len ≤ 65536 → d.aad ≤ 65536 →
    (d.op = 1 → (slotFor u d.slot 0 = false → done .aesGcmEncrypt u 9) ∧
      (slotFor u d.slot 0 = true → read1 u1 (d.aad + d.len) → read2 12 → out u2 (ct ++ gcmTag k x (m.take d.aad) ct) → done .aesGcmEncrypt w 0)) ∧
    (d.op = 2 → slotFor u d.slot 0 = true → read1 u1 (d.aad + d.len) → read2 28 →
      (gcmTag k (x.take 12) (m.take d.aad) (m.drop d.aad) ≠ x.drop 12 → done .aesGcmDecrypt u2 10) ∧
      (gcmTag k (x.take 12) (m.take d.aad) (m.drop d.aad) = x.drop 12 → out u2 (gcmCrypt k (x.take 12) (m.drop d.aad)) → done .aesGcmDecrypt w 0)) ∧
    (d.op = 3 → slotFor u d.slot 1 = true → read1 u1 d.len → out u1 (aesCmac (slotKey u1 d.slot) m) → done .aesCmac w 0) ∧
    (d.op = 4 → read1 u1 d.len → out u1 (sha256 m) → done .sha256 w 0) ∧
    (d.op = 5 → read1 u1 d.len → out u1 (sha384 m) → done .sha384 w 0) ∧
    (d.op = 6 → d.len = 32 ∨ d.len = 48 → read1 u1 d.len → read2 128 →
      done .ecdsaVerify u2 (if ecdsaVerify m (x.take 64) (x.drop 64) then 0 else 11)) ∧
    (d.op = 7 → d.len = 16 ∨ d.len = 32 → bit d.flags 4 = false → 0 < d.dslot → d.dslot < 32 →
      (fon u (KEY_SLOTATTR_LOCK d.dslot) = true → done .loadKey u 12) ∧
      (fon u (KEY_SLOTATTR_LOCK d.dslot) = false → read1 w d.len → slotWritable w d.dslot = 0 → m.length = d.len → slot .loadKey m)) ∧
    (d.op = 7 → d.len = 16 ∨ d.len = 32 → d.dslot = 0 → done .loadKey u 12) ∧
    (d.op = 8 → slotFor u d.slot 3 = true → slotWritable u d.dslot = 0 → bit d.flags 4 = false → d.dslot ≠ 0 → read1 w d.len → slotWritable w d.dslot = 0 →
      (aesUnwrap (slotKey w d.slot) m = none → done .unwrap w 10) ∧
      (aesUnwrap (slotKey w d.slot) m = some key → key.length = 16 ∨ key.length = 32 → slot .unwrap key)) ∧
    (d.op = 9 → slotFor u d.slot 2 = true → slotWritable u d.dslot = 0 → bit d.flags 4 = false → d.dslot ≠ 0 → read1 w d.len → slotWritable w d.dslot = 0 →
      slot .kdf ((kdfCtr (slotKey w d.slot) m 32).take 32)) ∧
    (d.op = 10 → slotWritable u d.dslot = 0 → ∃ t, exec .erase s = .next t ∧ reg t (KEY_SLOTATTR d.dslot) = 0 ∧ slotFor t d.dslot c = false ∧
      mget (fun _ => []) t.key.slots d.dslot = [] ∧ t.key.job = some { desc := a, status := some 0 }) ∧
    (d.op = 11 → (accepted u 0x11 2 = false → done .quote u 13) ∧
      (accepted u 0x11 2 = true → read1 u1 16 → out u1 (aesCmac (slotKey u1 0) (u1.boot.bmr.flatten ++ m)) → done .quote w 0))

/-- Completion of a key-store command, the TRNG, and the unlocking of the debug unit (R553–R555). -/
def Obligations.KeyStatusAndUnlock : Prop :=
  ∀ (s : State) (src : Src) (a st : Nat) (level : BitVec 2),
    let answer (t : State) := mget (fun _ => 0#32) t.answer (reqKey src)
    let ev (t : State) (k : Nat) := bit (reg t (EV_RAW 0x11)).toNat k = true
    let w := fset (fset s KEY_DUCTL_LEVEL 0) KEY_DUCTL_REQ level.toNat
    (Open s src KEY_KCMD → running s 0x11 = true →
      (s.key.job = none → ∃ t, exec (.registerWrite src KEY_KCMD 0x80000000) s = .next t ∧ fon t KEY_KCMD_START = true ∧
        t.key.job = some { desc := pair s KEY_KDESC_LO KEY_KDESC_HI % 2 ^ 40, status := none }) ∧
      (s.key.job ≠ none → ∃ t, exec (.registerWrite src KEY_KCMD 0x80000000) s = .next t ∧ t = capture s 0x11 0x10 KEY_KCMD (srcReq s src))) ∧
    (s.wdr.held = none → s.key.job = some { desc := a, status := some st } → st < 16 → ∃ t, exec .keyCommandDone s = .next t ∧ t.key.job = none ∧
      fon t KEY_KCMD_START = false ∧ fget t KEY_KCMD_STATUS = st ∧ ev t 0) ∧
    (Open s src KEY_TRNG →
      (fon s KEY_TRNGSTAT_OK = true → ∃ t, exec (.trngRead src) s = .next t ∧ answer t = Config.random s.free ∧ t.free = s.free + 1) ∧
      (fon s KEY_TRNGSTAT_OK = false → ∃ t, exec (.trngRead src) s = .next t ∧ answer t = 0 ∧ t.regs = s.regs)) ∧
    (s.wdr.held = none → (∃ t, exec .trngHealthFailure s = .next t ∧ fon t KEY_TRNGSTAT_OK = false ∧ ev t 1 ∧
      fget t KEY_TRNGSTAT_FAILN = min (fget s KEY_TRNGSTAT_FAILN + 1) 65535) ∧ (∃ t, exec .trngStartupTestsPass s = .next t ∧ fon t KEY_TRNGSTAT_OK = true)) ∧
    (Open s src (KEY_DUCHAL 0) → running s 0x11 = true → accepted s 0x11 1 = true →
      (s.key.challenge = false → fon s KEY_TRNGSTAT_OK = true → ∃ t, exec (.challengeRead src) s = .next t ∧ t.key.challenge = true ∧
        (∀ k < 4, reg t (KEY_DUCHAL k) = Config.random (s.free + k)) ∧ answer t = Config.random s.free) ∧
      (s.key.challenge = true ∨ fon s KEY_TRNGSTAT_OK = false → ∃ t, exec (.challengeRead src) s = .next t ∧ t.regs = s.regs ∧ t.key = s.key ∧
        answer t = reg s (KEY_DUCHAL 0))) ∧
    (Open s src KEY_DUCTL →
      (running s 0x11 = true → accepted s 0x11 1 = true → ∃ t, exec (.debugUnlock src level) s = .next t ∧ t.key.challenge = false ∧
        (unlockOk w = true → fget t KEY_DUCTL_LEVEL = level.toNat ∧ ev t 3 ∧ t.boot.wait = false ∧
          (3 < s.boot.bmr.length → t.boot.bmr.getD 3 [] = sha384 (s.boot.bmr.getD 3 [] ++ sha384 (regBytes s KEY_DURESP 16 ++ [BitVec.ofNat 8 level.toNat])))) ∧
        (s.key.challenge = false ∨ fget s KEY_DUCTL_TRIES = 3 ∨ unlockOk w = false → fget t KEY_DUCTL_TRIES = min (fget s KEY_DUCTL_TRIES + 1) 3 ∧
          fget t KEY_DUCTL_LEVEL = 0 ∧ ev t 2 ∧ t.boot = s.boot)) ∧
      (∃ t, exec (.debugRelock src) s = .next t ∧ fget t KEY_DUCTL_LEVEL = 0 ∧ t.boot = s.boot))

/-- Clocks, operating points and the regulator (R526–R528, R535, R536). Adaptive voltage, droop and throttling (R529–R531, R533, R534). -/
def Obligations.Power : Prop :=
  (∀ (s : State) (src : Src) (n mv sent : Nat) (v : W32) (ack : Bool) (status : BitVec 16) (vout : BitVec 10) (iout : BitVec 16),
      let ev (t : State) (k : Nat) := bit (reg t (EV_RAW 0x0E)).toNat k = true
      let cur := fget s (PWR_COREOP_CUR n)
      let e := effOp s n
      let e' := if fon s PWR_REGSTAT_FAULT then 0 else min (v.toNat % 8) (min (fget s PWR_THERMSTAT_CAP) (fget s PWR_AVSCTL_AVSCAP))
      let flagged := fget s PWR_REGCFG_MODE = 2 ∧ status &&& 0xC070 ≠ 0
      let away := ((vout.toNat : Int) - mv).natAbs
      let settled := sent + 200 * fget s PWR_REGCFG_VSETTLE ≤ s.tick
      let i : Instr := .regulatorCommand ack status vout iout
      (s.wdr.held = none → (∃ t, exec .refclkLoss s = .next t ∧ fon t PWR_CLKSTAT_REFOK = false ∧ fon t PWR_CLKSTAT_LOCK = false ∧ ev t 2) ∧
        (∃ t, exec .refclkReturn s = .next t ∧ fon t PWR_CLKSTAT_REFOK = true ∧ fon t PWR_CLKSTAT_LOCK = true) ∧
        (∃ t, exec .pmbAlert s = .next t ∧ t = raise s 0x0E 8)) ∧
      (n < 16 → corePresent s n = true → Open s src (PWR_COREOP n) → v &&& 0xBFFFFFF8 = 0 → ∃ t, exec (.coreopWrite src n v) s = .next t ∧
        fget t (PWR_COREOP_REQ n) = v.toNat % 8 ∧ fon t (PWR_COREOP_EV n) = bit v.toNat 30 ∧ fget t (PWR_COREOP_CUR n) = cur ∧
        fon t (PWR_COREOP_BUSY n) = (e' != cur) ∧
        (cur < e' → running s 0x0E = true → regulated s = true → fget s PWR_VTARGET_TARGET < opVolt e' → t.pwr.cmd = some (opVolt e') ∧
          t.pwr.want = some (opVolt e', s.tick)) ∧
        (e' ≤ cur ∨ running s 0x0E = false ∨ opVolt e' ≤ fget s PWR_VTARGET_TARGET → t.pwr = s.pwr)) ∧
      (s.wdr.held = none → n < 16 → corePresent s n = true → fon s (PWR_COREOP_BUSY n) = true →
        (e < cur ∨ (running s 0x0E = true ∧ s.pwr.want = none ∧ opVolt e ≤ fget s PWR_VTARGET_TARGET) → ∃ t, exec (.opChangeComplete n) s = .next t ∧
          fget t (PWR_COREOP_CUR n) = e ∧ fon t (PWR_COREOP_BUSY n) = false ∧ (fon s (PWR_COREOP_EV n) = true → ev t 7)) ∧
        (cur ≤ e → running s 0x0E = false ∨ s.pwr.want ≠ none ∨ fget s PWR_VTARGET_TARGET < opVolt e →
          ∃ t, exec (.opChangeComplete n) s = .next t ∧ t = s)) ∧
      (s.wdr.held = none → s.pwr.want = some (mv, sent) →
        (ack = true → ¬flagged → ¬settled ∨ away ≤ 30 → ∃ t, exec i s = .next t ∧
          t.pwr = { s.pwr with cmd := none, want := if settled ∧ away ≤ 10 then none else s.pwr.want } ∧ fget t PWR_REGSTAT_STATUS = status.toNat ∧
          fget t PWR_REGMEAS_VOUT = vout.toNat ∧ fget t PWR_REGMEAS_IOUT = iout.toNat ∧ blkState t 0x0E = blkState s 0x0E) ∧
        (ack = false ∨ flagged ∨ (settled ∧ 30 < away) → ∃ t, exec i s = .next t ∧ t.pwr.cmd = none ∧ t.pwr.want = none ∧
          fon t PWR_REGSTAT_FAULT = true ∧ ev t 5 ∧ (blkState s 0x0E = 1 ∨ blkState s 0x0E = 2 → blkState t 0x0E = 4) ∧ (∀ n, effOp t n = 0) ∧
          (∀ n < 16, corePresent s n = true → fget t (PWR_COREOP_CUR n) = 0))) ∧
      (s.wdr.held = none → s.pwr.want = none → ∃ t, exec i s = .next t ∧ t = s)) ∧
  (∀ (s : State) (slack : BitVec 8) (q : BitVec 2) (l : List (Option (BitVec 12))) (th : Int) (k : Nat),
      let ev (t : State) (k : Nat) := bit (reg t (EV_RAW 0x0E)).toNat k = true
      let m := fget s PWR_AVSCTL_MARGIN
      let v := fget s PWR_VTARGET_TARGET
      let vmax := fget s PWR_VTARGET_VMAX
      let lo := max (fget s PWR_AVSCTL_VMIN) (opVolt (topOp s) - 60)
      let bump := if s.pwr.bump then 5 else 0
      let level := s.pwr.levels.getD q.toNat 0
      let cap := fget s PWR_THERMSTAT_CAP
      let report : Instr := .thermalSensorReport l
      let resumed (t : State) := (upTo 4).foldl (fun w k => retry w (4 * q.toNat + k)) t
      s.wdr.held = none →
      (running s 0x0E = true → accepted s 0x0E 1 = true → fon s PWR_AVSCTL_EN = true → regulated s = true → (∀ n < 16, effOp s n ≤ fget s (PWR_COREOP_CUR n)) →
        (slack.toNat < m → v ≠ vmax → ∃ t, exec (.avsEvaluation slack) s = .next t ∧
          fget t PWR_VTARGET_TARGET = min (max (v + 5 + bump) lo) vmax ∧ t.pwr.bump = false ∧
          (v ≠ min (max (v + 5 + bump) lo) vmax → t.pwr.cmd = some (min (max (v + 5 + bump) lo) vmax))) ∧
        (slack.toNat < m → v = vmax → ∃ t, exec (.avsEvaluation slack) s = .next t ∧ ev t 6 ∧
          fget t PWR_AVSCTL_AVSCAP = fget s PWR_AVSCTL_AVSCAP - 1) ∧
        (m + 4 < slack.toNat → stretched s = false → s.pwr.ampleSince = none → ∃ t, exec (.avsEvaluation slack) s = .next t ∧
          fget t PWR_VTARGET_TARGET = min (max (v - 5 + bump) lo) vmax ∧ t.pwr.ampleSince = some s.tick) ∧
        (m ≤ slack.toNat → slack.toNat ≤ m + 4 → ∃ t, exec (.avsEvaluation slack) s = .next t ∧
          fget t PWR_VTARGET_TARGET = min (max (v + bump) lo) vmax)) ∧
      (running s 0x0E = false ∨ fon s PWR_AVSCTL_EN = false → ∃ t, exec (.avsEvaluation slack) s = .next t ∧ t = s) ∧
      (quadPresent s q.toNat = true → s.pwr.levels.length = 4 →
        (level = 0 → ∃ t, exec (.droopLevel1 q) s = .next t ∧ t.pwr = { s.pwr with levels := s.pwr.levels.set q.toNat 1, bump := true } ∧ ev t 0 ∧
          fget t PWR_DROOP_CNT_L1 = min (fget s PWR_DROOP_CNT_L1 + 1) 65535) ∧
        (level < 2 → ∃ t, exec (.droopLevel2 q) s = .next t ∧ t.pwr = { s.pwr with levels := s.pwr.levels.set q.toNat 2, bump := true } ∧ ev t 1 ∧
          fget t PWR_DROOP_CNT_L2 = min (fget s PWR_DROOP_CNT_L2 + 1) 65535) ∧
        (level = 2 → ∃ t, exec (.droopEnd q) s = .next t ∧ t = resumed { s with pwr := { s.pwr with levels := s.pwr.levels.set q.toNat 1 } }) ∧
        (level = 1 → ∃ t, exec (.droopEnd q) s = .next t ∧
          t = resumed { s with pwr := { s.pwr with levels := s.pwr.levels.set q.toNat 0, stretchEnd := some s.tick } })) ∧
      ((∃ j < 12, ∃ u, sensorTemp s l j = some u ∧ 500 ≤ u) → ∃ t, exec report s = .next t ∧ t = chipReset (putSensors s l) 1) ∧
      ((∀ j < 12, ∀ u, sensorTemp s l j = some u → u < 500) → hottest s l = some (th, k) →
        (∃ t, exec report s = .next t ∧ fget t PWR_THERMSTAT_TMAX = (th % 4096).toNat ∧ fget t PWR_THERMSTAT_HOT = k ∧
          (∀ j < 12, fon t (PWR_TSENS_VALID j) = (sensorTemp s l j).isSome) ∧
          (accepted s 0x0E 4 = false → fget t PWR_THERMSTAT_CAP = 7) ∧
          (accepted s 0x0E 4 = true → (4 * fget s PWR_THERMCFG_TCRIT : Nat) ≤ th → fget t PWR_THERMSTAT_CAP = 0 ∧ fon t PWR_THERMSTAT_CRIT = true ∧
            (fon s PWR_THERMSTAT_CRIT = false → ev t 4)) ∧
          (accepted s 0x0E 4 = true → th < (4 * fget s PWR_THERMCFG_TCRIT : Nat) → (4 * fget s PWR_THERMCFG_TTHR : Nat) ≤ th →
            fget t PWR_THERMSTAT_CAP = if fget s PWR_THERMCFG_TFLOOR < cap then cap - 1 else cap))))

/-- The commands of the test engine and the phases of a tile test (R557–R561, R563, R576). The scrub of general memory and of the context
store, and the end of a pass (R564, R565). -/
def Obligations.TestAndScrub : Prop :=
  (∀ (s : State) (src : Src) (arg : BitVec 4) (result banks : BitVec 16) (op n k : Nat) (c : Nat × Nat) (pass : Bool),
      let ev (t : State) (k : Nat) := bit (reg t (EV_RAW 0x0F)).toNat k = true
      let a := arg.toNat
      let ops : List (Nat × Instr) := [(1, .spareTest src arg), (2, .logicTest src arg), (3, .commit src arg), (4, .tileRelease src arg), (5, .burn src arg)]
      let ended (t : State) := t.test.cmd = none ∧ fon t TEST_TESTSTAT_BUSY = false ∧ fget t TEST_TESTSTAT_CMDSTAT = 0 ∧ ev t 6
      let done (t : State) := exec (.testCommandDone result) s = .next t ∧ ended t
      let phase (t : State) := fget t TEST_TESTSTAT_PHASE
      let starts := phase s = 0 ∧ urgent s a = false
      let out (l : List Nat) := l.filter (fun k => k != a)
      let mode (t : State) := fget t (MEM_BMAP_MODE n)
      let swap (t : State) := fget t (MEM_BMAP_SWAP n)
      let bank := fget s TEST_TESTSTAT_BANK
      let tile := mget (fun _ => 0) s.test.nextTile n
      let ends (t : State) := exec (.tileTestPhaseEnd pass) s = .next t
      (Open s src TEST_TESTCMD → ∀ p ∈ ops,
        (s.test.cmd = some c → ∃ t, exec p.2 s = .next t ∧ t = capture s 0x0F 0x10 TEST_TESTCMD (srcReq s src)) ∧
        (s.test.cmd = none → testRefusal s p.1 a ≠ 0 → ∃ t, exec p.2 s = .next t ∧ t = testEnd s (testRefusal s p.1 a)) ∧
        (s.test.cmd = none → testRefusal s p.1 a = 0 → ∃ t, exec p.2 s = .next t ∧ fon t TEST_TESTSTAT_BUSY = true ∧
          (p.1 ≠ 3 → p.1 ≠ 4 → t.test = { s.test with cmd := some (p.1, a) } ∧ phase t = phase s) ∧
          (p.1 = 3 → t.test = { s.test with cmd := some (3, a), repairing := s.test.repairing ++ [a] } ∧
            (starts → phase t = 2 ∧ fget t TEST_TESTSTAT_BANK = a ∧ fget t (MEM_BMAP_MODE a) = 2 ∧ fget t (MEM_BMAP_SWAP a) = 1) ∧
            (¬starts → phase t = phase s)) ∧
          (p.1 = 4 → t.test = { s.test with
              cmd := some (4, a), failed := out s.test.failed
              waiting := if starts then out s.test.waiting else s.test.waiting ++ [a] } ∧
            (starts → phase t = 4 ∧ fget t TEST_TESTSTAT_BANK = a) ∧ (¬starts → phase t = phase s)))) ∧
      (s.wdr.held = none → n < 16 → s.test.cmd = some (op, n) →
        (op = 1 → spareBanks s = [k] → bit result.toNat k = true → ∃ t, done t ∧ spareBad t k = true ∧ ev t 2) ∧
        (op = 2 → ∃ t, done t ∧ fget t TEST_TESTSTAT_LBCORE = n ∧ fget t TEST_TESTSTAT_LBPASS = result.toNat % 2 ∧ ev t 5 ∧
          fon t (SCHED_CORECTL_ADMIT n) = false) ∧
        (op = 3 → repairGoes s n = true → ∃ t, done t ∧ mode t = 3 ∧ swap t = 0 ∧ repaired t n = true ∧
          fget t (TEST_REPAIR_TILE n) = fget s (MEM_BMAP_TILE n) ∧ n ∉ t.test.failed ∧ n ∉ t.test.repairing ∧ phase t = 0 ∧ ev t 1) ∧
        (op = 3 → repairGoes s n = false → repaired s n = false → ∃ t, exec (.testCommandDone result) s = .next t ∧ t = s) ∧
        (op = 4 → backGoes s n = true → phase s = 5 → ∃ t, done t ∧ mode t = 0 ∧ swap t = 0 ∧ phase t = 0) ∧
        (op = 4 → backGoes s n = true → phase s = 4 → urgent s n = false → ∃ t, exec (.testCommandDone result) s = .next t ∧ phase t = 5 ∧
          mode t = 2 ∧ swap t = 1 ∧ t.test = s.test) ∧
        (op = 4 → backGoes s n = true → phase s = 4 → urgent s n = true → mode s ≠ 0 → ∃ t, exec (.testCommandDone result) s = .next t ∧
          phase t = 0 ∧ mode t = mode s ∧ t.test = { s.test with waiting := s.test.waiting ++ [n] }) ∧
        (op = 4 → backGoes s n = false → mode s ≠ 0 → ∃ t, exec (.testCommandDone result) s = .next t ∧ t = s) ∧
        (op = 5 → ∃ t, done t ∧ fon t (TEST_REPAIR_FUSED n) = true)) ∧
      (s.wdr.held = none → running s 0x0F = true → phase s = 0 → n < 16 →
        (s.test.repairing.find? (fun k => !urgent s k) = some n → ∃ t, exec .tileTest s = .next t ∧ phase t = 2 ∧ fget t TEST_TESTSTAT_BANK = n ∧
          mode t = 2 ∧ swap t = 1 ∧ t.test = s.test) ∧
        (s.test.repairing.find? (fun k => !urgent s k) = none → s.test.waiting.find? (fun k => !urgent s k) = some n →
          ∃ t, exec .tileTest s = .next t ∧ phase t = 4 ∧ fget t TEST_TESTSTAT_BANK = n ∧ mode t = mode s ∧
          t.test.waiting = s.test.waiting.filter (fun k => k != n)) ∧
        (s.test.repairing.find? (fun k => !urgent s k) = none → s.test.waiting.find? (fun k => !urgent s k) = none → fon s TEST_TESTCFG_BGEN = true →
          fget s TEST_TESTCFG_TESTINT ≠ 0 → accepted s 0x0F 1 = true → nextBank s = some n → tile < 8 → ∃ t, exec .tileTest s = .next t ∧
          phase t = 1 ∧ fget t TEST_TESTSTAT_BANK = n ∧ fget t TEST_TESTSTAT_TILE = tile ∧ mode t = 1 ∧ fget t (MEM_BMAP_TILE n) = tile ∧
          t.mem = s.mem)) ∧
      (s.wdr.held = none → bank = n → n < 16 →
        (phase s = 1 → urgent s n = true ∨ testAborts s = true → ∃ t, ends t ∧ phase t = 0 ∧ mode t = 0 ∧ t.mem = s.mem) ∧
        (phase s = 1 → urgent s n = false → testAborts s = false → ∃ t, ends t ∧ phase t = 2 ∧ mode t = 1 ∧ swap t = 1 ∧
          t.mem = s.mem ∧ t.spare = (mirrorTile s n).spare) ∧
        (phase s = 2 → n ∈ s.test.repairing → ∃ t, ends t ∧ phase t = 0 ∧ mode t = 3 ∧ repaired t n = true ∧ ev t 1) ∧
        (phase s = 2 → n ∉ s.test.repairing → ∃ t, ends t ∧ phase t = 3 ∧ mode t = 2 ∧ swap t = 0 ∧ t.mem = (swapTile s n).mem ∧
          t.tags = (swapTile s n).tags ∧ t.spare = (swapTile s n).spare) ∧
        (phase s = 3 → pass = true → ∃ t, ends t ∧ phase t = (if urgent s n then 0 else 4) ∧ mode t = mode s ∧
          t.test.waiting = if urgent s n then s.test.waiting ++ [n] else s.test.waiting) ∧
        (phase s = 3 → pass = false → fon s TEST_TESTCFG_AUTOREP = true → accepted s 0x0F 2 = true → ∃ t, ends t ∧ ev t 0 ∧
          t.test.repairing = s.test.repairing ++ [n] ∧ phase t = (if urgent s n then 0 else 2) ∧ (urgent s n = false → mode t = 2 ∧ swap t = 1)) ∧
        (phase s = 3 → pass = false → fon s TEST_TESTCFG_AUTOREP = false ∨ accepted s 0x0F 2 = false → ∃ t, ends t ∧ phase t = 0 ∧ mode t = mode s ∧
          t.test.failed = s.test.failed ++ [n] ∧ ev t 0) ∧
        (phase s = 4 → urgent s n = false → ∃ t, ends t ∧ phase t = 5 ∧ mode t = 2 ∧ swap t = 1) ∧
        (phase s = 4 → urgent s n = true → ∃ t, ends t ∧ phase t = 0 ∧ mode t = mode s ∧ n ∈ t.test.waiting) ∧
        (phase s = 5 → ∃ t, ends t ∧ phase t = 0 ∧ mode t = 0 ∧ swap t = 0)) ∧
      (Open s src TEST_URGENT → ∃ t, exec (.urgentWrite src banks) s = .next t ∧ fget t TEST_URGENT_BANKS = banks.toNat ∧
        (phase s = 1 → bank = n → bit banks.toNat n = true → phase t = 0 ∧ mode t = 0) ∧
        (phase s ≠ 1 ∨ bit banks.toNat bank = false → phase t = phase s))) ∧
  (∀ (s : State) (n : Nat),
      let a (n : Nat) := n * 0x800000 + 16 * s.test.scrub
      let ev (t : State) (k : Nat) := bit (reg t (EV_RAW 0x0F)).toNat k = true
      let store (t : State) := mget (fun _ => Upset.none) t.recEcc s.test.store
      let next := if fon s TEST_SCRUBCFG_CSEN then (s.test.store + 1) % (64 * Config.contexts s.variant) else s.test.store
      s.wdr.held = none →
      (running s 0x0F = false ∨ fon s TEST_SCRUBCFG_EN = false → ∃ t, exec .scrubRead s = .next t ∧ t = s) ∧
      (running s 0x0F = true → fon s TEST_SCRUBCFG_EN = true → ∃ t, exec .scrubRead s = .next t ∧ t.mem = s.mem ∧ t.tags = s.tags ∧
        (s.test.scrub ≠ 524287 → t.test = { s.test with scrub := s.test.scrub + 1, store := next }) ∧
        (s.test.scrub = 524287 → t.test = { s.test with scrub := 0, store := next } ∧ ev t 3 ∧
          fget t TEST_SCRUBSTAT_PASSES = min (fget s TEST_SCRUBSTAT_PASSES + 1) 65535) ∧
        (bankPresent s n = true → n < 16 → s.test.scrub < 524288 → eccAt s (a n) = .single → eccAt t (a n) = .none) ∧
        (bankPresent s n = true → n < 16 → s.test.scrub < 524288 → eccAt s (a n) = .double → eccAt t (a n) = .double ∧ ev t 4) ∧
        (fon s TEST_SCRUBCFG_CSEN = true → store s = .single → store t = .none) ∧
        (fon s TEST_SCRUBCFG_CSEN = true → store s = .double → store t = .double ∧ ev t 4)))

/-- Run control, registers of halted cores, physical memory, trace and the JTAG port (R567–R575). -/
def Obligations.DebugUnit : Prop :=
  ∀ (s : State) (src : Src) (ir : BitVec 8) (cores : BitVec 16) (word : BitVec 55) (n : Nat) (v : W32) (w : CapW) (c : Core),
    let level := fget s KEY_DUCTL_LEVEL
    let named := n < 16 ∧ n < s.cores.length ∧ corePresent s n = true ∧ bit cores.toNat n = true
    let data (f : Nat → Nat) (t : State) (w : CapW) := ∀ k < 4, reg t (f k) = BitVec.ofNat 32 (w.bits.toNat / 2 ^ (32 * k))
    let sel := fget s DBG_DHSEL_CORE
    let r := (bankOf (core s sel) (fget s DBG_DHSEL_BANK)).regs
    let a := dmAddr s
    let o := bits word.toNat 51 32
    let target := bits word.toNat 54 53
    let page := blkBase (if target = 1 then 0x11 else 0x13) + o
    let key := 0x120 ≤ o ∧ o < 0x1C0
    let free := o = 0x100 ∨ (0x180 ≤ o ∧ o < 0x190)
    let acc (t : State) (st : Nat) := exec (.dbgacc word) s = .next t ∧ t.dbg.status = st
    (s.wdr.held = none → ∃ t, exec (.jtagInstruction ir) s = .next t ∧ t.dbg = { s.dbg with ir := ir.toNat } ∧
      (ir.toNat ∈ [3, 4, 5, 8, 9] → level = 2 → authority t = false) ∧ t.cores.length = s.cores.length ∧ t.mem = s.mem) ∧
    (Open s .debug DBG_HALTCTL →
      (level = 0 ∨ accepted s 0x13 2 = false ∨ running s 0x13 = false → ∀ i ∈ [Instr.halt cores, .debugResume cores, .step cores], ∃ t, exec i s = .next t ∧ t = s) ∧
      (level ≠ 0 → accepted s 0x13 2 = true → running s 0x13 = true → named →
        (∃ t, exec (.halt cores) s = .next t ∧ t.regs = s.regs ∧
          core t n = if (core s n).halted then core s n else { core s n with haltReq := true }) ∧
        (∃ t, exec (.debugResume cores) s = .next t ∧ t.regs = s.regs ∧
          core t n = { core s n with halted := false, haltReq := false, stepping := false }) ∧
        (∃ t, exec (.step cores) s = .next t ∧ t.regs = s.regs ∧
          core t n = if (core s n).halted then { core s n with halted := false, stepping := true } else core s n))) ∧
    (s.wdr.held = none → n < 16 → n < s.cores.length → corePresent s n = true → (core s n).haltReq = true → (core s n).halted = false →
      ((core s n).held = none → ∃ t, exec (.coreHalted n) s = .next t ∧ (core t n).halted = true ∧ (core t n).haltReq = false ∧
        bit (reg t (EV_RAW 0x13)).toNat 0 = true ∧ pcAddr t n = pcAddr s n ∧ t.mem = s.mem) ∧
      ((core s n).held.isSome = true → ∃ t, exec (.coreHalted n) s = .next t ∧ t = retry s n)) ∧
    (Open s .debug DBG_DHCMD → accepted s 0x13 2 = true → running s 0x13 = false →
      (level ≠ 0 → ∃ t, exec .dhRead s = .next t ∧ t = fset s DBG_DHCMD_STATUS 1) ∧
      (level ≠ 0 → ∃ t, exec .dhWrite s = .next t ∧ t = fset s DBG_DHCMD_STATUS 1)) ∧
    (Open s .debug DBG_DHCMD → accepted s 0x13 2 = true → running s 0x13 = true →
      (level ≠ 0 → dhSelected s = true → dhGet s sel r (fget s DBG_DHSEL_REG) = some w → ∃ t, exec .dhRead s = .next t ∧ data DBG_DHDATA t w ∧
        fon t DBG_DHTAG_TAG = w.tag ∧ fget t DBG_DHCMD_STATUS = 0 ∧ t.cores = s.cores) ∧
      (level ≠ 0 → dhSelected s = false → ∃ t, exec .dhRead s = .next t ∧ t = fset s DBG_DHCMD_STATUS 10) ∧
      (2 ≤ level → dhSelected s = true → dhPut (core s sel) (fget s DBG_DHSEL_BANK) (fget s DBG_DHSEL_REG) (dataWord s DBG_DHDATA DBG_DHTAG_TAG) = some c →
        ∃ t, exec .dhWrite s = .next t ∧ t = fset (setCore s sel c) DBG_DHCMD_STATUS 0) ∧
      (level < 2 → ∃ t, exec .dhWrite s = .next t ∧ t = s)) ∧
    (Open s .debug DBG_DMCMD → accepted s 0x13 2 = true → running s 0x13 = false → level ≠ 0 →
      (∃ t, exec .dmRead s = .next t ∧ t = fset s DBG_DMCMD_STATUS 1) ∧ (∃ t, exec .dmWrite s = .next t ∧ t = fset s DBG_DMCMD_STATUS 1)) ∧
    (Open s .debug DBG_DMCMD → accepted s 0x13 2 = true → running s 0x13 = true → inMem s a = true →
      (level ≠ 0 → eccAt s a = .none → ∃ t, exec .dmRead s = .next t ∧ data DBG_DMDATA t (memWord s a) ∧ fon t DBG_DMTAG_TAG = (memWord s a).tag ∧
        fget t DBG_DMCMD_STATUS = 0 ∧ t.mem = s.mem) ∧
      (2 ≤ level → fget s (MEM_BOWN_DOM (bankNo a)) = 0 → ∃ t, exec .dmWrite s = .next t ∧ memWord t a = dataWord s DBG_DMDATA DBG_DMTAG_TAG ∧
        fget t DBG_DMCMD_STATUS = 0 ∧ ∀ x, (x < a ∨ a + 16 ≤ x) → memByte t x = memByte s x) ∧
      (level < 2 → ∃ t, exec .dmWrite s = .next t ∧ t = s)) ∧
    (Open s src (DBG_TRDATA 3) → ∃ t, exec (.traceDataRead src) s = .next t ∧ fget t DBG_TRRD_REC = (fget s DBG_TRRD_REC + 1) % 65536 ∧
      mget (fun _ => 0#32) t.answer (reqKey src) = BitVec.ofNat 32 ((mget (fun _ => 0) s.trace (fget s DBG_TRRD_REC)).toNat / 2 ^ 96)) ∧
    (Open s (.core n) DBG_TRSW →
      (traced s n (curCtx s n) 8 = false → ∃ t, exec (.trsw (.core n) v) s = .next t ∧ t = s) ∧
      (traced s n (curCtx s n) 8 = true → fget s DBG_TRWR_NEXT < 65535 → ∃ t, exec (.trsw (.core n) v) s = .next t ∧
        mget (fun _ => 0) t.trace (fget s DBG_TRWR_NEXT) = traceWord s n ((curCtx s n).getD 0) 8 v.toNat ∧
        fget t DBG_TRWR_NEXT = fget s DBG_TRWR_NEXT + 1)) ∧
    (s.wdr.held = none →
      (s.dbg.ir ≠ 0x10 → ∃ t, exec (.dbgacc word) s = .next t ∧ t = s) ∧
      (s.dbg.ir = 0x10 →
        (target = 0 → level = 0 → ¬free → ∃ t, acc t 2 ∧ t.regs = s.regs) ∧
        (2 ≤ target ∨ (target = 1 ∧ ¬key) → ∃ t, acc t 3 ∧ t.regs = s.regs) ∧
        (o % 4 = 0 → bit word.toNat 52 = false → (target = 0 ∧ (level ≠ 0 ∨ free)) ∨ (target = 1 ∧ key) → ∃ t, acc t 0 ∧
          t.dbg.data = (regRead32 s page .debug).2) ∧
        (o % 4 = 0 → bit word.toNat 52 = true → (target = 0 ∧ level = 2) ∨ (target = 1 ∧ key) → ∃ t, acc t 0 ∧
          t.regs = (regWrite32 s page (BitVec.ofNat 32 (bits word.toNat 31 0)) .debug).regs)))

/-- Reads and writes of registers: what a read clears, pairs and their shadows, reserved bits, and registers of absent instances
(R8, R102–R104, R109, R122). -/
def Obligations.RegisterAccess : Prop :=
  ∀ (s : State) (src : Src) (a b n : Nat) (v lo : W32) (t t' : RegRow) (is is' : List Nat),
    let answer (u : State) := mget (fun _ => 0#32) u.answer (reqKey src)
    let plain : List Nat := [SCHED_SCHED_CFG, CAP_CAP_CFG, MEM_MEM_CFG, QUE_QSEL, TEST_TESTCFG, BOOT_FLADDR, TWIN_SYNCLEN, DBG_TRFILT]
    let pairs : List Nat := [SCHED_RECX_ADDR_HI, TWIN_SYNCADDR_HI, KEY_KDESC_HI, BOOT_FLBUF_HI, BOOT_EXTADDR_HI]
    let computed (u : State) (x : Nat) (i : List Nat) := (liveRead u x i).isSome = true
    (b < 20 → Open s src (ERR_CODE b) → ∃ u, exec (.errCodeRead src b) s = .next u ∧ answer u = reg s (ERR_CODE b) ∧ fget u (ERR_CODE_CODE b) = 0 ∧
      fget u (ERR_CODE_COUNT b) = 0 ∧ ∀ x, x ≠ ERR_CODE b → reg u x = reg s x) ∧
    (Open s src a → rowOf a = some (t, is) → t.pair = .none → isMres a = false → isMtick a = false → (∀ u, ¬computed u a is) →
      ∃ u, exec (.rcRead src a) s = .next u ∧ answer u = reg s a &&& ~~~accBits t .wo ∧ 
      reg u a = (reg s a &&& ~~~accBits t .rc) ||| (BitVec.ofNat 32 (rowReset t) &&& accBits t .rc) ∧
      ∀ x, x ≠ a → reg u x = reg s x) ∧
    (Open s src a → rowOf a = some (t, is) → t.pair = .lo → rowOf (a + 4) = some (t', is') → isMres a = false → isMtick a = false →
      (∀ u, ¬computed u a is ∧ ¬computed u (a + 4) is') → ∃ u, exec (.pairLowRead src a) s = .next u ∧ answer u = reg s a &&& ~~~accBits t .wo ∧
      readShadow u (a + 4) src = reg s (a + 4) &&& ~~~accBits t' .wo) ∧
    (Open s src a → rowOf a = some (t, is) → t.pair = .lo → ∃ u, exec (.pairLowWrite src a v) s = .next u ∧
      mget (fun _ => (none : Option W32)) u.wrShadow (shadowKey a src) = some v ∧ u.regs = s.regs) ∧
    (a ∈ pairs → Open s src a → rowOf a = some (t, is) → rowOf (a - 4) = some (t', is') →
      mget (fun _ => (none : Option W32)) s.wrShadow (shadowKey (a - 4) src) = some lo → v &&& accBits t .rsv = 0 → lo &&& accBits t' .rsv = 0 →
      ∃ u, exec (.pairHighWrite src a v) s = .next u ∧ reg u a = stored t (reg s a) v ∧ reg u (a - 4) = stored t' (reg s (a - 4)) lo ∧
      mget (fun _ => (none : Option W32)) u.wrShadow (shadowKey (a - 4) src) = none ∧ ∀ x, x ≠ a → x ≠ a - 4 → reg u x = reg s x) ∧
    (a ∈ plain → Open s src a → rowOf a = some (t, is) →
      (v &&& accBits t .rsv = 0 → ∃ u, exec (.registerWrite src a v) s = .next u ∧ u = setReg s a (stored t (reg s a) v)) ∧
      (v &&& accBits t .rsv ≠ 0 → ∃ u, exec (.registerWrite src a v) s = .next u ∧
        u = capture (setReg s a (stored t (reg s a) v)) (blkOf a) 2 a (srcReq s src))) ∧
    (s.wdr.held = none → inWindows a = true → reaches s src a = true → a % 4 = 0 → Config.present s.variant (blkOf a) = true →
      rowOf a = some (t, is) → absentInst s t is = true → (blkOf a, n) ∈ [(0x01, 0x11), (0x04, 0x12), (0x08, 0x14), (0x0A, 0x12), (0x0E, 0x12)] →
      (∃ u, exec (.registerWrite src a v) s = .next u ∧ u = capture s (blkOf a) n a (srcReq s src)) ∧
      (∃ u, exec (.rcRead src a) s = .next u ∧ answer u = 0 ∧ u.regs = s.regs)) ∧
    (s.wdr.held = none → inWindows a = true → reaches s src a = true → a % 4 = 0 → Config.present s.variant (blkOf a) = true → rowOf a = none →
      (∃ u, exec (.registerWrite src a v) s = .next u ∧ u = s) ∧ (∃ u, exec (.rcRead src a) s = .next u ∧ answer u = 0 ∧ u.regs = s.regs))

/-- Requests at the ports of a tile: admitted, performed, returned, refused or held back, the write-back of corrected words, reserved space
and absent units (R62–R71, R74, R80, R97–R99, R121). -/
def Obligations.FabricAccess : Prop :=
  ∀ (s : State) (src : Src) (p q : PortReq) (n a word i j ra : Nat) (v : W32) (bytes l : List Byte) (tag write : Bool) (up : Upset),
    let whole (r : PortReq) (bytes : List Byte) (tag : Bool) := r.op = .write 0 bytes tag ∧ bytes.length = 16 ∧ inMem s r.addr = true
    let admitted (r : PortReq) := fget s (MEM_BOWN_DOM (bankNo r.addr)) = domCode r.dom ∧ fget s (MEM_BOWN_DOM (bankNo r.addr)) ≠ 7
    let refused (r : PortReq) := r.dom ≠ .exempt ∧ fget s (MEM_BOWN_DOM (bankNo r.addr)) ≠ 7 ∧ fget s (MEM_BOWN_DOM (bankNo r.addr)) ≠ domCode r.dom
    let key := tileKey p.addr
    let portA (t : State) := tilePort t key false
    let portB (t : State) := tilePort t key true
    let idle := (portA s).wait = [] ∧ (portA s).busy = [] ∧ (portB s).wait = [] ∧ (portB s).busy = []
    let run (pa pb : List PortReq) (ra rb : Nat) (u : Upset) (t : State) :=
      exec (.tileAccess ⟨bankNo p.addr, tileNo p.addr⟩ ⟨pa, ra, u⟩ ⟨pb, rb, u⟩) s = .next t
    let written (t : State) (tg : Bool) := memBytes t (p.addr / 16 * 16) 16 = bytes ∧ memTag t p.addr = tg ∧ eccAt t p.addr = .none ∧
      ∀ x, x / 16 ≠ p.addr / 16 → memByte t x = memByte s x ∧ memTag t x = memTag s x
    (s.wdr.held = none →
      (p.op = .read → inMem s p.addr = true → reqNo p.who < 64 → idle →
        (stalled s p.addr = false → eccAt s p.addr = .none →
          (∃ t, run [p] [] 1 0 .none t ∧ t.done = [(p.who, .ok, memWord s p.addr)] ∧ (portA t).busy = [] ∧ t.mem = s.mem ∧ t.regs = s.regs) ∧
          (∃ t, run [p] [] 0 0 .none t ∧ t.done = [] ∧ (portA t).busy = [{ job := .req p, fin := some (.ok, memWord s p.addr) }] ∧
            (mrising s.tiles = true → memInflight t = memInflight s + 1))) ∧
        (stalled s p.addr = false → ∃ t, run [p] [] 1 0 .single t ∧ t.done = [(p.who, .ok, memWord s p.addr)] ∧ t.mem = s.mem ∧
          reg t (MEM_CECNT (bankNo p.addr)) = satInc (reg s (MEM_CECNT (bankNo p.addr)))) ∧
        (stalled s p.addr = false → ∃ t, run [] [p] 0 1 .double t ∧ t.done = [(p.who, .dataErr, nullW)] ∧ t.mem = s.mem ∧
          reg t (MEM_UECNT (bankNo p.addr)) = satInc (reg s (MEM_UECNT (bankNo p.addr)))) ∧
        (stalled s p.addr = true → ∃ t, run [p] [] 1 0 .none t ∧ t.done = [] ∧ (portA t).busy = [{ job := .req p, fin := none }])) ∧
      (p.op = .read → q.op = .read → inMem s p.addr = true → inMem s q.addr = true → tileKey q.addr = key → idle → i < j → j < 64 →
        reqNo p.who = ((portA s).last + 1 + i) % 64 → reqNo q.who = ((portA s).last + 1 + j) % 64 →
        ∀ r ∈ [[p, q], [q, p]], ∃ t, run r [] 0 0 .none t ∧ (portA t).busy.map (fun x => x.job) = [.req p] ∧ (portA t).wait = [.req q] ∧
          (portA t).last = reqNo p.who) ∧
      (inMem s p.addr = true → 64 ≤ (portA s).busy.length → ∃ t, run [p] [] 0 ra up t ∧ (portA t).wait = (portA s).wait ++ [.req p] ∧
        (portA t).busy.map (fun x => x.job) = (portA s).busy.map (fun x => x.job)) ∧
      (whole p bytes tag → reqNo p.who < 64 → idle → stalled s p.addr = false → admitted p →
        (∃ t, run [p] [] 1 0 .none t ∧ t.done = [(p.who, .ok, nullW)] ∧ written t (writeTag p bytes tag)) ∧
        (∃ t, run [] [p] 0 1 .none t ∧ t.done = [(p.who, .ok, nullW)] ∧ written t (writeTag p bytes tag && mayTag p.who.blk) ∧
          (tag = true → mayTag p.who.blk = false → reg t CAP_STRIP_CNT = satInc (reg s CAP_STRIP_CNT)))) ∧
      (whole p bytes tag → reqNo p.who < 64 → idle → refused p →
        (∃ t, run [p] [] 1 0 .none t ∧ t.done = [(p.who, .notOwner, nullW)] ∧ t.mem = s.mem ∧ t.tags = s.tags) ∧
        (∃ t, run [] [p] 0 1 .none t ∧ t.done = [(p.who, .notOwner, nullW)] ∧ t.mem = s.mem ∧ t.tags = s.tags)) ∧
      (whole p bytes tag → newOwner s (bankNo p.addr) p.dom = true → idle → ∃ t, run [p] [] 1 0 .none t ∧ t.done = [] ∧
        (portA t).wait = [.req p] ∧ t.mem = s.mem ∧ t.regs = s.regs) ∧
      (whole p bytes tag → whole q l false → q.addr / 16 = p.addr / 16 → reqNo p.who < 64 → reqNo q.who < 64 → idle → stalled s p.addr = false →
        admitted p →
        (admitted q → ∃ t, run [p] [q] 1 1 .none t ∧ t.done = [(p.who, .ok, nullW), (q.who, .collided, nullW)] ∧
          memBytes t (p.addr / 16 * 16) 16 = bytes ∧ reg t MEM_BCOLL = satInc (reg s MEM_BCOLL)) ∧
        (refused q → ∃ t, run [p] [q] 1 1 .none t ∧ t.done = [(q.who, .notOwner, nullW), (p.who, .ok, nullW)] ∧
          memBytes t (p.addr / 16 * 16) 16 = bytes ∧ reg t MEM_BCOLL = reg s MEM_BCOLL)) ∧
      (inMem s q.addr = false → idle → ∃ t, run [] [q] 0 1 .none t ∧ t.done = [(q.who, .range, nullW)] ∧ t.mem = s.mem) ∧
      (word ∈ s.wback → running s 4 = true → ∃ t, exec (.correctedWordWriteBack word) s = .next t ∧ eccAt t (word * 16) = .none ∧ word ∉ t.wback ∧
        t.mem = s.mem ∧ t.tags = s.tags) ∧
      (word ∉ s.wback ∨ running s 4 = false → ∃ t, exec (.correctedWordWriteBack word) s = .next t ∧ t = s) ∧
      (reservedSpace s a = true → corePresent s n = true →
        (∃ t, exec (.reservedSpaceAccess (.core n) a true) s = .next t ∧ t = fabricError s 384 2 a (coreReq s n)) ∧
        (∃ t, exec (.reservedSpaceAccess (.core n) a false) s = .next t ∧ t.regs = (fabricError s 384 1 a (coreReq s n)).regs ∧
          mget (fun _ => 0#32) t.answer (reqKey (.core n)) = 0)) ∧
      (inMem s a = false → corePresent s n = true →
        (inFlash a = true → ∃ t, exec (.reservedSpaceAccess (.core n) a true) s = .next t ∧ t = fabricError s 384 4 a (coreReq s n)) ∧
        (inFlash a = true → flashHas s (a % 0x10000000 + 1) = false → ∃ t, exec (.reservedSpaceAccess (.core n) a false) s = .next t ∧
          t.regs = (fabricError s 384 5 a (coreReq s n)).regs ∧ mget (fun _ => 0#32) t.answer (reqKey (.core n)) = 0) ∧
        (inRom a = true → inFlash a = false → ∃ t, exec (.reservedSpaceAccess (.core n) a true) s = .next t ∧
          t = fabricError s 384 3 a (coreReq s n))) ∧
      (reservedSpace s a = false → inRom a = false → inFlash a = false → ∃ t, exec (.reservedSpaceAccess (.core n) a write) s = .next t ∧ t = s) ∧
      (inWindows a = true → reaches s src a = true → a % 4 = 0 → Config.present s.variant (blkOf a) = false →
        ∃ t, exec (.absentUnitWrite src a v) s = .next t ∧ t = fabricError s 385 6 a (srcReq s src)))

/-- A step carries out the command at the front of the queue on the state with the rest of the queue; with an empty queue the block
idles, which is the model's choice (assumption 2). -/
def Obligations.StepRunsFront : Prop :=
  ∀ (c : Instr) (r : List Instr) (s : State),
    (s.pending = c :: r → step s = exec c { s with pending := r }) ∧ (s.pending = [] → step s = .next s)

/-- Every command answers a next state: none faults, none is refused. While a chip reset holds the package, only its sources and its
release have an effect (R540). -/
def Obligations.HeldPackage : Prop :=
  (∀ (c : Instr) (s : State), ∃ t, exec c s = .next t) ∧
  (∀ (c : Instr) (s : State), s.wdr.held.isSome = true → c ≠ .powerOnReset → c ≠ .pinReset → (∀ rom board, c ≠ .chipResetRelease rom board) →
      exec c s = .next s)

/-- What reset leaves: context 0 on core 0 at the reset entry address with the roots of R44 and every other register null, every other
context FREE, every block OFF, every bank owned by compute, axis 0 at 0, general memory in canonical form
(R44, R73, R106, R114, R307, R362, R540). -/
def Obligations.ResetValues : Prop :=
  let s := State.reset
  let root (c : CapW) (perm exp baseq lenq cursor : Nat) := c.tag = true ∧ capPerm c = perm ∧ capExp c = exp ∧ capBaseq c = baseq ∧
    capLenq c = lenq ∧ capCursor c = cursor ∧ capOtype c = 0
  runningCtx s 0 = some 0 ∧ ctxState s 0 = 3 ∧ (∀ c < 4096, c ≠ 0 → ctxState s c = 0) ∧ (∀ n < 16, n ≠ 0 → runningCtx s n = none) ∧
  status s 0 = 0 ∧ root (pcc s 0) 0x2C7F 34 0 8191 0xF0000000 ∧
  root (readC s 0 1) 0x2C7F 34 0 8191 0 ∧ root (readC s 0 2) 0x2C7F 34 8192 8191 0xFFFF800000000000 ∧ root (readC s 0 3) 0x03C0 0 0 4095 0 ∧
  root (readC s 0 4) 0x105B 1 0 8191 0 ∧ (∀ r < 32, r = 0 ∨ 4 < r → readC s 0 r = nullW) ∧
  (∀ b < 20, blkState s b = 0 ∧ fon s (CTRL_ENABLE b) = false ∧ fget s (BLK_ID_ID b) = b ∧ fget s (BLK_ID_INST b) = instCount .a16 b) ∧
  (∀ n < 16, fget s (MEM_BOWN_DOM n) = 0) ∧ s.tick = 0 ∧ axisPos s 0 = 0 ∧ reg s WDR_RSTCAUSE = 1 ∧ s.tags = [] ∧ s.pending = [] ∧
  Memory.wf s.mem = true

/-- After every chip reset context 0 is RESIDENT in bank 0 of core 0 with priority 15, CORES 0x0001, MIGRATE 0 and its other scheduling
words zero, every other context is FREE (R307), and every bank is owned by compute (R73). -/
def Obligations.ResetContexts : Prop :=
  ∀ (v : Variant) (s u : State) (k : Nat) (dev : Option (Nat × Bool)),
    k < 6 → (u = State.resetOf v ∨ exec (.chipResetRelease false ⟨false, dev⟩) (chipReset s k) = .next u) →
    ctxState u 0 = 3 ∧ heldAt u 0 = some (0, 0) ∧ ctxPrio u 0 = 15 ∧ ctxCores u 0 = 1 ∧
    (∀ p ∈ ([(0x300, 12, 12), (0x300, 47, 40), (0x300, 36, 36), (0x300, 35, 32), (0x300, 13, 13), (0x300, 7, 4), (0x300, 3, 3), (0x308, 63, 0),
        (0x310, 63, 0), (0x320, 31, 0), (0x324, 31, 0), (0x328, 31, 0), (0x32C, 31, 0)] : List (Nat × Nat × Nat)),
      recBits u 0 p.1 p.2.1 p.2.2 = 0) ∧
    (∀ c, c ≠ 0 → ctxState u c = 0) ∧ ∀ n < 16, fget u (MEM_BOWN_DOM n) = 0

/-- A run of bytes written to general memory reads back, every other byte as before; a word written with its
tag, low byte first, reads back, and every other word as before (R7, R62). That a byte nothing has written reads as zero is the model's
choice (assumption 1). -/
def Obligations.MemoryBytes : Prop :=
  ∀ (s : State) (a x : Nat) (l : List Byte) (w : CapW),
    let t := setMemTag (setMemBytes s (a / 16 * 16) (leBytes 16 w.bits.toNat)) a w.tag
    memByte (setMemBytes s a l) x = (if a ≤ x ∧ x < a + l.length then l.getD (x - a) 0 else memByte s x) ∧
    memWord t x = (if x / 16 = a / 16 then w else memWord s x)

/-- No step breaks the canonical form of general memory. -/
def Obligations.MemoryStaysCanonical : Prop :=
  ∀ (s t : State), Memory.wf s.mem = true → step s = .next t → Memory.wf t.mem = true

/-- Every well-formed syllable is spelled by one or two words, which decode to it (R124–R149). -/
def Obligations.EncodeDecode : Prop :=
  ∀ (i : Instr) (h : Syl), sylOf i = some h → wellFormed i = true →
    decodeSyl h.core ((encodeSyl i).getD 0 0) ((encodeSyl i).getD 1 0) = i ∧ sylFault ((encodeSyl i).getD 0 0) = none ∧
    ((encodeSyl i).length = 1 ∨ (encodeSyl i).length = 2) ∧ ownsLong ((encodeSyl i).getD 0 0) = decide ((encodeSyl i).length = 2)

/-- Words written out from the layout of R124, the forms of R140 and the opcodes of R141–R144, the two of R132's worked example among
them, decode to the instructions they stand for. -/
def Obligations.SampleWords : Prop :=
  let h (unit : BitVec 2) (cond : BitVec 4) : Syl := { core := 0, stop := true, unit := unit, cond := cond }
  let ends (p : W32 × W32 × Instr) := decodeSyl 0 p.1 p.2.1 = p.2.2
  (∀ p ∈ ([(0x00141100, 0x000186A0, .addi { core := 0, stop := false, unit := 0, cond := 0 } 16 8 (.long false 100000)),
      (0xD63C5201, 0, .ldd (h 2 11) 17 9 (.off 1))] : List (W32 × W32 × Instr)), ends p) ∧
  (∀ p ∈ ([(0b1_00_0000_000001_00101_00110_00111_0000, 0, .add (h 0 0) 5 6 7), (0b1_00_0000_010000_0000000000000000011, 0, .br (h 0 0) 3),
      (0b1_01_0000_010000_00101_00110_00111_0011, 0, .mulhsu (h 1 0) 5 6 7), (0b1_10_0000_001101_00101_00110_00_0000001, 0, .stc (h 2 0) 5 6 (.off 1)),
      (0b1_10_0000_010100_00101_00110_00111_1000, 0, .kunwrap (h 2 0) 5 6 7), (0b1_10_0000_011000_00101_00110_01000_0000, 0, .qput (h 2 0) 5 6 8),
      (0b1_11_0000_000001_000_10_00110_00111_0010, 0, .msus (h 3 0) 2 6 7), (0b1_11_0000_000101_00101_00110_00111_0011, 0, .fmadd (h 3 0) 5 6 7),
      (0b1_11_1011_001000_00101_00110_01000_0110, 0, .crcp (h 3 11) 5 6 8)] : List (W32 × W32 × Instr)), ends p)
end

