-- ==== Sys2Proof/Laws/Syllable.lean ====
section
/-! SUPPORT. The fields of an encoded syllable: what each field accessor reads of a head word, of the operand bits and of the nine low bits. -/

namespace Sys2Proof.Machine

theorem b2n_lt (b : Bool) : b2n b < 2 := by cases b <;> decide

theorem headWord_toNat (h : Syl) (op x : Nat) (ho : op < 64) (hx : x < 524288) :
    (headWord h op x).toNat = b2n h.stop * 2 ^ 31 + h.unit.toNat * 2 ^ 29 + h.cond.toNat * 2 ^ 25 + op * 2 ^ 19 + x := by
  have h1 := b2n_lt h.stop
  have h2 : h.unit.toNat < 4 := h.unit.isLt
  have h3 : h.cond.toNat < 16 := h.cond.isLt
  simp only [headWord, BitVec.toNat_ofNat]
  omega

theorem fields_lt {a b c : Nat} (ha : a < 32) (hb : b < 32) (hc : c < 512) : fields a b c < 524288 := by
  unfold fields; omega

theorem wUnit_head (h : Syl) (op x : Nat) (ho : op < 64) (hx : x < 524288) : wUnit (headWord h op x).toNat = h.unit.toNat := by
  have h1 := b2n_lt h.stop
  have h2 : h.unit.toNat < 4 := h.unit.isLt
  have h3 : h.cond.toNat < 16 := h.cond.isLt
  rw [headWord_toNat h op x ho hx]; simp only [wUnit, bits]; omega

theorem wCond_head (h : Syl) (op x : Nat) (ho : op < 64) (hx : x < 524288) : wCond (headWord h op x).toNat = h.cond.toNat := by
  have h1 := b2n_lt h.stop
  have h2 : h.unit.toNat < 4 := h.unit.isLt
  have h3 : h.cond.toNat < 16 := h.cond.isLt
  rw [headWord_toNat h op x ho hx]; simp only [wCond, bits]; omega

theorem wOp_head (h : Syl) (op x : Nat) (ho : op < 64) (hx : x < 524288) : wOp (headWord h op x).toNat = op := by
  have h1 := b2n_lt h.stop
  have h2 : h.unit.toNat < 4 := h.unit.isLt
  have h3 : h.cond.toNat < 16 := h.cond.isLt
  rw [headWord_toNat h op x ho hx]; simp only [wOp, bits]; omega

theorem wStop_head (h : Syl) (op x : Nat) (ho : op < 64) (hx : x < 524288) : wStop (headWord h op x) = h.stop := by
  have h2 : h.unit.toNat < 4 := h.unit.isLt
  have h3 : h.cond.toNat < 16 := h.cond.isLt
  unfold wStop bit
  rw [headWord_toNat h op x ho hx]
  cases h.stop
  · have : ((b2n false * 2 ^ 31 + h.unit.toNat * 2 ^ 29 + h.cond.toNat * 2 ^ 25 + op * 2 ^ 19 + x) / 2 ^ 31 % 2) = 0 := by
      simp [b2n]; omega
    rw [this]; rfl
  · have : ((b2n true * 2 ^ 31 + h.unit.toNat * 2 ^ 29 + h.cond.toNat * 2 ^ 25 + op * 2 ^ 19 + x) / 2 ^ 31 % 2) = 1 := by
      simp [b2n]; omega
    rw [this]; rfl

/-- The operand bits of a head word are those it was given. -/
theorem bits_head (h : Syl) (op x hi lo : Nat) (ho : op < 64) (hx : x < 524288) (hh : hi < 19) (hl : lo ≤ hi) :
    bits (headWord h op x).toNat hi lo = bits x hi lo := by
  rw [headWord_toNat h op x ho hx]
  have e : b2n h.stop * 2 ^ 31 + h.unit.toNat * 2 ^ 29 + h.cond.toNat * 2 ^ 25 + op * 2 ^ 19 + x
      = x + 2 ^ (hi + 1) * (2 ^ (18 - hi) * (b2n h.stop * 2 ^ 12 + h.unit.toNat * 2 ^ 10 + h.cond.toNat * 2 ^ 6 + op)) := by
    rw [← Nat.mul_assoc, ← Nat.pow_add, show hi + 1 + (18 - hi) = 19 by omega]; omega
  rw [e]; unfold bits
  generalize (2 ^ (18 - hi) * (b2n h.stop * 2 ^ 12 + h.unit.toNat * 2 ^ 10 + h.cond.toNat * 2 ^ 6 + op)) = k
  rw [show hi + 1 = lo + (hi + 1 - lo) by omega, Nat.pow_add, Nat.mul_assoc, Nat.add_mul_div_left _ _ (Nat.two_pow_pos lo)]
  rw [show lo + (hi + 1 - lo) - lo = hi + 1 - lo by omega]
  exact Nat.add_mul_mod_self_left _ _ _

/-- One bit as a field of one bit. -/
theorem bit_bits (x k : Nat) : bit x k = (bits x k k == 1) := by simp [bit, bits]

/-- The low nine operand bits below their fields. -/
theorem bits_fields_low (a b c hi lo : Nat) (hh : hi < 9) (hl : lo ≤ hi) : bits (fields a b c) hi lo = bits c hi lo := by
  unfold fields
  have e : a * 2 ^ 14 + b * 2 ^ 9 + c = c + 2 ^ (hi + 1) * (2 ^ (8 - hi) * (a * 2 ^ 5 + b)) := by
    rw [← Nat.mul_assoc, ← Nat.pow_add, show hi + 1 + (8 - hi) = 9 by omega]; omega
  rw [e]; unfold bits
  generalize (2 ^ (8 - hi) * (a * 2 ^ 5 + b)) = k
  rw [show hi + 1 = lo + (hi + 1 - lo) by omega, Nat.pow_add, Nat.mul_assoc, Nat.add_mul_div_left _ _ (Nat.two_pow_pos lo)]
  rw [show lo + (hi + 1 - lo) - lo = hi + 1 - lo by omega]
  exact Nat.add_mul_mod_self_left _ _ _

theorem bits_fields_rd (a b c : Nat) (ha : a < 32) (hb : b < 32) (hc : c < 512) : bits (fields a b c) 18 14 = a := by
  simp only [fields, bits]; omega
theorem bits_fields_rs (a b c : Nat) (_ : a < 32) (hb : b < 32) (hc : c < 512) : bits (fields a b c) 13 9 = b := by
  simp only [fields, bits]; omega
/-! ### A head word whose operand bits are `fields` -/

theorem wRd_enc {h : Syl} {op a b c : Nat} (ho : op < 64) (ha : a < 32) (hb : b < 32) (hc : c < 512) :
    wRd (headWord h op (fields a b c)).toNat = a := by
  unfold wRd; rw [bits_head h op _ 18 14 ho (fields_lt ha hb hc) (by omega) (by omega), bits_fields_rd a b c ha hb hc]
theorem wRs1_enc {h : Syl} {op a b c : Nat} (ho : op < 64) (ha : a < 32) (hb : b < 32) (hc : c < 512) :
    wRs1 (headWord h op (fields a b c)).toNat = b := by
  unfold wRs1; rw [bits_head h op _ 13 9 ho (fields_lt ha hb hc) (by omega) (by omega), bits_fields_rs a b c ha hb hc]
theorem low_enc {h : Syl} {op a b c hi lo : Nat} (ho : op < 64) (ha : a < 32) (hb : b < 32) (hc : c < 512) (hh : hi < 9) (hl : lo ≤ hi) :
    bits (headWord h op (fields a b c)).toNat hi lo = bits c hi lo := by
  rw [bits_head h op _ hi lo ho (fields_lt ha hb hc) (by omega) hl, bits_fields_low a b c hi lo hh hl]
/-- A long-immediate word: its STOP and its 31 bits (R129). -/
theorem longWord_low (st : Bool) (v : BitVec 31) : (longWord st v).toNat % 2 ^ 31 = v.toNat := by
  have h1 := b2n_lt st
  have h2 : v.toNat < 2147483648 := v.isLt
  simp only [longWord, BitVec.toNat_ofNat]; omega
theorem wStop_long (st : Bool) (v : BitVec 31) : wStop (longWord st v) = st := by
  have h2 : v.toNat < 2147483648 := v.isLt
  unfold wStop bit longWord
  rw [BitVec.toNat_ofNat]
  cases st
  · have : ((b2n false * 2 ^ 31 + v.toNat) % 2 ^ 32 / 2 ^ 31 % 2) = 0 := by simp [b2n]; omega
    rw [this]; rfl
  · have : ((b2n true * 2 ^ 31 + v.toNat) % 2 ^ 32 / 2 ^ 31 % 2) = 1 := by simp [b2n]; omega
    rw [this]; rfl

/-- What the fields of a head word with operand bits `fields a b c` read. -/
structure Enc (w : W32) (h : Syl) (op a b c : Nat) : Prop where
  unit : wUnit w.toNat = h.unit.toNat
  cond : wCond w.toNat = h.cond.toNat
  op : wOp w.toNat = op
  stop : wStop w = h.stop
  rd : wRd w.toNat = a
  rs1 : wRs1 w.toNat = b
  low : ∀ hi lo, hi < 9 → lo ≤ hi → bits w.toNat hi lo = bits c hi lo
  pd : bits w.toNat 16 14 = a % 8
  pd0 : bits w.toNat 18 17 = a / 8
  ad : bits w.toNat 15 14 = a % 4
  ad0 : bits w.toNat 18 16 = a / 4
  ps : bits w.toNat 11 9 = b % 8
  ps0 : bits w.toNat 13 12 = b / 8
  all : bits w.toNat 18 0 = fields a b c
  mid : bits w.toNat 18 4 = fields a b c / 16

theorem enc_head (h : Syl) (op a b c : Nat) (ho : op < 64) (ha : a < 32) (hb : b < 32) (hc : c < 512) :
    Enc (headWord h op (fields a b c)) h op a b c := by
  have hf := fields_lt ha hb hc
  constructor
  · exact wUnit_head h op _ ho hf
  · exact wCond_head h op _ ho hf
  · exact wOp_head h op _ ho hf
  · exact wStop_head h op _ ho hf
  · exact wRd_enc ho ha hb hc
  · exact wRs1_enc ho ha hb hc
  · intro hi lo hh hl; exact low_enc ho ha hb hc hh hl
  all_goals rw [bits_head h op _ _ _ ho hf (by omega) (by omega)]
  all_goals simp only [fields, bits]
  all_goals omega

/-- What the fields of a head word of form B read. -/
structure EncB (w : W32) (h : Syl) (op x : Nat) : Prop where
  unit : wUnit w.toNat = h.unit.toNat
  cond : wCond w.toNat = h.cond.toNat
  op : wOp w.toNat = op
  stop : wStop w = h.stop
  all : bits w.toNat 18 0 = x

theorem enc_headB (h : Syl) (op x : Nat) (ho : op < 64) (hx : x < 524288) : EncB (headWord h op x) h op x := by
  constructor
  · exact wUnit_head h op _ ho hx
  · exact wCond_head h op _ ho hx
  · exact wOp_head h op _ ho hx
  · exact wStop_head h op _ ho hx
  · rw [bits_head h op x 18 0 ho hx (by omega) (by omega)]; simp only [bits]; omega

theorem head_eq {w : W32} {h : Syl} {op a b c : Nat} (e : Enc w h op a b c) : sylHead h.core w = h := by
  simp [sylHead, e.unit, e.cond, e.stop]
theorem head_eqB {w : W32} {h : Syl} {op x : Nat} (e : EncB w h op x) : sylHead h.core w = h := by
  simp [sylHead, e.unit, e.cond, e.stop]

/-- FN and RS2 of the forms that have both. -/
theorem Enc.fn {w : W32} {h : Syl} {op a b x f : Nat} (e : Enc w h op a b (x * 2 ^ 4 + f)) (hf : f < 16) : bits w.toNat 3 0 = f :=
  (e.low 3 0 (by decide) (by decide)).trans (by unfold bits; omega)
theorem Enc.rs2 {w : W32} {h : Syl} {op a b x f : Nat} (e : Enc w h op a b (x * 2 ^ 4 + f)) (hx : x < 32) (hf : f < 16) :
    bits w.toNat 8 4 = x :=
  (e.low 8 4 (by decide) (by decide)).trans (by unfold bits; omega)

end Sys2Proof.Machine
end

