-- ==== Sys2Proof/Laws/PerInstr.lean ====
section
/-! SUPPORT. Statements made per command. `Encode`: the words of a well-formed syllable decode to it, no encoding check refuses
them, and it owns a long immediate exactly where it has two words (R124–R149). A command that is no syllable has no words. -/

set_option linter.unusedSimpArgs false

namespace Sys2Proof.Laws.Encode

open Sys2Proof.Machine

/-- `ws` are the words of the syllable `i` with head `h`: they decode to it, no encoding check of R145 and R146 refuses the first,
it touches the signal-unit state exactly if `i` does (R138), it owns a long immediate exactly where there are two words, and the first has its STOP and COND fields (R124). -/
def Good (h : Syl) (ws : List W32) (i : Instr) : Prop :=
  decodeSyl h.core (ws.getD 0 0) (ws.getD 1 0) = i ∧ touchesSig (ws.getD 0 0) = usesSig i ∧ sylFault (ws.getD 0 0) = none ∧
    ownsLong (ws.getD 0 0) = decide (ws.length = 2) ∧ wStop (ws.getD 0 0) = h.stop ∧
    wCond (ws.getD 0 0).toNat = h.cond.toNat ∧ (ws.length = 1 ∨ (ws.length = 2 ∧ h.stop = false))

/-- The statement of the family. -/
def Statement (i : Instr) : Prop := ∀ h, sylOf i = some h → wellFormed i = true → Good h (encodeSyl i) i

theorem parts {i : Instr} {h : Syl} (hs : sylOf i = some h) (hw : wellFormed i = true) :
    unitOk i = true ∧ operandsOk i = true ∧ longOk i = true ∧ ¬ h.cond.toNat = 8 := by
  simp only [wellFormed, issuable, hs, Bool.and_eq_true] at hw
  refine ⟨hw.1.1.1.2, hw.1.2, hw.1.1.2, ?_⟩
  intro e
  have : h.cond = 8 := BitVec.eq_of_toNat_eq (by simpa using e)
  simp [this] at hw

theorem unit01 {h : Syl} (hu : unitIs01 h = true) : h.unit.toNat = 0 ∨ h.unit.toNat = 1 := by
  simp only [unitIs01, Bool.or_eq_true, beq_iff_eq] at hu
  rcases hu with e | e <;> simp [e]
theorem unitIs {h : Syl} {k : BitVec 2} (hu : (h.unit == k) = true) : h.unit.toNat = k.toNat := by
  simp only [beq_iff_eq] at hu; rw [hu]
theorem unit4 (h : Syl) : h.unit.toNat = 0 ∨ h.unit.toNat = 1 ∨ h.unit.toNat = 2 ∨ h.unit.toNat = 3 := by
  have := h.unit.isLt; omega

theorem ofNat_self {n : Nat} (v : BitVec n) : BitVec.ofNat n v.toNat = v := by simp

theorem sylFault_none {w : W32} (h1 : illegal w = none) (h2 : reservedSet w = false) (h3 : ¬ wCond w.toNat = 8) : sylFault w = none := by
  simp [sylFault, h1, h2, h3]

theorem instructionFetch (core) : Statement (.instructionFetch core) := fun _ hs => nomatch hs
theorem nop (h) : Statement (.nop h) := by
  intro h' hs hw
  obtain ⟨hu, ho, hl, hc⟩ := parts hs hw
  cases hs
  have key : ∀ w, Enc w h 0 0 0 0 → Good h [w] (.nop h) := by
    intro w e
    rcases unit4 h with hu | hu | hu | hu
    all_goals
      have hU := e.unit.trans hu
      refine ⟨?_, ?_, ?_, ?_, e.stop, e.cond, .inl rfl⟩
      · simp only [List.getD_cons_zero, List.getD_cons_succ, List.getD_nil, decodeSyl, hU, u0Of, u1Of, u2Of, u3Of, e.op, commonOf, aluOf, wFn, wRs2, wL, wImm, wAm, wX, wSys, immOf, immPOf, addrOf, e.rd, e.rs1, e.all, e.mid, wStop_long, longWord_low, ofNat_self, head_eq e]; try rfl
      · simp only [List.getD_cons_zero, touchesSig, usesSig, postMode, hU, e.op, wFn, wRs2, wL, wImm, wAm, wX, wSys, e.rd, e.rs1, e.all, e.mid] <;> first | rfl | simp
      · refine sylFault_none ?_ ?_ (by rw [List.getD_cons_zero, e.cond]; exact hc)
        · simp only [List.getD_cons_zero, illegal, hU, illegal0, illegal1, illegal2, illegal3, illegalCommon, illegalLoad, e.op, wFn, wRs2, wL, wImm, wAm, wX, wSys, e.rd, e.rs1, e.all, e.mid]
          try rfl
        · simp only [List.getD_cons_zero, reservedSet, hU, reserved0, reserved1, reserved2, reserved3, reservedCommon, illegalLoad, e.op, wFn, wRs2, wL, wImm, wAm, wX, wSys, e.rd, e.rs1, e.all, e.mid]
          try rfl
      · try simp only [List.getD_cons_zero, ownsLong, hU, e.op, wFn, wRs2, wL, wImm, wAm, wX, wSys, e.rd, e.rs1, e.all, e.mid] <;> first | rfl | simp
  exact key _ (enc_head h 0 0 0 0 (by decide) (by omega) (by omega) (by omega))
theorem add (h rd rs1 rs2) : Statement (.add h rd rs1 rs2) := by
  have b_rd := rd.isLt
  have b_rs1 := rs1.isLt
  have b_rs2 := rs2.isLt
  intro h' hs hw
  obtain ⟨hu, ho, hl, hc⟩ := parts hs hw
  cases hs
  have key : ∀ w, Enc w h 1 rd.toNat rs1.toNat (rs2.toNat * 2 ^ 4 + 0) → Good h [w] (.add h rd rs1 rs2) := by
    intro w e
    have g30 := e.fn (by omega)
    have g84 := e.rs2 (by omega) (by omega)
    rcases unit01 hu with hu | hu
    all_goals
      have hU := e.unit.trans hu
      refine ⟨?_, ?_, ?_, ?_, e.stop, e.cond, .inl rfl⟩
      · simp only [List.getD_cons_zero, List.getD_cons_succ, List.getD_nil, decodeSyl, hU, u0Of, u1Of, e.op, commonOf, aluOf, wFn, wRs2, wL, wImm, wAm, wX, wSys, immOf, immPOf, addrOf, g30, g84, e.rd, e.rs1, wStop_long, longWord_low, ofNat_self, head_eq e]; try rfl
      · simp only [List.getD_cons_zero, touchesSig, usesSig, postMode, hU, e.op, wFn, wRs2, wL, wImm, wAm, wX, wSys, g30, g84, e.rd, e.rs1] <;> first | rfl | simp
      · refine sylFault_none ?_ ?_ (by rw [List.getD_cons_zero, e.cond]; exact hc)
        · simp only [List.getD_cons_zero, illegal, hU, illegal0, illegal1, illegalCommon, illegalLoad, e.op, wFn, wRs2, wL, wImm, wAm, wX, wSys, g30, g84, e.rd, e.rs1]
          try rfl
        · simp only [List.getD_cons_zero, reservedSet, hU, reserved0, reserved1, reservedCommon, illegalLoad, e.op, wFn, wRs2, wL, wImm, wAm, wX, wSys, g30, g84, e.rd, e.rs1]
          try rfl
      · try simp only [List.getD_cons_zero, ownsLong, hU, e.op, wFn, wRs2, wL, wImm, wAm, wX, wSys, g30, g84, e.rd, e.rs1] <;> first | rfl | simp
  exact key _ (enc_head h 1 rd.toNat rs1.toNat (rs2.toNat * 2 ^ 4 + 0) (by decide) (by omega) (by omega) (by omega))
theorem sub (h rd rs1 rs2) : Statement (.sub h rd rs1 rs2) := by
  have b_rd := rd.isLt
  have b_rs1 := rs1.isLt
  have b_rs2 := rs2.isLt
  intro h' hs hw
  obtain ⟨hu, ho, hl, hc⟩ := parts hs hw
  cases hs
  have key : ∀ w, Enc w h 1 rd.toNat rs1.toNat (rs2.toNat * 2 ^ 4 + 1) → Good h [w] (.sub h rd rs1 rs2) := by
    intro w e
    have g30 := e.fn (by omega)
    have g84 := e.rs2 (by omega) (by omega)
    rcases unit01 hu with hu | hu
    all_goals
      have hU := e.unit.trans hu
      refine ⟨?_, ?_, ?_, ?_, e.stop, e.cond, .inl rfl⟩
      · simp only [List.getD_cons_zero, List.getD_cons_succ, List.getD_nil, decodeSyl, hU, u0Of, u1Of, e.op, commonOf, aluOf, wFn, wRs2, wL, wImm, wAm, wX, wSys, immOf, immPOf, addrOf, g30, g84, e.rd, e.rs1, wStop_long, longWord_low, ofNat_self, head_eq e]; try rfl
      · simp only [List.getD_cons_zero, touchesSig, usesSig, postMode, hU, e.op, wFn, wRs2, wL, wImm, wAm, wX, wSys, g30, g84, e.rd, e.rs1] <;> first | rfl | simp
      · refine sylFault_none ?_ ?_ (by rw [List.getD_cons_zero, e.cond]; exact hc)
        · simp only [List.getD_cons_zero, illegal, hU, illegal0, illegal1, illegalCommon, illegalLoad, e.op, wFn, wRs2, wL, wImm, wAm, wX, wSys, g30, g84, e.rd, e.rs1]
          try rfl
        · simp only [List.getD_cons_zero, reservedSet, hU, reserved0, reserved1, reservedCommon, illegalLoad, e.op, wFn, wRs2, wL, wImm, wAm, wX, wSys, g30, g84, e.rd, e.rs1]
          try rfl
      · try simp only [List.getD_cons_zero, ownsLong, hU, e.op, wFn, wRs2, wL, wImm, wAm, wX, wSys, g30, g84, e.rd, e.rs1] <;> first | rfl | simp
  exact key _ (enc_head h 1 rd.toNat rs1.toNat (rs2.toNat * 2 ^ 4 + 1) (by decide) (by omega) (by omega) (by omega))
theorem and (h rd rs1 rs2) : Statement (.and h rd rs1 rs2) := by
  have b_rd := rd.isLt
  have b_rs1 := rs1.isLt
  have b_rs2 := rs2.isLt
  intro h' hs hw
  obtain ⟨hu, ho, hl, hc⟩ := parts hs hw
  cases hs
  have key : ∀ w, Enc w h 1 rd.toNat rs1.toNat (rs2.toNat * 2 ^ 4 + 2) → Good h [w] (.and h rd rs1 rs2) := by
    intro w e
    have g30 := e.fn (by omega)
    have g84 := e.rs2 (by omega) (by omega)
    rcases unit01 hu with hu | hu
    all_goals
      have hU := e.unit.trans hu
      refine ⟨?_, ?_, ?_, ?_, e.stop, e.cond, .inl rfl⟩
      · simp only [List.getD_cons_zero, List.getD_cons_succ, List.getD_nil, decodeSyl, hU, u0Of, u1Of, e.op, commonOf, aluOf, wFn, wRs2, wL, wImm, wAm, wX, wSys, immOf, immPOf, addrOf, g30, g84, e.rd, e.rs1, wStop_long, longWord_low, ofNat_self, head_eq e]; try rfl
      · simp only [List.getD_cons_zero, touchesSig, usesSig, postMode, hU, e.op, wFn, wRs2, wL, wImm, wAm, wX, wSys, g30, g84, e.rd, e.rs1] <;> first | rfl | simp
      · refine sylFault_none ?_ ?_ (by rw [List.getD_cons_zero, e.cond]; exact hc)
        · simp only [List.getD_cons_zero, illegal, hU, illegal0, illegal1, illegalCommon, illegalLoad, e.op, wFn, wRs2, wL, wImm, wAm, wX, wSys, g30, g84, e.rd, e.rs1]
          try rfl
        · simp only [List.getD_cons_zero, reservedSet, hU, reserved0, reserved1, reservedCommon, illegalLoad, e.op, wFn, wRs2, wL, wImm, wAm, wX, wSys, g30, g84, e.rd, e.rs1]
          try rfl
      · try simp only [List.getD_cons_zero, ownsLong, hU, e.op, wFn, wRs2, wL, wImm, wAm, wX, wSys, g30, g84, e.rd, e.rs1] <;> first | rfl | simp
  exact key _ (enc_head h 1 rd.toNat rs1.toNat (rs2.toNat * 2 ^ 4 + 2) (by decide) (by omega) (by omega) (by omega))
theorem or (h rd rs1 rs2) : Statement (.or h rd rs1 rs2) := by
  have b_rd := rd.isLt
  have b_rs1 := rs1.isLt
  have b_rs2 := rs2.isLt
  intro h' hs hw
  obtain ⟨hu, ho, hl, hc⟩ := parts hs hw
  cases hs
  have key : ∀ w, Enc w h 1 rd.toNat rs1.toNat (rs2.toNat * 2 ^ 4 + 3) → Good h [w] (.or h rd rs1 rs2) := by
    intro w e
    have g30 := e.fn (by omega)
    have g84 := e.rs2 (by omega) (by omega)
    rcases unit01 hu with hu | hu
    all_goals
      have hU := e.unit.trans hu
      refine ⟨?_, ?_, ?_, ?_, e.stop, e.cond, .inl rfl⟩
      · simp only [List.getD_cons_zero, List.getD_cons_succ, List.getD_nil, decodeSyl, hU, u0Of, u1Of, e.op, commonOf, aluOf, wFn, wRs2, wL, wImm, wAm, wX, wSys, immOf, immPOf, addrOf, g30, g84, e.rd, e.rs1, wStop_long, longWord_low, ofNat_self, head_eq e]; try rfl
      · simp only [List.getD_cons_zero, touchesSig, usesSig, postMode, hU, e.op, wFn, wRs2, wL, wImm, wAm, wX, wSys, g30, g84, e.rd, e.rs1] <;> first | rfl | simp
      · refine sylFault_none ?_ ?_ (by rw [List.getD_cons_zero, e.cond]; exact hc)
        · simp only [List.getD_cons_zero, illegal, hU, illegal0, illegal1, illegalCommon, illegalLoad, e.op, wFn, wRs2, wL, wImm, wAm, wX, wSys, g30, g84, e.rd, e.rs1]
          try rfl
        · simp only [List.getD_cons_zero, reservedSet, hU, reserved0, reserved1, reservedCommon, illegalLoad, e.op, wFn, wRs2, wL, wImm, wAm, wX, wSys, g30, g84, e.rd, e.rs1]
          try rfl
      · try simp only [List.getD_cons_zero, ownsLong, hU, e.op, wFn, wRs2, wL, wImm, wAm, wX, wSys, g30, g84, e.rd, e.rs1] <;> first | rfl | simp
  exact key _ (enc_head h 1 rd.toNat rs1.toNat (rs2.toNat * 2 ^ 4 + 3) (by decide) (by omega) (by omega) (by omega))
theorem xor (h rd rs1 rs2) : Statement (.xor h rd rs1 rs2) := by
  have b_rd := rd.isLt
  have b_rs1 := rs1.isLt
  have b_rs2 := rs2.isLt
  intro h' hs hw
  obtain ⟨hu, ho, hl, hc⟩ := parts hs hw
  cases hs
  have key : ∀ w, Enc w h 1 rd.toNat rs1.toNat (rs2.toNat * 2 ^ 4 + 4) → Good h [w] (.xor h rd rs1 rs2) := by
    intro w e
    have g30 := e.fn (by omega)
    have g84 := e.rs2 (by omega) (by omega)
    rcases unit01 hu with hu | hu
    all_goals
      have hU := e.unit.trans hu
      refine ⟨?_, ?_, ?_, ?_, e.stop, e.cond, .inl rfl⟩
      · simp only [List.getD_cons_zero, List.getD_cons_succ, List.getD_nil, decodeSyl, hU, u0Of, u1Of, e.op, commonOf, aluOf, wFn, wRs2, wL, wImm, wAm, wX, wSys, immOf, immPOf, addrOf, g30, g84, e.rd, e.rs1, wStop_long, longWord_low, ofNat_self, head_eq e]; try rfl
      · simp only [List.getD_cons_zero, touchesSig, usesSig, postMode, hU, e.op, wFn, wRs2, wL, wImm, wAm, wX, wSys, g30, g84, e.rd, e.rs1] <;> first | rfl | simp
      · refine sylFault_none ?_ ?_ (by rw [List.getD_cons_zero, e.cond]; exact hc)
        · simp only [List.getD_cons_zero, illegal, hU, illegal0, illegal1, illegalCommon, illegalLoad, e.op, wFn, wRs2, wL, wImm, wAm, wX, wSys, g30, g84, e.rd, e.rs1]
          try rfl
        · simp only [List.getD_cons_zero, reservedSet, hU, reserved0, reserved1, reservedCommon, illegalLoad, e.op, wFn, wRs2, wL, wImm, wAm, wX, wSys, g30, g84, e.rd, e.rs1]
          try rfl
      · try simp only [List.getD_cons_zero, ownsLong, hU, e.op, wFn, wRs2, wL, wImm, wAm, wX, wSys, g30, g84, e.rd, e.rs1] <;> first | rfl | simp
  exact key _ (enc_head h 1 rd.toNat rs1.toNat (rs2.toNat * 2 ^ 4 + 4) (by decide) (by omega) (by omega) (by omega))
theorem andn (h rd rs1 rs2) : Statement (.andn h rd rs1 rs2) := by
  have b_rd := rd.isLt
  have b_rs1 := rs1.isLt
  have b_rs2 := rs2.isLt
  intro h' hs hw
  obtain ⟨hu, ho, hl, hc⟩ := parts hs hw
  cases hs
  have key : ∀ w, Enc w h 1 rd.toNat rs1.toNat (rs2.toNat * 2 ^ 4 + 5) → Good h [w] (.andn h rd rs1 rs2) := by
    intro w e
    have g30 := e.fn (by omega)
    have g84 := e.rs2 (by omega) (by omega)
    rcases unit01 hu with hu | hu
    all_goals
      have hU := e.unit.trans hu
      refine ⟨?_, ?_, ?_, ?_, e.stop, e.cond, .inl rfl⟩
      · simp only [List.getD_cons_zero, List.getD_cons_succ, List.getD_nil, decodeSyl, hU, u0Of, u1Of, e.op, commonOf, aluOf, wFn, wRs2, wL, wImm, wAm, wX, wSys, immOf, immPOf, addrOf, g30, g84, e.rd, e.rs1, wStop_long, longWord_low, ofNat_self, head_eq e]; try rfl
      · simp only [List.getD_cons_zero, touchesSig, usesSig, postMode, hU, e.op, wFn, wRs2, wL, wImm, wAm, wX, wSys, g30, g84, e.rd, e.rs1] <;> first | rfl | simp
      · refine sylFault_none ?_ ?_ (by rw [List.getD_cons_zero, e.cond]; exact hc)
        · simp only [List.getD_cons_zero, illegal, hU, illegal0, illegal1, illegalCommon, illegalLoad, e.op, wFn, wRs2, wL, wImm, wAm, wX, wSys, g30, g84, e.rd, e.rs1]
          try rfl
        · simp only [List.getD_cons_zero, reservedSet, hU, reserved0, reserved1, reservedCommon, illegalLoad, e.op, wFn, wRs2, wL, wImm, wAm, wX, wSys, g30, g84, e.rd, e.rs1]
          try rfl
      · try simp only [List.getD_cons_zero, ownsLong, hU, e.op, wFn, wRs2, wL, wImm, wAm, wX, wSys, g30, g84, e.rd, e.rs1] <;> first | rfl | simp
  exact key _ (enc_head h 1 rd.toNat rs1.toNat (rs2.toNat * 2 ^ 4 + 5) (by decide) (by omega) (by omega) (by omega))
theorem sll (h rd rs1 rs2) : Statement (.sll h rd rs1 rs2) := by
  have b_rd := rd.isLt
  have b_rs1 := rs1.isLt
  have b_rs2 := rs2.isLt
  intro h' hs hw
  obtain ⟨hu, ho, hl, hc⟩ := parts hs hw
  cases hs
  have key : ∀ w, Enc w h 1 rd.toNat rs1.toNat (rs2.toNat * 2 ^ 4 + 6) → Good h [w] (.sll h rd rs1 rs2) := by
    intro w e
    have g30 := e.fn (by omega)
    have g84 := e.rs2 (by omega) (by omega)
    rcases unit01 hu with hu | hu
    all_goals
      have hU := e.unit.trans hu
      refine ⟨?_, ?_, ?_, ?_, e.stop, e.cond, .inl rfl⟩
      · simp only [List.getD_cons_zero, List.getD_cons_succ, List.getD_nil, decodeSyl, hU, u0Of, u1Of, e.op, commonOf, aluOf, wFn, wRs2, wL, wImm, wAm, wX, wSys, immOf, immPOf, addrOf, g30, g84, e.rd, e.rs1, wStop_long, longWord_low, ofNat_self, head_eq e]; try rfl
      · simp only [List.getD_cons_zero, touchesSig, usesSig, postMode, hU, e.op, wFn, wRs2, wL, wImm, wAm, wX, wSys, g30, g84, e.rd, e.rs1] <;> first | rfl | simp
      · refine sylFault_none ?_ ?_ (by rw [List.getD_cons_zero, e.cond]; exact hc)
        · simp only [List.getD_cons_zero, illegal, hU, illegal0, illegal1, illegalCommon, illegalLoad, e.op, wFn, wRs2, wL, wImm, wAm, wX, wSys, g30, g84, e.rd, e.rs1]
          try rfl
        · simp only [List.getD_cons_zero, reservedSet, hU, reserved0, reserved1, reservedCommon, illegalLoad, e.op, wFn, wRs2, wL, wImm, wAm, wX, wSys, g30, g84, e.rd, e.rs1]
          try rfl
      · try simp only [List.getD_cons_zero, ownsLong, hU, e.op, wFn, wRs2, wL, wImm, wAm, wX, wSys, g30, g84, e.rd, e.rs1] <;> first | rfl | simp
  exact key _ (enc_head h 1 rd.toNat rs1.toNat (rs2.toNat * 2 ^ 4 + 6) (by decide) (by omega) (by omega) (by omega))
theorem srl (h rd rs1 rs2) : Statement (.srl h rd rs1 rs2) := by
  have b_rd := rd.isLt
  have b_rs1 := rs1.isLt
  have b_rs2 := rs2.isLt
  intro h' hs hw
  obtain ⟨hu, ho, hl, hc⟩ := parts hs hw
  cases hs
  have key : ∀ w, Enc w h 1 rd.toNat rs1.toNat (rs2.toNat * 2 ^ 4 + 7) → Good h [w] (.srl h rd rs1 rs2) := by
    intro w e
    have g30 := e.fn (by omega)
    have g84 := e.rs2 (by omega) (by omega)
    rcases unit01 hu with hu | hu
    all_goals
      have hU := e.unit.trans hu
      refine ⟨?_, ?_, ?_, ?_, e.stop, e.cond, .inl rfl⟩
      · simp only [List.getD_cons_zero, List.getD_cons_succ, List.getD_nil, decodeSyl, hU, u0Of, u1Of, e.op, commonOf, aluOf, wFn, wRs2, wL, wImm, wAm, wX, wSys, immOf, immPOf, addrOf, g30, g84, e.rd, e.rs1, wStop_long, longWord_low, ofNat_self, head_eq e]; try rfl
      · simp only [List.getD_cons_zero, touchesSig, usesSig, postMode, hU, e.op, wFn, wRs2, wL, wImm, wAm, wX, wSys, g30, g84, e.rd, e.rs1] <;> first | rfl | simp
      · refine sylFault_none ?_ ?_ (by rw [List.getD_cons_zero, e.cond]; exact hc)
        · simp only [List.getD_cons_zero, illegal, hU, illegal0, illegal1, illegalCommon, illegalLoad, e.op, wFn, wRs2, wL, wImm, wAm, wX, wSys, g30, g84, e.rd, e.rs1]
          try rfl
        · simp only [List.getD_cons_zero, reservedSet, hU, reserved0, reserved1, reservedCommon, illegalLoad, e.op, wFn, wRs2, wL, wImm, wAm, wX, wSys, g30, g84, e.rd, e.rs1]
          try rfl
      · try simp only [List.getD_cons_zero, ownsLong, hU, e.op, wFn, wRs2, wL, wImm, wAm, wX, wSys, g30, g84, e.rd, e.rs1] <;> first | rfl | simp
  exact key _ (enc_head h 1 rd.toNat rs1.toNat (rs2.toNat * 2 ^ 4 + 7) (by decide) (by omega) (by omega) (by omega))
theorem sra (h rd rs1 rs2) : Statement (.sra h rd rs1 rs2) := by
  have b_rd := rd.isLt
  have b_rs1 := rs1.isLt
  have b_rs2 := rs2.isLt
  intro h' hs hw
  obtain ⟨hu, ho, hl, hc⟩ := parts hs hw
  cases hs
  have key : ∀ w, Enc w h 1 rd.toNat rs1.toNat (rs2.toNat * 2 ^ 4 + 8) → Good h [w] (.sra h rd rs1 rs2) := by
    intro w e
    have g30 := e.fn (by omega)
    have g84 := e.rs2 (by omega) (by omega)
    rcases unit01 hu with hu | hu
    all_goals
      have hU := e.unit.trans hu
      refine ⟨?_, ?_, ?_, ?_, e.stop, e.cond, .inl rfl⟩
      · simp only [List.getD_cons_zero, List.getD_cons_succ, List.getD_nil, decodeSyl, hU, u0Of, u1Of, e.op, commonOf, aluOf, wFn, wRs2, wL, wImm, wAm, wX, wSys, immOf, immPOf, addrOf, g30, g84, e.rd, e.rs1, wStop_long, longWord_low, ofNat_self, head_eq e]; try rfl
      · simp only [List.getD_cons_zero, touchesSig, usesSig, postMode, hU, e.op, wFn, wRs2, wL, wImm, wAm, wX, wSys, g30, g84, e.rd, e.rs1] <;> first | rfl | simp
      · refine sylFault_none ?_ ?_ (by rw [List.getD_cons_zero, e.cond]; exact hc)
        · simp only [List.getD_cons_zero, illegal, hU, illegal0, illegal1, illegalCommon, illegalLoad, e.op, wFn, wRs2, wL, wImm, wAm, wX, wSys, g30, g84, e.rd, e.rs1]
          try rfl
        · simp only [List.getD_cons_zero, reservedSet, hU, reserved0, reserved1, reservedCommon, illegalLoad, e.op, wFn, wRs2, wL, wImm, wAm, wX, wSys, g30, g84, e.rd, e.rs1]
          try rfl
      · try simp only [List.getD_cons_zero, ownsLong, hU, e.op, wFn, wRs2, wL, wImm, wAm, wX, wSys, g30, g84, e.rd, e.rs1] <;> first | rfl | simp
  exact key _ (enc_head h 1 rd.toNat rs1.toNat (rs2.toNat * 2 ^ 4 + 8) (by decide) (by omega) (by omega) (by omega))
theorem rol (h rd rs1 rs2) : Statement (.rol h rd rs1 rs2) := by
  have b_rd := rd.isLt
  have b_rs1 := rs1.isLt
  have b_rs2 := rs2.isLt
  intro h' hs hw
  obtain ⟨hu, ho, hl, hc⟩ := parts hs hw
  cases hs
  have key : ∀ w, Enc w h 1 rd.toNat rs1.toNat (rs2.toNat * 2 ^ 4 + 9) → Good h [w] (.rol h rd rs1 rs2) := by
    intro w e
    have g30 := e.fn (by omega)
    have g84 := e.rs2 (by omega) (by omega)
    rcases unit01 hu with hu | hu
    all_goals
      have hU := e.unit.trans hu
      refine ⟨?_, ?_, ?_, ?_, e.stop, e.cond, .inl rfl⟩
      · simp only [List.getD_cons_zero, List.getD_cons_succ, List.getD_nil, decodeSyl, hU, u0Of, u1Of, e.op, commonOf, aluOf, wFn, wRs2, wL, wImm, wAm, wX, wSys, immOf, immPOf, addrOf, g30, g84, e.rd, e.rs1, wStop_long, longWord_low, ofNat_self, head_eq e]; try rfl
      · simp only [List.getD_cons_zero, touchesSig, usesSig, postMode, hU, e.op, wFn, wRs2, wL, wImm, wAm, wX, wSys, g30, g84, e.rd, e.rs1] <;> first | rfl | simp
      · refine sylFault_none ?_ ?_ (by rw [List.getD_cons_zero, e.cond]; exact hc)
        · simp only [List.getD_cons_zero, illegal, hU, illegal0, illegal1, illegalCommon, illegalLoad, e.op, wFn, wRs2, wL, wImm, wAm, wX, wSys, g30, g84, e.rd, e.rs1]
          try rfl
        · simp only [List.getD_cons_zero, reservedSet, hU, reserved0, reserved1, reservedCommon, illegalLoad, e.op, wFn, wRs2, wL, wImm, wAm, wX, wSys, g30, g84, e.rd, e.rs1]
          try rfl
      · try simp only [List.getD_cons_zero, ownsLong, hU, e.op, wFn, wRs2, wL, wImm, wAm, wX, wSys, g30, g84, e.rd, e.rs1] <;> first | rfl | simp
  exact key _ (enc_head h 1 rd.toNat rs1.toNat (rs2.toNat * 2 ^ 4 + 9) (by decide) (by omega) (by omega) (by omega))
theorem min (h rd rs1 rs2) : Statement (.min h rd rs1 rs2) := by
  have b_rd := rd.isLt
  have b_rs1 := rs1.isLt
  have b_rs2 := rs2.isLt
  intro h' hs hw
  obtain ⟨hu, ho, hl, hc⟩ := parts hs hw
  cases hs
  have key : ∀ w, Enc w h 1 rd.toNat rs1.toNat (rs2.toNat * 2 ^ 4 + 10) → Good h [w] (.min h rd rs1 rs2) := by
    intro w e
    have g30 := e.fn (by omega)
    have g84 := e.rs2 (by omega) (by omega)
    rcases unit01 hu with hu | hu
    all_goals
      have hU := e.unit.trans hu
      refine ⟨?_, ?_, ?_, ?_, e.stop, e.cond, .inl rfl⟩
      · simp only [List.getD_cons_zero, List.getD_cons_succ, List.getD_nil, decodeSyl, hU, u0Of, u1Of, e.op, commonOf, aluOf, wFn, wRs2, wL, wImm, wAm, wX, wSys, immOf, immPOf, addrOf, g30, g84, e.rd, e.rs1, wStop_long, longWord_low, ofNat_self, head_eq e]; try rfl
      · simp only [List.getD_cons_zero, touchesSig, usesSig, postMode, hU, e.op, wFn, wRs2, wL, wImm, wAm, wX, wSys, g30, g84, e.rd, e.rs1] <;> first | rfl | simp
      · refine sylFault_none ?_ ?_ (by rw [List.getD_cons_zero, e.cond]; exact hc)
        · simp only [List.getD_cons_zero, illegal, hU, illegal0, illegal1, illegalCommon, illegalLoad, e.op, wFn, wRs2, wL, wImm, wAm, wX, wSys, g30, g84, e.rd, e.rs1]
          try rfl
        · simp only [List.getD_cons_zero, reservedSet, hU, reserved0, reserved1, reservedCommon, illegalLoad, e.op, wFn, wRs2, wL, wImm, wAm, wX, wSys, g30, g84, e.rd, e.rs1]
          try rfl
      · try simp only [List.getD_cons_zero, ownsLong, hU, e.op, wFn, wRs2, wL, wImm, wAm, wX, wSys, g30, g84, e.rd, e.rs1] <;> first | rfl | simp
  exact key _ (enc_head h 1 rd.toNat rs1.toNat (rs2.toNat * 2 ^ 4 + 10) (by decide) (by omega) (by omega) (by omega))
theorem max (h rd rs1 rs2) : Statement (.max h rd rs1 rs2) := by
  have b_rd := rd.isLt
  have b_rs1 := rs1.isLt
  have b_rs2 := rs2.isLt
  intro h' hs hw
  obtain ⟨hu, ho, hl, hc⟩ := parts hs hw
  cases hs
  have key : ∀ w, Enc w h 1 rd.toNat rs1.toNat (rs2.toNat * 2 ^ 4 + 11) → Good h [w] (.max h rd rs1 rs2) := by
    intro w e
    have g30 := e.fn (by omega)
    have g84 := e.rs2 (by omega) (by omega)
    rcases unit01 hu with hu | hu
    all_goals
      have hU := e.unit.trans hu
      refine ⟨?_, ?_, ?_, ?_, e.stop, e.cond, .inl rfl⟩
      · simp only [List.getD_cons_zero, List.getD_cons_succ, List.getD_nil, decodeSyl, hU, u0Of, u1Of, e.op, commonOf, aluOf, wFn, wRs2, wL, wImm, wAm, wX, wSys, immOf, immPOf, addrOf, g30, g84, e.rd, e.rs1, wStop_long, longWord_low, ofNat_self, head_eq e]; try rfl
      · simp only [List.getD_cons_zero, touchesSig, usesSig, postMode, hU, e.op, wFn, wRs2, wL, wImm, wAm, wX, wSys, g30, g84, e.rd, e.rs1] <;> first | rfl | simp
      · refine sylFault_none ?_ ?_ (by rw [List.getD_cons_zero, e.cond]; exact hc)
        · simp only [List.getD_cons_zero, illegal, hU, illegal0, illegal1, illegalCommon, illegalLoad, e.op, wFn, wRs2, wL, wImm, wAm, wX, wSys, g30, g84, e.rd, e.rs1]
          try rfl
        · simp only [List.getD_cons_zero, reservedSet, hU, reserved0, reserved1, reservedCommon, illegalLoad, e.op, wFn, wRs2, wL, wImm, wAm, wX, wSys, g30, g84, e.rd, e.rs1]
          try rfl
      · try simp only [List.getD_cons_zero, ownsLong, hU, e.op, wFn, wRs2, wL, wImm, wAm, wX, wSys, g30, g84, e.rd, e.rs1] <;> first | rfl | simp
  exact key _ (enc_head h 1 rd.toNat rs1.toNat (rs2.toNat * 2 ^ 4 + 11) (by decide) (by omega) (by omega) (by omega))
theorem minu (h rd rs1 rs2) : Statement (.minu h rd rs1 rs2) := by
  have b_rd := rd.isLt
  have b_rs1 := rs1.isLt
  have b_rs2 := rs2.isLt
  intro h' hs hw
  obtain ⟨hu, ho, hl, hc⟩ := parts hs hw
  cases hs
  have key : ∀ w, Enc w h 1 rd.toNat rs1.toNat (rs2.toNat * 2 ^ 4 + 12) → Good h [w] (.minu h rd rs1 rs2) := by
    intro w e
    have g30 := e.fn (by omega)
    have g84 := e.rs2 (by omega) (by omega)
    rcases unit01 hu with hu | hu
    all_goals
      have hU := e.unit.trans hu
      refine ⟨?_, ?_, ?_, ?_, e.stop, e.cond, .inl rfl⟩
      · simp only [List.getD_cons_zero, List.getD_cons_succ, List.getD_nil, decodeSyl, hU, u0Of, u1Of, e.op, commonOf, aluOf, wFn, wRs2, wL, wImm, wAm, wX, wSys, immOf, immPOf, addrOf, g30, g84, e.rd, e.rs1, wStop_long, longWord_low, ofNat_self, head_eq e]; try rfl
      · simp only [List.getD_cons_zero, touchesSig, usesSig, postMode, hU, e.op, wFn, wRs2, wL, wImm, wAm, wX, wSys, g30, g84, e.rd, e.rs1] <;> first | rfl | simp
      · refine sylFault_none ?_ ?_ (by rw [List.getD_cons_zero, e.cond]; exact hc)
        · simp only [List.getD_cons_zero, illegal, hU, illegal0, illegal1, illegalCommon, illegalLoad, e.op, wFn, wRs2, wL, wImm, wAm, wX, wSys, g30, g84, e.rd, e.rs1]
          try rfl
        · simp only [List.getD_cons_zero, reservedSet, hU, reserved0, reserved1, reservedCommon, illegalLoad, e.op, wFn, wRs2, wL, wImm, wAm, wX, wSys, g30, g84, e.rd, e.rs1]
          try rfl
      · try simp only [List.getD_cons_zero, ownsLong, hU, e.op, wFn, wRs2, wL, wImm, wAm, wX, wSys, g30, g84, e.rd, e.rs1] <;> first | rfl | simp
  exact key _ (enc_head h 1 rd.toNat rs1.toNat (rs2.toNat * 2 ^ 4 + 12) (by decide) (by omega) (by omega) (by omega))
theorem maxu (h rd rs1 rs2) : Statement (.maxu h rd rs1 rs2) := by
  have b_rd := rd.isLt
  have b_rs1 := rs1.isLt
  have b_rs2 := rs2.isLt
  intro h' hs hw
  obtain ⟨hu, ho, hl, hc⟩ := parts hs hw
  cases hs
  have key : ∀ w, Enc w h 1 rd.toNat rs1.toNat (rs2.toNat * 2 ^ 4 + 13) → Good h [w] (.maxu h rd rs1 rs2) := by
    intro w e
    have g30 := e.fn (by omega)
    have g84 := e.rs2 (by omega) (by omega)
    rcases unit01 hu with hu | hu
    all_goals
      have hU := e.unit.trans hu
      refine ⟨?_, ?_, ?_, ?_, e.stop, e.cond, .inl rfl⟩
      · simp only [List.getD_cons_zero, List.getD_cons_succ, List.getD_nil, decodeSyl, hU, u0Of, u1Of, e.op, commonOf, aluOf, wFn, wRs2, wL, wImm, wAm, wX, wSys, immOf, immPOf, addrOf, g30, g84, e.rd, e.rs1, wStop_long, longWord_low, ofNat_self, head_eq e]; try rfl
      · simp only [List.getD_cons_zero, touchesSig, usesSig, postMode, hU, e.op, wFn, wRs2, wL, wImm, wAm, wX, wSys, g30, g84, e.rd, e.rs1] <;> first | rfl | simp
      · refine sylFault_none ?_ ?_ (by rw [List.getD_cons_zero, e.cond]; exact hc)
        · simp only [List.getD_cons_zero, illegal, hU, illegal0, illegal1, illegalCommon, illegalLoad, e.op, wFn, wRs2, wL, wImm, wAm, wX, wSys, g30, g84, e.rd, e.rs1]
          try rfl
        · simp only [List.getD_cons_zero, reservedSet, hU, reserved0, reserved1, reservedCommon, illegalLoad, e.op, wFn, wRs2, wL, wImm, wAm, wX, wSys, g30, g84, e.rd, e.rs1]
          try rfl
      · try simp only [List.getD_cons_zero, ownsLong, hU, e.op, wFn, wRs2, wL, wImm, wAm, wX, wSys, g30, g84, e.rd, e.rs1] <;> first | rfl | simp
  exact key _ (enc_head h 1 rd.toNat rs1.toNat (rs2.toNat * 2 ^ 4 + 13) (by decide) (by omega) (by omega) (by omega))
theorem pack (h rd rs1 rs2) : Statement (.pack h rd rs1 rs2) := by
  have b_rd := rd.isLt
  have b_rs1 := rs1.isLt
  have b_rs2 := rs2.isLt
  intro h' hs hw
  obtain ⟨hu, ho, hl, hc⟩ := parts hs hw
  cases hs
  have key : ∀ w, Enc w h 1 rd.toNat rs1.toNat (rs2.toNat * 2 ^ 4 + 14) → Good h [w] (.pack h rd rs1 rs2) := by
    intro w e
    have g30 := e.fn (by omega)
    have g84 := e.rs2 (by omega) (by omega)
    rcases unit01 hu with hu | hu
    all_goals
      have hU := e.unit.trans hu
      refine ⟨?_, ?_, ?_, ?_, e.stop, e.cond, .inl rfl⟩
      · simp only [List.getD_cons_zero, List.getD_cons_succ, List.getD_nil, decodeSyl, hU, u0Of, u1Of, e.op, commonOf, aluOf, wFn, wRs2, wL, wImm, wAm, wX, wSys, immOf, immPOf, addrOf, g30, g84, e.rd, e.rs1, wStop_long, longWord_low, ofNat_self, head_eq e]; try rfl
      · simp only [List.getD_cons_zero, touchesSig, usesSig, postMode, hU, e.op, wFn, wRs2, wL, wImm, wAm, wX, wSys, g30, g84, e.rd, e.rs1] <;> first | rfl | simp
      · refine sylFault_none ?_ ?_ (by rw [List.getD_cons_zero, e.cond]; exact hc)
        · simp only [List.getD_cons_zero, illegal, hU, illegal0, illegal1, illegalCommon, illegalLoad, e.op, wFn, wRs2, wL, wImm, wAm, wX, wSys, g30, g84, e.rd, e.rs1]
          try rfl
        · simp only [List.getD_cons_zero, reservedSet, hU, reserved0, reserved1, reservedCommon, illegalLoad, e.op, wFn, wRs2, wL, wImm, wAm, wX, wSys, g30, g84, e.rd, e.rs1]
          try rfl
      · try simp only [List.getD_cons_zero, ownsLong, hU, e.op, wFn, wRs2, wL, wImm, wAm, wX, wSys, g30, g84, e.rd, e.rs1] <;> first | rfl | simp
  exact key _ (enc_head h 1 rd.toNat rs1.toNat (rs2.toNat * 2 ^ 4 + 14) (by decide) (by omega) (by omega) (by omega))
theorem addi (h rd rs1 imm) : Statement (.addi h rd rs1 imm) := by
  have b_rd := rd.isLt
  have b_rs1 := rs1.isLt
  intro h' hs hw
  cases imm with
  | short v =>
    have b_v := v.isLt
    obtain ⟨hu, ho, hl, hc⟩ := parts hs hw
    cases hs
    have key : ∀ w, Enc w h 2 rd.toNat rs1.toNat v.toNat → Good h [w] (.addi h rd rs1 (.short v)) := by
      intro w e
      have g88 : bits w.toNat 8 8 = 0 := (e.low 8 8 (by decide) (by decide)).trans (by unfold bits; omega)
      have g70 : bits w.toNat 7 0 = v.toNat := (e.low 7 0 (by decide) (by decide)).trans (by unfold bits; omega)
      rcases unit01 hu with hu | hu
      all_goals
        have hU := e.unit.trans hu
        refine ⟨?_, ?_, ?_, ?_, e.stop, e.cond, .inl rfl⟩
        · simp only [List.getD_cons_zero, List.getD_cons_succ, List.getD_nil, decodeSyl, hU, u0Of, u1Of, e.op, commonOf, aluOf, wFn, wRs2, wL, wImm, wAm, wX, wSys, immOf, immPOf, addrOf, g88, g70, e.rd, e.rs1, wStop_long, longWord_low, ofNat_self, head_eq e]; try rfl
        · simp only [List.getD_cons_zero, touchesSig, usesSig, postMode, hU, e.op, wFn, wRs2, wL, wImm, wAm, wX, wSys, g88, g70, e.rd, e.rs1] <;> first | rfl | simp
        · refine sylFault_none ?_ ?_ (by rw [List.getD_cons_zero, e.cond]; exact hc)
          · simp only [List.getD_cons_zero, illegal, hU, illegal0, illegal1, illegalCommon, illegalLoad, e.op, wFn, wRs2, wL, wImm, wAm, wX, wSys, g88, g70, e.rd, e.rs1]
            try rfl
          · simp only [List.getD_cons_zero, reservedSet, hU, reserved0, reserved1, reservedCommon, illegalLoad, e.op, wFn, wRs2, wL, wImm, wAm, wX, wSys, g88, g70, e.rd, e.rs1]
            try rfl
        · try simp only [List.getD_cons_zero, ownsLong, hU, e.op, wFn, wRs2, wL, wImm, wAm, wX, wSys, g88, g70, e.rd, e.rs1] <;> first | rfl | simp
    exact key _ (enc_head h 2 rd.toNat rs1.toNat v.toNat (by decide) (by omega) (by omega) (by omega))
  | long ls v =>
    have b_v := v.isLt
    obtain ⟨hu, ho, hl, hc⟩ := parts hs hw
    cases hs
    have key : ∀ w, Enc w h 2 rd.toNat rs1.toNat (2 ^ 8) → Good h [w, longWord ls v] (.addi h rd rs1 (.long ls v)) := by
      intro w e
      have g88 : bits w.toNat 8 8 = 1 := (e.low 8 8 (by decide) (by decide)).trans (by unfold bits; omega)
      have g70 : bits w.toNat 7 0 = 0 := (e.low 7 0 (by decide) (by decide)).trans (by unfold bits; omega)
      have g75 : bits w.toNat 7 5 = 0 := (e.low 7 5 (by decide) (by decide)).trans (by unfold bits; omega)
      rcases unit01 hu with hu | hu
      all_goals
        have hU := e.unit.trans hu
        refine ⟨?_, ?_, ?_, ?_, e.stop, e.cond, .inr ⟨rfl, by simpa [longOk, immShort, immPShort, addrShort] using hl⟩⟩
        · simp only [List.getD_cons_zero, List.getD_cons_succ, List.getD_nil, decodeSyl, hU, u0Of, u1Of, e.op, commonOf, aluOf, wFn, wRs2, wL, wImm, wAm, wX, wSys, immOf, immPOf, addrOf, g88, g70, g75, e.rd, e.rs1, wStop_long, longWord_low, ofNat_self, head_eq e]; try rfl
        · simp only [List.getD_cons_zero, touchesSig, usesSig, postMode, hU, e.op, wFn, wRs2, wL, wImm, wAm, wX, wSys, g88, g70, g75, e.rd, e.rs1] <;> first | rfl | simp
        · refine sylFault_none ?_ ?_ (by rw [List.getD_cons_zero, e.cond]; exact hc)
          · simp only [List.getD_cons_zero, illegal, hU, illegal0, illegal1, illegalCommon, illegalLoad, e.op, wFn, wRs2, wL, wImm, wAm, wX, wSys, g88, g70, g75, e.rd, e.rs1]
            try rfl
          · simp only [List.getD_cons_zero, reservedSet, hU, reserved0, reserved1, reservedCommon, illegalLoad, e.op, wFn, wRs2, wL, wImm, wAm, wX, wSys, g88, g70, g75, e.rd, e.rs1]
            try rfl
        · try simp only [List.getD_cons_zero, ownsLong, hU, e.op, wFn, wRs2, wL, wImm, wAm, wX, wSys, g88, g70, g75, e.rd, e.rs1] <;> first | rfl | simp
    exact key _ (enc_head h 2 rd.toNat rs1.toNat (2 ^ 8) (by decide) (by omega) (by omega) (by omega))
theorem andi (h rd rs1 imm) : Statement (.andi h rd rs1 imm) := by
  have b_rd := rd.isLt
  have b_rs1 := rs1.isLt
  intro h' hs hw
  cases imm with
  | short v =>
    have b_v := v.isLt
    obtain ⟨hu, ho, hl, hc⟩ := parts hs hw
    cases hs
    have key : ∀ w, Enc w h 3 rd.toNat rs1.toNat v.toNat → Good h [w] (.andi h rd rs1 (.short v)) := by
      intro w e
      have g88 : bits w.toNat 8 8 = 0 := (e.low 8 8 (by decide) (by decide)).trans (by unfold bits; omega)
      have g70 : bits w.toNat 7 0 = v.toNat := (e.low 7 0 (by decide) (by decide)).trans (by unfold bits; omega)
      rcases unit01 hu with hu | hu
      all_goals
        have hU := e.unit.trans hu
        refine ⟨?_, ?_, ?_, ?_, e.stop, e.cond, .inl rfl⟩
        · simp only [List.getD_cons_zero, List.getD_cons_succ, List.getD_nil, decodeSyl, hU, u0Of, u1Of, e.op, commonOf, aluOf, wFn, wRs2, wL, wImm, wAm, wX, wSys, immOf, immPOf, addrOf, g88, g70, e.rd, e.rs1, wStop_long, longWord_low, ofNat_self, head_eq e]; try rfl
        · simp only [List.getD_cons_zero, touchesSig, usesSig, postMode, hU, e.op, wFn, wRs2, wL, wImm, wAm, wX, wSys, g88, g70, e.rd, e.rs1] <;> first | rfl | simp
        · refine sylFault_none ?_ ?_ (by rw [List.getD_cons_zero, e.cond]; exact hc)
          · simp only [List.getD_cons_zero, illegal, hU, illegal0, illegal1, illegalCommon, illegalLoad, e.op, wFn, wRs2, wL, wImm, wAm, wX, wSys, g88, g70, e.rd, e.rs1]
            try rfl
          · simp only [List.getD_cons_zero, reservedSet, hU, reserved0, reserved1, reservedCommon, illegalLoad, e.op, wFn, wRs2, wL, wImm, wAm, wX, wSys, g88, g70, e.rd, e.rs1]
            try rfl
        · try simp only [List.getD_cons_zero, ownsLong, hU, e.op, wFn, wRs2, wL, wImm, wAm, wX, wSys, g88, g70, e.rd, e.rs1] <;> first | rfl | simp
    exact key _ (enc_head h 3 rd.toNat rs1.toNat v.toNat (by decide) (by omega) (by omega) (by omega))
  | long ls v =>
    have b_v := v.isLt
    obtain ⟨hu, ho, hl, hc⟩ := parts hs hw
    cases hs
    have key : ∀ w, Enc w h 3 rd.toNat rs1.toNat (2 ^ 8) → Good h [w, longWord ls v] (.andi h rd rs1 (.long ls v)) := by
      intro w e
      have g88 : bits w.toNat 8 8 = 1 := (e.low 8 8 (by decide) (by decide)).trans (by unfold bits; omega)
      have g70 : bits w.toNat 7 0 = 0 := (e.low 7 0 (by decide) (by decide)).trans (by unfold bits; omega)
      have g75 : bits w.toNat 7 5 = 0 := (e.low 7 5 (by decide) (by decide)).trans (by unfold bits; omega)
      rcases unit01 hu with hu | hu
      all_goals
        have hU := e.unit.trans hu
        refine ⟨?_, ?_, ?_, ?_, e.stop, e.cond, .inr ⟨rfl, by simpa [longOk, immShort, immPShort, addrShort] using hl⟩⟩
        · simp only [List.getD_cons_zero, List.getD_cons_succ, List.getD_nil, decodeSyl, hU, u0Of, u1Of, e.op, commonOf, aluOf, wFn, wRs2, wL, wImm, wAm, wX, wSys, immOf, immPOf, addrOf, g88, g70, g75, e.rd, e.rs1, wStop_long, longWord_low, ofNat_self, head_eq e]; try rfl
        · simp only [List.getD_cons_zero, touchesSig, usesSig, postMode, hU, e.op, wFn, wRs2, wL, wImm, wAm, wX, wSys, g88, g70, g75, e.rd, e.rs1] <;> first | rfl | simp
        · refine sylFault_none ?_ ?_ (by rw [List.getD_cons_zero, e.cond]; exact hc)
          · simp only [List.getD_cons_zero, illegal, hU, illegal0, illegal1, illegalCommon, illegalLoad, e.op, wFn, wRs2, wL, wImm, wAm, wX, wSys, g88, g70, g75, e.rd, e.rs1]
            try rfl
          · simp only [List.getD_cons_zero, reservedSet, hU, reserved0, reserved1, reservedCommon, illegalLoad, e.op, wFn, wRs2, wL, wImm, wAm, wX, wSys, g88, g70, g75, e.rd, e.rs1]
            try rfl
        · try simp only [List.getD_cons_zero, ownsLong, hU, e.op, wFn, wRs2, wL, wImm, wAm, wX, wSys, g88, g70, g75, e.rd, e.rs1] <;> first | rfl | simp
    exact key _ (enc_head h 3 rd.toNat rs1.toNat (2 ^ 8) (by decide) (by omega) (by omega) (by omega))
theorem ori (h rd rs1 imm) : Statement (.ori h rd rs1 imm) := by
  have b_rd := rd.isLt
  have b_rs1 := rs1.isLt
  intro h' hs hw
  cases imm with
  | short v =>
    have b_v := v.isLt
    obtain ⟨hu, ho, hl, hc⟩ := parts hs hw
    cases hs
    have key : ∀ w, Enc w h 4 rd.toNat rs1.toNat v.toNat → Good h [w] (.ori h rd rs1 (.short v)) := by
      intro w e
      have g88 : bits w.toNat 8 8 = 0 := (e.low 8 8 (by decide) (by decide)).trans (by unfold bits; omega)
      have g70 : bits w.toNat 7 0 = v.toNat := (e.low 7 0 (by decide) (by decide)).trans (by unfold bits; omega)
      rcases unit01 hu with hu | hu
      all_goals
        have hU := e.unit.trans hu
        refine ⟨?_, ?_, ?_, ?_, e.stop, e.cond, .inl rfl⟩
        · simp only [List.getD_cons_zero, List.getD_cons_succ, List.getD_nil, decodeSyl, hU, u0Of, u1Of, e.op, commonOf, aluOf, wFn, wRs2, wL, wImm, wAm, wX, wSys, immOf, immPOf, addrOf, g88, g70, e.rd, e.rs1, wStop_long, longWord_low, ofNat_self, head_eq e]; try rfl
        · simp only [List.getD_cons_zero, touchesSig, usesSig, postMode, hU, e.op, wFn, wRs2, wL, wImm, wAm, wX, wSys, g88, g70, e.rd, e.rs1] <;> first | rfl | simp
        · refine sylFault_none ?_ ?_ (by rw [List.getD_cons_zero, e.cond]; exact hc)
          · simp only [List.getD_cons_zero, illegal, hU, illegal0, illegal1, illegalCommon, illegalLoad, e.op, wFn, wRs2, wL, wImm, wAm, wX, wSys, g88, g70, e.rd, e.rs1]
            try rfl
          · simp only [List.getD_cons_zero, reservedSet, hU, reserved0, reserved1, reservedCommon, illegalLoad, e.op, wFn, wRs2, wL, wImm, wAm, wX, wSys, g88, g70, e.rd, e.rs1]
            try rfl
        · try simp only [List.getD_cons_zero, ownsLong, hU, e.op, wFn, wRs2, wL, wImm, wAm, wX, wSys, g88, g70, e.rd, e.rs1] <;> first | rfl | simp
    exact key _ (enc_head h 4 rd.toNat rs1.toNat v.toNat (by decide) (by omega) (by omega) (by omega))
  | long ls v =>
    have b_v := v.isLt
    obtain ⟨hu, ho, hl, hc⟩ := parts hs hw
    cases hs
    have key : ∀ w, Enc w h 4 rd.toNat rs1.toNat (2 ^ 8) → Good h [w, longWord ls v] (.ori h rd rs1 (.long ls v)) := by
      intro w e
      have g88 : bits w.toNat 8 8 = 1 := (e.low 8 8 (by decide) (by decide)).trans (by unfold bits; omega)
      have g70 : bits w.toNat 7 0 = 0 := (e.low 7 0 (by decide) (by decide)).trans (by unfold bits; omega)
      have g75 : bits w.toNat 7 5 = 0 := (e.low 7 5 (by decide) (by decide)).trans (by unfold bits; omega)
      rcases unit01 hu with hu | hu
      all_goals
        have hU := e.unit.trans hu
        refine ⟨?_, ?_, ?_, ?_, e.stop, e.cond, .inr ⟨rfl, by simpa [longOk, immShort, immPShort, addrShort] using hl⟩⟩
        · simp only [List.getD_cons_zero, List.getD_cons_succ, List.getD_nil, decodeSyl, hU, u0Of, u1Of, e.op, commonOf, aluOf, wFn, wRs2, wL, wImm, wAm, wX, wSys, immOf, immPOf, addrOf, g88, g70, g75, e.rd, e.rs1, wStop_long, longWord_low, ofNat_self, head_eq e]; try rfl
        · simp only [List.getD_cons_zero, touchesSig, usesSig, postMode, hU, e.op, wFn, wRs2, wL, wImm, wAm, wX, wSys, g88, g70, g75, e.rd, e.rs1] <;> first | rfl | simp
        · refine sylFault_none ?_ ?_ (by rw [List.getD_cons_zero, e.cond]; exact hc)
          · simp only [List.getD_cons_zero, illegal, hU, illegal0, illegal1, illegalCommon, illegalLoad, e.op, wFn, wRs2, wL, wImm, wAm, wX, wSys, g88, g70, g75, e.rd, e.rs1]
            try rfl
          · simp only [List.getD_cons_zero, reservedSet, hU, reserved0, reserved1, reservedCommon, illegalLoad, e.op, wFn, wRs2, wL, wImm, wAm, wX, wSys, g88, g70, g75, e.rd, e.rs1]
            try rfl
        · try simp only [List.getD_cons_zero, ownsLong, hU, e.op, wFn, wRs2, wL, wImm, wAm, wX, wSys, g88, g70, g75, e.rd, e.rs1] <;> first | rfl | simp
    exact key _ (enc_head h 4 rd.toNat rs1.toNat (2 ^ 8) (by decide) (by omega) (by omega) (by omega))
theorem xori (h rd rs1 imm) : Statement (.xori h rd rs1 imm) := by
  have b_rd := rd.isLt
  have b_rs1 := rs1.isLt
  intro h' hs hw
  cases imm with
  | short v =>
    have b_v := v.isLt
    obtain ⟨hu, ho, hl, hc⟩ := parts hs hw
    cases hs
    have key : ∀ w, Enc w h 5 rd.toNat rs1.toNat v.toNat → Good h [w] (.xori h rd rs1 (.short v)) := by
      intro w e
      have g88 : bits w.toNat 8 8 = 0 := (e.low 8 8 (by decide) (by decide)).trans (by unfold bits; omega)
      have g70 : bits w.toNat 7 0 = v.toNat := (e.low 7 0 (by decide) (by decide)).trans (by unfold bits; omega)
      rcases unit01 hu with hu | hu
      all_goals
        have hU := e.unit.trans hu
        refine ⟨?_, ?_, ?_, ?_, e.stop, e.cond, .inl rfl⟩
        · simp only [List.getD_cons_zero, List.getD_cons_succ, List.getD_nil, decodeSyl, hU, u0Of, u1Of, e.op, commonOf, aluOf, wFn, wRs2, wL, wImm, wAm, wX, wSys, immOf, immPOf, addrOf, g88, g70, e.rd, e.rs1, wStop_long, longWord_low, ofNat_self, head_eq e]; try rfl
        · simp only [List.getD_cons_zero, touchesSig, usesSig, postMode, hU, e.op, wFn, wRs2, wL, wImm, wAm, wX, wSys, g88, g70, e.rd, e.rs1] <;> first | rfl | simp
        · refine sylFault_none ?_ ?_ (by rw [List.getD_cons_zero, e.cond]; exact hc)
          · simp only [List.getD_cons_zero, illegal, hU, illegal0, illegal1, illegalCommon, illegalLoad, e.op, wFn, wRs2, wL, wImm, wAm, wX, wSys, g88, g70, e.rd, e.rs1]
            try rfl
          · simp only [List.getD_cons_zero, reservedSet, hU, reserved0, reserved1, reservedCommon, illegalLoad, e.op, wFn, wRs2, wL, wImm, wAm, wX, wSys, g88, g70, e.rd, e.rs1]
            try rfl
        · try simp only [List.getD_cons_zero, ownsLong, hU, e.op, wFn, wRs2, wL, wImm, wAm, wX, wSys, g88, g70, e.rd, e.rs1] <;> first | rfl | simp
    exact key _ (enc_head h 5 rd.toNat rs1.toNat v.toNat (by decide) (by omega) (by omega) (by omega))
  | long ls v =>
    have b_v := v.isLt
    obtain ⟨hu, ho, hl, hc⟩ := parts hs hw
    cases hs
    have key : ∀ w, Enc w h 5 rd.toNat rs1.toNat (2 ^ 8) → Good h [w, longWord ls v] (.xori h rd rs1 (.long ls v)) := by
      intro w e
      have g88 : bits w.toNat 8 8 = 1 := (e.low 8 8 (by decide) (by decide)).trans (by unfold bits; omega)
      have g70 : bits w.toNat 7 0 = 0 := (e.low 7 0 (by decide) (by decide)).trans (by unfold bits; omega)
      have g75 : bits w.toNat 7 5 = 0 := (e.low 7 5 (by decide) (by decide)).trans (by unfold bits; omega)
      rcases unit01 hu with hu | hu
      all_goals
        have hU := e.unit.trans hu
        refine ⟨?_, ?_, ?_, ?_, e.stop, e.cond, .inr ⟨rfl, by simpa [longOk, immShort, immPShort, addrShort] using hl⟩⟩
        · simp only [List.getD_cons_zero, List.getD_cons_succ, List.getD_nil, decodeSyl, hU, u0Of, u1Of, e.op, commonOf, aluOf, wFn, wRs2, wL, wImm, wAm, wX, wSys, immOf, immPOf, addrOf, g88, g70, g75, e.rd, e.rs1, wStop_long, longWord_low, ofNat_self, head_eq e]; try rfl
        · simp only [List.getD_cons_zero, touchesSig, usesSig, postMode, hU, e.op, wFn, wRs2, wL, wImm, wAm, wX, wSys, g88, g70, g75, e.rd, e.rs1] <;> first | rfl | simp
        · refine sylFault_none ?_ ?_ (by rw [List.getD_cons_zero, e.cond]; exact hc)
          · simp only [List.getD_cons_zero, illegal, hU, illegal0, illegal1, illegalCommon, illegalLoad, e.op, wFn, wRs2, wL, wImm, wAm, wX, wSys, g88, g70, g75, e.rd, e.rs1]
            try rfl
          · simp only [List.getD_cons_zero, reservedSet, hU, reserved0, reserved1, reservedCommon, illegalLoad, e.op, wFn, wRs2, wL, wImm, wAm, wX, wSys, g88, g70, g75, e.rd, e.rs1]
            try rfl
        · try simp only [List.getD_cons_zero, ownsLong, hU, e.op, wFn, wRs2, wL, wImm, wAm, wX, wSys, g88, g70, g75, e.rd, e.rs1] <;> first | rfl | simp
    exact key _ (enc_head h 5 rd.toNat rs1.toNat (2 ^ 8) (by decide) (by omega) (by omega) (by omega))
theorem shi (h rd rs1 kind amount) : Statement (.shi h rd rs1 kind amount) := by
  have b_rd := rd.isLt
  have b_rs1 := rs1.isLt
  have b_kind := kind.isLt
  have b_amount := amount.isLt
  intro h' hs hw
  obtain ⟨hu, ho, hl, hc⟩ := parts hs hw
  cases hs
  have key : ∀ w, Enc w h 6 rd.toNat rs1.toNat (kind.toNat * 2 ^ 6 + amount.toNat) → Good h [w] (.shi h rd rs1 kind amount) := by
    intro w e
    have g76 : bits w.toNat 7 6 = kind.toNat := (e.low 7 6 (by decide) (by decide)).trans (by unfold bits; omega)
    have g50 : bits w.toNat 5 0 = amount.toNat := (e.low 5 0 (by decide) (by decide)).trans (by unfold bits; omega)
    have g88 : bits w.toNat 8 8 = 0 := (e.low 8 8 (by decide) (by decide)).trans (by unfold bits; omega)
    rcases unit01 hu with hu | hu
    all_goals
      have hU := e.unit.trans hu
      refine ⟨?_, ?_, ?_, ?_, e.stop, e.cond, .inl rfl⟩
      · simp only [List.getD_cons_zero, List.getD_cons_succ, List.getD_nil, decodeSyl, hU, u0Of, u1Of, e.op, commonOf, aluOf, wFn, wRs2, wL, wImm, wAm, wX, wSys, immOf, immPOf, addrOf, g76, g50, g88, e.rd, e.rs1, wStop_long, longWord_low, ofNat_self, head_eq e]; try rfl
      · simp only [List.getD_cons_zero, touchesSig, usesSig, postMode, hU, e.op, wFn, wRs2, wL, wImm, wAm, wX, wSys, g76, g50, g88, e.rd, e.rs1] <;> first | rfl | simp
      · refine sylFault_none ?_ ?_ (by rw [List.getD_cons_zero, e.cond]; exact hc)
        · simp only [List.getD_cons_zero, illegal, hU, illegal0, illegal1, illegalCommon, illegalLoad, e.op, wFn, wRs2, wL, wImm, wAm, wX, wSys, g76, g50, g88, e.rd, e.rs1]
          try rfl
        · simp only [List.getD_cons_zero, reservedSet, hU, reserved0, reserved1, reservedCommon, illegalLoad, e.op, wFn, wRs2, wL, wImm, wAm, wX, wSys, g76, g50, g88, e.rd, e.rs1]
          try rfl
      · try simp only [List.getD_cons_zero, ownsLong, hU, e.op, wFn, wRs2, wL, wImm, wAm, wX, wSys, g76, g50, g88, e.rd, e.rs1] <;> first | rfl | simp
  exact key _ (enc_head h 6 rd.toNat rs1.toNat (kind.toNat * 2 ^ 6 + amount.toNat) (by decide) (by omega) (by omega) (by omega))
theorem cmp (h fn pd rs1 rs2) : Statement (.cmp h fn pd rs1 rs2) := by
  have b_fn := fn.isLt
  have b_pd := pd.isLt
  have b_rs1 := rs1.isLt
  have b_rs2 := rs2.isLt
  intro h' hs hw
  obtain ⟨hu, ho, hl, hc⟩ := parts hs hw
  cases hs
  have key : ∀ w, Enc w h 8 pd.toNat rs1.toNat (rs2.toNat * 2 ^ 4 + fn.toNat) → Good h [w] (.cmp h fn pd rs1 rs2) := by
    intro w e
    have g30 := e.fn (by omega)
    have g84 := e.rs2 (by omega) (by omega)
    have gpd := e.pd.trans (Nat.mod_eq_of_lt b_pd)
    have gpd0 := e.pd0.trans (Nat.div_eq_of_lt b_pd)
    rcases unit01 hu with hu | hu
    all_goals
      have hU := e.unit.trans hu
      refine ⟨?_, ?_, ?_, ?_, e.stop, e.cond, .inl rfl⟩
      · simp only [List.getD_cons_zero, List.getD_cons_succ, List.getD_nil, decodeSyl, hU, u0Of, u1Of, e.op, commonOf, aluOf, wFn, wRs2, wL, wImm, wAm, wX, wSys, immOf, immPOf, addrOf, g30, g84, e.rd, e.rs1, gpd, gpd0, wStop_long, longWord_low, ofNat_self, head_eq e]; try rfl
      · simp only [List.getD_cons_zero, touchesSig, usesSig, postMode, hU, e.op, wFn, wRs2, wL, wImm, wAm, wX, wSys, g30, g84, e.rd, e.rs1, gpd, gpd0] <;> first | rfl | simp
      · refine sylFault_none ?_ ?_ (by rw [List.getD_cons_zero, e.cond]; exact hc)
        · simp only [List.getD_cons_zero, illegal, hU, illegal0, illegal1, illegalCommon, illegalLoad, e.op, wFn, wRs2, wL, wImm, wAm, wX, wSys, g30, g84, e.rd, e.rs1, gpd, gpd0]
          try first | rfl | (simp [operandsOk, postInc, immPDefined, BitVec.toNat_eq] at ho; simp [badIf, userKnown, sysKnown]; omega)
        · simp only [List.getD_cons_zero, reservedSet, hU, reserved0, reserved1, reservedCommon, illegalLoad, e.op, wFn, wRs2, wL, wImm, wAm, wX, wSys, g30, g84, e.rd, e.rs1, gpd, gpd0]
          try first | rfl | (simp [operandsOk, postInc, immPDefined, BitVec.toNat_eq] at ho; simp [badIf, userKnown, sysKnown]; omega)
      · try simp only [List.getD_cons_zero, ownsLong, hU, e.op, wFn, wRs2, wL, wImm, wAm, wX, wSys, g30, g84, e.rd, e.rs1, gpd, gpd0] <;> first | rfl | simp
  exact key _ (enc_head h 8 pd.toNat rs1.toNat (rs2.toNat * 2 ^ 4 + fn.toNat) (by decide) (by omega) (by omega) (by omega))
theorem cmpi (h pd rs1 imm) : Statement (.cmpi h pd rs1 imm) := by
  have b_pd := pd.isLt
  have b_rs1 := rs1.isLt
  intro h' hs hw
  cases imm with
  | short cc v =>
    have b_cc := cc.isLt
    have b_v := v.isLt
    obtain ⟨hu, ho, hl, hc⟩ := parts hs hw
    cases hs
    have key : ∀ w, Enc w h 9 pd.toNat rs1.toNat (cc.toNat * 2 ^ 5 + v.toNat) → Good h [w] (.cmpi h pd rs1 (.short cc v)) := by
      intro w e
      have g88 : bits w.toNat 8 8 = 0 := (e.low 8 8 (by decide) (by decide)).trans (by unfold bits; omega)
      have g75 : bits w.toNat 7 5 = cc.toNat := (e.low 7 5 (by decide) (by decide)).trans (by unfold bits; omega)
      have g40 : bits w.toNat 4 0 = v.toNat := (e.low 4 0 (by decide) (by decide)).trans (by unfold bits; omega)
      have gpd := e.pd.trans (Nat.mod_eq_of_lt b_pd)
      have gpd0 := e.pd0.trans (Nat.div_eq_of_lt b_pd)
      rcases unit01 hu with hu | hu
      all_goals
        have hU := e.unit.trans hu
        refine ⟨?_, ?_, ?_, ?_, e.stop, e.cond, .inl rfl⟩
        · simp only [List.getD_cons_zero, List.getD_cons_succ, List.getD_nil, decodeSyl, hU, u0Of, u1Of, e.op, commonOf, aluOf, wFn, wRs2, wL, wImm, wAm, wX, wSys, immOf, immPOf, addrOf, g88, g75, g40, e.rd, e.rs1, gpd, gpd0, wStop_long, longWord_low, ofNat_self, head_eq e]; try rfl
        · simp only [List.getD_cons_zero, touchesSig, usesSig, postMode, hU, e.op, wFn, wRs2, wL, wImm, wAm, wX, wSys, g88, g75, g40, e.rd, e.rs1, gpd, gpd0] <;> first | rfl | simp
        · refine sylFault_none ?_ ?_ (by rw [List.getD_cons_zero, e.cond]; exact hc)
          · simp only [List.getD_cons_zero, illegal, hU, illegal0, illegal1, illegalCommon, illegalLoad, e.op, wFn, wRs2, wL, wImm, wAm, wX, wSys, g88, g75, g40, e.rd, e.rs1, gpd, gpd0]
            try first | rfl | (simp [operandsOk, postInc, immPDefined, BitVec.toNat_eq] at ho; simp [badIf, userKnown, sysKnown]; omega)
          · simp only [List.getD_cons_zero, reservedSet, hU, reserved0, reserved1, reservedCommon, illegalLoad, e.op, wFn, wRs2, wL, wImm, wAm, wX, wSys, g88, g75, g40, e.rd, e.rs1, gpd, gpd0]
            try first | rfl | (simp [operandsOk, postInc, immPDefined, BitVec.toNat_eq] at ho; simp [badIf, userKnown, sysKnown]; omega)
        · try simp only [List.getD_cons_zero, ownsLong, hU, e.op, wFn, wRs2, wL, wImm, wAm, wX, wSys, g88, g75, g40, e.rd, e.rs1, gpd, gpd0] <;> first | rfl | simp
    exact key _ (enc_head h 9 pd.toNat rs1.toNat (cc.toNat * 2 ^ 5 + v.toNat) (by decide) (by omega) (by omega) (by omega))
  | long ls v =>
    have b_v := v.isLt
    obtain ⟨hu, ho, hl, hc⟩ := parts hs hw
    cases hs
    have key : ∀ w, Enc w h 9 pd.toNat rs1.toNat (2 ^ 8) → Good h [w, longWord ls v] (.cmpi h pd rs1 (.long ls v)) := by
      intro w e
      have g88 : bits w.toNat 8 8 = 1 := (e.low 8 8 (by decide) (by decide)).trans (by unfold bits; omega)
      have g70 : bits w.toNat 7 0 = 0 := (e.low 7 0 (by decide) (by decide)).trans (by unfold bits; omega)
      have g75 : bits w.toNat 7 5 = 0 := (e.low 7 5 (by decide) (by decide)).trans (by unfold bits; omega)
      have gpd := e.pd.trans (Nat.mod_eq_of_lt b_pd)
      have gpd0 := e.pd0.trans (Nat.div_eq_of_lt b_pd)
      rcases unit01 hu with hu | hu
      all_goals
        have hU := e.unit.trans hu
        refine ⟨?_, ?_, ?_, ?_, e.stop, e.cond, .inr ⟨rfl, by simpa [longOk, immShort, immPShort, addrShort] using hl⟩⟩
        · simp only [List.getD_cons_zero, List.getD_cons_succ, List.getD_nil, decodeSyl, hU, u0Of, u1Of, e.op, commonOf, aluOf, wFn, wRs2, wL, wImm, wAm, wX, wSys, immOf, immPOf, addrOf, g88, g70, g75, e.rd, e.rs1, gpd, gpd0, wStop_long, longWord_low, ofNat_self, head_eq e]; try rfl
        · simp only [List.getD_cons_zero, touchesSig, usesSig, postMode, hU, e.op, wFn, wRs2, wL, wImm, wAm, wX, wSys, g88, g70, g75, e.rd, e.rs1, gpd, gpd0] <;> first | rfl | simp
        · refine sylFault_none ?_ ?_ (by rw [List.getD_cons_zero, e.cond]; exact hc)
          · simp only [List.getD_cons_zero, illegal, hU, illegal0, illegal1, illegalCommon, illegalLoad, e.op, wFn, wRs2, wL, wImm, wAm, wX, wSys, g88, g70, g75, e.rd, e.rs1, gpd, gpd0]
            try first | rfl | (simp [operandsOk, postInc, immPDefined, BitVec.toNat_eq] at ho; simp [badIf, userKnown, sysKnown]; omega)
          · simp only [List.getD_cons_zero, reservedSet, hU, reserved0, reserved1, reservedCommon, illegalLoad, e.op, wFn, wRs2, wL, wImm, wAm, wX, wSys, g88, g70, g75, e.rd, e.rs1, gpd, gpd0]
            try first | rfl | (simp [operandsOk, postInc, immPDefined, BitVec.toNat_eq] at ho; simp [badIf, userKnown, sysKnown]; omega)
        · try simp only [List.getD_cons_zero, ownsLong, hU, e.op, wFn, wRs2, wL, wImm, wAm, wX, wSys, g88, g70, g75, e.rd, e.rs1, gpd, gpd0] <;> first | rfl | simp
    exact key _ (enc_head h 9 pd.toNat rs1.toNat (2 ^ 8) (by decide) (by omega) (by omega) (by omega))
theorem plog (h fn pd ps1 ps2) : Statement (.plog h fn pd ps1 ps2) := by
  have b_fn := fn.isLt
  have b_pd := pd.isLt
  have b_ps1 := ps1.isLt
  have b_ps2 := ps2.isLt
  intro h' hs hw
  obtain ⟨hu, ho, hl, hc⟩ := parts hs hw
  cases hs
  have key : ∀ w, Enc w h 10 pd.toNat ps1.toNat (ps2.toNat * 2 ^ 4 + fn.toNat) → Good h [w] (.plog h fn pd ps1 ps2) := by
    intro w e
    have g30 := e.fn (by omega)
    have g64 : bits w.toNat 6 4 = ps2.toNat := (e.low 6 4 (by decide) (by decide)).trans (by unfold bits; omega)
    have g87 : bits w.toNat 8 7 = 0 := (e.low 8 7 (by decide) (by decide)).trans (by unfold bits; omega)
    have gpd := e.pd.trans (Nat.mod_eq_of_lt b_pd)
    have gpd0 := e.pd0.trans (Nat.div_eq_of_lt b_pd)
    have gps := e.ps.trans (Nat.mod_eq_of_lt b_ps1)
    have gps0 := e.ps0.trans (Nat.div_eq_of_lt b_ps1)
    rcases unit01 hu with hu | hu
    all_goals
      have hU := e.unit.trans hu
      refine ⟨?_, ?_, ?_, ?_, e.stop, e.cond, .inl rfl⟩
      · simp only [List.getD_cons_zero, List.getD_cons_succ, List.getD_nil, decodeSyl, hU, u0Of, u1Of, e.op, commonOf, aluOf, wFn, wRs2, wL, wImm, wAm, wX, wSys, immOf, immPOf, addrOf, g30, g64, g87, e.rd, e.rs1, gpd, gpd0, gps, gps0, wStop_long, longWord_low, ofNat_self, head_eq e]; try rfl
      · simp only [List.getD_cons_zero, touchesSig, usesSig, postMode, hU, e.op, wFn, wRs2, wL, wImm, wAm, wX, wSys, g30, g64, g87, e.rd, e.rs1, gpd, gpd0, gps, gps0] <;> first | rfl | simp
      · refine sylFault_none ?_ ?_ (by rw [List.getD_cons_zero, e.cond]; exact hc)
        · simp only [List.getD_cons_zero, illegal, hU, illegal0, illegal1, illegalCommon, illegalLoad, e.op, wFn, wRs2, wL, wImm, wAm, wX, wSys, g30, g64, g87, e.rd, e.rs1, gpd, gpd0, gps, gps0]
          try first | rfl | (simp [operandsOk, postInc, immPDefined, BitVec.toNat_eq] at ho; simp [badIf, userKnown, sysKnown]; omega)
        · simp only [List.getD_cons_zero, reservedSet, hU, reserved0, reserved1, reservedCommon, illegalLoad, e.op, wFn, wRs2, wL, wImm, wAm, wX, wSys, g30, g64, g87, e.rd, e.rs1, gpd, gpd0, gps, gps0]
          try first | rfl | (simp [operandsOk, postInc, immPDefined, BitVec.toNat_eq] at ho; simp [badIf, userKnown, sysKnown]; omega)
      · try simp only [List.getD_cons_zero, ownsLong, hU, e.op, wFn, wRs2, wL, wImm, wAm, wX, wSys, g30, g64, g87, e.rd, e.rs1, gpd, gpd0, gps, gps0] <;> first | rfl | simp
  exact key _ (enc_head h 10 pd.toNat ps1.toNat (ps2.toNat * 2 ^ 4 + fn.toNat) (by decide) (by omega) (by omega) (by omega))
theorem br (h disp) : Statement (.br h disp) := by
  have b_disp := disp.isLt
  intro h' hs hw
  obtain ⟨hu, ho, hl, hc⟩ := parts hs hw
  cases hs
  have key : ∀ w, EncB w h 16 disp.toNat → Good h [w] (.br h disp) := by
    intro w e
    have hu : h.unit.toNat = 0 := unitIs hu
    all_goals
      have hU := e.unit.trans hu
      refine ⟨?_, ?_, ?_, ?_, e.stop, e.cond, .inl rfl⟩
      · simp only [List.getD_cons_zero, List.getD_cons_succ, List.getD_nil, decodeSyl, hU, u0Of, e.op, wFn, wRs2, wL, wImm, wAm, wX, wSys, immOf, immPOf, addrOf, e.all, wStop_long, longWord_low, ofNat_self, head_eqB e]; try rfl
      · simp only [List.getD_cons_zero, touchesSig, usesSig, postMode, hU, e.op, wFn, wRs2, wL, wImm, wAm, wX, wSys, e.all] <;> first | rfl | simp
      · refine sylFault_none ?_ ?_ (by rw [List.getD_cons_zero, e.cond]; exact hc)
        · simp only [List.getD_cons_zero, illegal, hU, illegal0, illegalLoad, e.op, wFn, wRs2, wL, wImm, wAm, wX, wSys, e.all]
          try rfl
        · simp only [List.getD_cons_zero, reservedSet, hU, reserved0, illegalLoad, e.op, wFn, wRs2, wL, wImm, wAm, wX, wSys, e.all]
          try rfl
      · try simp only [List.getD_cons_zero, ownsLong, hU, e.op, wFn, wRs2, wL, wImm, wAm, wX, wSys, e.all] <;> first | rfl | simp
  exact key _ (enc_headB h 16 disp.toNat (by decide) b_disp)
theorem call (h disp) : Statement (.call h disp) := by
  have b_disp := disp.isLt
  intro h' hs hw
  obtain ⟨hu, ho, hl, hc⟩ := parts hs hw
  cases hs
  have key : ∀ w, EncB w h 17 disp.toNat → Good h [w] (.call h disp) := by
    intro w e
    have hu : h.unit.toNat = 0 := unitIs hu
    all_goals
      have hU := e.unit.trans hu
      refine ⟨?_, ?_, ?_, ?_, e.stop, e.cond, .inl rfl⟩
      · simp only [List.getD_cons_zero, List.getD_cons_succ, List.getD_nil, decodeSyl, hU, u0Of, e.op, wFn, wRs2, wL, wImm, wAm, wX, wSys, immOf, immPOf, addrOf, e.all, wStop_long, longWord_low, ofNat_self, head_eqB e]; try rfl
      · simp only [List.getD_cons_zero, touchesSig, usesSig, postMode, hU, e.op, wFn, wRs2, wL, wImm, wAm, wX, wSys, e.all] <;> first | rfl | simp
      · refine sylFault_none ?_ ?_ (by rw [List.getD_cons_zero, e.cond]; exact hc)
        · simp only [List.getD_cons_zero, illegal, hU, illegal0, illegalLoad, e.op, wFn, wRs2, wL, wImm, wAm, wX, wSys, e.all]
          try rfl
        · simp only [List.getD_cons_zero, reservedSet, hU, reserved0, illegalLoad, e.op, wFn, wRs2, wL, wImm, wAm, wX, wSys, e.all]
          try rfl
      · try simp only [List.getD_cons_zero, ownsLong, hU, e.op, wFn, wRs2, wL, wImm, wAm, wX, wSys, e.all] <;> first | rfl | simp
  exact key _ (enc_headB h 17 disp.toNat (by decide) b_disp)
theorem jmp (h rs1) : Statement (.jmp h rs1) := by
  have b_rs1 := rs1.isLt
  intro h' hs hw
  obtain ⟨hu, ho, hl, hc⟩ := parts hs hw
  cases hs
  have key : ∀ w, Enc w h 18 0 rs1.toNat 0 → Good h [w] (.jmp h rs1) := by
    intro w e
    have g30 : bits w.toNat 3 0 = 0 := (e.low 3 0 (by decide) (by decide)).trans (by unfold bits; omega)
    have g84 : bits w.toNat 8 4 = 0 := (e.low 8 4 (by decide) (by decide)).trans (by unfold bits; omega)
    have hu : h.unit.toNat = 0 := unitIs hu
    all_goals
      have hU := e.unit.trans hu
      refine ⟨?_, ?_, ?_, ?_, e.stop, e.cond, .inl rfl⟩
      · simp only [List.getD_cons_zero, List.getD_cons_succ, List.getD_nil, decodeSyl, hU, u0Of, e.op, wFn, wRs2, wL, wImm, wAm, wX, wSys, immOf, immPOf, addrOf, g30, g84, e.rd, e.rs1, wStop_long, longWord_low, ofNat_self, head_eq e]; try rfl
      · simp only [List.getD_cons_zero, touchesSig, usesSig, postMode, hU, e.op, wFn, wRs2, wL, wImm, wAm, wX, wSys, g30, g84, e.rd, e.rs1] <;> first | rfl | simp
      · refine sylFault_none ?_ ?_ (by rw [List.getD_cons_zero, e.cond]; exact hc)
        · simp only [List.getD_cons_zero, illegal, hU, illegal0, illegalLoad, e.op, wFn, wRs2, wL, wImm, wAm, wX, wSys, g30, g84, e.rd, e.rs1]
          try rfl
        · simp only [List.getD_cons_zero, reservedSet, hU, reserved0, illegalLoad, e.op, wFn, wRs2, wL, wImm, wAm, wX, wSys, g30, g84, e.rd, e.rs1]
          try rfl
      · try simp only [List.getD_cons_zero, ownsLong, hU, e.op, wFn, wRs2, wL, wImm, wAm, wX, wSys, g30, g84, e.rd, e.rs1] <;> first | rfl | simp
  exact key _ (enc_head h 18 0 rs1.toNat 0 (by decide) (by omega) (by omega) (by omega))
theorem callr (h rs1) : Statement (.callr h rs1) := by
  have b_rs1 := rs1.isLt
  intro h' hs hw
  obtain ⟨hu, ho, hl, hc⟩ := parts hs hw
  cases hs
  have key : ∀ w, Enc w h 18 0 rs1.toNat 1 → Good h [w] (.callr h rs1) := by
    intro w e
    have g30 : bits w.toNat 3 0 = 1 := (e.low 3 0 (by decide) (by decide)).trans (by unfold bits; omega)
    have g84 : bits w.toNat 8 4 = 0 := (e.low 8 4 (by decide) (by decide)).trans (by unfold bits; omega)
    have hu : h.unit.toNat = 0 := unitIs hu
    all_goals
      have hU := e.unit.trans hu
      refine ⟨?_, ?_, ?_, ?_, e.stop, e.cond, .inl rfl⟩
      · simp only [List.getD_cons_zero, List.getD_cons_succ, List.getD_nil, decodeSyl, hU, u0Of, e.op, wFn, wRs2, wL, wImm, wAm, wX, wSys, immOf, immPOf, addrOf, g30, g84, e.rd, e.rs1, wStop_long, longWord_low, ofNat_self, head_eq e]; try rfl
      · simp only [List.getD_cons_zero, touchesSig, usesSig, postMode, hU, e.op, wFn, wRs2, wL, wImm, wAm, wX, wSys, g30, g84, e.rd, e.rs1] <;> first | rfl | simp
      · refine sylFault_none ?_ ?_ (by rw [List.getD_cons_zero, e.cond]; exact hc)
        · simp only [List.getD_cons_zero, illegal, hU, illegal0, illegalLoad, e.op, wFn, wRs2, wL, wImm, wAm, wX, wSys, g30, g84, e.rd, e.rs1]
          try rfl
        · simp only [List.getD_cons_zero, reservedSet, hU, reserved0, illegalLoad, e.op, wFn, wRs2, wL, wImm, wAm, wX, wSys, g30, g84, e.rd, e.rs1]
          try rfl
      · try simp only [List.getD_cons_zero, ownsLong, hU, e.op, wFn, wRs2, wL, wImm, wAm, wX, wSys, g30, g84, e.rd, e.rs1] <;> first | rfl | simp
  exact key _ (enc_head h 18 0 rs1.toNat 1 (by decide) (by omega) (by omega) (by omega))
theorem ret (h) : Statement (.ret h) := by
  intro h' hs hw
  obtain ⟨hu, ho, hl, hc⟩ := parts hs hw
  cases hs
  have key : ∀ w, Enc w h 18 0 0 2 → Good h [w] (.ret h) := by
    intro w e
    have g30 : bits w.toNat 3 0 = 2 := (e.low 3 0 (by decide) (by decide)).trans (by unfold bits; omega)
    have g84 : bits w.toNat 8 4 = 0 := (e.low 8 4 (by decide) (by decide)).trans (by unfold bits; omega)
    have hu : h.unit.toNat = 0 := unitIs hu
    all_goals
      have hU := e.unit.trans hu
      refine ⟨?_, ?_, ?_, ?_, e.stop, e.cond, .inl rfl⟩
      · simp only [List.getD_cons_zero, List.getD_cons_succ, List.getD_nil, decodeSyl, hU, u0Of, e.op, wFn, wRs2, wL, wImm, wAm, wX, wSys, immOf, immPOf, addrOf, g30, g84, e.rd, e.rs1, wStop_long, longWord_low, ofNat_self, head_eq e]; try rfl
      · simp only [List.getD_cons_zero, touchesSig, usesSig, postMode, hU, e.op, wFn, wRs2, wL, wImm, wAm, wX, wSys, g30, g84, e.rd, e.rs1] <;> first | rfl | simp
      · refine sylFault_none ?_ ?_ (by rw [List.getD_cons_zero, e.cond]; exact hc)
        · simp only [List.getD_cons_zero, illegal, hU, illegal0, illegalLoad, e.op, wFn, wRs2, wL, wImm, wAm, wX, wSys, g30, g84, e.rd, e.rs1]
          try rfl
        · simp only [List.getD_cons_zero, reservedSet, hU, reserved0, illegalLoad, e.op, wFn, wRs2, wL, wImm, wAm, wX, wSys, g30, g84, e.rd, e.rs1]
          try rfl
      · try simp only [List.getD_cons_zero, ownsLong, hU, e.op, wFn, wRs2, wL, wImm, wAm, wX, wSys, g30, g84, e.rd, e.rs1] <;> first | rfl | simp
  exact key _ (enc_head h 18 0 0 2 (by decide) (by omega) (by omega) (by omega))
theorem callg (h rs1) : Statement (.callg h rs1) := by
  have b_rs1 := rs1.isLt
  intro h' hs hw
  obtain ⟨hu, ho, hl, hc⟩ := parts hs hw
  cases hs
  have key : ∀ w, Enc w h 19 0 rs1.toNat 0 → Good h [w] (.callg h rs1) := by
    intro w e
    have g30 : bits w.toNat 3 0 = 0 := (e.low 3 0 (by decide) (by decide)).trans (by unfold bits; omega)
    have g84 : bits w.toNat 8 4 = 0 := (e.low 8 4 (by decide) (by decide)).trans (by unfold bits; omega)
    have hu : h.unit.toNat = 0 := unitIs hu
    all_goals
      have hU := e.unit.trans hu
      refine ⟨?_, ?_, ?_, ?_, e.stop, e.cond, .inl rfl⟩
      · simp only [List.getD_cons_zero, List.getD_cons_succ, List.getD_nil, decodeSyl, hU, u0Of, e.op, wFn, wRs2, wL, wImm, wAm, wX, wSys, immOf, immPOf, addrOf, g30, g84, e.rd, e.rs1, wStop_long, longWord_low, ofNat_self, head_eq e]; try rfl
      · simp only [List.getD_cons_zero, touchesSig, usesSig, postMode, hU, e.op, wFn, wRs2, wL, wImm, wAm, wX, wSys, g30, g84, e.rd, e.rs1] <;> first | rfl | simp
      · refine sylFault_none ?_ ?_ (by rw [List.getD_cons_zero, e.cond]; exact hc)
        · simp only [List.getD_cons_zero, illegal, hU, illegal0, illegalLoad, e.op, wFn, wRs2, wL, wImm, wAm, wX, wSys, g30, g84, e.rd, e.rs1]
          try rfl
        · simp only [List.getD_cons_zero, reservedSet, hU, reserved0, illegalLoad, e.op, wFn, wRs2, wL, wImm, wAm, wX, wSys, g30, g84, e.rd, e.rs1]
          try rfl
      · try simp only [List.getD_cons_zero, ownsLong, hU, e.op, wFn, wRs2, wL, wImm, wAm, wX, wSys, g30, g84, e.rd, e.rs1] <;> first | rfl | simp
  exact key _ (enc_head h 19 0 rs1.toNat 0 (by decide) (by omega) (by omega) (by omega))
theorem retg (h rs1) : Statement (.retg h rs1) := by
  have b_rs1 := rs1.isLt
  intro h' hs hw
  obtain ⟨hu, ho, hl, hc⟩ := parts hs hw
  cases hs
  have key : ∀ w, Enc w h 19 0 rs1.toNat 1 → Good h [w] (.retg h rs1) := by
    intro w e
    have g30 : bits w.toNat 3 0 = 1 := (e.low 3 0 (by decide) (by decide)).trans (by unfold bits; omega)
    have g84 : bits w.toNat 8 4 = 0 := (e.low 8 4 (by decide) (by decide)).trans (by unfold bits; omega)
    have hu : h.unit.toNat = 0 := unitIs hu
    all_goals
      have hU := e.unit.trans hu
      refine ⟨?_, ?_, ?_, ?_, e.stop, e.cond, .inl rfl⟩
      · simp only [List.getD_cons_zero, List.getD_cons_succ, List.getD_nil, decodeSyl, hU, u0Of, e.op, wFn, wRs2, wL, wImm, wAm, wX, wSys, immOf, immPOf, addrOf, g30, g84, e.rd, e.rs1, wStop_long, longWord_low, ofNat_self, head_eq e]; try rfl
      · simp only [List.getD_cons_zero, touchesSig, usesSig, postMode, hU, e.op, wFn, wRs2, wL, wImm, wAm, wX, wSys, g30, g84, e.rd, e.rs1] <;> first | rfl | simp
      · refine sylFault_none ?_ ?_ (by rw [List.getD_cons_zero, e.cond]; exact hc)
        · simp only [List.getD_cons_zero, illegal, hU, illegal0, illegalLoad, e.op, wFn, wRs2, wL, wImm, wAm, wX, wSys, g30, g84, e.rd, e.rs1]
          try rfl
        · simp only [List.getD_cons_zero, reservedSet, hU, reserved0, illegalLoad, e.op, wFn, wRs2, wL, wImm, wAm, wX, wSys, g30, g84, e.rd, e.rs1]
          try rfl
      · try simp only [List.getD_cons_zero, ownsLong, hU, e.op, wFn, wRs2, wL, wImm, wAm, wX, wSys, g30, g84, e.rd, e.rs1] <;> first | rfl | simp
  exact key _ (enc_head h 19 0 rs1.toNat 1 (by decide) (by omega) (by omega) (by omega))
theorem eret (h) : Statement (.eret h) := by
  intro h' hs hw
  obtain ⟨hu, ho, hl, hc⟩ := parts hs hw
  cases hs
  have key : ∀ w, Enc w h 19 0 0 2 → Good h [w] (.eret h) := by
    intro w e
    have g30 : bits w.toNat 3 0 = 2 := (e.low 3 0 (by decide) (by decide)).trans (by unfold bits; omega)
    have g84 : bits w.toNat 8 4 = 0 := (e.low 8 4 (by decide) (by decide)).trans (by unfold bits; omega)
    have hu : h.unit.toNat = 0 := unitIs hu
    all_goals
      have hU := e.unit.trans hu
      refine ⟨?_, ?_, ?_, ?_, e.stop, e.cond, .inl rfl⟩
      · simp only [List.getD_cons_zero, List.getD_cons_succ, List.getD_nil, decodeSyl, hU, u0Of, e.op, wFn, wRs2, wL, wImm, wAm, wX, wSys, immOf, immPOf, addrOf, g30, g84, e.rd, e.rs1, wStop_long, longWord_low, ofNat_self, head_eq e]; try rfl
      · simp only [List.getD_cons_zero, touchesSig, usesSig, postMode, hU, e.op, wFn, wRs2, wL, wImm, wAm, wX, wSys, g30, g84, e.rd, e.rs1] <;> first | rfl | simp
      · refine sylFault_none ?_ ?_ (by rw [List.getD_cons_zero, e.cond]; exact hc)
        · simp only [List.getD_cons_zero, illegal, hU, illegal0, illegalLoad, e.op, wFn, wRs2, wL, wImm, wAm, wX, wSys, g30, g84, e.rd, e.rs1]
          try rfl
        · simp only [List.getD_cons_zero, reservedSet, hU, reserved0, illegalLoad, e.op, wFn, wRs2, wL, wImm, wAm, wX, wSys, g30, g84, e.rd, e.rs1]
          try rfl
      · try simp only [List.getD_cons_zero, ownsLong, hU, e.op, wFn, wRs2, wL, wImm, wAm, wX, wSys, g30, g84, e.rd, e.rs1] <;> first | rfl | simp
  exact key _ (enc_head h 19 0 0 2 (by decide) (by omega) (by omega) (by omega))
theorem rep (h) : Statement (.rep h) := by
  intro h' hs hw
  obtain ⟨hu, ho, hl, hc⟩ := parts hs hw
  cases hs
  have key : ∀ w, Enc w h 24 0 0 0 → Good h [w] (.rep h) := by
    intro w e
    have g88 : bits w.toNat 8 8 = 0 := (e.low 8 8 (by decide) (by decide)).trans (by unfold bits; omega)
    have g76 : bits w.toNat 7 6 = 0 := (e.low 7 6 (by decide) (by decide)).trans (by unfold bits; omega)
    have g50 : bits w.toNat 5 0 = 0 := (e.low 5 0 (by decide) (by decide)).trans (by unfold bits; omega)
    have hu : h.unit.toNat = 0 := unitIs hu
    all_goals
      have hU := e.unit.trans hu
      refine ⟨?_, ?_, ?_, ?_, e.stop, e.cond, .inl rfl⟩
      · simp only [List.getD_cons_zero, List.getD_cons_succ, List.getD_nil, decodeSyl, hU, u0Of, e.op, wFn, wRs2, wL, wImm, wAm, wX, wSys, immOf, immPOf, addrOf, g88, g76, g50, e.rd, e.rs1, wStop_long, longWord_low, ofNat_self, head_eq e]; try rfl
      · simp only [List.getD_cons_zero, touchesSig, usesSig, postMode, hU, e.op, wFn, wRs2, wL, wImm, wAm, wX, wSys, g88, g76, g50, e.rd, e.rs1] <;> first | rfl | simp
      · refine sylFault_none ?_ ?_ (by rw [List.getD_cons_zero, e.cond]; exact hc)
        · simp only [List.getD_cons_zero, illegal, hU, illegal0, illegalLoad, e.op, wFn, wRs2, wL, wImm, wAm, wX, wSys, g88, g76, g50, e.rd, e.rs1]
          try rfl
        · simp only [List.getD_cons_zero, reservedSet, hU, reserved0, illegalLoad, e.op, wFn, wRs2, wL, wImm, wAm, wX, wSys, g88, g76, g50, e.rd, e.rs1]
          try rfl
      · try simp only [List.getD_cons_zero, ownsLong, hU, e.op, wFn, wRs2, wL, wImm, wAm, wX, wSys, g88, g76, g50, e.rd, e.rs1] <;> first | rfl | simp
  exact key _ (enc_head h 24 0 0 0 (by decide) (by omega) (by omega) (by omega))
theorem repn (h count) : Statement (.repn h count) := by
  have b_count := count.isLt
  intro h' hs hw
  obtain ⟨hu, ho, hl, hc⟩ := parts hs hw
  cases hs
  have key : ∀ w, Enc w h 24 0 0 (2 ^ 6 + count.toNat) → Good h [w] (.repn h count) := by
    intro w e
    have g88 : bits w.toNat 8 8 = 0 := (e.low 8 8 (by decide) (by decide)).trans (by unfold bits; omega)
    have g76 : bits w.toNat 7 6 = 1 := (e.low 7 6 (by decide) (by decide)).trans (by unfold bits; omega)
    have g50 : bits w.toNat 5 0 = count.toNat := (e.low 5 0 (by decide) (by decide)).trans (by unfold bits; omega)
    have hu : h.unit.toNat = 0 := unitIs hu
    all_goals
      have hU := e.unit.trans hu
      refine ⟨?_, ?_, ?_, ?_, e.stop, e.cond, .inl rfl⟩
      · simp only [List.getD_cons_zero, List.getD_cons_succ, List.getD_nil, decodeSyl, hU, u0Of, e.op, wFn, wRs2, wL, wImm, wAm, wX, wSys, immOf, immPOf, addrOf, g88, g76, g50, e.rd, e.rs1, wStop_long, longWord_low, ofNat_self, head_eq e]; try rfl
      · simp only [List.getD_cons_zero, touchesSig, usesSig, postMode, hU, e.op, wFn, wRs2, wL, wImm, wAm, wX, wSys, g88, g76, g50, e.rd, e.rs1] <;> first | rfl | simp
      · refine sylFault_none ?_ ?_ (by rw [List.getD_cons_zero, e.cond]; exact hc)
        · simp only [List.getD_cons_zero, illegal, hU, illegal0, illegalLoad, e.op, wFn, wRs2, wL, wImm, wAm, wX, wSys, g88, g76, g50, e.rd, e.rs1]
          try rfl
        · simp only [List.getD_cons_zero, reservedSet, hU, reserved0, illegalLoad, e.op, wFn, wRs2, wL, wImm, wAm, wX, wSys, g88, g76, g50, e.rd, e.rs1]
          try rfl
      · try simp only [List.getD_cons_zero, ownsLong, hU, e.op, wFn, wRs2, wL, wImm, wAm, wX, wSys, g88, g76, g50, e.rd, e.rs1] <;> first | rfl | simp
  exact key _ (enc_head h 24 0 0 (2 ^ 6 + count.toNat) (by decide) (by omega) (by omega) (by omega))
theorem trap (h code) : Statement (.trap h code) := by
  have b_code := code.isLt
  intro h' hs hw
  obtain ⟨hu, ho, hl, hc⟩ := parts hs hw
  cases hs
  have key : ∀ w, Enc w h 25 0 0 code.toNat → Good h [w] (.trap h code) := by
    intro w e
    have g88 : bits w.toNat 8 8 = 0 := (e.low 8 8 (by decide) (by decide)).trans (by unfold bits; omega)
    have g77 : bits w.toNat 7 7 = 0 := (e.low 7 7 (by decide) (by decide)).trans (by unfold bits; omega)
    have g60 : bits w.toNat 6 0 = code.toNat := (e.low 6 0 (by decide) (by decide)).trans (by unfold bits; omega)
    have hu : h.unit.toNat = 0 := unitIs hu
    all_goals
      have hU := e.unit.trans hu
      refine ⟨?_, ?_, ?_, ?_, e.stop, e.cond, .inl rfl⟩
      · simp only [List.getD_cons_zero, List.getD_cons_succ, List.getD_nil, decodeSyl, hU, u0Of, e.op, wFn, wRs2, wL, wImm, wAm, wX, wSys, immOf, immPOf, addrOf, g88, g77, g60, e.rd, e.rs1, wStop_long, longWord_low, ofNat_self, head_eq e]; try rfl
      · simp only [List.getD_cons_zero, touchesSig, usesSig, postMode, hU, e.op, wFn, wRs2, wL, wImm, wAm, wX, wSys, g88, g77, g60, e.rd, e.rs1] <;> first | rfl | simp
      · refine sylFault_none ?_ ?_ (by rw [List.getD_cons_zero, e.cond]; exact hc)
        · simp only [List.getD_cons_zero, illegal, hU, illegal0, illegalLoad, e.op, wFn, wRs2, wL, wImm, wAm, wX, wSys, g88, g77, g60, e.rd, e.rs1]
          try rfl
        · simp only [List.getD_cons_zero, reservedSet, hU, reserved0, illegalLoad, e.op, wFn, wRs2, wL, wImm, wAm, wX, wSys, g88, g77, g60, e.rd, e.rs1]
          try rfl
      · try simp only [List.getD_cons_zero, ownsLong, hU, e.op, wFn, wRs2, wL, wImm, wAm, wX, wSys, g88, g77, g60, e.rd, e.rs1] <;> first | rfl | simp
  exact key _ (enc_head h 25 0 0 code.toNat (by decide) (by omega) (by omega) (by omega))
theorem brk (h code) : Statement (.brk h code) := by
  have b_code := code.isLt
  intro h' hs hw
  obtain ⟨hu, ho, hl, hc⟩ := parts hs hw
  cases hs
  have key : ∀ w, Enc w h 25 0 0 (2 ^ 7 + code.toNat) → Good h [w] (.brk h code) := by
    intro w e
    have g88 : bits w.toNat 8 8 = 0 := (e.low 8 8 (by decide) (by decide)).trans (by unfold bits; omega)
    have g77 : bits w.toNat 7 7 = 1 := (e.low 7 7 (by decide) (by decide)).trans (by unfold bits; omega)
    have g60 : bits w.toNat 6 0 = code.toNat := (e.low 6 0 (by decide) (by decide)).trans (by unfold bits; omega)
    have hu : h.unit.toNat = 0 := unitIs hu
    all_goals
      have hU := e.unit.trans hu
      refine ⟨?_, ?_, ?_, ?_, e.stop, e.cond, .inl rfl⟩
      · simp only [List.getD_cons_zero, List.getD_cons_succ, List.getD_nil, decodeSyl, hU, u0Of, e.op, wFn, wRs2, wL, wImm, wAm, wX, wSys, immOf, immPOf, addrOf, g88, g77, g60, e.rd, e.rs1, wStop_long, longWord_low, ofNat_self, head_eq e]; try rfl
      · simp only [List.getD_cons_zero, touchesSig, usesSig, postMode, hU, e.op, wFn, wRs2, wL, wImm, wAm, wX, wSys, g88, g77, g60, e.rd, e.rs1] <;> first | rfl | simp
      · refine sylFault_none ?_ ?_ (by rw [List.getD_cons_zero, e.cond]; exact hc)
        · simp only [List.getD_cons_zero, illegal, hU, illegal0, illegalLoad, e.op, wFn, wRs2, wL, wImm, wAm, wX, wSys, g88, g77, g60, e.rd, e.rs1]
          try rfl
        · simp only [List.getD_cons_zero, reservedSet, hU, reserved0, illegalLoad, e.op, wFn, wRs2, wL, wImm, wAm, wX, wSys, g88, g77, g60, e.rd, e.rs1]
          try rfl
      · try simp only [List.getD_cons_zero, ownsLong, hU, e.op, wFn, wRs2, wL, wImm, wAm, wX, wSys, g88, g77, g60, e.rd, e.rs1] <;> first | rfl | simp
  exact key _ (enc_head h 25 0 0 (2 ^ 7 + code.toNat) (by decide) (by omega) (by omega) (by omega))
theorem mfu (h rd u) : Statement (.mfu h rd u) := by
  have b_rd := rd.isLt
  have b_u := u.isLt
  intro h' hs hw
  obtain ⟨hu, ho, hl, hc⟩ := parts hs hw
  cases hs
  have key : ∀ w, Enc w h 26 rd.toNat 0 u.toNat → Good h [w] (.mfu h rd u) := by
    intro w e
    have g88 : bits w.toNat 8 8 = 0 := (e.low 8 8 (by decide) (by decide)).trans (by unfold bits; omega)
    have g76 : bits w.toNat 7 6 = 0 := (e.low 7 6 (by decide) (by decide)).trans (by unfold bits; omega)
    have g50 : bits w.toNat 5 0 = u.toNat := (e.low 5 0 (by decide) (by decide)).trans (by unfold bits; omega)
    have hu : h.unit.toNat = 0 := unitIs hu
    all_goals
      have hU := e.unit.trans hu
      refine ⟨?_, ?_, ?_, ?_, e.stop, e.cond, .inl rfl⟩
      · simp only [List.getD_cons_zero, List.getD_cons_succ, List.getD_nil, decodeSyl, hU, u0Of, e.op, wFn, wRs2, wL, wImm, wAm, wX, wSys, immOf, immPOf, addrOf, g88, g76, g50, e.rd, e.rs1, wStop_long, longWord_low, ofNat_self, head_eq e]; try rfl
      · simp only [List.getD_cons_zero, touchesSig, usesSig, postMode, hU, e.op, wFn, wRs2, wL, wImm, wAm, wX, wSys, g88, g76, g50, e.rd, e.rs1] <;> first | rfl | simp
      · refine sylFault_none ?_ ?_ (by rw [List.getD_cons_zero, e.cond]; exact hc)
        · simp only [List.getD_cons_zero, illegal, hU, illegal0, illegalLoad, e.op, wFn, wRs2, wL, wImm, wAm, wX, wSys, g88, g76, g50, e.rd, e.rs1]
          try first | rfl | (simp [operandsOk, postInc, immPDefined, BitVec.toNat_eq] at ho; simp [badIf, userKnown, sysKnown]; omega)
        · simp only [List.getD_cons_zero, reservedSet, hU, reserved0, illegalLoad, e.op, wFn, wRs2, wL, wImm, wAm, wX, wSys, g88, g76, g50, e.rd, e.rs1]
          try first | rfl | (simp [operandsOk, postInc, immPDefined, BitVec.toNat_eq] at ho; simp [badIf, userKnown, sysKnown]; omega)
      · try simp only [List.getD_cons_zero, ownsLong, hU, e.op, wFn, wRs2, wL, wImm, wAm, wX, wSys, g88, g76, g50, e.rd, e.rs1] <;> first | rfl | simp
  exact key _ (enc_head h 26 rd.toNat 0 u.toNat (by decide) (by omega) (by omega) (by omega))
theorem mtu (h rs1 u) : Statement (.mtu h rs1 u) := by
  have b_rs1 := rs1.isLt
  have b_u := u.isLt
  intro h' hs hw
  obtain ⟨hu, ho, hl, hc⟩ := parts hs hw
  cases hs
  have key : ∀ w, Enc w h 26 0 rs1.toNat (2 ^ 8 + u.toNat) → Good h [w] (.mtu h rs1 u) := by
    intro w e
    have g88 : bits w.toNat 8 8 = 1 := (e.low 8 8 (by decide) (by decide)).trans (by unfold bits; omega)
    have g76 : bits w.toNat 7 6 = 0 := (e.low 7 6 (by decide) (by decide)).trans (by unfold bits; omega)
    have g50 : bits w.toNat 5 0 = u.toNat := (e.low 5 0 (by decide) (by decide)).trans (by unfold bits; omega)
    have hu : h.unit.toNat = 0 := unitIs hu
    all_goals
      have hU := e.unit.trans hu
      refine ⟨?_, ?_, ?_, ?_, e.stop, e.cond, .inl rfl⟩
      · simp only [List.getD_cons_zero, List.getD_cons_succ, List.getD_nil, decodeSyl, hU, u0Of, e.op, wFn, wRs2, wL, wImm, wAm, wX, wSys, immOf, immPOf, addrOf, g88, g76, g50, e.rd, e.rs1, wStop_long, longWord_low, ofNat_self, head_eq e]; try rfl
      · simp only [List.getD_cons_zero, touchesSig, usesSig, postMode, hU, e.op, wFn, wRs2, wL, wImm, wAm, wX, wSys, g88, g76, g50, e.rd, e.rs1] <;> first | rfl | simp
      · refine sylFault_none ?_ ?_ (by rw [List.getD_cons_zero, e.cond]; exact hc)
        · simp only [List.getD_cons_zero, illegal, hU, illegal0, illegalLoad, e.op, wFn, wRs2, wL, wImm, wAm, wX, wSys, g88, g76, g50, e.rd, e.rs1]
          try first | rfl | (simp [operandsOk, postInc, immPDefined, BitVec.toNat_eq] at ho; simp [badIf, userKnown, sysKnown]; omega)
        · simp only [List.getD_cons_zero, reservedSet, hU, reserved0, illegalLoad, e.op, wFn, wRs2, wL, wImm, wAm, wX, wSys, g88, g76, g50, e.rd, e.rs1]
          try first | rfl | (simp [operandsOk, postInc, immPDefined, BitVec.toNat_eq] at ho; simp [badIf, userKnown, sysKnown]; omega)
      · try simp only [List.getD_cons_zero, ownsLong, hU, e.op, wFn, wRs2, wL, wImm, wAm, wX, wSys, g88, g76, g50, e.rd, e.rs1] <;> first | rfl | simp
  exact key _ (enc_head h 26 0 rs1.toNat (2 ^ 8 + u.toNat) (by decide) (by omega) (by omega) (by omega))
theorem mfs (h rd sys) : Statement (.mfs h rd sys) := by
  have b_rd := rd.isLt
  have b_sys := sys.isLt
  intro h' hs hw
  obtain ⟨hu, ho, hl, hc⟩ := parts hs hw
  cases hs
  have key : ∀ w, Enc w h 28 rd.toNat 0 (sys.toNat * 2) → Good h [w] (.mfs h rd sys) := by
    intro w e
    have g81 : bits w.toNat 8 1 = sys.toNat := (e.low 8 1 (by decide) (by decide)).trans (by unfold bits; omega)
    have g00 : bits w.toNat 0 0 = 0 := (e.low 0 0 (by decide) (by decide)).trans (by unfold bits; omega)
    have hu : h.unit.toNat = 0 := unitIs hu
    all_goals
      have hU := e.unit.trans hu
      refine ⟨?_, ?_, ?_, ?_, e.stop, e.cond, .inl rfl⟩
      · simp only [List.getD_cons_zero, List.getD_cons_succ, List.getD_nil, decodeSyl, hU, u0Of, e.op, wFn, wRs2, wL, wImm, wAm, wX, wSys, immOf, immPOf, addrOf, g81, g00, e.rd, e.rs1, wStop_long, longWord_low, ofNat_self, head_eq e]; try rfl
      · simp only [List.getD_cons_zero, touchesSig, usesSig, postMode, hU, e.op, wFn, wRs2, wL, wImm, wAm, wX, wSys, g81, g00, e.rd, e.rs1] <;> first | rfl | simp
      · refine sylFault_none ?_ ?_ (by rw [List.getD_cons_zero, e.cond]; exact hc)
        · simp only [List.getD_cons_zero, illegal, hU, illegal0, illegalLoad, e.op, wFn, wRs2, wL, wImm, wAm, wX, wSys, g81, g00, e.rd, e.rs1]
          try first | rfl | (simp [operandsOk, postInc, immPDefined, BitVec.toNat_eq] at ho; simp [badIf, userKnown, sysKnown]; omega)
        · simp only [List.getD_cons_zero, reservedSet, hU, reserved0, illegalLoad, e.op, wFn, wRs2, wL, wImm, wAm, wX, wSys, g81, g00, e.rd, e.rs1]
          try first | rfl | (simp [operandsOk, postInc, immPDefined, BitVec.toNat_eq] at ho; simp [badIf, userKnown, sysKnown]; omega)
      · try simp only [List.getD_cons_zero, ownsLong, hU, e.op, wFn, wRs2, wL, wImm, wAm, wX, wSys, g81, g00, e.rd, e.rs1] <;> first | rfl | simp
  exact key _ (enc_head h 28 rd.toNat 0 (sys.toNat * 2) (by decide) (by omega) (by omega) (by omega))
theorem mts (h rs1 sys) : Statement (.mts h rs1 sys) := by
  have b_rs1 := rs1.isLt
  have b_sys := sys.isLt
  intro h' hs hw
  obtain ⟨hu, ho, hl, hc⟩ := parts hs hw
  cases hs
  have key : ∀ w, Enc w h 28 0 rs1.toNat (sys.toNat * 2 + 1) → Good h [w] (.mts h rs1 sys) := by
    intro w e
    have g81 : bits w.toNat 8 1 = sys.toNat := (e.low 8 1 (by decide) (by decide)).trans (by unfold bits; omega)
    have g00 : bits w.toNat 0 0 = 1 := (e.low 0 0 (by decide) (by decide)).trans (by unfold bits; omega)
    have hu : h.unit.toNat = 0 := unitIs hu
    all_goals
      have hU := e.unit.trans hu
      refine ⟨?_, ?_, ?_, ?_, e.stop, e.cond, .inl rfl⟩
      · simp only [List.getD_cons_zero, List.getD_cons_succ, List.getD_nil, decodeSyl, hU, u0Of, e.op, wFn, wRs2, wL, wImm, wAm, wX, wSys, immOf, immPOf, addrOf, g81, g00, e.rd, e.rs1, wStop_long, longWord_low, ofNat_self, head_eq e]; try rfl
      · simp only [List.getD_cons_zero, touchesSig, usesSig, postMode, hU, e.op, wFn, wRs2, wL, wImm, wAm, wX, wSys, g81, g00, e.rd, e.rs1] <;> first | rfl | simp
      · refine sylFault_none ?_ ?_ (by rw [List.getD_cons_zero, e.cond]; exact hc)
        · simp only [List.getD_cons_zero, illegal, hU, illegal0, illegalLoad, e.op, wFn, wRs2, wL, wImm, wAm, wX, wSys, g81, g00, e.rd, e.rs1]
          try first | rfl | (simp [operandsOk, postInc, immPDefined, BitVec.toNat_eq] at ho; simp [badIf, userKnown, sysKnown]; omega)
        · simp only [List.getD_cons_zero, reservedSet, hU, reserved0, illegalLoad, e.op, wFn, wRs2, wL, wImm, wAm, wX, wSys, g81, g00, e.rd, e.rs1]
          try first | rfl | (simp [operandsOk, postInc, immPDefined, BitVec.toNat_eq] at ho; simp [badIf, userKnown, sysKnown]; omega)
      · try simp only [List.getD_cons_zero, ownsLong, hU, e.op, wFn, wRs2, wL, wImm, wAm, wX, wSys, g81, g00, e.rd, e.rs1] <;> first | rfl | simp
  exact key _ (enc_head h 28 0 rs1.toNat (sys.toNat * 2 + 1) (by decide) (by omega) (by omega) (by omega))
theorem wait (h rd) : Statement (.wait h rd) := by
  have b_rd := rd.isLt
  intro h' hs hw
  obtain ⟨hu, ho, hl, hc⟩ := parts hs hw
  cases hs
  have key : ∀ w, Enc w h 30 rd.toNat 0 0 → Good h [w] (.wait h rd) := by
    intro w e
    have g30 : bits w.toNat 3 0 = 0 := (e.low 3 0 (by decide) (by decide)).trans (by unfold bits; omega)
    have g84 : bits w.toNat 8 4 = 0 := (e.low 8 4 (by decide) (by decide)).trans (by unfold bits; omega)
    have hu : h.unit.toNat = 0 := unitIs hu
    all_goals
      have hU := e.unit.trans hu
      refine ⟨?_, ?_, ?_, ?_, e.stop, e.cond, .inl rfl⟩
      · simp only [List.getD_cons_zero, List.getD_cons_succ, List.getD_nil, decodeSyl, hU, u0Of, e.op, wFn, wRs2, wL, wImm, wAm, wX, wSys, immOf, immPOf, addrOf, g30, g84, e.rd, e.rs1, wStop_long, longWord_low, ofNat_self, head_eq e]; try rfl
      · simp only [List.getD_cons_zero, touchesSig, usesSig, postMode, hU, e.op, wFn, wRs2, wL, wImm, wAm, wX, wSys, g30, g84, e.rd, e.rs1] <;> first | rfl | simp
      · refine sylFault_none ?_ ?_ (by rw [List.getD_cons_zero, e.cond]; exact hc)
        · simp only [List.getD_cons_zero, illegal, hU, illegal0, illegalLoad, e.op, wFn, wRs2, wL, wImm, wAm, wX, wSys, g30, g84, e.rd, e.rs1]
          try rfl
        · simp only [List.getD_cons_zero, reservedSet, hU, reserved0, illegalLoad, e.op, wFn, wRs2, wL, wImm, wAm, wX, wSys, g30, g84, e.rd, e.rs1]
          try rfl
      · try simp only [List.getD_cons_zero, ownsLong, hU, e.op, wFn, wRs2, wL, wImm, wAm, wX, wSys, g30, g84, e.rd, e.rs1] <;> first | rfl | simp
  exact key _ (enc_head h 30 rd.toNat 0 0 (by decide) (by omega) (by omega) (by omega))
theorem yield (h) : Statement (.yield h) := by
  intro h' hs hw
  obtain ⟨hu, ho, hl, hc⟩ := parts hs hw
  cases hs
  have key : ∀ w, Enc w h 30 0 0 1 → Good h [w] (.yield h) := by
    intro w e
    have g30 : bits w.toNat 3 0 = 1 := (e.low 3 0 (by decide) (by decide)).trans (by unfold bits; omega)
    have g84 : bits w.toNat 8 4 = 0 := (e.low 8 4 (by decide) (by decide)).trans (by unfold bits; omega)
    have hu : h.unit.toNat = 0 := unitIs hu
    all_goals
      have hU := e.unit.trans hu
      refine ⟨?_, ?_, ?_, ?_, e.stop, e.cond, .inl rfl⟩
      · simp only [List.getD_cons_zero, List.getD_cons_succ, List.getD_nil, decodeSyl, hU, u0Of, e.op, wFn, wRs2, wL, wImm, wAm, wX, wSys, immOf, immPOf, addrOf, g30, g84, e.rd, e.rs1, wStop_long, longWord_low, ofNat_self, head_eq e]; try rfl
      · simp only [List.getD_cons_zero, touchesSig, usesSig, postMode, hU, e.op, wFn, wRs2, wL, wImm, wAm, wX, wSys, g30, g84, e.rd, e.rs1] <;> first | rfl | simp
      · refine sylFault_none ?_ ?_ (by rw [List.getD_cons_zero, e.cond]; exact hc)
        · simp only [List.getD_cons_zero, illegal, hU, illegal0, illegalLoad, e.op, wFn, wRs2, wL, wImm, wAm, wX, wSys, g30, g84, e.rd, e.rs1]
          try rfl
        · simp only [List.getD_cons_zero, reservedSet, hU, reserved0, illegalLoad, e.op, wFn, wRs2, wL, wImm, wAm, wX, wSys, g30, g84, e.rd, e.rs1]
          try rfl
      · try simp only [List.getD_cons_zero, ownsLong, hU, e.op, wFn, wRs2, wL, wImm, wAm, wX, wSys, g30, g84, e.rd, e.rs1] <;> first | rfl | simp
  exact key _ (enc_head h 30 0 0 1 (by decide) (by omega) (by omega) (by omega))
theorem waitt (h rd rs1 rs2) : Statement (.waitt h rd rs1 rs2) := by
  have b_rd := rd.isLt
  have b_rs1 := rs1.isLt
  have b_rs2 := rs2.isLt
  intro h' hs hw
  obtain ⟨hu, ho, hl, hc⟩ := parts hs hw
  cases hs
  have key : ∀ w, Enc w h 30 rd.toNat rs1.toNat (rs2.toNat * 2 ^ 4 + 2) → Good h [w] (.waitt h rd rs1 rs2) := by
    intro w e
    have g30 := e.fn (by omega)
    have g84 := e.rs2 (by omega) (by omega)
    have hu : h.unit.toNat = 0 := unitIs hu
    all_goals
      have hU := e.unit.trans hu
      refine ⟨?_, ?_, ?_, ?_, e.stop, e.cond, .inl rfl⟩
      · simp only [List.getD_cons_zero, List.getD_cons_succ, List.getD_nil, decodeSyl, hU, u0Of, e.op, wFn, wRs2, wL, wImm, wAm, wX, wSys, immOf, immPOf, addrOf, g30, g84, e.rd, e.rs1, wStop_long, longWord_low, ofNat_self, head_eq e]; try rfl
      · simp only [List.getD_cons_zero, touchesSig, usesSig, postMode, hU, e.op, wFn, wRs2, wL, wImm, wAm, wX, wSys, g30, g84, e.rd, e.rs1] <;> first | rfl | simp
      · refine sylFault_none ?_ ?_ (by rw [List.getD_cons_zero, e.cond]; exact hc)
        · simp only [List.getD_cons_zero, illegal, hU, illegal0, illegalLoad, e.op, wFn, wRs2, wL, wImm, wAm, wX, wSys, g30, g84, e.rd, e.rs1]
          try rfl
        · simp only [List.getD_cons_zero, reservedSet, hU, reserved0, illegalLoad, e.op, wFn, wRs2, wL, wImm, wAm, wX, wSys, g30, g84, e.rd, e.rs1]
          try rfl
      · try simp only [List.getD_cons_zero, ownsLong, hU, e.op, wFn, wRs2, wL, wImm, wAm, wX, wSys, g30, g84, e.rd, e.rs1] <;> first | rfl | simp
  exact key _ (enc_head h 30 rd.toNat rs1.toNat (rs2.toNat * 2 ^ 4 + 2) (by decide) (by omega) (by omega) (by omega))
theorem mul (h rd rs1 rs2) : Statement (.mul h rd rs1 rs2) := by
  have b_rd := rd.isLt
  have b_rs1 := rs1.isLt
  have b_rs2 := rs2.isLt
  intro h' hs hw
  obtain ⟨hu, ho, hl, hc⟩ := parts hs hw
  cases hs
  have key : ∀ w, Enc w h 16 rd.toNat rs1.toNat (rs2.toNat * 2 ^ 4 + 0) → Good h [w] (.mul h rd rs1 rs2) := by
    intro w e
    have g30 := e.fn (by omega)
    have g84 := e.rs2 (by omega) (by omega)
    have hu : h.unit.toNat = 1 := unitIs hu
    all_goals
      have hU := e.unit.trans hu
      refine ⟨?_, ?_, ?_, ?_, e.stop, e.cond, .inl rfl⟩
      · simp only [List.getD_cons_zero, List.getD_cons_succ, List.getD_nil, decodeSyl, hU, u1Of, e.op, wFn, wRs2, wL, wImm, wAm, wX, wSys, immOf, immPOf, addrOf, g30, g84, e.rd, e.rs1, wStop_long, longWord_low, ofNat_self, head_eq e]; try rfl
      · simp only [List.getD_cons_zero, touchesSig, usesSig, postMode, hU, e.op, wFn, wRs2, wL, wImm, wAm, wX, wSys, g30, g84, e.rd, e.rs1] <;> first | rfl | simp
      · refine sylFault_none ?_ ?_ (by rw [List.getD_cons_zero, e.cond]; exact hc)
        · simp only [List.getD_cons_zero, illegal, hU, illegal1, illegalLoad, e.op, wFn, wRs2, wL, wImm, wAm, wX, wSys, g30, g84, e.rd, e.rs1]
          try rfl
        · simp only [List.getD_cons_zero, reservedSet, hU, reserved1, illegalLoad, e.op, wFn, wRs2, wL, wImm, wAm, wX, wSys, g30, g84, e.rd, e.rs1]
          try rfl
      · try simp only [List.getD_cons_zero, ownsLong, hU, e.op, wFn, wRs2, wL, wImm, wAm, wX, wSys, g30, g84, e.rd, e.rs1] <;> first | rfl | simp
  exact key _ (enc_head h 16 rd.toNat rs1.toNat (rs2.toNat * 2 ^ 4 + 0) (by decide) (by omega) (by omega) (by omega))
theorem mulh (h rd rs1 rs2) : Statement (.mulh h rd rs1 rs2) := by
  have b_rd := rd.isLt
  have b_rs1 := rs1.isLt
  have b_rs2 := rs2.isLt
  intro h' hs hw
  obtain ⟨hu, ho, hl, hc⟩ := parts hs hw
  cases hs
  have key : ∀ w, Enc w h 16 rd.toNat rs1.toNat (rs2.toNat * 2 ^ 4 + 1) → Good h [w] (.mulh h rd rs1 rs2) := by
    intro w e
    have g30 := e.fn (by omega)
    have g84 := e.rs2 (by omega) (by omega)
    have hu : h.unit.toNat = 1 := unitIs hu
    all_goals
      have hU := e.unit.trans hu
      refine ⟨?_, ?_, ?_, ?_, e.stop, e.cond, .inl rfl⟩
      · simp only [List.getD_cons_zero, List.getD_cons_succ, List.getD_nil, decodeSyl, hU, u1Of, e.op, wFn, wRs2, wL, wImm, wAm, wX, wSys, immOf, immPOf, addrOf, g30, g84, e.rd, e.rs1, wStop_long, longWord_low, ofNat_self, head_eq e]; try rfl
      · simp only [List.getD_cons_zero, touchesSig, usesSig, postMode, hU, e.op, wFn, wRs2, wL, wImm, wAm, wX, wSys, g30, g84, e.rd, e.rs1] <;> first | rfl | simp
      · refine sylFault_none ?_ ?_ (by rw [List.getD_cons_zero, e.cond]; exact hc)
        · simp only [List.getD_cons_zero, illegal, hU, illegal1, illegalLoad, e.op, wFn, wRs2, wL, wImm, wAm, wX, wSys, g30, g84, e.rd, e.rs1]
          try rfl
        · simp only [List.getD_cons_zero, reservedSet, hU, reserved1, illegalLoad, e.op, wFn, wRs2, wL, wImm, wAm, wX, wSys, g30, g84, e.rd, e.rs1]
          try rfl
      · try simp only [List.getD_cons_zero, ownsLong, hU, e.op, wFn, wRs2, wL, wImm, wAm, wX, wSys, g30, g84, e.rd, e.rs1] <;> first | rfl | simp
  exact key _ (enc_head h 16 rd.toNat rs1.toNat (rs2.toNat * 2 ^ 4 + 1) (by decide) (by omega) (by omega) (by omega))
theorem mulhu (h rd rs1 rs2) : Statement (.mulhu h rd rs1 rs2) := by
  have b_rd := rd.isLt
  have b_rs1 := rs1.isLt
  have b_rs2 := rs2.isLt
  intro h' hs hw
  obtain ⟨hu, ho, hl, hc⟩ := parts hs hw
  cases hs
  have key : ∀ w, Enc w h 16 rd.toNat rs1.toNat (rs2.toNat * 2 ^ 4 + 2) → Good h [w] (.mulhu h rd rs1 rs2) := by
    intro w e
    have g30 := e.fn (by omega)
    have g84 := e.rs2 (by omega) (by omega)
    have hu : h.unit.toNat = 1 := unitIs hu
    all_goals
      have hU := e.unit.trans hu
      refine ⟨?_, ?_, ?_, ?_, e.stop, e.cond, .inl rfl⟩
      · simp only [List.getD_cons_zero, List.getD_cons_succ, List.getD_nil, decodeSyl, hU, u1Of, e.op, wFn, wRs2, wL, wImm, wAm, wX, wSys, immOf, immPOf, addrOf, g30, g84, e.rd, e.rs1, wStop_long, longWord_low, ofNat_self, head_eq e]; try rfl
      · simp only [List.getD_cons_zero, touchesSig, usesSig, postMode, hU, e.op, wFn, wRs2, wL, wImm, wAm, wX, wSys, g30, g84, e.rd, e.rs1] <;> first | rfl | simp
      · refine sylFault_none ?_ ?_ (by rw [List.getD_cons_zero, e.cond]; exact hc)
        · simp only [List.getD_cons_zero, illegal, hU, illegal1, illegalLoad, e.op, wFn, wRs2, wL, wImm, wAm, wX, wSys, g30, g84, e.rd, e.rs1]
          try rfl
        · simp only [List.getD_cons_zero, reservedSet, hU, reserved1, illegalLoad, e.op, wFn, wRs2, wL, wImm, wAm, wX, wSys, g30, g84, e.rd, e.rs1]
          try rfl
      · try simp only [List.getD_cons_zero, ownsLong, hU, e.op, wFn, wRs2, wL, wImm, wAm, wX, wSys, g30, g84, e.rd, e.rs1] <;> first | rfl | simp
  exact key _ (enc_head h 16 rd.toNat rs1.toNat (rs2.toNat * 2 ^ 4 + 2) (by decide) (by omega) (by omega) (by omega))
theorem mulhsu (h rd rs1 rs2) : Statement (.mulhsu h rd rs1 rs2) := by
  have b_rd := rd.isLt
  have b_rs1 := rs1.isLt
  have b_rs2 := rs2.isLt
  intro h' hs hw
  obtain ⟨hu, ho, hl, hc⟩ := parts hs hw
  cases hs
  have key : ∀ w, Enc w h 16 rd.toNat rs1.toNat (rs2.toNat * 2 ^ 4 + 3) → Good h [w] (.mulhsu h rd rs1 rs2) := by
    intro w e
    have g30 := e.fn (by omega)
    have g84 := e.rs2 (by omega) (by omega)
    have hu : h.unit.toNat = 1 := unitIs hu
    all_goals
      have hU := e.unit.trans hu
      refine ⟨?_, ?_, ?_, ?_, e.stop, e.cond, .inl rfl⟩
      · simp only [List.getD_cons_zero, List.getD_cons_succ, List.getD_nil, decodeSyl, hU, u1Of, e.op, wFn, wRs2, wL, wImm, wAm, wX, wSys, immOf, immPOf, addrOf, g30, g84, e.rd, e.rs1, wStop_long, longWord_low, ofNat_self, head_eq e]; try rfl
      · simp only [List.getD_cons_zero, touchesSig, usesSig, postMode, hU, e.op, wFn, wRs2, wL, wImm, wAm, wX, wSys, g30, g84, e.rd, e.rs1] <;> first | rfl | simp
      · refine sylFault_none ?_ ?_ (by rw [List.getD_cons_zero, e.cond]; exact hc)
        · simp only [List.getD_cons_zero, illegal, hU, illegal1, illegalLoad, e.op, wFn, wRs2, wL, wImm, wAm, wX, wSys, g30, g84, e.rd, e.rs1]
          try rfl
        · simp only [List.getD_cons_zero, reservedSet, hU, reserved1, illegalLoad, e.op, wFn, wRs2, wL, wImm, wAm, wX, wSys, g30, g84, e.rd, e.rs1]
          try rfl
      · try simp only [List.getD_cons_zero, ownsLong, hU, e.op, wFn, wRs2, wL, wImm, wAm, wX, wSys, g30, g84, e.rd, e.rs1] <;> first | rfl | simp
  exact key _ (enc_head h 16 rd.toNat rs1.toNat (rs2.toNat * 2 ^ 4 + 3) (by decide) (by omega) (by omega) (by omega))
theorem clz (h rd rs1) : Statement (.clz h rd rs1) := by
  have b_rd := rd.isLt
  have b_rs1 := rs1.isLt
  intro h' hs hw
  obtain ⟨hu, ho, hl, hc⟩ := parts hs hw
  cases hs
  have key : ∀ w, Enc w h 18 rd.toNat rs1.toNat (0 * 2 ^ 4 + 0) → Good h [w] (.clz h rd rs1) := by
    intro w e
    have g30 := e.fn (by omega)
    have g84 := e.rs2 (by omega) (by omega)
    have hu : h.unit.toNat = 1 := unitIs hu
    all_goals
      have hU := e.unit.trans hu
      refine ⟨?_, ?_, ?_, ?_, e.stop, e.cond, .inl rfl⟩
      · simp only [List.getD_cons_zero, List.getD_cons_succ, List.getD_nil, decodeSyl, hU, u1Of, e.op, wFn, wRs2, wL, wImm, wAm, wX, wSys, immOf, immPOf, addrOf, g30, g84, e.rd, e.rs1, wStop_long, longWord_low, ofNat_self, head_eq e]; try rfl
      · simp only [List.getD_cons_zero, touchesSig, usesSig, postMode, hU, e.op, wFn, wRs2, wL, wImm, wAm, wX, wSys, g30, g84, e.rd, e.rs1] <;> first | rfl | simp
      · refine sylFault_none ?_ ?_ (by rw [List.getD_cons_zero, e.cond]; exact hc)
        · simp only [List.getD_cons_zero, illegal, hU, illegal1, illegalLoad, e.op, wFn, wRs2, wL, wImm, wAm, wX, wSys, g30, g84, e.rd, e.rs1]
          try rfl
        · simp only [List.getD_cons_zero, reservedSet, hU, reserved1, illegalLoad, e.op, wFn, wRs2, wL, wImm, wAm, wX, wSys, g30, g84, e.rd, e.rs1]
          try rfl
      · try simp only [List.getD_cons_zero, ownsLong, hU, e.op, wFn, wRs2, wL, wImm, wAm, wX, wSys, g30, g84, e.rd, e.rs1] <;> first | rfl | simp
  exact key _ (enc_head h 18 rd.toNat rs1.toNat (0 * 2 ^ 4 + 0) (by decide) (by omega) (by omega) (by omega))
theorem ctz (h rd rs1) : Statement (.ctz h rd rs1) := by
  have b_rd := rd.isLt
  have b_rs1 := rs1.isLt
  intro h' hs hw
  obtain ⟨hu, ho, hl, hc⟩ := parts hs hw
  cases hs
  have key : ∀ w, Enc w h 18 rd.toNat rs1.toNat (0 * 2 ^ 4 + 1) → Good h [w] (.ctz h rd rs1) := by
    intro w e
    have g30 := e.fn (by omega)
    have g84 := e.rs2 (by omega) (by omega)
    have hu : h.unit.toNat = 1 := unitIs hu
    all_goals
      have hU := e.unit.trans hu
      refine ⟨?_, ?_, ?_, ?_, e.stop, e.cond, .inl rfl⟩
      · simp only [List.getD_cons_zero, List.getD_cons_succ, List.getD_nil, decodeSyl, hU, u1Of, e.op, wFn, wRs2, wL, wImm, wAm, wX, wSys, immOf, immPOf, addrOf, g30, g84, e.rd, e.rs1, wStop_long, longWord_low, ofNat_self, head_eq e]; try rfl
      · simp only [List.getD_cons_zero, touchesSig, usesSig, postMode, hU, e.op, wFn, wRs2, wL, wImm, wAm, wX, wSys, g30, g84, e.rd, e.rs1] <;> first | rfl | simp
      · refine sylFault_none ?_ ?_ (by rw [List.getD_cons_zero, e.cond]; exact hc)
        · simp only [List.getD_cons_zero, illegal, hU, illegal1, illegalLoad, e.op, wFn, wRs2, wL, wImm, wAm, wX, wSys, g30, g84, e.rd, e.rs1]
          try rfl
        · simp only [List.getD_cons_zero, reservedSet, hU, reserved1, illegalLoad, e.op, wFn, wRs2, wL, wImm, wAm, wX, wSys, g30, g84, e.rd, e.rs1]
          try rfl
      · try simp only [List.getD_cons_zero, ownsLong, hU, e.op, wFn, wRs2, wL, wImm, wAm, wX, wSys, g30, g84, e.rd, e.rs1] <;> first | rfl | simp
  exact key _ (enc_head h 18 rd.toNat rs1.toNat (0 * 2 ^ 4 + 1) (by decide) (by omega) (by omega) (by omega))
theorem popc (h rd rs1) : Statement (.popc h rd rs1) := by
  have b_rd := rd.isLt
  have b_rs1 := rs1.isLt
  intro h' hs hw
  obtain ⟨hu, ho, hl, hc⟩ := parts hs hw
  cases hs
  have key : ∀ w, Enc w h 18 rd.toNat rs1.toNat (0 * 2 ^ 4 + 2) → Good h [w] (.popc h rd rs1) := by
    intro w e
    have g30 := e.fn (by omega)
    have g84 := e.rs2 (by omega) (by omega)
    have hu : h.unit.toNat = 1 := unitIs hu
    all_goals
      have hU := e.unit.trans hu
      refine ⟨?_, ?_, ?_, ?_, e.stop, e.cond, .inl rfl⟩
      · simp only [List.getD_cons_zero, List.getD_cons_succ, List.getD_nil, decodeSyl, hU, u1Of, e.op, wFn, wRs2, wL, wImm, wAm, wX, wSys, immOf, immPOf, addrOf, g30, g84, e.rd, e.rs1, wStop_long, longWord_low, ofNat_self, head_eq e]; try rfl
      · simp only [List.getD_cons_zero, touchesSig, usesSig, postMode, hU, e.op, wFn, wRs2, wL, wImm, wAm, wX, wSys, g30, g84, e.rd, e.rs1] <;> first | rfl | simp
      · refine sylFault_none ?_ ?_ (by rw [List.getD_cons_zero, e.cond]; exact hc)
        · simp only [List.getD_cons_zero, illegal, hU, illegal1, illegalLoad, e.op, wFn, wRs2, wL, wImm, wAm, wX, wSys, g30, g84, e.rd, e.rs1]
          try rfl
        · simp only [List.getD_cons_zero, reservedSet, hU, reserved1, illegalLoad, e.op, wFn, wRs2, wL, wImm, wAm, wX, wSys, g30, g84, e.rd, e.rs1]
          try rfl
      · try simp only [List.getD_cons_zero, ownsLong, hU, e.op, wFn, wRs2, wL, wImm, wAm, wX, wSys, g30, g84, e.rd, e.rs1] <;> first | rfl | simp
  exact key _ (enc_head h 18 rd.toNat rs1.toNat (0 * 2 ^ 4 + 2) (by decide) (by omega) (by omega) (by omega))
theorem bswap (h rd rs1) : Statement (.bswap h rd rs1) := by
  have b_rd := rd.isLt
  have b_rs1 := rs1.isLt
  intro h' hs hw
  obtain ⟨hu, ho, hl, hc⟩ := parts hs hw
  cases hs
  have key : ∀ w, Enc w h 18 rd.toNat rs1.toNat (0 * 2 ^ 4 + 3) → Good h [w] (.bswap h rd rs1) := by
    intro w e
    have g30 := e.fn (by omega)
    have g84 := e.rs2 (by omega) (by omega)
    have hu : h.unit.toNat = 1 := unitIs hu
    all_goals
      have hU := e.unit.trans hu
      refine ⟨?_, ?_, ?_, ?_, e.stop, e.cond, .inl rfl⟩
      · simp only [List.getD_cons_zero, List.getD_cons_succ, List.getD_nil, decodeSyl, hU, u1Of, e.op, wFn, wRs2, wL, wImm, wAm, wX, wSys, immOf, immPOf, addrOf, g30, g84, e.rd, e.rs1, wStop_long, longWord_low, ofNat_self, head_eq e]; try rfl
      · simp only [List.getD_cons_zero, touchesSig, usesSig, postMode, hU, e.op, wFn, wRs2, wL, wImm, wAm, wX, wSys, g30, g84, e.rd, e.rs1] <;> first | rfl | simp
      · refine sylFault_none ?_ ?_ (by rw [List.getD_cons_zero, e.cond]; exact hc)
        · simp only [List.getD_cons_zero, illegal, hU, illegal1, illegalLoad, e.op, wFn, wRs2, wL, wImm, wAm, wX, wSys, g30, g84, e.rd, e.rs1]
          try rfl
        · simp only [List.getD_cons_zero, reservedSet, hU, reserved1, illegalLoad, e.op, wFn, wRs2, wL, wImm, wAm, wX, wSys, g30, g84, e.rd, e.rs1]
          try rfl
      · try simp only [List.getD_cons_zero, ownsLong, hU, e.op, wFn, wRs2, wL, wImm, wAm, wX, wSys, g30, g84, e.rd, e.rs1] <;> first | rfl | simp
  exact key _ (enc_head h 18 rd.toNat rs1.toNat (0 * 2 ^ 4 + 3) (by decide) (by omega) (by omega) (by omega))
theorem sextb (h rd rs1) : Statement (.sextb h rd rs1) := by
  have b_rd := rd.isLt
  have b_rs1 := rs1.isLt
  intro h' hs hw
  obtain ⟨hu, ho, hl, hc⟩ := parts hs hw
  cases hs
  have key : ∀ w, Enc w h 18 rd.toNat rs1.toNat (0 * 2 ^ 4 + 4) → Good h [w] (.sextb h rd rs1) := by
    intro w e
    have g30 := e.fn (by omega)
    have g84 := e.rs2 (by omega) (by omega)
    have hu : h.unit.toNat = 1 := unitIs hu
    all_goals
      have hU := e.unit.trans hu
      refine ⟨?_, ?_, ?_, ?_, e.stop, e.cond, .inl rfl⟩
      · simp only [List.getD_cons_zero, List.getD_cons_succ, List.getD_nil, decodeSyl, hU, u1Of, e.op, wFn, wRs2, wL, wImm, wAm, wX, wSys, immOf, immPOf, addrOf, g30, g84, e.rd, e.rs1, wStop_long, longWord_low, ofNat_self, head_eq e]; try rfl
      · simp only [List.getD_cons_zero, touchesSig, usesSig, postMode, hU, e.op, wFn, wRs2, wL, wImm, wAm, wX, wSys, g30, g84, e.rd, e.rs1] <;> first | rfl | simp
      · refine sylFault_none ?_ ?_ (by rw [List.getD_cons_zero, e.cond]; exact hc)
        · simp only [List.getD_cons_zero, illegal, hU, illegal1, illegalLoad, e.op, wFn, wRs2, wL, wImm, wAm, wX, wSys, g30, g84, e.rd, e.rs1]
          try rfl
        · simp only [List.getD_cons_zero, reservedSet, hU, reserved1, illegalLoad, e.op, wFn, wRs2, wL, wImm, wAm, wX, wSys, g30, g84, e.rd, e.rs1]
          try rfl
      · try simp only [List.getD_cons_zero, ownsLong, hU, e.op, wFn, wRs2, wL, wImm, wAm, wX, wSys, g30, g84, e.rd, e.rs1] <;> first | rfl | simp
  exact key _ (enc_head h 18 rd.toNat rs1.toNat (0 * 2 ^ 4 + 4) (by decide) (by omega) (by omega) (by omega))
theorem sexth (h rd rs1) : Statement (.sexth h rd rs1) := by
  have b_rd := rd.isLt
  have b_rs1 := rs1.isLt
  intro h' hs hw
  obtain ⟨hu, ho, hl, hc⟩ := parts hs hw
  cases hs
  have key : ∀ w, Enc w h 18 rd.toNat rs1.toNat (0 * 2 ^ 4 + 5) → Good h [w] (.sexth h rd rs1) := by
    intro w e
    have g30 := e.fn (by omega)
    have g84 := e.rs2 (by omega) (by omega)
    have hu : h.unit.toNat = 1 := unitIs hu
    all_goals
      have hU := e.unit.trans hu
      refine ⟨?_, ?_, ?_, ?_, e.stop, e.cond, .inl rfl⟩
      · simp only [List.getD_cons_zero, List.getD_cons_succ, List.getD_nil, decodeSyl, hU, u1Of, e.op, wFn, wRs2, wL, wImm, wAm, wX, wSys, immOf, immPOf, addrOf, g30, g84, e.rd, e.rs1, wStop_long, longWord_low, ofNat_self, head_eq e]; try rfl
      · simp only [List.getD_cons_zero, touchesSig, usesSig, postMode, hU, e.op, wFn, wRs2, wL, wImm, wAm, wX, wSys, g30, g84, e.rd, e.rs1] <;> first | rfl | simp
      · refine sylFault_none ?_ ?_ (by rw [List.getD_cons_zero, e.cond]; exact hc)
        · simp only [List.getD_cons_zero, illegal, hU, illegal1, illegalLoad, e.op, wFn, wRs2, wL, wImm, wAm, wX, wSys, g30, g84, e.rd, e.rs1]
          try rfl
        · simp only [List.getD_cons_zero, reservedSet, hU, reserved1, illegalLoad, e.op, wFn, wRs2, wL, wImm, wAm, wX, wSys, g30, g84, e.rd, e.rs1]
          try rfl
      · try simp only [List.getD_cons_zero, ownsLong, hU, e.op, wFn, wRs2, wL, wImm, wAm, wX, wSys, g30, g84, e.rd, e.rs1] <;> first | rfl | simp
  exact key _ (enc_head h 18 rd.toNat rs1.toNat (0 * 2 ^ 4 + 5) (by decide) (by omega) (by omega) (by omega))
theorem sextw (h rd rs1) : Statement (.sextw h rd rs1) := by
  have b_rd := rd.isLt
  have b_rs1 := rs1.isLt
  intro h' hs hw
  obtain ⟨hu, ho, hl, hc⟩ := parts hs hw
  cases hs
  have key : ∀ w, Enc w h 18 rd.toNat rs1.toNat (0 * 2 ^ 4 + 6) → Good h [w] (.sextw h rd rs1) := by
    intro w e
    have g30 := e.fn (by omega)
    have g84 := e.rs2 (by omega) (by omega)
    have hu : h.unit.toNat = 1 := unitIs hu
    all_goals
      have hU := e.unit.trans hu
      refine ⟨?_, ?_, ?_, ?_, e.stop, e.cond, .inl rfl⟩
      · simp only [List.getD_cons_zero, List.getD_cons_succ, List.getD_nil, decodeSyl, hU, u1Of, e.op, wFn, wRs2, wL, wImm, wAm, wX, wSys, immOf, immPOf, addrOf, g30, g84, e.rd, e.rs1, wStop_long, longWord_low, ofNat_self, head_eq e]; try rfl
      · simp only [List.getD_cons_zero, touchesSig, usesSig, postMode, hU, e.op, wFn, wRs2, wL, wImm, wAm, wX, wSys, g30, g84, e.rd, e.rs1] <;> first | rfl | simp
      · refine sylFault_none ?_ ?_ (by rw [List.getD_cons_zero, e.cond]; exact hc)
        · simp only [List.getD_cons_zero, illegal, hU, illegal1, illegalLoad, e.op, wFn, wRs2, wL, wImm, wAm, wX, wSys, g30, g84, e.rd, e.rs1]
          try rfl
        · simp only [List.getD_cons_zero, reservedSet, hU, reserved1, illegalLoad, e.op, wFn, wRs2, wL, wImm, wAm, wX, wSys, g30, g84, e.rd, e.rs1]
          try rfl
      · try simp only [List.getD_cons_zero, ownsLong, hU, e.op, wFn, wRs2, wL, wImm, wAm, wX, wSys, g30, g84, e.rd, e.rs1] <;> first | rfl | simp
  exact key _ (enc_head h 18 rd.toNat rs1.toNat (0 * 2 ^ 4 + 6) (by decide) (by omega) (by omega) (by omega))
theorem zextb (h rd rs1) : Statement (.zextb h rd rs1) := by
  have b_rd := rd.isLt
  have b_rs1 := rs1.isLt
  intro h' hs hw
  obtain ⟨hu, ho, hl, hc⟩ := parts hs hw
  cases hs
  have key : ∀ w, Enc w h 18 rd.toNat rs1.toNat (0 * 2 ^ 4 + 7) → Good h [w] (.zextb h rd rs1) := by
    intro w e
    have g30 := e.fn (by omega)
    have g84 := e.rs2 (by omega) (by omega)
    have hu : h.unit.toNat = 1 := unitIs hu
    all_goals
      have hU := e.unit.trans hu
      refine ⟨?_, ?_, ?_, ?_, e.stop, e.cond, .inl rfl⟩
      · simp only [List.getD_cons_zero, List.getD_cons_succ, List.getD_nil, decodeSyl, hU, u1Of, e.op, wFn, wRs2, wL, wImm, wAm, wX, wSys, immOf, immPOf, addrOf, g30, g84, e.rd, e.rs1, wStop_long, longWord_low, ofNat_self, head_eq e]; try rfl
      · simp only [List.getD_cons_zero, touchesSig, usesSig, postMode, hU, e.op, wFn, wRs2, wL, wImm, wAm, wX, wSys, g30, g84, e.rd, e.rs1] <;> first | rfl | simp
      · refine sylFault_none ?_ ?_ (by rw [List.getD_cons_zero, e.cond]; exact hc)
        · simp only [List.getD_cons_zero, illegal, hU, illegal1, illegalLoad, e.op, wFn, wRs2, wL, wImm, wAm, wX, wSys, g30, g84, e.rd, e.rs1]
          try rfl
        · simp only [List.getD_cons_zero, reservedSet, hU, reserved1, illegalLoad, e.op, wFn, wRs2, wL, wImm, wAm, wX, wSys, g30, g84, e.rd, e.rs1]
          try rfl
      · try simp only [List.getD_cons_zero, ownsLong, hU, e.op, wFn, wRs2, wL, wImm, wAm, wX, wSys, g30, g84, e.rd, e.rs1] <;> first | rfl | simp
  exact key _ (enc_head h 18 rd.toNat rs1.toNat (0 * 2 ^ 4 + 7) (by decide) (by omega) (by omega) (by omega))
theorem zexth (h rd rs1) : Statement (.zexth h rd rs1) := by
  have b_rd := rd.isLt
  have b_rs1 := rs1.isLt
  intro h' hs hw
  obtain ⟨hu, ho, hl, hc⟩ := parts hs hw
  cases hs
  have key : ∀ w, Enc w h 18 rd.toNat rs1.toNat (0 * 2 ^ 4 + 8) → Good h [w] (.zexth h rd rs1) := by
    intro w e
    have g30 := e.fn (by omega)
    have g84 := e.rs2 (by omega) (by omega)
    have hu : h.unit.toNat = 1 := unitIs hu
    all_goals
      have hU := e.unit.trans hu
      refine ⟨?_, ?_, ?_, ?_, e.stop, e.cond, .inl rfl⟩
      · simp only [List.getD_cons_zero, List.getD_cons_succ, List.getD_nil, decodeSyl, hU, u1Of, e.op, wFn, wRs2, wL, wImm, wAm, wX, wSys, immOf, immPOf, addrOf, g30, g84, e.rd, e.rs1, wStop_long, longWord_low, ofNat_self, head_eq e]; try rfl
      · simp only [List.getD_cons_zero, touchesSig, usesSig, postMode, hU, e.op, wFn, wRs2, wL, wImm, wAm, wX, wSys, g30, g84, e.rd, e.rs1] <;> first | rfl | simp
      · refine sylFault_none ?_ ?_ (by rw [List.getD_cons_zero, e.cond]; exact hc)
        · simp only [List.getD_cons_zero, illegal, hU, illegal1, illegalLoad, e.op, wFn, wRs2, wL, wImm, wAm, wX, wSys, g30, g84, e.rd, e.rs1]
          try rfl
        · simp only [List.getD_cons_zero, reservedSet, hU, reserved1, illegalLoad, e.op, wFn, wRs2, wL, wImm, wAm, wX, wSys, g30, g84, e.rd, e.rs1]
          try rfl
      · try simp only [List.getD_cons_zero, ownsLong, hU, e.op, wFn, wRs2, wL, wImm, wAm, wX, wSys, g30, g84, e.rd, e.rs1] <;> first | rfl | simp
  exact key _ (enc_head h 18 rd.toNat rs1.toNat (0 * 2 ^ 4 + 8) (by decide) (by omega) (by omega) (by omega))
theorem zextw (h rd rs1) : Statement (.zextw h rd rs1) := by
  have b_rd := rd.isLt
  have b_rs1 := rs1.isLt
  intro h' hs hw
  obtain ⟨hu, ho, hl, hc⟩ := parts hs hw
  cases hs
  have key : ∀ w, Enc w h 18 rd.toNat rs1.toNat (0 * 2 ^ 4 + 9) → Good h [w] (.zextw h rd rs1) := by
    intro w e
    have g30 := e.fn (by omega)
    have g84 := e.rs2 (by omega) (by omega)
    have hu : h.unit.toNat = 1 := unitIs hu
    all_goals
      have hU := e.unit.trans hu
      refine ⟨?_, ?_, ?_, ?_, e.stop, e.cond, .inl rfl⟩
      · simp only [List.getD_cons_zero, List.getD_cons_succ, List.getD_nil, decodeSyl, hU, u1Of, e.op, wFn, wRs2, wL, wImm, wAm, wX, wSys, immOf, immPOf, addrOf, g30, g84, e.rd, e.rs1, wStop_long, longWord_low, ofNat_self, head_eq e]; try rfl
      · simp only [List.getD_cons_zero, touchesSig, usesSig, postMode, hU, e.op, wFn, wRs2, wL, wImm, wAm, wX, wSys, g30, g84, e.rd, e.rs1] <;> first | rfl | simp
      · refine sylFault_none ?_ ?_ (by rw [List.getD_cons_zero, e.cond]; exact hc)
        · simp only [List.getD_cons_zero, illegal, hU, illegal1, illegalLoad, e.op, wFn, wRs2, wL, wImm, wAm, wX, wSys, g30, g84, e.rd, e.rs1]
          try rfl
        · simp only [List.getD_cons_zero, reservedSet, hU, reserved1, illegalLoad, e.op, wFn, wRs2, wL, wImm, wAm, wX, wSys, g30, g84, e.rd, e.rs1]
          try rfl
      · try simp only [List.getD_cons_zero, ownsLong, hU, e.op, wFn, wRs2, wL, wImm, wAm, wX, wSys, g30, g84, e.rd, e.rs1] <;> first | rfl | simp
  exact key _ (enc_head h 18 rd.toNat rs1.toNat (0 * 2 ^ 4 + 9) (by decide) (by omega) (by omega) (by omega))
theorem ldb (h rd cs am) : Statement (.ldb h rd cs am) := by
  have b_rd := rd.isLt
  have b_cs := cs.isLt
  intro h' hs hw
  cases am with
  | off x =>
    have b_x := x.isLt
    obtain ⟨hu, ho, hl, hc⟩ := parts hs hw
    cases hs
    have key : ∀ w, Enc w h 1 rd.toNat cs.toNat x.toNat → Good h [w] (.ldb h rd cs (.off x)) := by
      intro w e
      have g87 : bits w.toNat 8 7 = 0 := (e.low 8 7 (by decide) (by decide)).trans (by unfold bits; omega)
      have g60 : bits w.toNat 6 0 = x.toNat := (e.low 6 0 (by decide) (by decide)).trans (by unfold bits; omega)
      have hu : h.unit.toNat = 2 := unitIs hu
      all_goals
        have hU := e.unit.trans hu
        refine ⟨?_, ?_, ?_, ?_, e.stop, e.cond, .inl rfl⟩
        · simp only [List.getD_cons_zero, List.getD_cons_succ, List.getD_nil, decodeSyl, hU, u2Of, e.op, wFn, wRs2, wL, wImm, wAm, wX, wSys, immOf, immPOf, addrOf, g87, g60, e.rd, e.rs1, wStop_long, longWord_low, ofNat_self, head_eq e]; try rfl
        · simp only [List.getD_cons_zero, touchesSig, usesSig, postMode, hU, e.op, wFn, wRs2, wL, wImm, wAm, wX, wSys, g87, g60, e.rd, e.rs1] <;> first | rfl | simp
        · refine sylFault_none ?_ ?_ (by rw [List.getD_cons_zero, e.cond]; exact hc)
          · simp only [List.getD_cons_zero, illegal, hU, illegal2, illegalLoad, e.op, wFn, wRs2, wL, wImm, wAm, wX, wSys, g87, g60, e.rd, e.rs1]
            try first | rfl | (simp [operandsOk, postInc, immPDefined, BitVec.toNat_eq] at ho; simp [badIf, userKnown, sysKnown]; omega)
          · simp only [List.getD_cons_zero, reservedSet, hU, reserved2, illegalLoad, e.op, wFn, wRs2, wL, wImm, wAm, wX, wSys, g87, g60, e.rd, e.rs1]
            try first | rfl | (simp [operandsOk, postInc, immPDefined, BitVec.toNat_eq] at ho; simp [badIf, userKnown, sysKnown]; omega)
        · try simp only [List.getD_cons_zero, ownsLong, hU, e.op, wFn, wRs2, wL, wImm, wAm, wX, wSys, g87, g60, e.rd, e.rs1] <;> first | rfl | simp
    exact key _ (enc_head h 1 rd.toNat cs.toNat x.toNat (by decide) (by omega) (by omega) (by omega))
  | modulo p st =>
    have b_p := p.isLt
    have b_st := st.isLt
    obtain ⟨hu, ho, hl, hc⟩ := parts hs hw
    cases hs
    have key : ∀ w, Enc w h 1 rd.toNat cs.toNat (2 ^ 7 + p.toNat * 2 ^ 5 + st.toNat) → Good h [w] (.ldb h rd cs (.modulo p st)) := by
      intro w e
      have g87 : bits w.toNat 8 7 = 1 := (e.low 8 7 (by decide) (by decide)).trans (by unfold bits; omega)
      have g65 : bits w.toNat 6 5 = p.toNat := (e.low 6 5 (by decide) (by decide)).trans (by unfold bits; omega)
      have g40 : bits w.toNat 4 0 = st.toNat := (e.low 4 0 (by decide) (by decide)).trans (by unfold bits; omega)
      have hu : h.unit.toNat = 2 := unitIs hu
      all_goals
        have hU := e.unit.trans hu
        refine ⟨?_, ?_, ?_, ?_, e.stop, e.cond, .inl rfl⟩
        · simp only [List.getD_cons_zero, List.getD_cons_succ, List.getD_nil, decodeSyl, hU, u2Of, e.op, wFn, wRs2, wL, wImm, wAm, wX, wSys, immOf, immPOf, addrOf, g87, g65, g40, e.rd, e.rs1, wStop_long, longWord_low, ofNat_self, head_eq e]; try rfl
        · simp only [List.getD_cons_zero, touchesSig, usesSig, postMode, hU, e.op, wFn, wRs2, wL, wImm, wAm, wX, wSys, g87, g65, g40, e.rd, e.rs1] <;> first | rfl | simp
        · refine sylFault_none ?_ ?_ (by rw [List.getD_cons_zero, e.cond]; exact hc)
          · simp only [List.getD_cons_zero, illegal, hU, illegal2, illegalLoad, e.op, wFn, wRs2, wL, wImm, wAm, wX, wSys, g87, g65, g40, e.rd, e.rs1]
            try first | rfl | (simp [operandsOk, postInc, immPDefined, BitVec.toNat_eq] at ho; simp [badIf, userKnown, sysKnown]; omega)
          · simp only [List.getD_cons_zero, reservedSet, hU, reserved2, illegalLoad, e.op, wFn, wRs2, wL, wImm, wAm, wX, wSys, g87, g65, g40, e.rd, e.rs1]
            try first | rfl | (simp [operandsOk, postInc, immPDefined, BitVec.toNat_eq] at ho; simp [badIf, userKnown, sysKnown]; omega)
        · try simp only [List.getD_cons_zero, ownsLong, hU, e.op, wFn, wRs2, wL, wImm, wAm, wX, wSys, g87, g65, g40, e.rd, e.rs1] <;> first | rfl | simp
    exact key _ (enc_head h 1 rd.toNat cs.toNat (2 ^ 7 + p.toNat * 2 ^ 5 + st.toNat) (by decide) (by omega) (by omega) (by omega))
  | rev p =>
    have b_p := p.isLt
    obtain ⟨hu, ho, hl, hc⟩ := parts hs hw
    cases hs
    have key : ∀ w, Enc w h 1 rd.toNat cs.toNat (2 ^ 8 + p.toNat * 2 ^ 5) → Good h [w] (.ldb h rd cs (.rev p)) := by
      intro w e
      have g87 : bits w.toNat 8 7 = 2 := (e.low 8 7 (by decide) (by decide)).trans (by unfold bits; omega)
      have g65 : bits w.toNat 6 5 = p.toNat := (e.low 6 5 (by decide) (by decide)).trans (by unfold bits; omega)
      have g40 : bits w.toNat 4 0 = 0 := (e.low 4 0 (by decide) (by decide)).trans (by unfold bits; omega)
      have hu : h.unit.toNat = 2 := unitIs hu
      all_goals
        have hU := e.unit.trans hu
        refine ⟨?_, ?_, ?_, ?_, e.stop, e.cond, .inl rfl⟩
        · simp only [List.getD_cons_zero, List.getD_cons_succ, List.getD_nil, decodeSyl, hU, u2Of, e.op, wFn, wRs2, wL, wImm, wAm, wX, wSys, immOf, immPOf, addrOf, g87, g65, g40, e.rd, e.rs1, wStop_long, longWord_low, ofNat_self, head_eq e]; try rfl
        · simp only [List.getD_cons_zero, touchesSig, usesSig, postMode, hU, e.op, wFn, wRs2, wL, wImm, wAm, wX, wSys, g87, g65, g40, e.rd, e.rs1] <;> first | rfl | simp
        · refine sylFault_none ?_ ?_ (by rw [List.getD_cons_zero, e.cond]; exact hc)
          · simp only [List.getD_cons_zero, illegal, hU, illegal2, illegalLoad, e.op, wFn, wRs2, wL, wImm, wAm, wX, wSys, g87, g65, g40, e.rd, e.rs1]
            try first | rfl | (simp [operandsOk, postInc, immPDefined, BitVec.toNat_eq] at ho; simp [badIf, userKnown, sysKnown]; omega)
          · simp only [List.getD_cons_zero, reservedSet, hU, reserved2, illegalLoad, e.op, wFn, wRs2, wL, wImm, wAm, wX, wSys, g87, g65, g40, e.rd, e.rs1]
            try first | rfl | (simp [operandsOk, postInc, immPDefined, BitVec.toNat_eq] at ho; simp [badIf, userKnown, sysKnown]; omega)
        · try simp only [List.getD_cons_zero, ownsLong, hU, e.op, wFn, wRs2, wL, wImm, wAm, wX, wSys, g87, g65, g40, e.rd, e.rs1] <;> first | rfl | simp
    exact key _ (enc_head h 1 rd.toNat cs.toNat (2 ^ 8 + p.toNat * 2 ^ 5) (by decide) (by omega) (by omega) (by omega))
  | long ls v =>
    have b_v := v.isLt
    obtain ⟨hu, ho, hl, hc⟩ := parts hs hw
    cases hs
    have key : ∀ w, Enc w h 1 rd.toNat cs.toNat (3 * 2 ^ 7) → Good h [w, longWord ls v] (.ldb h rd cs (.long ls v)) := by
      intro w e
      have g87 : bits w.toNat 8 7 = 3 := (e.low 8 7 (by decide) (by decide)).trans (by unfold bits; omega)
      have g60 : bits w.toNat 6 0 = 0 := (e.low 6 0 (by decide) (by decide)).trans (by unfold bits; omega)
      have hu : h.unit.toNat = 2 := unitIs hu
      all_goals
        have hU := e.unit.trans hu
        refine ⟨?_, ?_, ?_, ?_, e.stop, e.cond, .inr ⟨rfl, by simpa [longOk, immShort, immPShort, addrShort] using hl⟩⟩
        · simp only [List.getD_cons_zero, List.getD_cons_succ, List.getD_nil, decodeSyl, hU, u2Of, e.op, wFn, wRs2, wL, wImm, wAm, wX, wSys, immOf, immPOf, addrOf, g87, g60, e.rd, e.rs1, wStop_long, longWord_low, ofNat_self, head_eq e]; try rfl
        · simp only [List.getD_cons_zero, touchesSig, usesSig, postMode, hU, e.op, wFn, wRs2, wL, wImm, wAm, wX, wSys, g87, g60, e.rd, e.rs1] <;> first | rfl | simp
        · refine sylFault_none ?_ ?_ (by rw [List.getD_cons_zero, e.cond]; exact hc)
          · simp only [List.getD_cons_zero, illegal, hU, illegal2, illegalLoad, e.op, wFn, wRs2, wL, wImm, wAm, wX, wSys, g87, g60, e.rd, e.rs1]
            try first | rfl | (simp [operandsOk, postInc, immPDefined, BitVec.toNat_eq] at ho; simp [badIf, userKnown, sysKnown]; omega)
          · simp only [List.getD_cons_zero, reservedSet, hU, reserved2, illegalLoad, e.op, wFn, wRs2, wL, wImm, wAm, wX, wSys, g87, g60, e.rd, e.rs1]
            try first | rfl | (simp [operandsOk, postInc, immPDefined, BitVec.toNat_eq] at ho; simp [badIf, userKnown, sysKnown]; omega)
        · try simp only [List.getD_cons_zero, ownsLong, hU, e.op, wFn, wRs2, wL, wImm, wAm, wX, wSys, g87, g60, e.rd, e.rs1] <;> first | rfl | simp
    exact key _ (enc_head h 1 rd.toNat cs.toNat (3 * 2 ^ 7) (by decide) (by omega) (by omega) (by omega))
theorem ldbu (h rd cs am) : Statement (.ldbu h rd cs am) := by
  have b_rd := rd.isLt
  have b_cs := cs.isLt
  intro h' hs hw
  cases am with
  | off x =>
    have b_x := x.isLt
    obtain ⟨hu, ho, hl, hc⟩ := parts hs hw
    cases hs
    have key : ∀ w, Enc w h 2 rd.toNat cs.toNat x.toNat → Good h [w] (.ldbu h rd cs (.off x)) := by
      intro w e
      have g87 : bits w.toNat 8 7 = 0 := (e.low 8 7 (by decide) (by decide)).trans (by unfold bits; omega)
      have g60 : bits w.toNat 6 0 = x.toNat := (e.low 6 0 (by decide) (by decide)).trans (by unfold bits; omega)
      have hu : h.unit.toNat = 2 := unitIs hu
      all_goals
        have hU := e.unit.trans hu
        refine ⟨?_, ?_, ?_, ?_, e.stop, e.cond, .inl rfl⟩
        · simp only [List.getD_cons_zero, List.getD_cons_succ, List.getD_nil, decodeSyl, hU, u2Of, e.op, wFn, wRs2, wL, wImm, wAm, wX, wSys, immOf, immPOf, addrOf, g87, g60, e.rd, e.rs1, wStop_long, longWord_low, ofNat_self, head_eq e]; try rfl
        · simp only [List.getD_cons_zero, touchesSig, usesSig, postMode, hU, e.op, wFn, wRs2, wL, wImm, wAm, wX, wSys, g87, g60, e.rd, e.rs1] <;> first | rfl | simp
        · refine sylFault_none ?_ ?_ (by rw [List.getD_cons_zero, e.cond]; exact hc)
          · simp only [List.getD_cons_zero, illegal, hU, illegal2, illegalLoad, e.op, wFn, wRs2, wL, wImm, wAm, wX, wSys, g87, g60, e.rd, e.rs1]
            try first | rfl | (simp [operandsOk, postInc, immPDefined, BitVec.toNat_eq] at ho; simp [badIf, userKnown, sysKnown]; omega)
          · simp only [List.getD_cons_zero, reservedSet, hU, reserved2, illegalLoad, e.op, wFn, wRs2, wL, wImm, wAm, wX, wSys, g87, g60, e.rd, e.rs1]
            try first | rfl | (simp [operandsOk, postInc, immPDefined, BitVec.toNat_eq] at ho; simp [badIf, userKnown, sysKnown]; omega)
        · try simp only [List.getD_cons_zero, ownsLong, hU, e.op, wFn, wRs2, wL, wImm, wAm, wX, wSys, g87, g60, e.rd, e.rs1] <;> first | rfl | simp
    exact key _ (enc_head h 2 rd.toNat cs.toNat x.toNat (by decide) (by omega) (by omega) (by omega))
  | modulo p st =>
    have b_p := p.isLt
    have b_st := st.isLt
    obtain ⟨hu, ho, hl, hc⟩ := parts hs hw
    cases hs
    have key : ∀ w, Enc w h 2 rd.toNat cs.toNat (2 ^ 7 + p.toNat * 2 ^ 5 + st.toNat) → Good h [w] (.ldbu h rd cs (.modulo p st)) := by
      intro w e
      have g87 : bits w.toNat 8 7 = 1 := (e.low 8 7 (by decide) (by decide)).trans (by unfold bits; omega)
      have g65 : bits w.toNat 6 5 = p.toNat := (e.low 6 5 (by decide) (by decide)).trans (by unfold bits; omega)
      have g40 : bits w.toNat 4 0 = st.toNat := (e.low 4 0 (by decide) (by decide)).trans (by unfold bits; omega)
      have hu : h.unit.toNat = 2 := unitIs hu
      all_goals
        have hU := e.unit.trans hu
        refine ⟨?_, ?_, ?_, ?_, e.stop, e.cond, .inl rfl⟩
        · simp only [List.getD_cons_zero, List.getD_cons_succ, List.getD_nil, decodeSyl, hU, u2Of, e.op, wFn, wRs2, wL, wImm, wAm, wX, wSys, immOf, immPOf, addrOf, g87, g65, g40, e.rd, e.rs1, wStop_long, longWord_low, ofNat_self, head_eq e]; try rfl
        · simp only [List.getD_cons_zero, touchesSig, usesSig, postMode, hU, e.op, wFn, wRs2, wL, wImm, wAm, wX, wSys, g87, g65, g40, e.rd, e.rs1] <;> first | rfl | simp
        · refine sylFault_none ?_ ?_ (by rw [List.getD_cons_zero, e.cond]; exact hc)
          · simp only [List.getD_cons_zero, illegal, hU, illegal2, illegalLoad, e.op, wFn, wRs2, wL, wImm, wAm, wX, wSys, g87, g65, g40, e.rd, e.rs1]
            try first | rfl | (simp [operandsOk, postInc, immPDefined, BitVec.toNat_eq] at ho; simp [badIf, userKnown, sysKnown]; omega)
          · simp only [List.getD_cons_zero, reservedSet, hU, reserved2, illegalLoad, e.op, wFn, wRs2, wL, wImm, wAm, wX, wSys, g87, g65, g40, e.rd, e.rs1]
            try first | rfl | (simp [operandsOk, postInc, immPDefined, BitVec.toNat_eq] at ho; simp [badIf, userKnown, sysKnown]; omega)
        · try simp only [List.getD_cons_zero, ownsLong, hU, e.op, wFn, wRs2, wL, wImm, wAm, wX, wSys, g87, g65, g40, e.rd, e.rs1] <;> first | rfl | simp
    exact key _ (enc_head h 2 rd.toNat cs.toNat (2 ^ 7 + p.toNat * 2 ^ 5 + st.toNat) (by decide) (by omega) (by omega) (by omega))
  | rev p =>
    have b_p := p.isLt
    obtain ⟨hu, ho, hl, hc⟩ := parts hs hw
    cases hs
    have key : ∀ w, Enc w h 2 rd.toNat cs.toNat (2 ^ 8 + p.toNat * 2 ^ 5) → Good h [w] (.ldbu h rd cs (.rev p)) := by
      intro w e
      have g87 : bits w.toNat 8 7 = 2 := (e.low 8 7 (by decide) (by decide)).trans (by unfold bits; omega)
      have g65 : bits w.toNat 6 5 = p.toNat := (e.low 6 5 (by decide) (by decide)).trans (by unfold bits; omega)
      have g40 : bits w.toNat 4 0 = 0 := (e.low 4 0 (by decide) (by decide)).trans (by unfold bits; omega)
      have hu : h.unit.toNat = 2 := unitIs hu
      all_goals
        have hU := e.unit.trans hu
        refine ⟨?_, ?_, ?_, ?_, e.stop, e.cond, .inl rfl⟩
        · simp only [List.getD_cons_zero, List.getD_cons_succ, List.getD_nil, decodeSyl, hU, u2Of, e.op, wFn, wRs2, wL, wImm, wAm, wX, wSys, immOf, immPOf, addrOf, g87, g65, g40, e.rd, e.rs1, wStop_long, longWord_low, ofNat_self, head_eq e]; try rfl
        · simp only [List.getD_cons_zero, touchesSig, usesSig, postMode, hU, e.op, wFn, wRs2, wL, wImm, wAm, wX, wSys, g87, g65, g40, e.rd, e.rs1] <;> first | rfl | simp
        · refine sylFault_none ?_ ?_ (by rw [List.getD_cons_zero, e.cond]; exact hc)
          · simp only [List.getD_cons_zero, illegal, hU, illegal2, illegalLoad, e.op, wFn, wRs2, wL, wImm, wAm, wX, wSys, g87, g65, g40, e.rd, e.rs1]
            try first | rfl | (simp [operandsOk, postInc, immPDefined, BitVec.toNat_eq] at ho; simp [badIf, userKnown, sysKnown]; omega)
          · simp only [List.getD_cons_zero, reservedSet, hU, reserved2, illegalLoad, e.op, wFn, wRs2, wL, wImm, wAm, wX, wSys, g87, g65, g40, e.rd, e.rs1]
            try first | rfl | (simp [operandsOk, postInc, immPDefined, BitVec.toNat_eq] at ho; simp [badIf, userKnown, sysKnown]; omega)
        · try simp only [List.getD_cons_zero, ownsLong, hU, e.op, wFn, wRs2, wL, wImm, wAm, wX, wSys, g87, g65, g40, e.rd, e.rs1] <;> first | rfl | simp
    exact key _ (enc_head h 2 rd.toNat cs.toNat (2 ^ 8 + p.toNat * 2 ^ 5) (by decide) (by omega) (by omega) (by omega))
  | long ls v =>
    have b_v := v.isLt
    obtain ⟨hu, ho, hl, hc⟩ := parts hs hw
    cases hs
    have key : ∀ w, Enc w h 2 rd.toNat cs.toNat (3 * 2 ^ 7) → Good h [w, longWord ls v] (.ldbu h rd cs (.long ls v)) := by
      intro w e
      have g87 : bits w.toNat 8 7 = 3 := (e.low 8 7 (by decide) (by decide)).trans (by unfold bits; omega)
      have g60 : bits w.toNat 6 0 = 0 := (e.low 6 0 (by decide) (by decide)).trans (by unfold bits; omega)
      have hu : h.unit.toNat = 2 := unitIs hu
      all_goals
        have hU := e.unit.trans hu
        refine ⟨?_, ?_, ?_, ?_, e.stop, e.cond, .inr ⟨rfl, by simpa [longOk, immShort, immPShort, addrShort] using hl⟩⟩
        · simp only [List.getD_cons_zero, List.getD_cons_succ, List.getD_nil, decodeSyl, hU, u2Of, e.op, wFn, wRs2, wL, wImm, wAm, wX, wSys, immOf, immPOf, addrOf, g87, g60, e.rd, e.rs1, wStop_long, longWord_low, ofNat_self, head_eq e]; try rfl
        · simp only [List.getD_cons_zero, touchesSig, usesSig, postMode, hU, e.op, wFn, wRs2, wL, wImm, wAm, wX, wSys, g87, g60, e.rd, e.rs1] <;> first | rfl | simp
        · refine sylFault_none ?_ ?_ (by rw [List.getD_cons_zero, e.cond]; exact hc)
          · simp only [List.getD_cons_zero, illegal, hU, illegal2, illegalLoad, e.op, wFn, wRs2, wL, wImm, wAm, wX, wSys, g87, g60, e.rd, e.rs1]
            try first | rfl | (simp [operandsOk, postInc, immPDefined, BitVec.toNat_eq] at ho; simp [badIf, userKnown, sysKnown]; omega)
          · simp only [List.getD_cons_zero, reservedSet, hU, reserved2, illegalLoad, e.op, wFn, wRs2, wL, wImm, wAm, wX, wSys, g87, g60, e.rd, e.rs1]
            try first | rfl | (simp [operandsOk, postInc, immPDefined, BitVec.toNat_eq] at ho; simp [badIf, userKnown, sysKnown]; omega)
        · try simp only [List.getD_cons_zero, ownsLong, hU, e.op, wFn, wRs2, wL, wImm, wAm, wX, wSys, g87, g60, e.rd, e.rs1] <;> first | rfl | simp
    exact key _ (enc_head h 2 rd.toNat cs.toNat (3 * 2 ^ 7) (by decide) (by omega) (by omega) (by omega))
theorem ldh (h rd cs am) : Statement (.ldh h rd cs am) := by
  have b_rd := rd.isLt
  have b_cs := cs.isLt
  intro h' hs hw
  cases am with
  | off x =>
    have b_x := x.isLt
    obtain ⟨hu, ho, hl, hc⟩ := parts hs hw
    cases hs
    have key : ∀ w, Enc w h 3 rd.toNat cs.toNat x.toNat → Good h [w] (.ldh h rd cs (.off x)) := by
      intro w e
      have g87 : bits w.toNat 8 7 = 0 := (e.low 8 7 (by decide) (by decide)).trans (by unfold bits; omega)
      have g60 : bits w.toNat 6 0 = x.toNat := (e.low 6 0 (by decide) (by decide)).trans (by unfold bits; omega)
      have hu : h.unit.toNat = 2 := unitIs hu
      all_goals
        have hU := e.unit.trans hu
        refine ⟨?_, ?_, ?_, ?_, e.stop, e.cond, .inl rfl⟩
        · simp only [List.getD_cons_zero, List.getD_cons_succ, List.getD_nil, decodeSyl, hU, u2Of, e.op, wFn, wRs2, wL, wImm, wAm, wX, wSys, immOf, immPOf, addrOf, g87, g60, e.rd, e.rs1, wStop_long, longWord_low, ofNat_self, head_eq e]; try rfl
        · simp only [List.getD_cons_zero, touchesSig, usesSig, postMode, hU, e.op, wFn, wRs2, wL, wImm, wAm, wX, wSys, g87, g60, e.rd, e.rs1] <;> first | rfl | simp
        · refine sylFault_none ?_ ?_ (by rw [List.getD_cons_zero, e.cond]; exact hc)
          · simp only [List.getD_cons_zero, illegal, hU, illegal2, illegalLoad, e.op, wFn, wRs2, wL, wImm, wAm, wX, wSys, g87, g60, e.rd, e.rs1]
            try first | rfl | (simp [operandsOk, postInc, immPDefined, BitVec.toNat_eq] at ho; simp [badIf, userKnown, sysKnown]; omega)
          · simp only [List.getD_cons_zero, reservedSet, hU, reserved2, illegalLoad, e.op, wFn, wRs2, wL, wImm, wAm, wX, wSys, g87, g60, e.rd, e.rs1]
            try first | rfl | (simp [operandsOk, postInc, immPDefined, BitVec.toNat_eq] at ho; simp [badIf, userKnown, sysKnown]; omega)
        · try simp only [List.getD_cons_zero, ownsLong, hU, e.op, wFn, wRs2, wL, wImm, wAm, wX, wSys, g87, g60, e.rd, e.rs1] <;> first | rfl | simp
    exact key _ (enc_head h 3 rd.toNat cs.toNat x.toNat (by decide) (by omega) (by omega) (by omega))
  | modulo p st =>
    have b_p := p.isLt
    have b_st := st.isLt
    obtain ⟨hu, ho, hl, hc⟩ := parts hs hw
    cases hs
    have key : ∀ w, Enc w h 3 rd.toNat cs.toNat (2 ^ 7 + p.toNat * 2 ^ 5 + st.toNat) → Good h [w] (.ldh h rd cs (.modulo p st)) := by
      intro w e
      have g87 : bits w.toNat 8 7 = 1 := (e.low 8 7 (by decide) (by decide)).trans (by unfold bits; omega)
      have g65 : bits w.toNat 6 5 = p.toNat := (e.low 6 5 (by decide) (by decide)).trans (by unfold bits; omega)
      have g40 : bits w.toNat 4 0 = st.toNat := (e.low 4 0 (by decide) (by decide)).trans (by unfold bits; omega)
      have hu : h.unit.toNat = 2 := unitIs hu
      all_goals
        have hU := e.unit.trans hu
        refine ⟨?_, ?_, ?_, ?_, e.stop, e.cond, .inl rfl⟩
        · simp only [List.getD_cons_zero, List.getD_cons_succ, List.getD_nil, decodeSyl, hU, u2Of, e.op, wFn, wRs2, wL, wImm, wAm, wX, wSys, immOf, immPOf, addrOf, g87, g65, g40, e.rd, e.rs1, wStop_long, longWord_low, ofNat_self, head_eq e]; try rfl
        · simp only [List.getD_cons_zero, touchesSig, usesSig, postMode, hU, e.op, wFn, wRs2, wL, wImm, wAm, wX, wSys, g87, g65, g40, e.rd, e.rs1] <;> first | rfl | simp
        · refine sylFault_none ?_ ?_ (by rw [List.getD_cons_zero, e.cond]; exact hc)
          · simp only [List.getD_cons_zero, illegal, hU, illegal2, illegalLoad, e.op, wFn, wRs2, wL, wImm, wAm, wX, wSys, g87, g65, g40, e.rd, e.rs1]
            try first | rfl | (simp [operandsOk, postInc, immPDefined, BitVec.toNat_eq] at ho; simp [badIf, userKnown, sysKnown]; omega)
          · simp only [List.getD_cons_zero, reservedSet, hU, reserved2, illegalLoad, e.op, wFn, wRs2, wL, wImm, wAm, wX, wSys, g87, g65, g40, e.rd, e.rs1]
            try first | rfl | (simp [operandsOk, postInc, immPDefined, BitVec.toNat_eq] at ho; simp [badIf, userKnown, sysKnown]; omega)
        · try simp only [List.getD_cons_zero, ownsLong, hU, e.op, wFn, wRs2, wL, wImm, wAm, wX, wSys, g87, g65, g40, e.rd, e.rs1] <;> first | rfl | simp
    exact key _ (enc_head h 3 rd.toNat cs.toNat (2 ^ 7 + p.toNat * 2 ^ 5 + st.toNat) (by decide) (by omega) (by omega) (by omega))
  | rev p =>
    have b_p := p.isLt
    obtain ⟨hu, ho, hl, hc⟩ := parts hs hw
    cases hs
    have key : ∀ w, Enc w h 3 rd.toNat cs.toNat (2 ^ 8 + p.toNat * 2 ^ 5) → Good h [w] (.ldh h rd cs (.rev p)) := by
      intro w e
      have g87 : bits w.toNat 8 7 = 2 := (e.low 8 7 (by decide) (by decide)).trans (by unfold bits; omega)
      have g65 : bits w.toNat 6 5 = p.toNat := (e.low 6 5 (by decide) (by decide)).trans (by unfold bits; omega)
      have g40 : bits w.toNat 4 0 = 0 := (e.low 4 0 (by decide) (by decide)).trans (by unfold bits; omega)
      have hu : h.unit.toNat = 2 := unitIs hu
      all_goals
        have hU := e.unit.trans hu
        refine ⟨?_, ?_, ?_, ?_, e.stop, e.cond, .inl rfl⟩
        · simp only [List.getD_cons_zero, List.getD_cons_succ, List.getD_nil, decodeSyl, hU, u2Of, e.op, wFn, wRs2, wL, wImm, wAm, wX, wSys, immOf, immPOf, addrOf, g87, g65, g40, e.rd, e.rs1, wStop_long, longWord_low, ofNat_self, head_eq e]; try rfl
        · simp only [List.getD_cons_zero, touchesSig, usesSig, postMode, hU, e.op, wFn, wRs2, wL, wImm, wAm, wX, wSys, g87, g65, g40, e.rd, e.rs1] <;> first | rfl | simp
        · refine sylFault_none ?_ ?_ (by rw [List.getD_cons_zero, e.cond]; exact hc)
          · simp only [List.getD_cons_zero, illegal, hU, illegal2, illegalLoad, e.op, wFn, wRs2, wL, wImm, wAm, wX, wSys, g87, g65, g40, e.rd, e.rs1]
            try first | rfl | (simp [operandsOk, postInc, immPDefined, BitVec.toNat_eq] at ho; simp [badIf, userKnown, sysKnown]; omega)
          · simp only [List.getD_cons_zero, reservedSet, hU, reserved2, illegalLoad, e.op, wFn, wRs2, wL, wImm, wAm, wX, wSys, g87, g65, g40, e.rd, e.rs1]
            try first | rfl | (simp [operandsOk, postInc, immPDefined, BitVec.toNat_eq] at ho; simp [badIf, userKnown, sysKnown]; omega)
        · try simp only [List.getD_cons_zero, ownsLong, hU, e.op, wFn, wRs2, wL, wImm, wAm, wX, wSys, g87, g65, g40, e.rd, e.rs1] <;> first | rfl | simp
    exact key _ (enc_head h 3 rd.toNat cs.toNat (2 ^ 8 + p.toNat * 2 ^ 5) (by decide) (by omega) (by omega) (by omega))
  | long ls v =>
    have b_v := v.isLt
    obtain ⟨hu, ho, hl, hc⟩ := parts hs hw
    cases hs
    have key : ∀ w, Enc w h 3 rd.toNat cs.toNat (3 * 2 ^ 7) → Good h [w, longWord ls v] (.ldh h rd cs (.long ls v)) := by
      intro w e
      have g87 : bits w.toNat 8 7 = 3 := (e.low 8 7 (by decide) (by decide)).trans (by unfold bits; omega)
      have g60 : bits w.toNat 6 0 = 0 := (e.low 6 0 (by decide) (by decide)).trans (by unfold bits; omega)
      have hu : h.unit.toNat = 2 := unitIs hu
      all_goals
        have hU := e.unit.trans hu
        refine ⟨?_, ?_, ?_, ?_, e.stop, e.cond, .inr ⟨rfl, by simpa [longOk, immShort, immPShort, addrShort] using hl⟩⟩
        · simp only [List.getD_cons_zero, List.getD_cons_succ, List.getD_nil, decodeSyl, hU, u2Of, e.op, wFn, wRs2, wL, wImm, wAm, wX, wSys, immOf, immPOf, addrOf, g87, g60, e.rd, e.rs1, wStop_long, longWord_low, ofNat_self, head_eq e]; try rfl
        · simp only [List.getD_cons_zero, touchesSig, usesSig, postMode, hU, e.op, wFn, wRs2, wL, wImm, wAm, wX, wSys, g87, g60, e.rd, e.rs1] <;> first | rfl | simp
        · refine sylFault_none ?_ ?_ (by rw [List.getD_cons_zero, e.cond]; exact hc)
          · simp only [List.getD_cons_zero, illegal, hU, illegal2, illegalLoad, e.op, wFn, wRs2, wL, wImm, wAm, wX, wSys, g87, g60, e.rd, e.rs1]
            try first | rfl | (simp [operandsOk, postInc, immPDefined, BitVec.toNat_eq] at ho; simp [badIf, userKnown, sysKnown]; omega)
          · simp only [List.getD_cons_zero, reservedSet, hU, reserved2, illegalLoad, e.op, wFn, wRs2, wL, wImm, wAm, wX, wSys, g87, g60, e.rd, e.rs1]
            try first | rfl | (simp [operandsOk, postInc, immPDefined, BitVec.toNat_eq] at ho; simp [badIf, userKnown, sysKnown]; omega)
        · try simp only [List.getD_cons_zero, ownsLong, hU, e.op, wFn, wRs2, wL, wImm, wAm, wX, wSys, g87, g60, e.rd, e.rs1] <;> first | rfl | simp
    exact key _ (enc_head h 3 rd.toNat cs.toNat (3 * 2 ^ 7) (by decide) (by omega) (by omega) (by omega))
theorem ldhu (h rd cs am) : Statement (.ldhu h rd cs am) := by
  have b_rd := rd.isLt
  have b_cs := cs.isLt
  intro h' hs hw
  cases am with
  | off x =>
    have b_x := x.isLt
    obtain ⟨hu, ho, hl, hc⟩ := parts hs hw
    cases hs
    have key : ∀ w, Enc w h 4 rd.toNat cs.toNat x.toNat → Good h [w] (.ldhu h rd cs (.off x)) := by
      intro w e
      have g87 : bits w.toNat 8 7 = 0 := (e.low 8 7 (by decide) (by decide)).trans (by unfold bits; omega)
      have g60 : bits w.toNat 6 0 = x.toNat := (e.low 6 0 (by decide) (by decide)).trans (by unfold bits; omega)
      have hu : h.unit.toNat = 2 := unitIs hu
      all_goals
        have hU := e.unit.trans hu
        refine ⟨?_, ?_, ?_, ?_, e.stop, e.cond, .inl rfl⟩
        · simp only [List.getD_cons_zero, List.getD_cons_succ, List.getD_nil, decodeSyl, hU, u2Of, e.op, wFn, wRs2, wL, wImm, wAm, wX, wSys, immOf, immPOf, addrOf, g87, g60, e.rd, e.rs1, wStop_long, longWord_low, ofNat_self, head_eq e]; try rfl
        · simp only [List.getD_cons_zero, touchesSig, usesSig, postMode, hU, e.op, wFn, wRs2, wL, wImm, wAm, wX, wSys, g87, g60, e.rd, e.rs1] <;> first | rfl | simp
        · refine sylFault_none ?_ ?_ (by rw [List.getD_cons_zero, e.cond]; exact hc)
          · simp only [List.getD_cons_zero, illegal, hU, illegal2, illegalLoad, e.op, wFn, wRs2, wL, wImm, wAm, wX, wSys, g87, g60, e.rd, e.rs1]
            try first | rfl | (simp [operandsOk, postInc, immPDefined, BitVec.toNat_eq] at ho; simp [badIf, userKnown, sysKnown]; omega)
          · simp only [List.getD_cons_zero, reservedSet, hU, reserved2, illegalLoad, e.op, wFn, wRs2, wL, wImm, wAm, wX, wSys, g87, g60, e.rd, e.rs1]
            try first | rfl | (simp [operandsOk, postInc, immPDefined, BitVec.toNat_eq] at ho; simp [badIf, userKnown, sysKnown]; omega)
        · try simp only [List.getD_cons_zero, ownsLong, hU, e.op, wFn, wRs2, wL, wImm, wAm, wX, wSys, g87, g60, e.rd, e.rs1] <;> first | rfl | simp
    exact key _ (enc_head h 4 rd.toNat cs.toNat x.toNat (by decide) (by omega) (by omega) (by omega))
  | modulo p st =>
    have b_p := p.isLt
    have b_st := st.isLt
    obtain ⟨hu, ho, hl, hc⟩ := parts hs hw
    cases hs
    have key : ∀ w, Enc w h 4 rd.toNat cs.toNat (2 ^ 7 + p.toNat * 2 ^ 5 + st.toNat) → Good h [w] (.ldhu h rd cs (.modulo p st)) := by
      intro w e
      have g87 : bits w.toNat 8 7 = 1 := (e.low 8 7 (by decide) (by decide)).trans (by unfold bits; omega)
      have g65 : bits w.toNat 6 5 = p.toNat := (e.low 6 5 (by decide) (by decide)).trans (by unfold bits; omega)
      have g40 : bits w.toNat 4 0 = st.toNat := (e.low 4 0 (by decide) (by decide)).trans (by unfold bits; omega)
      have hu : h.unit.toNat = 2 := unitIs hu
      all_goals
        have hU := e.unit.trans hu
        refine ⟨?_, ?_, ?_, ?_, e.stop, e.cond, .inl rfl⟩
        · simp only [List.getD_cons_zero, List.getD_cons_succ, List.getD_nil, decodeSyl, hU, u2Of, e.op, wFn, wRs2, wL, wImm, wAm, wX, wSys, immOf, immPOf, addrOf, g87, g65, g40, e.rd, e.rs1, wStop_long, longWord_low, ofNat_self, head_eq e]; try rfl
        · simp only [List.getD_cons_zero, touchesSig, usesSig, postMode, hU, e.op, wFn, wRs2, wL, wImm, wAm, wX, wSys, g87, g65, g40, e.rd, e.rs1] <;> first | rfl | simp
        · refine sylFault_none ?_ ?_ (by rw [List.getD_cons_zero, e.cond]; exact hc)
          · simp only [List.getD_cons_zero, illegal, hU, illegal2, illegalLoad, e.op, wFn, wRs2, wL, wImm, wAm, wX, wSys, g87, g65, g40, e.rd, e.rs1]
            try first | rfl | (simp [operandsOk, postInc, immPDefined, BitVec.toNat_eq] at ho; simp [badIf, userKnown, sysKnown]; omega)
          · simp only [List.getD_cons_zero, reservedSet, hU, reserved2, illegalLoad, e.op, wFn, wRs2, wL, wImm, wAm, wX, wSys, g87, g65, g40, e.rd, e.rs1]
            try first | rfl | (simp [operandsOk, postInc, immPDefined, BitVec.toNat_eq] at ho; simp [badIf, userKnown, sysKnown]; omega)
        · try simp only [List.getD_cons_zero, ownsLong, hU, e.op, wFn, wRs2, wL, wImm, wAm, wX, wSys, g87, g65, g40, e.rd, e.rs1] <;> first | rfl | simp
    exact key _ (enc_head h 4 rd.toNat cs.toNat (2 ^ 7 + p.toNat * 2 ^ 5 + st.toNat) (by decide) (by omega) (by omega) (by omega))
  | rev p =>
    have b_p := p.isLt
    obtain ⟨hu, ho, hl, hc⟩ := parts hs hw
    cases hs
    have key : ∀ w, Enc w h 4 rd.toNat cs.toNat (2 ^ 8 + p.toNat * 2 ^ 5) → Good h [w] (.ldhu h rd cs (.rev p)) := by
      intro w e
      have g87 : bits w.toNat 8 7 = 2 := (e.low 8 7 (by decide) (by decide)).trans (by unfold bits; omega)
      have g65 : bits w.toNat 6 5 = p.toNat := (e.low 6 5 (by decide) (by decide)).trans (by unfold bits; omega)
      have g40 : bits w.toNat 4 0 = 0 := (e.low 4 0 (by decide) (by decide)).trans (by unfold bits; omega)
      have hu : h.unit.toNat = 2 := unitIs hu
      all_goals
        have hU := e.unit.trans hu
        refine ⟨?_, ?_, ?_, ?_, e.stop, e.cond, .inl rfl⟩
        · simp only [List.getD_cons_zero, List.getD_cons_succ, List.getD_nil, decodeSyl, hU, u2Of, e.op, wFn, wRs2, wL, wImm, wAm, wX, wSys, immOf, immPOf, addrOf, g87, g65, g40, e.rd, e.rs1, wStop_long, longWord_low, ofNat_self, head_eq e]; try rfl
        · simp only [List.getD_cons_zero, touchesSig, usesSig, postMode, hU, e.op, wFn, wRs2, wL, wImm, wAm, wX, wSys, g87, g65, g40, e.rd, e.rs1] <;> first | rfl | simp
        · refine sylFault_none ?_ ?_ (by rw [List.getD_cons_zero, e.cond]; exact hc)
          · simp only [List.getD_cons_zero, illegal, hU, illegal2, illegalLoad, e.op, wFn, wRs2, wL, wImm, wAm, wX, wSys, g87, g65, g40, e.rd, e.rs1]
            try first | rfl | (simp [operandsOk, postInc, immPDefined, BitVec.toNat_eq] at ho; simp [badIf, userKnown, sysKnown]; omega)
          · simp only [List.getD_cons_zero, reservedSet, hU, reserved2, illegalLoad, e.op, wFn, wRs2, wL, wImm, wAm, wX, wSys, g87, g65, g40, e.rd, e.rs1]
            try first | rfl | (simp [operandsOk, postInc, immPDefined, BitVec.toNat_eq] at ho; simp [badIf, userKnown, sysKnown]; omega)
        · try simp only [List.getD_cons_zero, ownsLong, hU, e.op, wFn, wRs2, wL, wImm, wAm, wX, wSys, g87, g65, g40, e.rd, e.rs1] <;> first | rfl | simp
    exact key _ (enc_head h 4 rd.toNat cs.toNat (2 ^ 8 + p.toNat * 2 ^ 5) (by decide) (by omega) (by omega) (by omega))
  | long ls v =>
    have b_v := v.isLt
    obtain ⟨hu, ho, hl, hc⟩ := parts hs hw
    cases hs
    have key : ∀ w, Enc w h 4 rd.toNat cs.toNat (3 * 2 ^ 7) → Good h [w, longWord ls v] (.ldhu h rd cs (.long ls v)) := by
      intro w e
      have g87 : bits w.toNat 8 7 = 3 := (e.low 8 7 (by decide) (by decide)).trans (by unfold bits; omega)
      have g60 : bits w.toNat 6 0 = 0 := (e.low 6 0 (by decide) (by decide)).trans (by unfold bits; omega)
      have hu : h.unit.toNat = 2 := unitIs hu
      all_goals
        have hU := e.unit.trans hu
        refine ⟨?_, ?_, ?_, ?_, e.stop, e.cond, .inr ⟨rfl, by simpa [longOk, immShort, immPShort, addrShort] using hl⟩⟩
        · simp only [List.getD_cons_zero, List.getD_cons_succ, List.getD_nil, decodeSyl, hU, u2Of, e.op, wFn, wRs2, wL, wImm, wAm, wX, wSys, immOf, immPOf, addrOf, g87, g60, e.rd, e.rs1, wStop_long, longWord_low, ofNat_self, head_eq e]; try rfl
        · simp only [List.getD_cons_zero, touchesSig, usesSig, postMode, hU, e.op, wFn, wRs2, wL, wImm, wAm, wX, wSys, g87, g60, e.rd, e.rs1] <;> first | rfl | simp
        · refine sylFault_none ?_ ?_ (by rw [List.getD_cons_zero, e.cond]; exact hc)
          · simp only [List.getD_cons_zero, illegal, hU, illegal2, illegalLoad, e.op, wFn, wRs2, wL, wImm, wAm, wX, wSys, g87, g60, e.rd, e.rs1]
            try first | rfl | (simp [operandsOk, postInc, immPDefined, BitVec.toNat_eq] at ho; simp [badIf, userKnown, sysKnown]; omega)
          · simp only [List.getD_cons_zero, reservedSet, hU, reserved2, illegalLoad, e.op, wFn, wRs2, wL, wImm, wAm, wX, wSys, g87, g60, e.rd, e.rs1]
            try first | rfl | (simp [operandsOk, postInc, immPDefined, BitVec.toNat_eq] at ho; simp [badIf, userKnown, sysKnown]; omega)
        · try simp only [List.getD_cons_zero, ownsLong, hU, e.op, wFn, wRs2, wL, wImm, wAm, wX, wSys, g87, g60, e.rd, e.rs1] <;> first | rfl | simp
    exact key _ (enc_head h 4 rd.toNat cs.toNat (3 * 2 ^ 7) (by decide) (by omega) (by omega) (by omega))
theorem ldw (h rd cs am) : Statement (.ldw h rd cs am) := by
  have b_rd := rd.isLt
  have b_cs := cs.isLt
  intro h' hs hw
  cases am with
  | off x =>
    have b_x := x.isLt
    obtain ⟨hu, ho, hl, hc⟩ := parts hs hw
    cases hs
    have key : ∀ w, Enc w h 5 rd.toNat cs.toNat x.toNat → Good h [w] (.ldw h rd cs (.off x)) := by
      intro w e
      have g87 : bits w.toNat 8 7 = 0 := (e.low 8 7 (by decide) (by decide)).trans (by unfold bits; omega)
      have g60 : bits w.toNat 6 0 = x.toNat := (e.low 6 0 (by decide) (by decide)).trans (by unfold bits; omega)
      have hu : h.unit.toNat = 2 := unitIs hu
      all_goals
        have hU := e.unit.trans hu
        refine ⟨?_, ?_, ?_, ?_, e.stop, e.cond, .inl rfl⟩
        · simp only [List.getD_cons_zero, List.getD_cons_succ, List.getD_nil, decodeSyl, hU, u2Of, e.op, wFn, wRs2, wL, wImm, wAm, wX, wSys, immOf, immPOf, addrOf, g87, g60, e.rd, e.rs1, wStop_long, longWord_low, ofNat_self, head_eq e]; try rfl
        · simp only [List.getD_cons_zero, touchesSig, usesSig, postMode, hU, e.op, wFn, wRs2, wL, wImm, wAm, wX, wSys, g87, g60, e.rd, e.rs1] <;> first | rfl | simp
        · refine sylFault_none ?_ ?_ (by rw [List.getD_cons_zero, e.cond]; exact hc)
          · simp only [List.getD_cons_zero, illegal, hU, illegal2, illegalLoad, e.op, wFn, wRs2, wL, wImm, wAm, wX, wSys, g87, g60, e.rd, e.rs1]
            try first | rfl | (simp [operandsOk, postInc, immPDefined, BitVec.toNat_eq] at ho; simp [badIf, userKnown, sysKnown]; omega)
          · simp only [List.getD_cons_zero, reservedSet, hU, reserved2, illegalLoad, e.op, wFn, wRs2, wL, wImm, wAm, wX, wSys, g87, g60, e.rd, e.rs1]
            try first | rfl | (simp [operandsOk, postInc, immPDefined, BitVec.toNat_eq] at ho; simp [badIf, userKnown, sysKnown]; omega)
        · try simp only [List.getD_cons_zero, ownsLong, hU, e.op, wFn, wRs2, wL, wImm, wAm, wX, wSys, g87, g60, e.rd, e.rs1] <;> first | rfl | simp
    exact key _ (enc_head h 5 rd.toNat cs.toNat x.toNat (by decide) (by omega) (by omega) (by omega))
  | modulo p st =>
    have b_p := p.isLt
    have b_st := st.isLt
    obtain ⟨hu, ho, hl, hc⟩ := parts hs hw
    cases hs
    have key : ∀ w, Enc w h 5 rd.toNat cs.toNat (2 ^ 7 + p.toNat * 2 ^ 5 + st.toNat) → Good h [w] (.ldw h rd cs (.modulo p st)) := by
      intro w e
      have g87 : bits w.toNat 8 7 = 1 := (e.low 8 7 (by decide) (by decide)).trans (by unfold bits; omega)
      have g65 : bits w.toNat 6 5 = p.toNat := (e.low 6 5 (by decide) (by decide)).trans (by unfold bits; omega)
      have g40 : bits w.toNat 4 0 = st.toNat := (e.low 4 0 (by decide) (by decide)).trans (by unfold bits; omega)
      have hu : h.unit.toNat = 2 := unitIs hu
      all_goals
        have hU := e.unit.trans hu
        refine ⟨?_, ?_, ?_, ?_, e.stop, e.cond, .inl rfl⟩
        · simp only [List.getD_cons_zero, List.getD_cons_succ, List.getD_nil, decodeSyl, hU, u2Of, e.op, wFn, wRs2, wL, wImm, wAm, wX, wSys, immOf, immPOf, addrOf, g87, g65, g40, e.rd, e.rs1, wStop_long, longWord_low, ofNat_self, head_eq e]; try rfl
        · simp only [List.getD_cons_zero, touchesSig, usesSig, postMode, hU, e.op, wFn, wRs2, wL, wImm, wAm, wX, wSys, g87, g65, g40, e.rd, e.rs1] <;> first | rfl | simp
        · refine sylFault_none ?_ ?_ (by rw [List.getD_cons_zero, e.cond]; exact hc)
          · simp only [List.getD_cons_zero, illegal, hU, illegal2, illegalLoad, e.op, wFn, wRs2, wL, wImm, wAm, wX, wSys, g87, g65, g40, e.rd, e.rs1]
            try first | rfl | (simp [operandsOk, postInc, immPDefined, BitVec.toNat_eq] at ho; simp [badIf, userKnown, sysKnown]; omega)
          · simp only [List.getD_cons_zero, reservedSet, hU, reserved2, illegalLoad, e.op, wFn, wRs2, wL, wImm, wAm, wX, wSys, g87, g65, g40, e.rd, e.rs1]
            try first | rfl | (simp [operandsOk, postInc, immPDefined, BitVec.toNat_eq] at ho; simp [badIf, userKnown, sysKnown]; omega)
        · try simp only [List.getD_cons_zero, ownsLong, hU, e.op, wFn, wRs2, wL, wImm, wAm, wX, wSys, g87, g65, g40, e.rd, e.rs1] <;> first | rfl | simp
    exact key _ (enc_head h 5 rd.toNat cs.toNat (2 ^ 7 + p.toNat * 2 ^ 5 + st.toNat) (by decide) (by omega) (by omega) (by omega))
  | rev p =>
    have b_p := p.isLt
    obtain ⟨hu, ho, hl, hc⟩ := parts hs hw
    cases hs
    have key : ∀ w, Enc w h 5 rd.toNat cs.toNat (2 ^ 8 + p.toNat * 2 ^ 5) → Good h [w] (.ldw h rd cs (.rev p)) := by
      intro w e
      have g87 : bits w.toNat 8 7 = 2 := (e.low 8 7 (by decide) (by decide)).trans (by unfold bits; omega)
      have g65 : bits w.toNat 6 5 = p.toNat := (e.low 6 5 (by decide) (by decide)).trans (by unfold bits; omega)
      have g40 : bits w.toNat 4 0 = 0 := (e.low 4 0 (by decide) (by decide)).trans (by unfold bits; omega)
      have hu : h.unit.toNat = 2 := unitIs hu
      all_goals
        have hU := e.unit.trans hu
        refine ⟨?_, ?_, ?_, ?_, e.stop, e.cond, .inl rfl⟩
        · simp only [List.getD_cons_zero, List.getD_cons_succ, List.getD_nil, decodeSyl, hU, u2Of, e.op, wFn, wRs2, wL, wImm, wAm, wX, wSys, immOf, immPOf, addrOf, g87, g65, g40, e.rd, e.rs1, wStop_long, longWord_low, ofNat_self, head_eq e]; try rfl
        · simp only [List.getD_cons_zero, touchesSig, usesSig, postMode, hU, e.op, wFn, wRs2, wL, wImm, wAm, wX, wSys, g87, g65, g40, e.rd, e.rs1] <;> first | rfl | simp
        · refine sylFault_none ?_ ?_ (by rw [List.getD_cons_zero, e.cond]; exact hc)
          · simp only [List.getD_cons_zero, illegal, hU, illegal2, illegalLoad, e.op, wFn, wRs2, wL, wImm, wAm, wX, wSys, g87, g65, g40, e.rd, e.rs1]
            try first | rfl | (simp [operandsOk, postInc, immPDefined, BitVec.toNat_eq] at ho; simp [badIf, userKnown, sysKnown]; omega)
          · simp only [List.getD_cons_zero, reservedSet, hU, reserved2, illegalLoad, e.op, wFn, wRs2, wL, wImm, wAm, wX, wSys, g87, g65, g40, e.rd, e.rs1]
            try first | rfl | (simp [operandsOk, postInc, immPDefined, BitVec.toNat_eq] at ho; simp [badIf, userKnown, sysKnown]; omega)
        · try simp only [List.getD_cons_zero, ownsLong, hU, e.op, wFn, wRs2, wL, wImm, wAm, wX, wSys, g87, g65, g40, e.rd, e.rs1] <;> first | rfl | simp
    exact key _ (enc_head h 5 rd.toNat cs.toNat (2 ^ 8 + p.toNat * 2 ^ 5) (by decide) (by omega) (by omega) (by omega))
  | long ls v =>
    have b_v := v.isLt
    obtain ⟨hu, ho, hl, hc⟩ := parts hs hw
    cases hs
    have key : ∀ w, Enc w h 5 rd.toNat cs.toNat (3 * 2 ^ 7) → Good h [w, longWord ls v] (.ldw h rd cs (.long ls v)) := by
      intro w e
      have g87 : bits w.toNat 8 7 = 3 := (e.low 8 7 (by decide) (by decide)).trans (by unfold bits; omega)
      have g60 : bits w.toNat 6 0 = 0 := (e.low 6 0 (by decide) (by decide)).trans (by unfold bits; omega)
      have hu : h.unit.toNat = 2 := unitIs hu
      all_goals
        have hU := e.unit.trans hu
        refine ⟨?_, ?_, ?_, ?_, e.stop, e.cond, .inr ⟨rfl, by simpa [longOk, immShort, immPShort, addrShort] using hl⟩⟩
        · simp only [List.getD_cons_zero, List.getD_cons_succ, List.getD_nil, decodeSyl, hU, u2Of, e.op, wFn, wRs2, wL, wImm, wAm, wX, wSys, immOf, immPOf, addrOf, g87, g60, e.rd, e.rs1, wStop_long, longWord_low, ofNat_self, head_eq e]; try rfl
        · simp only [List.getD_cons_zero, touchesSig, usesSig, postMode, hU, e.op, wFn, wRs2, wL, wImm, wAm, wX, wSys, g87, g60, e.rd, e.rs1] <;> first | rfl | simp
        · refine sylFault_none ?_ ?_ (by rw [List.getD_cons_zero, e.cond]; exact hc)
          · simp only [List.getD_cons_zero, illegal, hU, illegal2, illegalLoad, e.op, wFn, wRs2, wL, wImm, wAm, wX, wSys, g87, g60, e.rd, e.rs1]
            try first | rfl | (simp [operandsOk, postInc, immPDefined, BitVec.toNat_eq] at ho; simp [badIf, userKnown, sysKnown]; omega)
          · simp only [List.getD_cons_zero, reservedSet, hU, reserved2, illegalLoad, e.op, wFn, wRs2, wL, wImm, wAm, wX, wSys, g87, g60, e.rd, e.rs1]
            try first | rfl | (simp [operandsOk, postInc, immPDefined, BitVec.toNat_eq] at ho; simp [badIf, userKnown, sysKnown]; omega)
        · try simp only [List.getD_cons_zero, ownsLong, hU, e.op, wFn, wRs2, wL, wImm, wAm, wX, wSys, g87, g60, e.rd, e.rs1] <;> first | rfl | simp
    exact key _ (enc_head h 5 rd.toNat cs.toNat (3 * 2 ^ 7) (by decide) (by omega) (by omega) (by omega))
theorem ldwu (h rd cs am) : Statement (.ldwu h rd cs am) := by
  have b_rd := rd.isLt
  have b_cs := cs.isLt
  intro h' hs hw
  cases am with
  | off x =>
    have b_x := x.isLt
    obtain ⟨hu, ho, hl, hc⟩ := parts hs hw
    cases hs
    have key : ∀ w, Enc w h 6 rd.toNat cs.toNat x.toNat → Good h [w] (.ldwu h rd cs (.off x)) := by
      intro w e
      have g87 : bits w.toNat 8 7 = 0 := (e.low 8 7 (by decide) (by decide)).trans (by unfold bits; omega)
      have g60 : bits w.toNat 6 0 = x.toNat := (e.low 6 0 (by decide) (by decide)).trans (by unfold bits; omega)
      have hu : h.unit.toNat = 2 := unitIs hu
      all_goals
        have hU := e.unit.trans hu
        refine ⟨?_, ?_, ?_, ?_, e.stop, e.cond, .inl rfl⟩
        · simp only [List.getD_cons_zero, List.getD_cons_succ, List.getD_nil, decodeSyl, hU, u2Of, e.op, wFn, wRs2, wL, wImm, wAm, wX, wSys, immOf, immPOf, addrOf, g87, g60, e.rd, e.rs1, wStop_long, longWord_low, ofNat_self, head_eq e]; try rfl
        · simp only [List.getD_cons_zero, touchesSig, usesSig, postMode, hU, e.op, wFn, wRs2, wL, wImm, wAm, wX, wSys, g87, g60, e.rd, e.rs1] <;> first | rfl | simp
        · refine sylFault_none ?_ ?_ (by rw [List.getD_cons_zero, e.cond]; exact hc)
          · simp only [List.getD_cons_zero, illegal, hU, illegal2, illegalLoad, e.op, wFn, wRs2, wL, wImm, wAm, wX, wSys, g87, g60, e.rd, e.rs1]
            try first | rfl | (simp [operandsOk, postInc, immPDefined, BitVec.toNat_eq] at ho; simp [badIf, userKnown, sysKnown]; omega)
          · simp only [List.getD_cons_zero, reservedSet, hU, reserved2, illegalLoad, e.op, wFn, wRs2, wL, wImm, wAm, wX, wSys, g87, g60, e.rd, e.rs1]
            try first | rfl | (simp [operandsOk, postInc, immPDefined, BitVec.toNat_eq] at ho; simp [badIf, userKnown, sysKnown]; omega)
        · try simp only [List.getD_cons_zero, ownsLong, hU, e.op, wFn, wRs2, wL, wImm, wAm, wX, wSys, g87, g60, e.rd, e.rs1] <;> first | rfl | simp
    exact key _ (enc_head h 6 rd.toNat cs.toNat x.toNat (by decide) (by omega) (by omega) (by omega))
  | modulo p st =>
    have b_p := p.isLt
    have b_st := st.isLt
    obtain ⟨hu, ho, hl, hc⟩ := parts hs hw
    cases hs
    have key : ∀ w, Enc w h 6 rd.toNat cs.toNat (2 ^ 7 + p.toNat * 2 ^ 5 + st.toNat) → Good h [w] (.ldwu h rd cs (.modulo p st)) := by
      intro w e
      have g87 : bits w.toNat 8 7 = 1 := (e.low 8 7 (by decide) (by decide)).trans (by unfold bits; omega)
      have g65 : bits w.toNat 6 5 = p.toNat := (e.low 6 5 (by decide) (by decide)).trans (by unfold bits; omega)
      have g40 : bits w.toNat 4 0 = st.toNat := (e.low 4 0 (by decide) (by decide)).trans (by unfold bits; omega)
      have hu : h.unit.toNat = 2 := unitIs hu
      all_goals
        have hU := e.unit.trans hu
        refine ⟨?_, ?_, ?_, ?_, e.stop, e.cond, .inl rfl⟩
        · simp only [List.getD_cons_zero, List.getD_cons_succ, List.getD_nil, decodeSyl, hU, u2Of, e.op, wFn, wRs2, wL, wImm, wAm, wX, wSys, immOf, immPOf, addrOf, g87, g65, g40, e.rd, e.rs1, wStop_long, longWord_low, ofNat_self, head_eq e]; try rfl
        · simp only [List.getD_cons_zero, touchesSig, usesSig, postMode, hU, e.op, wFn, wRs2, wL, wImm, wAm, wX, wSys, g87, g65, g40, e.rd, e.rs1] <;> first | rfl | simp
        · refine sylFault_none ?_ ?_ (by rw [List.getD_cons_zero, e.cond]; exact hc)
          · simp only [List.getD_cons_zero, illegal, hU, illegal2, illegalLoad, e.op, wFn, wRs2, wL, wImm, wAm, wX, wSys, g87, g65, g40, e.rd, e.rs1]
            try first | rfl | (simp [operandsOk, postInc, immPDefined, BitVec.toNat_eq] at ho; simp [badIf, userKnown, sysKnown]; omega)
          · simp only [List.getD_cons_zero, reservedSet, hU, reserved2, illegalLoad, e.op, wFn, wRs2, wL, wImm, wAm, wX, wSys, g87, g65, g40, e.rd, e.rs1]
            try first | rfl | (simp [operandsOk, postInc, immPDefined, BitVec.toNat_eq] at ho; simp [badIf, userKnown, sysKnown]; omega)
        · try simp only [List.getD_cons_zero, ownsLong, hU, e.op, wFn, wRs2, wL, wImm, wAm, wX, wSys, g87, g65, g40, e.rd, e.rs1] <;> first | rfl | simp
    exact key _ (enc_head h 6 rd.toNat cs.toNat (2 ^ 7 + p.toNat * 2 ^ 5 + st.toNat) (by decide) (by omega) (by omega) (by omega))
  | rev p =>
    have b_p := p.isLt
    obtain ⟨hu, ho, hl, hc⟩ := parts hs hw
    cases hs
    have key : ∀ w, Enc w h 6 rd.toNat cs.toNat (2 ^ 8 + p.toNat * 2 ^ 5) → Good h [w] (.ldwu h rd cs (.rev p)) := by
      intro w e
      have g87 : bits w.toNat 8 7 = 2 := (e.low 8 7 (by decide) (by decide)).trans (by unfold bits; omega)
      have g65 : bits w.toNat 6 5 = p.toNat := (e.low 6 5 (by decide) (by decide)).trans (by unfold bits; omega)
      have g40 : bits w.toNat 4 0 = 0 := (e.low 4 0 (by decide) (by decide)).trans (by unfold bits; omega)
      have hu : h.unit.toNat = 2 := unitIs hu
      all_goals
        have hU := e.unit.trans hu
        refine ⟨?_, ?_, ?_, ?_, e.stop, e.cond, .inl rfl⟩
        · simp only [List.getD_cons_zero, List.getD_cons_succ, List.getD_nil, decodeSyl, hU, u2Of, e.op, wFn, wRs2, wL, wImm, wAm, wX, wSys, immOf, immPOf, addrOf, g87, g65, g40, e.rd, e.rs1, wStop_long, longWord_low, ofNat_self, head_eq e]; try rfl
        · simp only [List.getD_cons_zero, touchesSig, usesSig, postMode, hU, e.op, wFn, wRs2, wL, wImm, wAm, wX, wSys, g87, g65, g40, e.rd, e.rs1] <;> first | rfl | simp
        · refine sylFault_none ?_ ?_ (by rw [List.getD_cons_zero, e.cond]; exact hc)
          · simp only [List.getD_cons_zero, illegal, hU, illegal2, illegalLoad, e.op, wFn, wRs2, wL, wImm, wAm, wX, wSys, g87, g65, g40, e.rd, e.rs1]
            try first | rfl | (simp [operandsOk, postInc, immPDefined, BitVec.toNat_eq] at ho; simp [badIf, userKnown, sysKnown]; omega)
          · simp only [List.getD_cons_zero, reservedSet, hU, reserved2, illegalLoad, e.op, wFn, wRs2, wL, wImm, wAm, wX, wSys, g87, g65, g40, e.rd, e.rs1]
            try first | rfl | (simp [operandsOk, postInc, immPDefined, BitVec.toNat_eq] at ho; simp [badIf, userKnown, sysKnown]; omega)
        · try simp only [List.getD_cons_zero, ownsLong, hU, e.op, wFn, wRs2, wL, wImm, wAm, wX, wSys, g87, g65, g40, e.rd, e.rs1] <;> first | rfl | simp
    exact key _ (enc_head h 6 rd.toNat cs.toNat (2 ^ 8 + p.toNat * 2 ^ 5) (by decide) (by omega) (by omega) (by omega))
  | long ls v =>
    have b_v := v.isLt
    obtain ⟨hu, ho, hl, hc⟩ := parts hs hw
    cases hs
    have key : ∀ w, Enc w h 6 rd.toNat cs.toNat (3 * 2 ^ 7) → Good h [w, longWord ls v] (.ldwu h rd cs (.long ls v)) := by
      intro w e
      have g87 : bits w.toNat 8 7 = 3 := (e.low 8 7 (by decide) (by decide)).trans (by unfold bits; omega)
      have g60 : bits w.toNat 6 0 = 0 := (e.low 6 0 (by decide) (by decide)).trans (by unfold bits; omega)
      have hu : h.unit.toNat = 2 := unitIs hu
      all_goals
        have hU := e.unit.trans hu
        refine ⟨?_, ?_, ?_, ?_, e.stop, e.cond, .inr ⟨rfl, by simpa [longOk, immShort, immPShort, addrShort] using hl⟩⟩
        · simp only [List.getD_cons_zero, List.getD_cons_succ, List.getD_nil, decodeSyl, hU, u2Of, e.op, wFn, wRs2, wL, wImm, wAm, wX, wSys, immOf, immPOf, addrOf, g87, g60, e.rd, e.rs1, wStop_long, longWord_low, ofNat_self, head_eq e]; try rfl
        · simp only [List.getD_cons_zero, touchesSig, usesSig, postMode, hU, e.op, wFn, wRs2, wL, wImm, wAm, wX, wSys, g87, g60, e.rd, e.rs1] <;> first | rfl | simp
        · refine sylFault_none ?_ ?_ (by rw [List.getD_cons_zero, e.cond]; exact hc)
          · simp only [List.getD_cons_zero, illegal, hU, illegal2, illegalLoad, e.op, wFn, wRs2, wL, wImm, wAm, wX, wSys, g87, g60, e.rd, e.rs1]
            try first | rfl | (simp [operandsOk, postInc, immPDefined, BitVec.toNat_eq] at ho; simp [badIf, userKnown, sysKnown]; omega)
          · simp only [List.getD_cons_zero, reservedSet, hU, reserved2, illegalLoad, e.op, wFn, wRs2, wL, wImm, wAm, wX, wSys, g87, g60, e.rd, e.rs1]
            try first | rfl | (simp [operandsOk, postInc, immPDefined, BitVec.toNat_eq] at ho; simp [badIf, userKnown, sysKnown]; omega)
        · try simp only [List.getD_cons_zero, ownsLong, hU, e.op, wFn, wRs2, wL, wImm, wAm, wX, wSys, g87, g60, e.rd, e.rs1] <;> first | rfl | simp
    exact key _ (enc_head h 6 rd.toNat cs.toNat (3 * 2 ^ 7) (by decide) (by omega) (by omega) (by omega))
theorem ldd (h rd cs am) : Statement (.ldd h rd cs am) := by
  have b_rd := rd.isLt
  have b_cs := cs.isLt
  intro h' hs hw
  cases am with
  | off x =>
    have b_x := x.isLt
    obtain ⟨hu, ho, hl, hc⟩ := parts hs hw
    cases hs
    have key : ∀ w, Enc w h 7 rd.toNat cs.toNat x.toNat → Good h [w] (.ldd h rd cs (.off x)) := by
      intro w e
      have g87 : bits w.toNat 8 7 = 0 := (e.low 8 7 (by decide) (by decide)).trans (by unfold bits; omega)
      have g60 : bits w.toNat 6 0 = x.toNat := (e.low 6 0 (by decide) (by decide)).trans (by unfold bits; omega)
      have hu : h.unit.toNat = 2 := unitIs hu
      all_goals
        have hU := e.unit.trans hu
        refine ⟨?_, ?_, ?_, ?_, e.stop, e.cond, .inl rfl⟩
        · simp only [List.getD_cons_zero, List.getD_cons_succ, List.getD_nil, decodeSyl, hU, u2Of, e.op, wFn, wRs2, wL, wImm, wAm, wX, wSys, immOf, immPOf, addrOf, g87, g60, e.rd, e.rs1, wStop_long, longWord_low, ofNat_self, head_eq e]; try rfl
        · simp only [List.getD_cons_zero, touchesSig, usesSig, postMode, hU, e.op, wFn, wRs2, wL, wImm, wAm, wX, wSys, g87, g60, e.rd, e.rs1] <;> first | rfl | simp
        · refine sylFault_none ?_ ?_ (by rw [List.getD_cons_zero, e.cond]; exact hc)
          · simp only [List.getD_cons_zero, illegal, hU, illegal2, illegalLoad, e.op, wFn, wRs2, wL, wImm, wAm, wX, wSys, g87, g60, e.rd, e.rs1]
            try first | rfl | (simp [operandsOk, postInc, immPDefined, BitVec.toNat_eq] at ho; simp [badIf, userKnown, sysKnown]; omega)
          · simp only [List.getD_cons_zero, reservedSet, hU, reserved2, illegalLoad, e.op, wFn, wRs2, wL, wImm, wAm, wX, wSys, g87, g60, e.rd, e.rs1]
            try first | rfl | (simp [operandsOk, postInc, immPDefined, BitVec.toNat_eq] at ho; simp [badIf, userKnown, sysKnown]; omega)
        · try simp only [List.getD_cons_zero, ownsLong, hU, e.op, wFn, wRs2, wL, wImm, wAm, wX, wSys, g87, g60, e.rd, e.rs1] <;> first | rfl | simp
    exact key _ (enc_head h 7 rd.toNat cs.toNat x.toNat (by decide) (by omega) (by omega) (by omega))
  | modulo p st =>
    have b_p := p.isLt
    have b_st := st.isLt
    obtain ⟨hu, ho, hl, hc⟩ := parts hs hw
    cases hs
    have key : ∀ w, Enc w h 7 rd.toNat cs.toNat (2 ^ 7 + p.toNat * 2 ^ 5 + st.toNat) → Good h [w] (.ldd h rd cs (.modulo p st)) := by
      intro w e
      have g87 : bits w.toNat 8 7 = 1 := (e.low 8 7 (by decide) (by decide)).trans (by unfold bits; omega)
      have g65 : bits w.toNat 6 5 = p.toNat := (e.low 6 5 (by decide) (by decide)).trans (by unfold bits; omega)
      have g40 : bits w.toNat 4 0 = st.toNat := (e.low 4 0 (by decide) (by decide)).trans (by unfold bits; omega)
      have hu : h.unit.toNat = 2 := unitIs hu
      all_goals
        have hU := e.unit.trans hu
        refine ⟨?_, ?_, ?_, ?_, e.stop, e.cond, .inl rfl⟩
        · simp only [List.getD_cons_zero, List.getD_cons_succ, List.getD_nil, decodeSyl, hU, u2Of, e.op, wFn, wRs2, wL, wImm, wAm, wX, wSys, immOf, immPOf, addrOf, g87, g65, g40, e.rd, e.rs1, wStop_long, longWord_low, ofNat_self, head_eq e]; try rfl
        · simp only [List.getD_cons_zero, touchesSig, usesSig, postMode, hU, e.op, wFn, wRs2, wL, wImm, wAm, wX, wSys, g87, g65, g40, e.rd, e.rs1] <;> first | rfl | simp
        · refine sylFault_none ?_ ?_ (by rw [List.getD_cons_zero, e.cond]; exact hc)
          · simp only [List.getD_cons_zero, illegal, hU, illegal2, illegalLoad, e.op, wFn, wRs2, wL, wImm, wAm, wX, wSys, g87, g65, g40, e.rd, e.rs1]
            try first | rfl | (simp [operandsOk, postInc, immPDefined, BitVec.toNat_eq] at ho; simp [badIf, userKnown, sysKnown]; omega)
          · simp only [List.getD_cons_zero, reservedSet, hU, reserved2, illegalLoad, e.op, wFn, wRs2, wL, wImm, wAm, wX, wSys, g87, g65, g40, e.rd, e.rs1]
            try first | rfl | (simp [operandsOk, postInc, immPDefined, BitVec.toNat_eq] at ho; simp [badIf, userKnown, sysKnown]; omega)
        · try simp only [List.getD_cons_zero, ownsLong, hU, e.op, wFn, wRs2, wL, wImm, wAm, wX, wSys, g87, g65, g40, e.rd, e.rs1] <;> first | rfl | simp
    exact key _ (enc_head h 7 rd.toNat cs.toNat (2 ^ 7 + p.toNat * 2 ^ 5 + st.toNat) (by decide) (by omega) (by omega) (by omega))
  | rev p =>
    have b_p := p.isLt
    obtain ⟨hu, ho, hl, hc⟩ := parts hs hw
    cases hs
    have key : ∀ w, Enc w h 7 rd.toNat cs.toNat (2 ^ 8 + p.toNat * 2 ^ 5) → Good h [w] (.ldd h rd cs (.rev p)) := by
      intro w e
      have g87 : bits w.toNat 8 7 = 2 := (e.low 8 7 (by decide) (by decide)).trans (by unfold bits; omega)
      have g65 : bits w.toNat 6 5 = p.toNat := (e.low 6 5 (by decide) (by decide)).trans (by unfold bits; omega)
      have g40 : bits w.toNat 4 0 = 0 := (e.low 4 0 (by decide) (by decide)).trans (by unfold bits; omega)
      have hu : h.unit.toNat = 2 := unitIs hu
      all_goals
        have hU := e.unit.trans hu
        refine ⟨?_, ?_, ?_, ?_, e.stop, e.cond, .inl rfl⟩
        · simp only [List.getD_cons_zero, List.getD_cons_succ, List.getD_nil, decodeSyl, hU, u2Of, e.op, wFn, wRs2, wL, wImm, wAm, wX, wSys, immOf, immPOf, addrOf, g87, g65, g40, e.rd, e.rs1, wStop_long, longWord_low, ofNat_self, head_eq e]; try rfl
        · simp only [List.getD_cons_zero, touchesSig, usesSig, postMode, hU, e.op, wFn, wRs2, wL, wImm, wAm, wX, wSys, g87, g65, g40, e.rd, e.rs1] <;> first | rfl | simp
        · refine sylFault_none ?_ ?_ (by rw [List.getD_cons_zero, e.cond]; exact hc)
          · simp only [List.getD_cons_zero, illegal, hU, illegal2, illegalLoad, e.op, wFn, wRs2, wL, wImm, wAm, wX, wSys, g87, g65, g40, e.rd, e.rs1]
            try first | rfl | (simp [operandsOk, postInc, immPDefined, BitVec.toNat_eq] at ho; simp [badIf, userKnown, sysKnown]; omega)
          · simp only [List.getD_cons_zero, reservedSet, hU, reserved2, illegalLoad, e.op, wFn, wRs2, wL, wImm, wAm, wX, wSys, g87, g65, g40, e.rd, e.rs1]
            try first | rfl | (simp [operandsOk, postInc, immPDefined, BitVec.toNat_eq] at ho; simp [badIf, userKnown, sysKnown]; omega)
        · try simp only [List.getD_cons_zero, ownsLong, hU, e.op, wFn, wRs2, wL, wImm, wAm, wX, wSys, g87, g65, g40, e.rd, e.rs1] <;> first | rfl | simp
    exact key _ (enc_head h 7 rd.toNat cs.toNat (2 ^ 8 + p.toNat * 2 ^ 5) (by decide) (by omega) (by omega) (by omega))
  | long ls v =>
    have b_v := v.isLt
    obtain ⟨hu, ho, hl, hc⟩ := parts hs hw
    cases hs
    have key : ∀ w, Enc w h 7 rd.toNat cs.toNat (3 * 2 ^ 7) → Good h [w, longWord ls v] (.ldd h rd cs (.long ls v)) := by
      intro w e
      have g87 : bits w.toNat 8 7 = 3 := (e.low 8 7 (by decide) (by decide)).trans (by unfold bits; omega)
      have g60 : bits w.toNat 6 0 = 0 := (e.low 6 0 (by decide) (by decide)).trans (by unfold bits; omega)
      have hu : h.unit.toNat = 2 := unitIs hu
      all_goals
        have hU := e.unit.trans hu
        refine ⟨?_, ?_, ?_, ?_, e.stop, e.cond, .inr ⟨rfl, by simpa [longOk, immShort, immPShort, addrShort] using hl⟩⟩
        · simp only [List.getD_cons_zero, List.getD_cons_succ, List.getD_nil, decodeSyl, hU, u2Of, e.op, wFn, wRs2, wL, wImm, wAm, wX, wSys, immOf, immPOf, addrOf, g87, g60, e.rd, e.rs1, wStop_long, longWord_low, ofNat_self, head_eq e]; try rfl
        · simp only [List.getD_cons_zero, touchesSig, usesSig, postMode, hU, e.op, wFn, wRs2, wL, wImm, wAm, wX, wSys, g87, g60, e.rd, e.rs1] <;> first | rfl | simp
        · refine sylFault_none ?_ ?_ (by rw [List.getD_cons_zero, e.cond]; exact hc)
          · simp only [List.getD_cons_zero, illegal, hU, illegal2, illegalLoad, e.op, wFn, wRs2, wL, wImm, wAm, wX, wSys, g87, g60, e.rd, e.rs1]
            try first | rfl | (simp [operandsOk, postInc, immPDefined, BitVec.toNat_eq] at ho; simp [badIf, userKnown, sysKnown]; omega)
          · simp only [List.getD_cons_zero, reservedSet, hU, reserved2, illegalLoad, e.op, wFn, wRs2, wL, wImm, wAm, wX, wSys, g87, g60, e.rd, e.rs1]
            try first | rfl | (simp [operandsOk, postInc, immPDefined, BitVec.toNat_eq] at ho; simp [badIf, userKnown, sysKnown]; omega)
        · try simp only [List.getD_cons_zero, ownsLong, hU, e.op, wFn, wRs2, wL, wImm, wAm, wX, wSys, g87, g60, e.rd, e.rs1] <;> first | rfl | simp
    exact key _ (enc_head h 7 rd.toNat cs.toNat (3 * 2 ^ 7) (by decide) (by omega) (by omega) (by omega))
theorem ldc (h rd cs am) : Statement (.ldc h rd cs am) := by
  have b_rd := rd.isLt
  have b_cs := cs.isLt
  intro h' hs hw
  cases am with
  | off x =>
    have b_x := x.isLt
    obtain ⟨hu, ho, hl, hc⟩ := parts hs hw
    cases hs
    have key : ∀ w, Enc w h 8 rd.toNat cs.toNat x.toNat → Good h [w] (.ldc h rd cs (.off x)) := by
      intro w e
      have g87 : bits w.toNat 8 7 = 0 := (e.low 8 7 (by decide) (by decide)).trans (by unfold bits; omega)
      have g60 : bits w.toNat 6 0 = x.toNat := (e.low 6 0 (by decide) (by decide)).trans (by unfold bits; omega)
      have hu : h.unit.toNat = 2 := unitIs hu
      all_goals
        have hU := e.unit.trans hu
        refine ⟨?_, ?_, ?_, ?_, e.stop, e.cond, .inl rfl⟩
        · simp only [List.getD_cons_zero, List.getD_cons_succ, List.getD_nil, decodeSyl, hU, u2Of, e.op, wFn, wRs2, wL, wImm, wAm, wX, wSys, immOf, immPOf, addrOf, g87, g60, e.rd, e.rs1, wStop_long, longWord_low, ofNat_self, head_eq e]; try rfl
        · simp only [List.getD_cons_zero, touchesSig, usesSig, postMode, hU, e.op, wFn, wRs2, wL, wImm, wAm, wX, wSys, g87, g60, e.rd, e.rs1] <;> first | rfl | simp
        · refine sylFault_none ?_ ?_ (by rw [List.getD_cons_zero, e.cond]; exact hc)
          · simp only [List.getD_cons_zero, illegal, hU, illegal2, illegalLoad, e.op, wFn, wRs2, wL, wImm, wAm, wX, wSys, g87, g60, e.rd, e.rs1]
            try first | rfl | (simp [operandsOk, postInc, immPDefined, BitVec.toNat_eq] at ho; simp [badIf, userKnown, sysKnown]; omega)
          · simp only [List.getD_cons_zero, reservedSet, hU, reserved2, illegalLoad, e.op, wFn, wRs2, wL, wImm, wAm, wX, wSys, g87, g60, e.rd, e.rs1]
            try first | rfl | (simp [operandsOk, postInc, immPDefined, BitVec.toNat_eq] at ho; simp [badIf, userKnown, sysKnown]; omega)
        · try simp only [List.getD_cons_zero, ownsLong, hU, e.op, wFn, wRs2, wL, wImm, wAm, wX, wSys, g87, g60, e.rd, e.rs1] <;> first | rfl | simp
    exact key _ (enc_head h 8 rd.toNat cs.toNat x.toNat (by decide) (by omega) (by omega) (by omega))
  | modulo p st =>
    have b_p := p.isLt
    have b_st := st.isLt
    obtain ⟨hu, ho, hl, hc⟩ := parts hs hw
    cases hs
    have key : ∀ w, Enc w h 8 rd.toNat cs.toNat (2 ^ 7 + p.toNat * 2 ^ 5 + st.toNat) → Good h [w] (.ldc h rd cs (.modulo p st)) := by
      intro w e
      have g87 : bits w.toNat 8 7 = 1 := (e.low 8 7 (by decide) (by decide)).trans (by unfold bits; omega)
      have g65 : bits w.toNat 6 5 = p.toNat := (e.low 6 5 (by decide) (by decide)).trans (by unfold bits; omega)
      have g40 : bits w.toNat 4 0 = st.toNat := (e.low 4 0 (by decide) (by decide)).trans (by unfold bits; omega)
      have hu : h.unit.toNat = 2 := unitIs hu
      all_goals
        have hU := e.unit.trans hu
        refine ⟨?_, ?_, ?_, ?_, e.stop, e.cond, .inl rfl⟩
        · simp only [List.getD_cons_zero, List.getD_cons_succ, List.getD_nil, decodeSyl, hU, u2Of, e.op, wFn, wRs2, wL, wImm, wAm, wX, wSys, immOf, immPOf, addrOf, g87, g65, g40, e.rd, e.rs1, wStop_long, longWord_low, ofNat_self, head_eq e]; try rfl
        · simp only [List.getD_cons_zero, touchesSig, usesSig, postMode, hU, e.op, wFn, wRs2, wL, wImm, wAm, wX, wSys, g87, g65, g40, e.rd, e.rs1] <;> first | rfl | simp
        · refine sylFault_none ?_ ?_ (by rw [List.getD_cons_zero, e.cond]; exact hc)
          · simp only [List.getD_cons_zero, illegal, hU, illegal2, illegalLoad, e.op, wFn, wRs2, wL, wImm, wAm, wX, wSys, g87, g65, g40, e.rd, e.rs1]
            try first | rfl | (simp [operandsOk, postInc, immPDefined, BitVec.toNat_eq] at ho; simp [badIf, userKnown, sysKnown]; omega)
          · simp only [List.getD_cons_zero, reservedSet, hU, reserved2, illegalLoad, e.op, wFn, wRs2, wL, wImm, wAm, wX, wSys, g87, g65, g40, e.rd, e.rs1]
            try first | rfl | (simp [operandsOk, postInc, immPDefined, BitVec.toNat_eq] at ho; simp [badIf, userKnown, sysKnown]; omega)
        · try simp only [List.getD_cons_zero, ownsLong, hU, e.op, wFn, wRs2, wL, wImm, wAm, wX, wSys, g87, g65, g40, e.rd, e.rs1] <;> first | rfl | simp
    exact key _ (enc_head h 8 rd.toNat cs.toNat (2 ^ 7 + p.toNat * 2 ^ 5 + st.toNat) (by decide) (by omega) (by omega) (by omega))
  | rev p =>
    have b_p := p.isLt
    obtain ⟨hu, ho, hl, hc⟩ := parts hs hw
    cases hs
    have key : ∀ w, Enc w h 8 rd.toNat cs.toNat (2 ^ 8 + p.toNat * 2 ^ 5) → Good h [w] (.ldc h rd cs (.rev p)) := by
      intro w e
      have g87 : bits w.toNat 8 7 = 2 := (e.low 8 7 (by decide) (by decide)).trans (by unfold bits; omega)
      have g65 : bits w.toNat 6 5 = p.toNat := (e.low 6 5 (by decide) (by decide)).trans (by unfold bits; omega)
      have g40 : bits w.toNat 4 0 = 0 := (e.low 4 0 (by decide) (by decide)).trans (by unfold bits; omega)
      have hu : h.unit.toNat = 2 := unitIs hu
      all_goals
        have hU := e.unit.trans hu
        refine ⟨?_, ?_, ?_, ?_, e.stop, e.cond, .inl rfl⟩
        · simp only [List.getD_cons_zero, List.getD_cons_succ, List.getD_nil, decodeSyl, hU, u2Of, e.op, wFn, wRs2, wL, wImm, wAm, wX, wSys, immOf, immPOf, addrOf, g87, g65, g40, e.rd, e.rs1, wStop_long, longWord_low, ofNat_self, head_eq e]; try rfl
        · simp only [List.getD_cons_zero, touchesSig, usesSig, postMode, hU, e.op, wFn, wRs2, wL, wImm, wAm, wX, wSys, g87, g65, g40, e.rd, e.rs1] <;> first | rfl | simp
        · refine sylFault_none ?_ ?_ (by rw [List.getD_cons_zero, e.cond]; exact hc)
          · simp only [List.getD_cons_zero, illegal, hU, illegal2, illegalLoad, e.op, wFn, wRs2, wL, wImm, wAm, wX, wSys, g87, g65, g40, e.rd, e.rs1]
            try first | rfl | (simp [operandsOk, postInc, immPDefined, BitVec.toNat_eq] at ho; simp [badIf, userKnown, sysKnown]; omega)
          · simp only [List.getD_cons_zero, reservedSet, hU, reserved2, illegalLoad, e.op, wFn, wRs2, wL, wImm, wAm, wX, wSys, g87, g65, g40, e.rd, e.rs1]
            try first | rfl | (simp [operandsOk, postInc, immPDefined, BitVec.toNat_eq] at ho; simp [badIf, userKnown, sysKnown]; omega)
        · try simp only [List.getD_cons_zero, ownsLong, hU, e.op, wFn, wRs2, wL, wImm, wAm, wX, wSys, g87, g65, g40, e.rd, e.rs1] <;> first | rfl | simp
    exact key _ (enc_head h 8 rd.toNat cs.toNat (2 ^ 8 + p.toNat * 2 ^ 5) (by decide) (by omega) (by omega) (by omega))
  | long ls v =>
    have b_v := v.isLt
    obtain ⟨hu, ho, hl, hc⟩ := parts hs hw
    cases hs
    have key : ∀ w, Enc w h 8 rd.toNat cs.toNat (3 * 2 ^ 7) → Good h [w, longWord ls v] (.ldc h rd cs (.long ls v)) := by
      intro w e
      have g87 : bits w.toNat 8 7 = 3 := (e.low 8 7 (by decide) (by decide)).trans (by unfold bits; omega)
      have g60 : bits w.toNat 6 0 = 0 := (e.low 6 0 (by decide) (by decide)).trans (by unfold bits; omega)
      have hu : h.unit.toNat = 2 := unitIs hu
      all_goals
        have hU := e.unit.trans hu
        refine ⟨?_, ?_, ?_, ?_, e.stop, e.cond, .inr ⟨rfl, by simpa [longOk, immShort, immPShort, addrShort] using hl⟩⟩
        · simp only [List.getD_cons_zero, List.getD_cons_succ, List.getD_nil, decodeSyl, hU, u2Of, e.op, wFn, wRs2, wL, wImm, wAm, wX, wSys, immOf, immPOf, addrOf, g87, g60, e.rd, e.rs1, wStop_long, longWord_low, ofNat_self, head_eq e]; try rfl
        · simp only [List.getD_cons_zero, touchesSig, usesSig, postMode, hU, e.op, wFn, wRs2, wL, wImm, wAm, wX, wSys, g87, g60, e.rd, e.rs1] <;> first | rfl | simp
        · refine sylFault_none ?_ ?_ (by rw [List.getD_cons_zero, e.cond]; exact hc)
          · simp only [List.getD_cons_zero, illegal, hU, illegal2, illegalLoad, e.op, wFn, wRs2, wL, wImm, wAm, wX, wSys, g87, g60, e.rd, e.rs1]
            try first | rfl | (simp [operandsOk, postInc, immPDefined, BitVec.toNat_eq] at ho; simp [badIf, userKnown, sysKnown]; omega)
          · simp only [List.getD_cons_zero, reservedSet, hU, reserved2, illegalLoad, e.op, wFn, wRs2, wL, wImm, wAm, wX, wSys, g87, g60, e.rd, e.rs1]
            try first | rfl | (simp [operandsOk, postInc, immPDefined, BitVec.toNat_eq] at ho; simp [badIf, userKnown, sysKnown]; omega)
        · try simp only [List.getD_cons_zero, ownsLong, hU, e.op, wFn, wRs2, wL, wImm, wAm, wX, wSys, g87, g60, e.rd, e.rs1] <;> first | rfl | simp
    exact key _ (enc_head h 8 rd.toNat cs.toNat (3 * 2 ^ 7) (by decide) (by omega) (by omega) (by omega))
theorem stb (h rs cs am) : Statement (.stb h rs cs am) := by
  have b_rs := rs.isLt
  have b_cs := cs.isLt
  intro h' hs hw
  cases am with
  | off x =>
    have b_x := x.isLt
    obtain ⟨hu, ho, hl, hc⟩ := parts hs hw
    cases hs
    have key : ∀ w, Enc w h 9 rs.toNat cs.toNat x.toNat → Good h [w] (.stb h rs cs (.off x)) := by
      intro w e
      have g87 : bits w.toNat 8 7 = 0 := (e.low 8 7 (by decide) (by decide)).trans (by unfold bits; omega)
      have g60 : bits w.toNat 6 0 = x.toNat := (e.low 6 0 (by decide) (by decide)).trans (by unfold bits; omega)
      have hu : h.unit.toNat = 2 := unitIs hu
      all_goals
        have hU := e.unit.trans hu
        refine ⟨?_, ?_, ?_, ?_, e.stop, e.cond, .inl rfl⟩
        · simp only [List.getD_cons_zero, List.getD_cons_succ, List.getD_nil, decodeSyl, hU, u2Of, e.op, wFn, wRs2, wL, wImm, wAm, wX, wSys, immOf, immPOf, addrOf, g87, g60, e.rd, e.rs1, wStop_long, longWord_low, ofNat_self, head_eq e]; try rfl
        · simp only [List.getD_cons_zero, touchesSig, usesSig, postMode, hU, e.op, wFn, wRs2, wL, wImm, wAm, wX, wSys, g87, g60, e.rd, e.rs1] <;> first | rfl | simp
        · refine sylFault_none ?_ ?_ (by rw [List.getD_cons_zero, e.cond]; exact hc)
          · simp only [List.getD_cons_zero, illegal, hU, illegal2, illegalLoad, e.op, wFn, wRs2, wL, wImm, wAm, wX, wSys, g87, g60, e.rd, e.rs1]
            try rfl
          · simp only [List.getD_cons_zero, reservedSet, hU, reserved2, illegalLoad, e.op, wFn, wRs2, wL, wImm, wAm, wX, wSys, g87, g60, e.rd, e.rs1]
            try rfl
        · try simp only [List.getD_cons_zero, ownsLong, hU, e.op, wFn, wRs2, wL, wImm, wAm, wX, wSys, g87, g60, e.rd, e.rs1] <;> first | rfl | simp
    exact key _ (enc_head h 9 rs.toNat cs.toNat x.toNat (by decide) (by omega) (by omega) (by omega))
  | modulo p st =>
    have b_p := p.isLt
    have b_st := st.isLt
    obtain ⟨hu, ho, hl, hc⟩ := parts hs hw
    cases hs
    have key : ∀ w, Enc w h 9 rs.toNat cs.toNat (2 ^ 7 + p.toNat * 2 ^ 5 + st.toNat) → Good h [w] (.stb h rs cs (.modulo p st)) := by
      intro w e
      have g87 : bits w.toNat 8 7 = 1 := (e.low 8 7 (by decide) (by decide)).trans (by unfold bits; omega)
      have g65 : bits w.toNat 6 5 = p.toNat := (e.low 6 5 (by decide) (by decide)).trans (by unfold bits; omega)
      have g40 : bits w.toNat 4 0 = st.toNat := (e.low 4 0 (by decide) (by decide)).trans (by unfold bits; omega)
      have hu : h.unit.toNat = 2 := unitIs hu
      all_goals
        have hU := e.unit.trans hu
        refine ⟨?_, ?_, ?_, ?_, e.stop, e.cond, .inl rfl⟩
        · simp only [List.getD_cons_zero, List.getD_cons_succ, List.getD_nil, decodeSyl, hU, u2Of, e.op, wFn, wRs2, wL, wImm, wAm, wX, wSys, immOf, immPOf, addrOf, g87, g65, g40, e.rd, e.rs1, wStop_long, longWord_low, ofNat_self, head_eq e]; try rfl
        · simp only [List.getD_cons_zero, touchesSig, usesSig, postMode, hU, e.op, wFn, wRs2, wL, wImm, wAm, wX, wSys, g87, g65, g40, e.rd, e.rs1] <;> first | rfl | simp
        · refine sylFault_none ?_ ?_ (by rw [List.getD_cons_zero, e.cond]; exact hc)
          · simp only [List.getD_cons_zero, illegal, hU, illegal2, illegalLoad, e.op, wFn, wRs2, wL, wImm, wAm, wX, wSys, g87, g65, g40, e.rd, e.rs1]
            try rfl
          · simp only [List.getD_cons_zero, reservedSet, hU, reserved2, illegalLoad, e.op, wFn, wRs2, wL, wImm, wAm, wX, wSys, g87, g65, g40, e.rd, e.rs1]
            try rfl
        · try simp only [List.getD_cons_zero, ownsLong, hU, e.op, wFn, wRs2, wL, wImm, wAm, wX, wSys, g87, g65, g40, e.rd, e.rs1] <;> first | rfl | simp
    exact key _ (enc_head h 9 rs.toNat cs.toNat (2 ^ 7 + p.toNat * 2 ^ 5 + st.toNat) (by decide) (by omega) (by omega) (by omega))
  | rev p =>
    have b_p := p.isLt
    obtain ⟨hu, ho, hl, hc⟩ := parts hs hw
    cases hs
    have key : ∀ w, Enc w h 9 rs.toNat cs.toNat (2 ^ 8 + p.toNat * 2 ^ 5) → Good h [w] (.stb h rs cs (.rev p)) := by
      intro w e
      have g87 : bits w.toNat 8 7 = 2 := (e.low 8 7 (by decide) (by decide)).trans (by unfold bits; omega)
      have g65 : bits w.toNat 6 5 = p.toNat := (e.low 6 5 (by decide) (by decide)).trans (by unfold bits; omega)
      have g40 : bits w.toNat 4 0 = 0 := (e.low 4 0 (by decide) (by decide)).trans (by unfold bits; omega)
      have hu : h.unit.toNat = 2 := unitIs hu
      all_goals
        have hU := e.unit.trans hu
        refine ⟨?_, ?_, ?_, ?_, e.stop, e.cond, .inl rfl⟩
        · simp only [List.getD_cons_zero, List.getD_cons_succ, List.getD_nil, decodeSyl, hU, u2Of, e.op, wFn, wRs2, wL, wImm, wAm, wX, wSys, immOf, immPOf, addrOf, g87, g65, g40, e.rd, e.rs1, wStop_long, longWord_low, ofNat_self, head_eq e]; try rfl
        · simp only [List.getD_cons_zero, touchesSig, usesSig, postMode, hU, e.op, wFn, wRs2, wL, wImm, wAm, wX, wSys, g87, g65, g40, e.rd, e.rs1] <;> first | rfl | simp
        · refine sylFault_none ?_ ?_ (by rw [List.getD_cons_zero, e.cond]; exact hc)
          · simp only [List.getD_cons_zero, illegal, hU, illegal2, illegalLoad, e.op, wFn, wRs2, wL, wImm, wAm, wX, wSys, g87, g65, g40, e.rd, e.rs1]
            try rfl
          · simp only [List.getD_cons_zero, reservedSet, hU, reserved2, illegalLoad, e.op, wFn, wRs2, wL, wImm, wAm, wX, wSys, g87, g65, g40, e.rd, e.rs1]
            try rfl
        · try simp only [List.getD_cons_zero, ownsLong, hU, e.op, wFn, wRs2, wL, wImm, wAm, wX, wSys, g87, g65, g40, e.rd, e.rs1] <;> first | rfl | simp
    exact key _ (enc_head h 9 rs.toNat cs.toNat (2 ^ 8 + p.toNat * 2 ^ 5) (by decide) (by omega) (by omega) (by omega))
  | long ls v =>
    have b_v := v.isLt
    obtain ⟨hu, ho, hl, hc⟩ := parts hs hw
    cases hs
    have key : ∀ w, Enc w h 9 rs.toNat cs.toNat (3 * 2 ^ 7) → Good h [w, longWord ls v] (.stb h rs cs (.long ls v)) := by
      intro w e
      have g87 : bits w.toNat 8 7 = 3 := (e.low 8 7 (by decide) (by decide)).trans (by unfold bits; omega)
      have g60 : bits w.toNat 6 0 = 0 := (e.low 6 0 (by decide) (by decide)).trans (by unfold bits; omega)
      have hu : h.unit.toNat = 2 := unitIs hu
      all_goals
        have hU := e.unit.trans hu
        refine ⟨?_, ?_, ?_, ?_, e.stop, e.cond, .inr ⟨rfl, by simpa [longOk, immShort, immPShort, addrShort] using hl⟩⟩
        · simp only [List.getD_cons_zero, List.getD_cons_succ, List.getD_nil, decodeSyl, hU, u2Of, e.op, wFn, wRs2, wL, wImm, wAm, wX, wSys, immOf, immPOf, addrOf, g87, g60, e.rd, e.rs1, wStop_long, longWord_low, ofNat_self, head_eq e]; try rfl
        · simp only [List.getD_cons_zero, touchesSig, usesSig, postMode, hU, e.op, wFn, wRs2, wL, wImm, wAm, wX, wSys, g87, g60, e.rd, e.rs1] <;> first | rfl | simp
        · refine sylFault_none ?_ ?_ (by rw [List.getD_cons_zero, e.cond]; exact hc)
          · simp only [List.getD_cons_zero, illegal, hU, illegal2, illegalLoad, e.op, wFn, wRs2, wL, wImm, wAm, wX, wSys, g87, g60, e.rd, e.rs1]
            try rfl
          · simp only [List.getD_cons_zero, reservedSet, hU, reserved2, illegalLoad, e.op, wFn, wRs2, wL, wImm, wAm, wX, wSys, g87, g60, e.rd, e.rs1]
            try rfl
        · try simp only [List.getD_cons_zero, ownsLong, hU, e.op, wFn, wRs2, wL, wImm, wAm, wX, wSys, g87, g60, e.rd, e.rs1] <;> first | rfl | simp
    exact key _ (enc_head h 9 rs.toNat cs.toNat (3 * 2 ^ 7) (by decide) (by omega) (by omega) (by omega))
theorem sth (h rs cs am) : Statement (.sth h rs cs am) := by
  have b_rs := rs.isLt
  have b_cs := cs.isLt
  intro h' hs hw
  cases am with
  | off x =>
    have b_x := x.isLt
    obtain ⟨hu, ho, hl, hc⟩ := parts hs hw
    cases hs
    have key : ∀ w, Enc w h 10 rs.toNat cs.toNat x.toNat → Good h [w] (.sth h rs cs (.off x)) := by
      intro w e
      have g87 : bits w.toNat 8 7 = 0 := (e.low 8 7 (by decide) (by decide)).trans (by unfold bits; omega)
      have g60 : bits w.toNat 6 0 = x.toNat := (e.low 6 0 (by decide) (by decide)).trans (by unfold bits; omega)
      have hu : h.unit.toNat = 2 := unitIs hu
      all_goals
        have hU := e.unit.trans hu
        refine ⟨?_, ?_, ?_, ?_, e.stop, e.cond, .inl rfl⟩
        · simp only [List.getD_cons_zero, List.getD_cons_succ, List.getD_nil, decodeSyl, hU, u2Of, e.op, wFn, wRs2, wL, wImm, wAm, wX, wSys, immOf, immPOf, addrOf, g87, g60, e.rd, e.rs1, wStop_long, longWord_low, ofNat_self, head_eq e]; try rfl
        · simp only [List.getD_cons_zero, touchesSig, usesSig, postMode, hU, e.op, wFn, wRs2, wL, wImm, wAm, wX, wSys, g87, g60, e.rd, e.rs1] <;> first | rfl | simp
        · refine sylFault_none ?_ ?_ (by rw [List.getD_cons_zero, e.cond]; exact hc)
          · simp only [List.getD_cons_zero, illegal, hU, illegal2, illegalLoad, e.op, wFn, wRs2, wL, wImm, wAm, wX, wSys, g87, g60, e.rd, e.rs1]
            try rfl
          · simp only [List.getD_cons_zero, reservedSet, hU, reserved2, illegalLoad, e.op, wFn, wRs2, wL, wImm, wAm, wX, wSys, g87, g60, e.rd, e.rs1]
            try rfl
        · try simp only [List.getD_cons_zero, ownsLong, hU, e.op, wFn, wRs2, wL, wImm, wAm, wX, wSys, g87, g60, e.rd, e.rs1] <;> first | rfl | simp
    exact key _ (enc_head h 10 rs.toNat cs.toNat x.toNat (by decide) (by omega) (by omega) (by omega))
  | modulo p st =>
    have b_p := p.isLt
    have b_st := st.isLt
    obtain ⟨hu, ho, hl, hc⟩ := parts hs hw
    cases hs
    have key : ∀ w, Enc w h 10 rs.toNat cs.toNat (2 ^ 7 + p.toNat * 2 ^ 5 + st.toNat) → Good h [w] (.sth h rs cs (.modulo p st)) := by
      intro w e
      have g87 : bits w.toNat 8 7 = 1 := (e.low 8 7 (by decide) (by decide)).trans (by unfold bits; omega)
      have g65 : bits w.toNat 6 5 = p.toNat := (e.low 6 5 (by decide) (by decide)).trans (by unfold bits; omega)
      have g40 : bits w.toNat 4 0 = st.toNat := (e.low 4 0 (by decide) (by decide)).trans (by unfold bits; omega)
      have hu : h.unit.toNat = 2 := unitIs hu
      all_goals
        have hU := e.unit.trans hu
        refine ⟨?_, ?_, ?_, ?_, e.stop, e.cond, .inl rfl⟩
        · simp only [List.getD_cons_zero, List.getD_cons_succ, List.getD_nil, decodeSyl, hU, u2Of, e.op, wFn, wRs2, wL, wImm, wAm, wX, wSys, immOf, immPOf, addrOf, g87, g65, g40, e.rd, e.rs1, wStop_long, longWord_low, ofNat_self, head_eq e]; try rfl
        · simp only [List.getD_cons_zero, touchesSig, usesSig, postMode, hU, e.op, wFn, wRs2, wL, wImm, wAm, wX, wSys, g87, g65, g40, e.rd, e.rs1] <;> first | rfl | simp
        · refine sylFault_none ?_ ?_ (by rw [List.getD_cons_zero, e.cond]; exact hc)
          · simp only [List.getD_cons_zero, illegal, hU, illegal2, illegalLoad, e.op, wFn, wRs2, wL, wImm, wAm, wX, wSys, g87, g65, g40, e.rd, e.rs1]
            try rfl
          · simp only [List.getD_cons_zero, reservedSet, hU, reserved2, illegalLoad, e.op, wFn, wRs2, wL, wImm, wAm, wX, wSys, g87, g65, g40, e.rd, e.rs1]
            try rfl
        · try simp only [List.getD_cons_zero, ownsLong, hU, e.op, wFn, wRs2, wL, wImm, wAm, wX, wSys, g87, g65, g40, e.rd, e.rs1] <;> first | rfl | simp
    exact key _ (enc_head h 10 rs.toNat cs.toNat (2 ^ 7 + p.toNat * 2 ^ 5 + st.toNat) (by decide) (by omega) (by omega) (by omega))
  | rev p =>
    have b_p := p.isLt
    obtain ⟨hu, ho, hl, hc⟩ := parts hs hw
    cases hs
    have key : ∀ w, Enc w h 10 rs.toNat cs.toNat (2 ^ 8 + p.toNat * 2 ^ 5) → Good h [w] (.sth h rs cs (.rev p)) := by
      intro w e
      have g87 : bits w.toNat 8 7 = 2 := (e.low 8 7 (by decide) (by decide)).trans (by unfold bits; omega)
      have g65 : bits w.toNat 6 5 = p.toNat := (e.low 6 5 (by decide) (by decide)).trans (by unfold bits; omega)
      have g40 : bits w.toNat 4 0 = 0 := (e.low 4 0 (by decide) (by decide)).trans (by unfold bits; omega)
      have hu : h.unit.toNat = 2 := unitIs hu
      all_goals
        have hU := e.unit.trans hu
        refine ⟨?_, ?_, ?_, ?_, e.stop, e.cond, .inl rfl⟩
        · simp only [List.getD_cons_zero, List.getD_cons_succ, List.getD_nil, decodeSyl, hU, u2Of, e.op, wFn, wRs2, wL, wImm, wAm, wX, wSys, immOf, immPOf, addrOf, g87, g65, g40, e.rd, e.rs1, wStop_long, longWord_low, ofNat_self, head_eq e]; try rfl
        · simp only [List.getD_cons_zero, touchesSig, usesSig, postMode, hU, e.op, wFn, wRs2, wL, wImm, wAm, wX, wSys, g87, g65, g40, e.rd, e.rs1] <;> first | rfl | simp
        · refine sylFault_none ?_ ?_ (by rw [List.getD_cons_zero, e.cond]; exact hc)
          · simp only [List.getD_cons_zero, illegal, hU, illegal2, illegalLoad, e.op, wFn, wRs2, wL, wImm, wAm, wX, wSys, g87, g65, g40, e.rd, e.rs1]
            try rfl
          · simp only [List.getD_cons_zero, reservedSet, hU, reserved2, illegalLoad, e.op, wFn, wRs2, wL, wImm, wAm, wX, wSys, g87, g65, g40, e.rd, e.rs1]
            try rfl
        · try simp only [List.getD_cons_zero, ownsLong, hU, e.op, wFn, wRs2, wL, wImm, wAm, wX, wSys, g87, g65, g40, e.rd, e.rs1] <;> first | rfl | simp
    exact key _ (enc_head h 10 rs.toNat cs.toNat (2 ^ 8 + p.toNat * 2 ^ 5) (by decide) (by omega) (by omega) (by omega))
  | long ls v =>
    have b_v := v.isLt
    obtain ⟨hu, ho, hl, hc⟩ := parts hs hw
    cases hs
    have key : ∀ w, Enc w h 10 rs.toNat cs.toNat (3 * 2 ^ 7) → Good h [w, longWord ls v] (.sth h rs cs (.long ls v)) := by
      intro w e
      have g87 : bits w.toNat 8 7 = 3 := (e.low 8 7 (by decide) (by decide)).trans (by unfold bits; omega)
      have g60 : bits w.toNat 6 0 = 0 := (e.low 6 0 (by decide) (by decide)).trans (by unfold bits; omega)
      have hu : h.unit.toNat = 2 := unitIs hu
      all_goals
        have hU := e.unit.trans hu
        refine ⟨?_, ?_, ?_, ?_, e.stop, e.cond, .inr ⟨rfl, by simpa [longOk, immShort, immPShort, addrShort] using hl⟩⟩
        · simp only [List.getD_cons_zero, List.getD_cons_succ, List.getD_nil, decodeSyl, hU, u2Of, e.op, wFn, wRs2, wL, wImm, wAm, wX, wSys, immOf, immPOf, addrOf, g87, g60, e.rd, e.rs1, wStop_long, longWord_low, ofNat_self, head_eq e]; try rfl
        · simp only [List.getD_cons_zero, touchesSig, usesSig, postMode, hU, e.op, wFn, wRs2, wL, wImm, wAm, wX, wSys, g87, g60, e.rd, e.rs1] <;> first | rfl | simp
        · refine sylFault_none ?_ ?_ (by rw [List.getD_cons_zero, e.cond]; exact hc)
          · simp only [List.getD_cons_zero, illegal, hU, illegal2, illegalLoad, e.op, wFn, wRs2, wL, wImm, wAm, wX, wSys, g87, g60, e.rd, e.rs1]
            try rfl
          · simp only [List.getD_cons_zero, reservedSet, hU, reserved2, illegalLoad, e.op, wFn, wRs2, wL, wImm, wAm, wX, wSys, g87, g60, e.rd, e.rs1]
            try rfl
        · try simp only [List.getD_cons_zero, ownsLong, hU, e.op, wFn, wRs2, wL, wImm, wAm, wX, wSys, g87, g60, e.rd, e.rs1] <;> first | rfl | simp
    exact key _ (enc_head h 10 rs.toNat cs.toNat (3 * 2 ^ 7) (by decide) (by omega) (by omega) (by omega))
theorem stw (h rs cs am) : Statement (.stw h rs cs am) := by
  have b_rs := rs.isLt
  have b_cs := cs.isLt
  intro h' hs hw
  cases am with
  | off x =>
    have b_x := x.isLt
    obtain ⟨hu, ho, hl, hc⟩ := parts hs hw
    cases hs
    have key : ∀ w, Enc w h 11 rs.toNat cs.toNat x.toNat → Good h [w] (.stw h rs cs (.off x)) := by
      intro w e
      have g87 : bits w.toNat 8 7 = 0 := (e.low 8 7 (by decide) (by decide)).trans (by unfold bits; omega)
      have g60 : bits w.toNat 6 0 = x.toNat := (e.low 6 0 (by decide) (by decide)).trans (by unfold bits; omega)
      have hu : h.unit.toNat = 2 := unitIs hu
      all_goals
        have hU := e.unit.trans hu
        refine ⟨?_, ?_, ?_, ?_, e.stop, e.cond, .inl rfl⟩
        · simp only [List.getD_cons_zero, List.getD_cons_succ, List.getD_nil, decodeSyl, hU, u2Of, e.op, wFn, wRs2, wL, wImm, wAm, wX, wSys, immOf, immPOf, addrOf, g87, g60, e.rd, e.rs1, wStop_long, longWord_low, ofNat_self, head_eq e]; try rfl
        · simp only [List.getD_cons_zero, touchesSig, usesSig, postMode, hU, e.op, wFn, wRs2, wL, wImm, wAm, wX, wSys, g87, g60, e.rd, e.rs1] <;> first | rfl | simp
        · refine sylFault_none ?_ ?_ (by rw [List.getD_cons_zero, e.cond]; exact hc)
          · simp only [List.getD_cons_zero, illegal, hU, illegal2, illegalLoad, e.op, wFn, wRs2, wL, wImm, wAm, wX, wSys, g87, g60, e.rd, e.rs1]
            try rfl
          · simp only [List.getD_cons_zero, reservedSet, hU, reserved2, illegalLoad, e.op, wFn, wRs2, wL, wImm, wAm, wX, wSys, g87, g60, e.rd, e.rs1]
            try rfl
        · try simp only [List.getD_cons_zero, ownsLong, hU, e.op, wFn, wRs2, wL, wImm, wAm, wX, wSys, g87, g60, e.rd, e.rs1] <;> first | rfl | simp
    exact key _ (enc_head h 11 rs.toNat cs.toNat x.toNat (by decide) (by omega) (by omega) (by omega))
  | modulo p st =>
    have b_p := p.isLt
    have b_st := st.isLt
    obtain ⟨hu, ho, hl, hc⟩ := parts hs hw
    cases hs
    have key : ∀ w, Enc w h 11 rs.toNat cs.toNat (2 ^ 7 + p.toNat * 2 ^ 5 + st.toNat) → Good h [w] (.stw h rs cs (.modulo p st)) := by
      intro w e
      have g87 : bits w.toNat 8 7 = 1 := (e.low 8 7 (by decide) (by decide)).trans (by unfold bits; omega)
      have g65 : bits w.toNat 6 5 = p.toNat := (e.low 6 5 (by decide) (by decide)).trans (by unfold bits; omega)
      have g40 : bits w.toNat 4 0 = st.toNat := (e.low 4 0 (by decide) (by decide)).trans (by unfold bits; omega)
      have hu : h.unit.toNat = 2 := unitIs hu
      all_goals
        have hU := e.unit.trans hu
        refine ⟨?_, ?_, ?_, ?_, e.stop, e.cond, .inl rfl⟩
        · simp only [List.getD_cons_zero, List.getD_cons_succ, List.getD_nil, decodeSyl, hU, u2Of, e.op, wFn, wRs2, wL, wImm, wAm, wX, wSys, immOf, immPOf, addrOf, g87, g65, g40, e.rd, e.rs1, wStop_long, longWord_low, ofNat_self, head_eq e]; try rfl
        · simp only [List.getD_cons_zero, touchesSig, usesSig, postMode, hU, e.op, wFn, wRs2, wL, wImm, wAm, wX, wSys, g87, g65, g40, e.rd, e.rs1] <;> first | rfl | simp
        · refine sylFault_none ?_ ?_ (by rw [List.getD_cons_zero, e.cond]; exact hc)
          · simp only [List.getD_cons_zero, illegal, hU, illegal2, illegalLoad, e.op, wFn, wRs2, wL, wImm, wAm, wX, wSys, g87, g65, g40, e.rd, e.rs1]
            try rfl
          · simp only [List.getD_cons_zero, reservedSet, hU, reserved2, illegalLoad, e.op, wFn, wRs2, wL, wImm, wAm, wX, wSys, g87, g65, g40, e.rd, e.rs1]
            try rfl
        · try simp only [List.getD_cons_zero, ownsLong, hU, e.op, wFn, wRs2, wL, wImm, wAm, wX, wSys, g87, g65, g40, e.rd, e.rs1] <;> first | rfl | simp
    exact key _ (enc_head h 11 rs.toNat cs.toNat (2 ^ 7 + p.toNat * 2 ^ 5 + st.toNat) (by decide) (by omega) (by omega) (by omega))
  | rev p =>
    have b_p := p.isLt
    obtain ⟨hu, ho, hl, hc⟩ := parts hs hw
    cases hs
    have key : ∀ w, Enc w h 11 rs.toNat cs.toNat (2 ^ 8 + p.toNat * 2 ^ 5) → Good h [w] (.stw h rs cs (.rev p)) := by
      intro w e
      have g87 : bits w.toNat 8 7 = 2 := (e.low 8 7 (by decide) (by decide)).trans (by unfold bits; omega)
      have g65 : bits w.toNat 6 5 = p.toNat := (e.low 6 5 (by decide) (by decide)).trans (by unfold bits; omega)
      have g40 : bits w.toNat 4 0 = 0 := (e.low 4 0 (by decide) (by decide)).trans (by unfold bits; omega)
      have hu : h.unit.toNat = 2 := unitIs hu
      all_goals
        have hU := e.unit.trans hu
        refine ⟨?_, ?_, ?_, ?_, e.stop, e.cond, .inl rfl⟩
        · simp only [List.getD_cons_zero, List.getD_cons_succ, List.getD_nil, decodeSyl, hU, u2Of, e.op, wFn, wRs2, wL, wImm, wAm, wX, wSys, immOf, immPOf, addrOf, g87, g65, g40, e.rd, e.rs1, wStop_long, longWord_low, ofNat_self, head_eq e]; try rfl
        · simp only [List.getD_cons_zero, touchesSig, usesSig, postMode, hU, e.op, wFn, wRs2, wL, wImm, wAm, wX, wSys, g87, g65, g40, e.rd, e.rs1] <;> first | rfl | simp
        · refine sylFault_none ?_ ?_ (by rw [List.getD_cons_zero, e.cond]; exact hc)
          · simp only [List.getD_cons_zero, illegal, hU, illegal2, illegalLoad, e.op, wFn, wRs2, wL, wImm, wAm, wX, wSys, g87, g65, g40, e.rd, e.rs1]
            try rfl
          · simp only [List.getD_cons_zero, reservedSet, hU, reserved2, illegalLoad, e.op, wFn, wRs2, wL, wImm, wAm, wX, wSys, g87, g65, g40, e.rd, e.rs1]
            try rfl
        · try simp only [List.getD_cons_zero, ownsLong, hU, e.op, wFn, wRs2, wL, wImm, wAm, wX, wSys, g87, g65, g40, e.rd, e.rs1] <;> first | rfl | simp
    exact key _ (enc_head h 11 rs.toNat cs.toNat (2 ^ 8 + p.toNat * 2 ^ 5) (by decide) (by omega) (by omega) (by omega))
  | long ls v =>
    have b_v := v.isLt
    obtain ⟨hu, ho, hl, hc⟩ := parts hs hw
    cases hs
    have key : ∀ w, Enc w h 11 rs.toNat cs.toNat (3 * 2 ^ 7) → Good h [w, longWord ls v] (.stw h rs cs (.long ls v)) := by
      intro w e
      have g87 : bits w.toNat 8 7 = 3 := (e.low 8 7 (by decide) (by decide)).trans (by unfold bits; omega)
      have g60 : bits w.toNat 6 0 = 0 := (e.low 6 0 (by decide) (by decide)).trans (by unfold bits; omega)
      have hu : h.unit.toNat = 2 := unitIs hu
      all_goals
        have hU := e.unit.trans hu
        refine ⟨?_, ?_, ?_, ?_, e.stop, e.cond, .inr ⟨rfl, by simpa [longOk, immShort, immPShort, addrShort] using hl⟩⟩
        · simp only [List.getD_cons_zero, List.getD_cons_succ, List.getD_nil, decodeSyl, hU, u2Of, e.op, wFn, wRs2, wL, wImm, wAm, wX, wSys, immOf, immPOf, addrOf, g87, g60, e.rd, e.rs1, wStop_long, longWord_low, ofNat_self, head_eq e]; try rfl
        · simp only [List.getD_cons_zero, touchesSig, usesSig, postMode, hU, e.op, wFn, wRs2, wL, wImm, wAm, wX, wSys, g87, g60, e.rd, e.rs1] <;> first | rfl | simp
        · refine sylFault_none ?_ ?_ (by rw [List.getD_cons_zero, e.cond]; exact hc)
          · simp only [List.getD_cons_zero, illegal, hU, illegal2, illegalLoad, e.op, wFn, wRs2, wL, wImm, wAm, wX, wSys, g87, g60, e.rd, e.rs1]
            try rfl
          · simp only [List.getD_cons_zero, reservedSet, hU, reserved2, illegalLoad, e.op, wFn, wRs2, wL, wImm, wAm, wX, wSys, g87, g60, e.rd, e.rs1]
            try rfl
        · try simp only [List.getD_cons_zero, ownsLong, hU, e.op, wFn, wRs2, wL, wImm, wAm, wX, wSys, g87, g60, e.rd, e.rs1] <;> first | rfl | simp
    exact key _ (enc_head h 11 rs.toNat cs.toNat (3 * 2 ^ 7) (by decide) (by omega) (by omega) (by omega))
theorem std (h rs cs am) : Statement (.std h rs cs am) := by
  have b_rs := rs.isLt
  have b_cs := cs.isLt
  intro h' hs hw
  cases am with
  | off x =>
    have b_x := x.isLt
    obtain ⟨hu, ho, hl, hc⟩ := parts hs hw
    cases hs
    have key : ∀ w, Enc w h 12 rs.toNat cs.toNat x.toNat → Good h [w] (.std h rs cs (.off x)) := by
      intro w e
      have g87 : bits w.toNat 8 7 = 0 := (e.low 8 7 (by decide) (by decide)).trans (by unfold bits; omega)
      have g60 : bits w.toNat 6 0 = x.toNat := (e.low 6 0 (by decide) (by decide)).trans (by unfold bits; omega)
      have hu : h.unit.toNat = 2 := unitIs hu
      all_goals
        have hU := e.unit.trans hu
        refine ⟨?_, ?_, ?_, ?_, e.stop, e.cond, .inl rfl⟩
        · simp only [List.getD_cons_zero, List.getD_cons_succ, List.getD_nil, decodeSyl, hU, u2Of, e.op, wFn, wRs2, wL, wImm, wAm, wX, wSys, immOf, immPOf, addrOf, g87, g60, e.rd, e.rs1, wStop_long, longWord_low, ofNat_self, head_eq e]; try rfl
        · simp only [List.getD_cons_zero, touchesSig, usesSig, postMode, hU, e.op, wFn, wRs2, wL, wImm, wAm, wX, wSys, g87, g60, e.rd, e.rs1] <;> first | rfl | simp
        · refine sylFault_none ?_ ?_ (by rw [List.getD_cons_zero, e.cond]; exact hc)
          · simp only [List.getD_cons_zero, illegal, hU, illegal2, illegalLoad, e.op, wFn, wRs2, wL, wImm, wAm, wX, wSys, g87, g60, e.rd, e.rs1]
            try rfl
          · simp only [List.getD_cons_zero, reservedSet, hU, reserved2, illegalLoad, e.op, wFn, wRs2, wL, wImm, wAm, wX, wSys, g87, g60, e.rd, e.rs1]
            try rfl
        · try simp only [List.getD_cons_zero, ownsLong, hU, e.op, wFn, wRs2, wL, wImm, wAm, wX, wSys, g87, g60, e.rd, e.rs1] <;> first | rfl | simp
    exact key _ (enc_head h 12 rs.toNat cs.toNat x.toNat (by decide) (by omega) (by omega) (by omega))
  | modulo p st =>
    have b_p := p.isLt
    have b_st := st.isLt
    obtain ⟨hu, ho, hl, hc⟩ := parts hs hw
    cases hs
    have key : ∀ w, Enc w h 12 rs.toNat cs.toNat (2 ^ 7 + p.toNat * 2 ^ 5 + st.toNat) → Good h [w] (.std h rs cs (.modulo p st)) := by
      intro w e
      have g87 : bits w.toNat 8 7 = 1 := (e.low 8 7 (by decide) (by decide)).trans (by unfold bits; omega)
      have g65 : bits w.toNat 6 5 = p.toNat := (e.low 6 5 (by decide) (by decide)).trans (by unfold bits; omega)
      have g40 : bits w.toNat 4 0 = st.toNat := (e.low 4 0 (by decide) (by decide)).trans (by unfold bits; omega)
      have hu : h.unit.toNat = 2 := unitIs hu
      all_goals
        have hU := e.unit.trans hu
        refine ⟨?_, ?_, ?_, ?_, e.stop, e.cond, .inl rfl⟩
        · simp only [List.getD_cons_zero, List.getD_cons_succ, List.getD_nil, decodeSyl, hU, u2Of, e.op, wFn, wRs2, wL, wImm, wAm, wX, wSys, immOf, immPOf, addrOf, g87, g65, g40, e.rd, e.rs1, wStop_long, longWord_low, ofNat_self, head_eq e]; try rfl
        · simp only [List.getD_cons_zero, touchesSig, usesSig, postMode, hU, e.op, wFn, wRs2, wL, wImm, wAm, wX, wSys, g87, g65, g40, e.rd, e.rs1] <;> first | rfl | simp
        · refine sylFault_none ?_ ?_ (by rw [List.getD_cons_zero, e.cond]; exact hc)
          · simp only [List.getD_cons_zero, illegal, hU, illegal2, illegalLoad, e.op, wFn, wRs2, wL, wImm, wAm, wX, wSys, g87, g65, g40, e.rd, e.rs1]
            try rfl
          · simp only [List.getD_cons_zero, reservedSet, hU, reserved2, illegalLoad, e.op, wFn, wRs2, wL, wImm, wAm, wX, wSys, g87, g65, g40, e.rd, e.rs1]
            try rfl
        · try simp only [List.getD_cons_zero, ownsLong, hU, e.op, wFn, wRs2, wL, wImm, wAm, wX, wSys, g87, g65, g40, e.rd, e.rs1] <;> first | rfl | simp
    exact key _ (enc_head h 12 rs.toNat cs.toNat (2 ^ 7 + p.toNat * 2 ^ 5 + st.toNat) (by decide) (by omega) (by omega) (by omega))
  | rev p =>
    have b_p := p.isLt
    obtain ⟨hu, ho, hl, hc⟩ := parts hs hw
    cases hs
    have key : ∀ w, Enc w h 12 rs.toNat cs.toNat (2 ^ 8 + p.toNat * 2 ^ 5) → Good h [w] (.std h rs cs (.rev p)) := by
      intro w e
      have g87 : bits w.toNat 8 7 = 2 := (e.low 8 7 (by decide) (by decide)).trans (by unfold bits; omega)
      have g65 : bits w.toNat 6 5 = p.toNat := (e.low 6 5 (by decide) (by decide)).trans (by unfold bits; omega)
      have g40 : bits w.toNat 4 0 = 0 := (e.low 4 0 (by decide) (by decide)).trans (by unfold bits; omega)
      have hu : h.unit.toNat = 2 := unitIs hu
      all_goals
        have hU := e.unit.trans hu
        refine ⟨?_, ?_, ?_, ?_, e.stop, e.cond, .inl rfl⟩
        · simp only [List.getD_cons_zero, List.getD_cons_succ, List.getD_nil, decodeSyl, hU, u2Of, e.op, wFn, wRs2, wL, wImm, wAm, wX, wSys, immOf, immPOf, addrOf, g87, g65, g40, e.rd, e.rs1, wStop_long, longWord_low, ofNat_self, head_eq e]; try rfl
        · simp only [List.getD_cons_zero, touchesSig, usesSig, postMode, hU, e.op, wFn, wRs2, wL, wImm, wAm, wX, wSys, g87, g65, g40, e.rd, e.rs1] <;> first | rfl | simp
        · refine sylFault_none ?_ ?_ (by rw [List.getD_cons_zero, e.cond]; exact hc)
          · simp only [List.getD_cons_zero, illegal, hU, illegal2, illegalLoad, e.op, wFn, wRs2, wL, wImm, wAm, wX, wSys, g87, g65, g40, e.rd, e.rs1]
            try rfl
          · simp only [List.getD_cons_zero, reservedSet, hU, reserved2, illegalLoad, e.op, wFn, wRs2, wL, wImm, wAm, wX, wSys, g87, g65, g40, e.rd, e.rs1]
            try rfl
        · try simp only [List.getD_cons_zero, ownsLong, hU, e.op, wFn, wRs2, wL, wImm, wAm, wX, wSys, g87, g65, g40, e.rd, e.rs1] <;> first | rfl | simp
    exact key _ (enc_head h 12 rs.toNat cs.toNat (2 ^ 8 + p.toNat * 2 ^ 5) (by decide) (by omega) (by omega) (by omega))
  | long ls v =>
    have b_v := v.isLt
    obtain ⟨hu, ho, hl, hc⟩ := parts hs hw
    cases hs
    have key : ∀ w, Enc w h 12 rs.toNat cs.toNat (3 * 2 ^ 7) → Good h [w, longWord ls v] (.std h rs cs (.long ls v)) := by
      intro w e
      have g87 : bits w.toNat 8 7 = 3 := (e.low 8 7 (by decide) (by decide)).trans (by unfold bits; omega)
      have g60 : bits w.toNat 6 0 = 0 := (e.low 6 0 (by decide) (by decide)).trans (by unfold bits; omega)
      have hu : h.unit.toNat = 2 := unitIs hu
      all_goals
        have hU := e.unit.trans hu
        refine ⟨?_, ?_, ?_, ?_, e.stop, e.cond, .inr ⟨rfl, by simpa [longOk, immShort, immPShort, addrShort] using hl⟩⟩
        · simp only [List.getD_cons_zero, List.getD_cons_succ, List.getD_nil, decodeSyl, hU, u2Of, e.op, wFn, wRs2, wL, wImm, wAm, wX, wSys, immOf, immPOf, addrOf, g87, g60, e.rd, e.rs1, wStop_long, longWord_low, ofNat_self, head_eq e]; try rfl
        · simp only [List.getD_cons_zero, touchesSig, usesSig, postMode, hU, e.op, wFn, wRs2, wL, wImm, wAm, wX, wSys, g87, g60, e.rd, e.rs1] <;> first | rfl | simp
        · refine sylFault_none ?_ ?_ (by rw [List.getD_cons_zero, e.cond]; exact hc)
          · simp only [List.getD_cons_zero, illegal, hU, illegal2, illegalLoad, e.op, wFn, wRs2, wL, wImm, wAm, wX, wSys, g87, g60, e.rd, e.rs1]
            try rfl
          · simp only [List.getD_cons_zero, reservedSet, hU, reserved2, illegalLoad, e.op, wFn, wRs2, wL, wImm, wAm, wX, wSys, g87, g60, e.rd, e.rs1]
            try rfl
        · try simp only [List.getD_cons_zero, ownsLong, hU, e.op, wFn, wRs2, wL, wImm, wAm, wX, wSys, g87, g60, e.rd, e.rs1] <;> first | rfl | simp
    exact key _ (enc_head h 12 rs.toNat cs.toNat (3 * 2 ^ 7) (by decide) (by omega) (by omega) (by omega))
theorem stc (h rs cs am) : Statement (.stc h rs cs am) := by
  have b_rs := rs.isLt
  have b_cs := cs.isLt
  intro h' hs hw
  cases am with
  | off x =>
    have b_x := x.isLt
    obtain ⟨hu, ho, hl, hc⟩ := parts hs hw
    cases hs
    have key : ∀ w, Enc w h 13 rs.toNat cs.toNat x.toNat → Good h [w] (.stc h rs cs (.off x)) := by
      intro w e
      have g87 : bits w.toNat 8 7 = 0 := (e.low 8 7 (by decide) (by decide)).trans (by unfold bits; omega)
      have g60 : bits w.toNat 6 0 = x.toNat := (e.low 6 0 (by decide) (by decide)).trans (by unfold bits; omega)
      have hu : h.unit.toNat = 2 := unitIs hu
      all_goals
        have hU := e.unit.trans hu
        refine ⟨?_, ?_, ?_, ?_, e.stop, e.cond, .inl rfl⟩
        · simp only [List.getD_cons_zero, List.getD_cons_succ, List.getD_nil, decodeSyl, hU, u2Of, e.op, wFn, wRs2, wL, wImm, wAm, wX, wSys, immOf, immPOf, addrOf, g87, g60, e.rd, e.rs1, wStop_long, longWord_low, ofNat_self, head_eq e]; try rfl
        · simp only [List.getD_cons_zero, touchesSig, usesSig, postMode, hU, e.op, wFn, wRs2, wL, wImm, wAm, wX, wSys, g87, g60, e.rd, e.rs1] <;> first | rfl | simp
        · refine sylFault_none ?_ ?_ (by rw [List.getD_cons_zero, e.cond]; exact hc)
          · simp only [List.getD_cons_zero, illegal, hU, illegal2, illegalLoad, e.op, wFn, wRs2, wL, wImm, wAm, wX, wSys, g87, g60, e.rd, e.rs1]
            try rfl
          · simp only [List.getD_cons_zero, reservedSet, hU, reserved2, illegalLoad, e.op, wFn, wRs2, wL, wImm, wAm, wX, wSys, g87, g60, e.rd, e.rs1]
            try rfl
        · try simp only [List.getD_cons_zero, ownsLong, hU, e.op, wFn, wRs2, wL, wImm, wAm, wX, wSys, g87, g60, e.rd, e.rs1] <;> first | rfl | simp
    exact key _ (enc_head h 13 rs.toNat cs.toNat x.toNat (by decide) (by omega) (by omega) (by omega))
  | modulo p st =>
    have b_p := p.isLt
    have b_st := st.isLt
    obtain ⟨hu, ho, hl, hc⟩ := parts hs hw
    cases hs
    have key : ∀ w, Enc w h 13 rs.toNat cs.toNat (2 ^ 7 + p.toNat * 2 ^ 5 + st.toNat) → Good h [w] (.stc h rs cs (.modulo p st)) := by
      intro w e
      have g87 : bits w.toNat 8 7 = 1 := (e.low 8 7 (by decide) (by decide)).trans (by unfold bits; omega)
      have g65 : bits w.toNat 6 5 = p.toNat := (e.low 6 5 (by decide) (by decide)).trans (by unfold bits; omega)
      have g40 : bits w.toNat 4 0 = st.toNat := (e.low 4 0 (by decide) (by decide)).trans (by unfold bits; omega)
      have hu : h.unit.toNat = 2 := unitIs hu
      all_goals
        have hU := e.unit.trans hu
        refine ⟨?_, ?_, ?_, ?_, e.stop, e.cond, .inl rfl⟩
        · simp only [List.getD_cons_zero, List.getD_cons_succ, List.getD_nil, decodeSyl, hU, u2Of, e.op, wFn, wRs2, wL, wImm, wAm, wX, wSys, immOf, immPOf, addrOf, g87, g65, g40, e.rd, e.rs1, wStop_long, longWord_low, ofNat_self, head_eq e]; try rfl
        · simp only [List.getD_cons_zero, touchesSig, usesSig, postMode, hU, e.op, wFn, wRs2, wL, wImm, wAm, wX, wSys, g87, g65, g40, e.rd, e.rs1] <;> first | rfl | simp
        · refine sylFault_none ?_ ?_ (by rw [List.getD_cons_zero, e.cond]; exact hc)
          · simp only [List.getD_cons_zero, illegal, hU, illegal2, illegalLoad, e.op, wFn, wRs2, wL, wImm, wAm, wX, wSys, g87, g65, g40, e.rd, e.rs1]
            try rfl
          · simp only [List.getD_cons_zero, reservedSet, hU, reserved2, illegalLoad, e.op, wFn, wRs2, wL, wImm, wAm, wX, wSys, g87, g65, g40, e.rd, e.rs1]
            try rfl
        · try simp only [List.getD_cons_zero, ownsLong, hU, e.op, wFn, wRs2, wL, wImm, wAm, wX, wSys, g87, g65, g40, e.rd, e.rs1] <;> first | rfl | simp
    exact key _ (enc_head h 13 rs.toNat cs.toNat (2 ^ 7 + p.toNat * 2 ^ 5 + st.toNat) (by decide) (by omega) (by omega) (by omega))
  | rev p =>
    have b_p := p.isLt
    obtain ⟨hu, ho, hl, hc⟩ := parts hs hw
    cases hs
    have key : ∀ w, Enc w h 13 rs.toNat cs.toNat (2 ^ 8 + p.toNat * 2 ^ 5) → Good h [w] (.stc h rs cs (.rev p)) := by
      intro w e
      have g87 : bits w.toNat 8 7 = 2 := (e.low 8 7 (by decide) (by decide)).trans (by unfold bits; omega)
      have g65 : bits w.toNat 6 5 = p.toNat := (e.low 6 5 (by decide) (by decide)).trans (by unfold bits; omega)
      have g40 : bits w.toNat 4 0 = 0 := (e.low 4 0 (by decide) (by decide)).trans (by unfold bits; omega)
      have hu : h.unit.toNat = 2 := unitIs hu
      all_goals
        have hU := e.unit.trans hu
        refine ⟨?_, ?_, ?_, ?_, e.stop, e.cond, .inl rfl⟩
        · simp only [List.getD_cons_zero, List.getD_cons_succ, List.getD_nil, decodeSyl, hU, u2Of, e.op, wFn, wRs2, wL, wImm, wAm, wX, wSys, immOf, immPOf, addrOf, g87, g65, g40, e.rd, e.rs1, wStop_long, longWord_low, ofNat_self, head_eq e]; try rfl
        · simp only [List.getD_cons_zero, touchesSig, usesSig, postMode, hU, e.op, wFn, wRs2, wL, wImm, wAm, wX, wSys, g87, g65, g40, e.rd, e.rs1] <;> first | rfl | simp
        · refine sylFault_none ?_ ?_ (by rw [List.getD_cons_zero, e.cond]; exact hc)
          · simp only [List.getD_cons_zero, illegal, hU, illegal2, illegalLoad, e.op, wFn, wRs2, wL, wImm, wAm, wX, wSys, g87, g65, g40, e.rd, e.rs1]
            try rfl
          · simp only [List.getD_cons_zero, reservedSet, hU, reserved2, illegalLoad, e.op, wFn, wRs2, wL, wImm, wAm, wX, wSys, g87, g65, g40, e.rd, e.rs1]
            try rfl
        · try simp only [List.getD_cons_zero, ownsLong, hU, e.op, wFn, wRs2, wL, wImm, wAm, wX, wSys, g87, g65, g40, e.rd, e.rs1] <;> first | rfl | simp
    exact key _ (enc_head h 13 rs.toNat cs.toNat (2 ^ 8 + p.toNat * 2 ^ 5) (by decide) (by omega) (by omega) (by omega))
  | long ls v =>
    have b_v := v.isLt
    obtain ⟨hu, ho, hl, hc⟩ := parts hs hw
    cases hs
    have key : ∀ w, Enc w h 13 rs.toNat cs.toNat (3 * 2 ^ 7) → Good h [w, longWord ls v] (.stc h rs cs (.long ls v)) := by
      intro w e
      have g87 : bits w.toNat 8 7 = 3 := (e.low 8 7 (by decide) (by decide)).trans (by unfold bits; omega)
      have g60 : bits w.toNat 6 0 = 0 := (e.low 6 0 (by decide) (by decide)).trans (by unfold bits; omega)
      have hu : h.unit.toNat = 2 := unitIs hu
      all_goals
        have hU := e.unit.trans hu
        refine ⟨?_, ?_, ?_, ?_, e.stop, e.cond, .inr ⟨rfl, by simpa [longOk, immShort, immPShort, addrShort] using hl⟩⟩
        · simp only [List.getD_cons_zero, List.getD_cons_succ, List.getD_nil, decodeSyl, hU, u2Of, e.op, wFn, wRs2, wL, wImm, wAm, wX, wSys, immOf, immPOf, addrOf, g87, g60, e.rd, e.rs1, wStop_long, longWord_low, ofNat_self, head_eq e]; try rfl
        · simp only [List.getD_cons_zero, touchesSig, usesSig, postMode, hU, e.op, wFn, wRs2, wL, wImm, wAm, wX, wSys, g87, g60, e.rd, e.rs1] <;> first | rfl | simp
        · refine sylFault_none ?_ ?_ (by rw [List.getD_cons_zero, e.cond]; exact hc)
          · simp only [List.getD_cons_zero, illegal, hU, illegal2, illegalLoad, e.op, wFn, wRs2, wL, wImm, wAm, wX, wSys, g87, g60, e.rd, e.rs1]
            try rfl
          · simp only [List.getD_cons_zero, reservedSet, hU, reserved2, illegalLoad, e.op, wFn, wRs2, wL, wImm, wAm, wX, wSys, g87, g60, e.rd, e.rs1]
            try rfl
        · try simp only [List.getD_cons_zero, ownsLong, hU, e.op, wFn, wRs2, wL, wImm, wAm, wX, wSys, g87, g60, e.rd, e.rs1] <;> first | rfl | simp
    exact key _ (enc_head h 13 rs.toNat cs.toNat (3 * 2 ^ 7) (by decide) (by omega) (by omega) (by omega))
theorem stm (h rs1 rs2) : Statement (.stm h rs1 rs2) := by
  have b_rs1 := rs1.isLt
  have b_rs2 := rs2.isLt
  intro h' hs hw
  obtain ⟨hu, ho, hl, hc⟩ := parts hs hw
  cases hs
  have key : ∀ w, Enc w h 14 0 rs1.toNat (rs2.toNat * 2 ^ 4 + 0) → Good h [w] (.stm h rs1 rs2) := by
    intro w e
    have g30 := e.fn (by omega)
    have g84 := e.rs2 (by omega) (by omega)
    have hu : h.unit.toNat = 2 := unitIs hu
    all_goals
      have hU := e.unit.trans hu
      refine ⟨?_, ?_, ?_, ?_, e.stop, e.cond, .inl rfl⟩
      · simp only [List.getD_cons_zero, List.getD_cons_succ, List.getD_nil, decodeSyl, hU, u2Of, e.op, wFn, wRs2, wL, wImm, wAm, wX, wSys, immOf, immPOf, addrOf, g30, g84, e.rd, e.rs1, wStop_long, longWord_low, ofNat_self, head_eq e]; try rfl
      · simp only [List.getD_cons_zero, touchesSig, usesSig, postMode, hU, e.op, wFn, wRs2, wL, wImm, wAm, wX, wSys, g30, g84, e.rd, e.rs1] <;> first | rfl | simp
      · refine sylFault_none ?_ ?_ (by rw [List.getD_cons_zero, e.cond]; exact hc)
        · simp only [List.getD_cons_zero, illegal, hU, illegal2, illegalLoad, e.op, wFn, wRs2, wL, wImm, wAm, wX, wSys, g30, g84, e.rd, e.rs1]
          try rfl
        · simp only [List.getD_cons_zero, reservedSet, hU, reserved2, illegalLoad, e.op, wFn, wRs2, wL, wImm, wAm, wX, wSys, g30, g84, e.rd, e.rs1]
          try rfl
      · try simp only [List.getD_cons_zero, ownsLong, hU, e.op, wFn, wRs2, wL, wImm, wAm, wX, wSys, g30, g84, e.rd, e.rs1] <;> first | rfl | simp
  exact key _ (enc_head h 14 0 rs1.toNat (rs2.toNat * 2 ^ 4 + 0) (by decide) (by omega) (by omega) (by omega))
theorem ldm (h rs1 rs2) : Statement (.ldm h rs1 rs2) := by
  have b_rs1 := rs1.isLt
  have b_rs2 := rs2.isLt
  intro h' hs hw
  obtain ⟨hu, ho, hl, hc⟩ := parts hs hw
  cases hs
  have key : ∀ w, Enc w h 15 0 rs1.toNat (rs2.toNat * 2 ^ 4 + 0) → Good h [w] (.ldm h rs1 rs2) := by
    intro w e
    have g30 := e.fn (by omega)
    have g84 := e.rs2 (by omega) (by omega)
    have hu : h.unit.toNat = 2 := unitIs hu
    all_goals
      have hU := e.unit.trans hu
      refine ⟨?_, ?_, ?_, ?_, e.stop, e.cond, .inl rfl⟩
      · simp only [List.getD_cons_zero, List.getD_cons_succ, List.getD_nil, decodeSyl, hU, u2Of, e.op, wFn, wRs2, wL, wImm, wAm, wX, wSys, immOf, immPOf, addrOf, g30, g84, e.rd, e.rs1, wStop_long, longWord_low, ofNat_self, head_eq e]; try rfl
      · simp only [List.getD_cons_zero, touchesSig, usesSig, postMode, hU, e.op, wFn, wRs2, wL, wImm, wAm, wX, wSys, g30, g84, e.rd, e.rs1] <;> first | rfl | simp
      · refine sylFault_none ?_ ?_ (by rw [List.getD_cons_zero, e.cond]; exact hc)
        · simp only [List.getD_cons_zero, illegal, hU, illegal2, illegalLoad, e.op, wFn, wRs2, wL, wImm, wAm, wX, wSys, g30, g84, e.rd, e.rs1]
          try rfl
        · simp only [List.getD_cons_zero, reservedSet, hU, reserved2, illegalLoad, e.op, wFn, wRs2, wL, wImm, wAm, wX, wSys, g30, g84, e.rd, e.rs1]
          try rfl
      · try simp only [List.getD_cons_zero, ownsLong, hU, e.op, wFn, wRs2, wL, wImm, wAm, wX, wSys, g30, g84, e.rd, e.rs1] <;> first | rfl | simp
  exact key _ (enc_head h 15 0 rs1.toNat (rs2.toNat * 2 ^ 4 + 0) (by decide) (by omega) (by omega) (by omega))
theorem crcblk (h rd rs1 rs2) : Statement (.crcblk h rd rs1 rs2) := by
  have b_rd := rd.isLt
  have b_rs1 := rs1.isLt
  have b_rs2 := rs2.isLt
  intro h' hs hw
  obtain ⟨hu, ho, hl, hc⟩ := parts hs hw
  cases hs
  have key : ∀ w, Enc w h 16 rd.toNat rs1.toNat (rs2.toNat * 2 ^ 4 + 0) → Good h [w] (.crcblk h rd rs1 rs2) := by
    intro w e
    have g30 := e.fn (by omega)
    have g84 := e.rs2 (by omega) (by omega)
    have hu : h.unit.toNat = 2 := unitIs hu
    all_goals
      have hU := e.unit.trans hu
      refine ⟨?_, ?_, ?_, ?_, e.stop, e.cond, .inl rfl⟩
      · simp only [List.getD_cons_zero, List.getD_cons_succ, List.getD_nil, decodeSyl, hU, u2Of, e.op, wFn, wRs2, wL, wImm, wAm, wX, wSys, immOf, immPOf, addrOf, g30, g84, e.rd, e.rs1, wStop_long, longWord_low, ofNat_self, head_eq e]; try rfl
      · simp only [List.getD_cons_zero, touchesSig, usesSig, postMode, hU, e.op, wFn, wRs2, wL, wImm, wAm, wX, wSys, g30, g84, e.rd, e.rs1] <;> first | rfl | simp
      · refine sylFault_none ?_ ?_ (by rw [List.getD_cons_zero, e.cond]; exact hc)
        · simp only [List.getD_cons_zero, illegal, hU, illegal2, illegalLoad, e.op, wFn, wRs2, wL, wImm, wAm, wX, wSys, g30, g84, e.rd, e.rs1]
          try first | rfl | (simp [operandsOk, postInc, immPDefined, BitVec.toNat_eq] at ho; simp [badIf, userKnown, sysKnown]; omega)
        · simp only [List.getD_cons_zero, reservedSet, hU, reserved2, illegalLoad, e.op, wFn, wRs2, wL, wImm, wAm, wX, wSys, g30, g84, e.rd, e.rs1]
          try first | rfl | (simp [operandsOk, postInc, immPDefined, BitVec.toNat_eq] at ho; simp [badIf, userKnown, sysKnown]; omega)
      · try simp only [List.getD_cons_zero, ownsLong, hU, e.op, wFn, wRs2, wL, wImm, wAm, wX, wSys, g30, g84, e.rd, e.rs1] <;> first | rfl | simp
  exact key _ (enc_head h 16 rd.toNat rs1.toNat (rs2.toNat * 2 ^ 4 + 0) (by decide) (by omega) (by omega) (by omega))
theorem mcopy (h rd rs1 rs2) : Statement (.mcopy h rd rs1 rs2) := by
  have b_rd := rd.isLt
  have b_rs1 := rs1.isLt
  have b_rs2 := rs2.isLt
  intro h' hs hw
  obtain ⟨hu, ho, hl, hc⟩ := parts hs hw
  cases hs
  have key : ∀ w, Enc w h 17 rd.toNat rs1.toNat (rs2.toNat * 2 ^ 4 + 0) → Good h [w] (.mcopy h rd rs1 rs2) := by
    intro w e
    have g30 := e.fn (by omega)
    have g84 := e.rs2 (by omega) (by omega)
    have hu : h.unit.toNat = 2 := unitIs hu
    all_goals
      have hU := e.unit.trans hu
      refine ⟨?_, ?_, ?_, ?_, e.stop, e.cond, .inl rfl⟩
      · simp only [List.getD_cons_zero, List.getD_cons_succ, List.getD_nil, decodeSyl, hU, u2Of, e.op, wFn, wRs2, wL, wImm, wAm, wX, wSys, immOf, immPOf, addrOf, g30, g84, e.rd, e.rs1, wStop_long, longWord_low, ofNat_self, head_eq e]; try rfl
      · simp only [List.getD_cons_zero, touchesSig, usesSig, postMode, hU, e.op, wFn, wRs2, wL, wImm, wAm, wX, wSys, g30, g84, e.rd, e.rs1] <;> first | rfl | simp
      · refine sylFault_none ?_ ?_ (by rw [List.getD_cons_zero, e.cond]; exact hc)
        · simp only [List.getD_cons_zero, illegal, hU, illegal2, illegalLoad, e.op, wFn, wRs2, wL, wImm, wAm, wX, wSys, g30, g84, e.rd, e.rs1]
          try first | rfl | (simp [operandsOk, postInc, immPDefined, BitVec.toNat_eq] at ho; simp [badIf, userKnown, sysKnown]; omega)
        · simp only [List.getD_cons_zero, reservedSet, hU, reserved2, illegalLoad, e.op, wFn, wRs2, wL, wImm, wAm, wX, wSys, g30, g84, e.rd, e.rs1]
          try first | rfl | (simp [operandsOk, postInc, immPDefined, BitVec.toNat_eq] at ho; simp [badIf, userKnown, sysKnown]; omega)
      · try simp only [List.getD_cons_zero, ownsLong, hU, e.op, wFn, wRs2, wL, wImm, wAm, wX, wSys, g30, g84, e.rd, e.rs1] <;> first | rfl | simp
  exact key _ (enc_head h 17 rd.toNat rs1.toNat (rs2.toNat * 2 ^ 4 + 0) (by decide) (by omega) (by omega) (by omega))
theorem mcopyGranule (granule) : Statement (.mcopyGranule granule) := fun _ hs => nomatch hs
theorem kmov (h rd rs1) : Statement (.kmov h rd rs1) := by
  have b_rd := rd.isLt
  have b_rs1 := rs1.isLt
  intro h' hs hw
  obtain ⟨hu, ho, hl, hc⟩ := parts hs hw
  cases hs
  have key : ∀ w, Enc w h 20 rd.toNat rs1.toNat (0 * 2 ^ 4 + 0) → Good h [w] (.kmov h rd rs1) := by
    intro w e
    have g30 := e.fn (by omega)
    have g84 := e.rs2 (by omega) (by omega)
    have hu : h.unit.toNat = 2 := unitIs hu
    all_goals
      have hU := e.unit.trans hu
      refine ⟨?_, ?_, ?_, ?_, e.stop, e.cond, .inl rfl⟩
      · simp only [List.getD_cons_zero, List.getD_cons_succ, List.getD_nil, decodeSyl, hU, u2Of, e.op, wFn, wRs2, wL, wImm, wAm, wX, wSys, immOf, immPOf, addrOf, g30, g84, e.rd, e.rs1, wStop_long, longWord_low, ofNat_self, head_eq e]; try rfl
      · simp only [List.getD_cons_zero, touchesSig, usesSig, postMode, hU, e.op, wFn, wRs2, wL, wImm, wAm, wX, wSys, g30, g84, e.rd, e.rs1] <;> first | rfl | simp
      · refine sylFault_none ?_ ?_ (by rw [List.getD_cons_zero, e.cond]; exact hc)
        · simp only [List.getD_cons_zero, illegal, hU, illegal2, illegalLoad, e.op, wFn, wRs2, wL, wImm, wAm, wX, wSys, g30, g84, e.rd, e.rs1]
          try rfl
        · simp only [List.getD_cons_zero, reservedSet, hU, reserved2, illegalLoad, e.op, wFn, wRs2, wL, wImm, wAm, wX, wSys, g30, g84, e.rd, e.rs1]
          try rfl
      · try simp only [List.getD_cons_zero, ownsLong, hU, e.op, wFn, wRs2, wL, wImm, wAm, wX, wSys, g30, g84, e.rd, e.rs1] <;> first | rfl | simp
  exact key _ (enc_head h 20 rd.toNat rs1.toNat (0 * 2 ^ 4 + 0) (by decide) (by omega) (by omega) (by omega))
theorem kdrop (h rd rs1) : Statement (.kdrop h rd rs1) := by
  have b_rd := rd.isLt
  have b_rs1 := rs1.isLt
  intro h' hs hw
  obtain ⟨hu, ho, hl, hc⟩ := parts hs hw
  cases hs
  have key : ∀ w, Enc w h 20 rd.toNat rs1.toNat (0 * 2 ^ 4 + 1) → Good h [w] (.kdrop h rd rs1) := by
    intro w e
    have g30 := e.fn (by omega)
    have g84 := e.rs2 (by omega) (by omega)
    have hu : h.unit.toNat = 2 := unitIs hu
    all_goals
      have hU := e.unit.trans hu
      refine ⟨?_, ?_, ?_, ?_, e.stop, e.cond, .inl rfl⟩
      · simp only [List.getD_cons_zero, List.getD_cons_succ, List.getD_nil, decodeSyl, hU, u2Of, e.op, wFn, wRs2, wL, wImm, wAm, wX, wSys, immOf, immPOf, addrOf, g30, g84, e.rd, e.rs1, wStop_long, longWord_low, ofNat_self, head_eq e]; try rfl
      · simp only [List.getD_cons_zero, touchesSig, usesSig, postMode, hU, e.op, wFn, wRs2, wL, wImm, wAm, wX, wSys, g30, g84, e.rd, e.rs1] <;> first | rfl | simp
      · refine sylFault_none ?_ ?_ (by rw [List.getD_cons_zero, e.cond]; exact hc)
        · simp only [List.getD_cons_zero, illegal, hU, illegal2, illegalLoad, e.op, wFn, wRs2, wL, wImm, wAm, wX, wSys, g30, g84, e.rd, e.rs1]
          try rfl
        · simp only [List.getD_cons_zero, reservedSet, hU, reserved2, illegalLoad, e.op, wFn, wRs2, wL, wImm, wAm, wX, wSys, g30, g84, e.rd, e.rs1]
          try rfl
      · try simp only [List.getD_cons_zero, ownsLong, hU, e.op, wFn, wRs2, wL, wImm, wAm, wX, wSys, g30, g84, e.rd, e.rs1] <;> first | rfl | simp
  exact key _ (enc_head h 20 rd.toNat rs1.toNat (0 * 2 ^ 4 + 1) (by decide) (by omega) (by omega) (by omega))
theorem kpoint (h rd rs1 rs2) : Statement (.kpoint h rd rs1 rs2) := by
  have b_rd := rd.isLt
  have b_rs1 := rs1.isLt
  have b_rs2 := rs2.isLt
  intro h' hs hw
  obtain ⟨hu, ho, hl, hc⟩ := parts hs hw
  cases hs
  have key : ∀ w, Enc w h 20 rd.toNat rs1.toNat (rs2.toNat * 2 ^ 4 + 2) → Good h [w] (.kpoint h rd rs1 rs2) := by
    intro w e
    have g30 := e.fn (by omega)
    have g84 := e.rs2 (by omega) (by omega)
    have hu : h.unit.toNat = 2 := unitIs hu
    all_goals
      have hU := e.unit.trans hu
      refine ⟨?_, ?_, ?_, ?_, e.stop, e.cond, .inl rfl⟩
      · simp only [List.getD_cons_zero, List.getD_cons_succ, List.getD_nil, decodeSyl, hU, u2Of, e.op, wFn, wRs2, wL, wImm, wAm, wX, wSys, immOf, immPOf, addrOf, g30, g84, e.rd, e.rs1, wStop_long, longWord_low, ofNat_self, head_eq e]; try rfl
      · simp only [List.getD_cons_zero, touchesSig, usesSig, postMode, hU, e.op, wFn, wRs2, wL, wImm, wAm, wX, wSys, g30, g84, e.rd, e.rs1] <;> first | rfl | simp
      · refine sylFault_none ?_ ?_ (by rw [List.getD_cons_zero, e.cond]; exact hc)
        · simp only [List.getD_cons_zero, illegal, hU, illegal2, illegalLoad, e.op, wFn, wRs2, wL, wImm, wAm, wX, wSys, g30, g84, e.rd, e.rs1]
          try rfl
        · simp only [List.getD_cons_zero, reservedSet, hU, reserved2, illegalLoad, e.op, wFn, wRs2, wL, wImm, wAm, wX, wSys, g30, g84, e.rd, e.rs1]
          try rfl
      · try simp only [List.getD_cons_zero, ownsLong, hU, e.op, wFn, wRs2, wL, wImm, wAm, wX, wSys, g30, g84, e.rd, e.rs1] <;> first | rfl | simp
  exact key _ (enc_head h 20 rd.toNat rs1.toNat (rs2.toNat * 2 ^ 4 + 2) (by decide) (by omega) (by omega) (by omega))
theorem kstep (h rd rs1 rs2) : Statement (.kstep h rd rs1 rs2) := by
  have b_rd := rd.isLt
  have b_rs1 := rs1.isLt
  have b_rs2 := rs2.isLt
  intro h' hs hw
  obtain ⟨hu, ho, hl, hc⟩ := parts hs hw
  cases hs
  have key : ∀ w, Enc w h 20 rd.toNat rs1.toNat (rs2.toNat * 2 ^ 4 + 3) → Good h [w] (.kstep h rd rs1 rs2) := by
    intro w e
    have g30 := e.fn (by omega)
    have g84 := e.rs2 (by omega) (by omega)
    have hu : h.unit.toNat = 2 := unitIs hu
    all_goals
      have hU := e.unit.trans hu
      refine ⟨?_, ?_, ?_, ?_, e.stop, e.cond, .inl rfl⟩
      · simp only [List.getD_cons_zero, List.getD_cons_succ, List.getD_nil, decodeSyl, hU, u2Of, e.op, wFn, wRs2, wL, wImm, wAm, wX, wSys, immOf, immPOf, addrOf, g30, g84, e.rd, e.rs1, wStop_long, longWord_low, ofNat_self, head_eq e]; try rfl
      · simp only [List.getD_cons_zero, touchesSig, usesSig, postMode, hU, e.op, wFn, wRs2, wL, wImm, wAm, wX, wSys, g30, g84, e.rd, e.rs1] <;> first | rfl | simp
      · refine sylFault_none ?_ ?_ (by rw [List.getD_cons_zero, e.cond]; exact hc)
        · simp only [List.getD_cons_zero, illegal, hU, illegal2, illegalLoad, e.op, wFn, wRs2, wL, wImm, wAm, wX, wSys, g30, g84, e.rd, e.rs1]
          try rfl
        · simp only [List.getD_cons_zero, reservedSet, hU, reserved2, illegalLoad, e.op, wFn, wRs2, wL, wImm, wAm, wX, wSys, g30, g84, e.rd, e.rs1]
          try rfl
      · try simp only [List.getD_cons_zero, ownsLong, hU, e.op, wFn, wRs2, wL, wImm, wAm, wX, wSys, g30, g84, e.rd, e.rs1] <;> first | rfl | simp
  exact key _ (enc_head h 20 rd.toNat rs1.toNat (rs2.toNat * 2 ^ 4 + 3) (by decide) (by omega) (by omega) (by omega))
theorem kstepi (h rd rs1 imm) : Statement (.kstepi h rd rs1 imm) := by
  have b_rd := rd.isLt
  have b_rs1 := rs1.isLt
  intro h' hs hw
  cases imm with
  | short v =>
    have b_v := v.isLt
    obtain ⟨hu, ho, hl, hc⟩ := parts hs hw
    cases hs
    have key : ∀ w, Enc w h 21 rd.toNat rs1.toNat v.toNat → Good h [w] (.kstepi h rd rs1 (.short v)) := by
      intro w e
      have g88 : bits w.toNat 8 8 = 0 := (e.low 8 8 (by decide) (by decide)).trans (by unfold bits; omega)
      have g70 : bits w.toNat 7 0 = v.toNat := (e.low 7 0 (by decide) (by decide)).trans (by unfold bits; omega)
      have hu : h.unit.toNat = 2 := unitIs hu
      all_goals
        have hU := e.unit.trans hu
        refine ⟨?_, ?_, ?_, ?_, e.stop, e.cond, .inl rfl⟩
        · simp only [List.getD_cons_zero, List.getD_cons_succ, List.getD_nil, decodeSyl, hU, u2Of, e.op, wFn, wRs2, wL, wImm, wAm, wX, wSys, immOf, immPOf, addrOf, g88, g70, e.rd, e.rs1, wStop_long, longWord_low, ofNat_self, head_eq e]; try rfl
        · simp only [List.getD_cons_zero, touchesSig, usesSig, postMode, hU, e.op, wFn, wRs2, wL, wImm, wAm, wX, wSys, g88, g70, e.rd, e.rs1] <;> first | rfl | simp
        · refine sylFault_none ?_ ?_ (by rw [List.getD_cons_zero, e.cond]; exact hc)
          · simp only [List.getD_cons_zero, illegal, hU, illegal2, illegalLoad, e.op, wFn, wRs2, wL, wImm, wAm, wX, wSys, g88, g70, e.rd, e.rs1]
            try rfl
          · simp only [List.getD_cons_zero, reservedSet, hU, reserved2, illegalLoad, e.op, wFn, wRs2, wL, wImm, wAm, wX, wSys, g88, g70, e.rd, e.rs1]
            try rfl
        · try simp only [List.getD_cons_zero, ownsLong, hU, e.op, wFn, wRs2, wL, wImm, wAm, wX, wSys, g88, g70, e.rd, e.rs1] <;> first | rfl | simp
    exact key _ (enc_head h 21 rd.toNat rs1.toNat v.toNat (by decide) (by omega) (by omega) (by omega))
  | long ls v =>
    have b_v := v.isLt
    obtain ⟨hu, ho, hl, hc⟩ := parts hs hw
    cases hs
    have key : ∀ w, Enc w h 21 rd.toNat rs1.toNat (2 ^ 8) → Good h [w, longWord ls v] (.kstepi h rd rs1 (.long ls v)) := by
      intro w e
      have g88 : bits w.toNat 8 8 = 1 := (e.low 8 8 (by decide) (by decide)).trans (by unfold bits; omega)
      have g70 : bits w.toNat 7 0 = 0 := (e.low 7 0 (by decide) (by decide)).trans (by unfold bits; omega)
      have g75 : bits w.toNat 7 5 = 0 := (e.low 7 5 (by decide) (by decide)).trans (by unfold bits; omega)
      have hu : h.unit.toNat = 2 := unitIs hu
      all_goals
        have hU := e.unit.trans hu
        refine ⟨?_, ?_, ?_, ?_, e.stop, e.cond, .inr ⟨rfl, by simpa [longOk, immShort, immPShort, addrShort] using hl⟩⟩
        · simp only [List.getD_cons_zero, List.getD_cons_succ, List.getD_nil, decodeSyl, hU, u2Of, e.op, wFn, wRs2, wL, wImm, wAm, wX, wSys, immOf, immPOf, addrOf, g88, g70, g75, e.rd, e.rs1, wStop_long, longWord_low, ofNat_self, head_eq e]; try rfl
        · simp only [List.getD_cons_zero, touchesSig, usesSig, postMode, hU, e.op, wFn, wRs2, wL, wImm, wAm, wX, wSys, g88, g70, g75, e.rd, e.rs1] <;> first | rfl | simp
        · refine sylFault_none ?_ ?_ (by rw [List.getD_cons_zero, e.cond]; exact hc)
          · simp only [List.getD_cons_zero, illegal, hU, illegal2, illegalLoad, e.op, wFn, wRs2, wL, wImm, wAm, wX, wSys, g88, g70, g75, e.rd, e.rs1]
            try rfl
          · simp only [List.getD_cons_zero, reservedSet, hU, reserved2, illegalLoad, e.op, wFn, wRs2, wL, wImm, wAm, wX, wSys, g88, g70, g75, e.rd, e.rs1]
            try rfl
        · try simp only [List.getD_cons_zero, ownsLong, hU, e.op, wFn, wRs2, wL, wImm, wAm, wX, wSys, g88, g70, g75, e.rd, e.rs1] <;> first | rfl | simp
    exact key _ (enc_head h 21 rd.toNat rs1.toNat (2 ^ 8) (by decide) (by omega) (by omega) (by omega))
theorem ktrim (h rd rs1 rs2) : Statement (.ktrim h rd rs1 rs2) := by
  have b_rd := rd.isLt
  have b_rs1 := rs1.isLt
  have b_rs2 := rs2.isLt
  intro h' hs hw
  obtain ⟨hu, ho, hl, hc⟩ := parts hs hw
  cases hs
  have key : ∀ w, Enc w h 20 rd.toNat rs1.toNat (rs2.toNat * 2 ^ 4 + 4) → Good h [w] (.ktrim h rd rs1 rs2) := by
    intro w e
    have g30 := e.fn (by omega)
    have g84 := e.rs2 (by omega) (by omega)
    have hu : h.unit.toNat = 2 := unitIs hu
    all_goals
      have hU := e.unit.trans hu
      refine ⟨?_, ?_, ?_, ?_, e.stop, e.cond, .inl rfl⟩
      · simp only [List.getD_cons_zero, List.getD_cons_succ, List.getD_nil, decodeSyl, hU, u2Of, e.op, wFn, wRs2, wL, wImm, wAm, wX, wSys, immOf, immPOf, addrOf, g30, g84, e.rd, e.rs1, wStop_long, longWord_low, ofNat_self, head_eq e]; try rfl
      · simp only [List.getD_cons_zero, touchesSig, usesSig, postMode, hU, e.op, wFn, wRs2, wL, wImm, wAm, wX, wSys, g30, g84, e.rd, e.rs1] <;> first | rfl | simp
      · refine sylFault_none ?_ ?_ (by rw [List.getD_cons_zero, e.cond]; exact hc)
        · simp only [List.getD_cons_zero, illegal, hU, illegal2, illegalLoad, e.op, wFn, wRs2, wL, wImm, wAm, wX, wSys, g30, g84, e.rd, e.rs1]
          try rfl
        · simp only [List.getD_cons_zero, reservedSet, hU, reserved2, illegalLoad, e.op, wFn, wRs2, wL, wImm, wAm, wX, wSys, g30, g84, e.rd, e.rs1]
          try rfl
      · try simp only [List.getD_cons_zero, ownsLong, hU, e.op, wFn, wRs2, wL, wImm, wAm, wX, wSys, g30, g84, e.rd, e.rs1] <;> first | rfl | simp
  exact key _ (enc_head h 20 rd.toNat rs1.toNat (rs2.toNat * 2 ^ 4 + 4) (by decide) (by omega) (by omega) (by omega))
theorem kclip (h rd rs1 rs2) : Statement (.kclip h rd rs1 rs2) := by
  have b_rd := rd.isLt
  have b_rs1 := rs1.isLt
  have b_rs2 := rs2.isLt
  intro h' hs hw
  obtain ⟨hu, ho, hl, hc⟩ := parts hs hw
  cases hs
  have key : ∀ w, Enc w h 20 rd.toNat rs1.toNat (rs2.toNat * 2 ^ 4 + 5) → Good h [w] (.kclip h rd rs1 rs2) := by
    intro w e
    have g30 := e.fn (by omega)
    have g84 := e.rs2 (by omega) (by omega)
    have hu : h.unit.toNat = 2 := unitIs hu
    all_goals
      have hU := e.unit.trans hu
      refine ⟨?_, ?_, ?_, ?_, e.stop, e.cond, .inl rfl⟩
      · simp only [List.getD_cons_zero, List.getD_cons_succ, List.getD_nil, decodeSyl, hU, u2Of, e.op, wFn, wRs2, wL, wImm, wAm, wX, wSys, immOf, immPOf, addrOf, g30, g84, e.rd, e.rs1, wStop_long, longWord_low, ofNat_self, head_eq e]; try rfl
      · simp only [List.getD_cons_zero, touchesSig, usesSig, postMode, hU, e.op, wFn, wRs2, wL, wImm, wAm, wX, wSys, g30, g84, e.rd, e.rs1] <;> first | rfl | simp
      · refine sylFault_none ?_ ?_ (by rw [List.getD_cons_zero, e.cond]; exact hc)
        · simp only [List.getD_cons_zero, illegal, hU, illegal2, illegalLoad, e.op, wFn, wRs2, wL, wImm, wAm, wX, wSys, g30, g84, e.rd, e.rs1]
          try rfl
        · simp only [List.getD_cons_zero, reservedSet, hU, reserved2, illegalLoad, e.op, wFn, wRs2, wL, wImm, wAm, wX, wSys, g30, g84, e.rd, e.rs1]
          try rfl
      · try simp only [List.getD_cons_zero, ownsLong, hU, e.op, wFn, wRs2, wL, wImm, wAm, wX, wSys, g30, g84, e.rd, e.rs1] <;> first | rfl | simp
  exact key _ (enc_head h 20 rd.toNat rs1.toNat (rs2.toNat * 2 ^ 4 + 5) (by decide) (by omega) (by omega) (by omega))
theorem kclips (h rd rs1 rs2) : Statement (.kclips h rd rs1 rs2) := by
  have b_rd := rd.isLt
  have b_rs1 := rs1.isLt
  have b_rs2 := rs2.isLt
  intro h' hs hw
  obtain ⟨hu, ho, hl, hc⟩ := parts hs hw
  cases hs
  have key : ∀ w, Enc w h 20 rd.toNat rs1.toNat (rs2.toNat * 2 ^ 4 + 6) → Good h [w] (.kclips h rd rs1 rs2) := by
    intro w e
    have g30 := e.fn (by omega)
    have g84 := e.rs2 (by omega) (by omega)
    have hu : h.unit.toNat = 2 := unitIs hu
    all_goals
      have hU := e.unit.trans hu
      refine ⟨?_, ?_, ?_, ?_, e.stop, e.cond, .inl rfl⟩
      · simp only [List.getD_cons_zero, List.getD_cons_succ, List.getD_nil, decodeSyl, hU, u2Of, e.op, wFn, wRs2, wL, wImm, wAm, wX, wSys, immOf, immPOf, addrOf, g30, g84, e.rd, e.rs1, wStop_long, longWord_low, ofNat_self, head_eq e]; try rfl
      · simp only [List.getD_cons_zero, touchesSig, usesSig, postMode, hU, e.op, wFn, wRs2, wL, wImm, wAm, wX, wSys, g30, g84, e.rd, e.rs1] <;> first | rfl | simp
      · refine sylFault_none ?_ ?_ (by rw [List.getD_cons_zero, e.cond]; exact hc)
        · simp only [List.getD_cons_zero, illegal, hU, illegal2, illegalLoad, e.op, wFn, wRs2, wL, wImm, wAm, wX, wSys, g30, g84, e.rd, e.rs1]
          try rfl
        · simp only [List.getD_cons_zero, reservedSet, hU, reserved2, illegalLoad, e.op, wFn, wRs2, wL, wImm, wAm, wX, wSys, g30, g84, e.rd, e.rs1]
          try rfl
      · try simp only [List.getD_cons_zero, ownsLong, hU, e.op, wFn, wRs2, wL, wImm, wAm, wX, wSys, g30, g84, e.rd, e.rs1] <;> first | rfl | simp
  exact key _ (enc_head h 20 rd.toNat rs1.toNat (rs2.toNat * 2 ^ 4 + 6) (by decide) (by omega) (by omega) (by omega))
theorem kwrap (h rd rs1 rs2) : Statement (.kwrap h rd rs1 rs2) := by
  have b_rd := rd.isLt
  have b_rs1 := rs1.isLt
  have b_rs2 := rs2.isLt
  intro h' hs hw
  obtain ⟨hu, ho, hl, hc⟩ := parts hs hw
  cases hs
  have key : ∀ w, Enc w h 20 rd.toNat rs1.toNat (rs2.toNat * 2 ^ 4 + 7) → Good h [w] (.kwrap h rd rs1 rs2) := by
    intro w e
    have g30 := e.fn (by omega)
    have g84 := e.rs2 (by omega) (by omega)
    have hu : h.unit.toNat = 2 := unitIs hu
    all_goals
      have hU := e.unit.trans hu
      refine ⟨?_, ?_, ?_, ?_, e.stop, e.cond, .inl rfl⟩
      · simp only [List.getD_cons_zero, List.getD_cons_succ, List.getD_nil, decodeSyl, hU, u2Of, e.op, wFn, wRs2, wL, wImm, wAm, wX, wSys, immOf, immPOf, addrOf, g30, g84, e.rd, e.rs1, wStop_long, longWord_low, ofNat_self, head_eq e]; try rfl
      · simp only [List.getD_cons_zero, touchesSig, usesSig, postMode, hU, e.op, wFn, wRs2, wL, wImm, wAm, wX, wSys, g30, g84, e.rd, e.rs1] <;> first | rfl | simp
      · refine sylFault_none ?_ ?_ (by rw [List.getD_cons_zero, e.cond]; exact hc)
        · simp only [List.getD_cons_zero, illegal, hU, illegal2, illegalLoad, e.op, wFn, wRs2, wL, wImm, wAm, wX, wSys, g30, g84, e.rd, e.rs1]
          try rfl
        · simp only [List.getD_cons_zero, reservedSet, hU, reserved2, illegalLoad, e.op, wFn, wRs2, wL, wImm, wAm, wX, wSys, g30, g84, e.rd, e.rs1]
          try rfl
      · try simp only [List.getD_cons_zero, ownsLong, hU, e.op, wFn, wRs2, wL, wImm, wAm, wX, wSys, g30, g84, e.rd, e.rs1] <;> first | rfl | simp
  exact key _ (enc_head h 20 rd.toNat rs1.toNat (rs2.toNat * 2 ^ 4 + 7) (by decide) (by omega) (by omega) (by omega))
theorem kunwrap (h rd rs1 rs2) : Statement (.kunwrap h rd rs1 rs2) := by
  have b_rd := rd.isLt
  have b_rs1 := rs1.isLt
  have b_rs2 := rs2.isLt
  intro h' hs hw
  obtain ⟨hu, ho, hl, hc⟩ := parts hs hw
  cases hs
  have key : ∀ w, Enc w h 20 rd.toNat rs1.toNat (rs2.toNat * 2 ^ 4 + 8) → Good h [w] (.kunwrap h rd rs1 rs2) := by
    intro w e
    have g30 := e.fn (by omega)
    have g84 := e.rs2 (by omega) (by omega)
    have hu : h.unit.toNat = 2 := unitIs hu
    all_goals
      have hU := e.unit.trans hu
      refine ⟨?_, ?_, ?_, ?_, e.stop, e.cond, .inl rfl⟩
      · simp only [List.getD_cons_zero, List.getD_cons_succ, List.getD_nil, decodeSyl, hU, u2Of, e.op, wFn, wRs2, wL, wImm, wAm, wX, wSys, immOf, immPOf, addrOf, g30, g84, e.rd, e.rs1, wStop_long, longWord_low, ofNat_self, head_eq e]; try rfl
      · simp only [List.getD_cons_zero, touchesSig, usesSig, postMode, hU, e.op, wFn, wRs2, wL, wImm, wAm, wX, wSys, g30, g84, e.rd, e.rs1] <;> first | rfl | simp
      · refine sylFault_none ?_ ?_ (by rw [List.getD_cons_zero, e.cond]; exact hc)
        · simp only [List.getD_cons_zero, illegal, hU, illegal2, illegalLoad, e.op, wFn, wRs2, wL, wImm, wAm, wX, wSys, g30, g84, e.rd, e.rs1]
          try rfl
        · simp only [List.getD_cons_zero, reservedSet, hU, reserved2, illegalLoad, e.op, wFn, wRs2, wL, wImm, wAm, wX, wSys, g30, g84, e.rd, e.rs1]
          try rfl
      · try simp only [List.getD_cons_zero, ownsLong, hU, e.op, wFn, wRs2, wL, wImm, wAm, wX, wSys, g30, g84, e.rd, e.rs1] <;> first | rfl | simp
  exact key _ (enc_head h 20 rd.toNat rs1.toNat (rs2.toNat * 2 ^ 4 + 8) (by decide) (by omega) (by omega) (by omega))
theorem krcur (h rd rs1) : Statement (.krcur h rd rs1) := by
  have b_rd := rd.isLt
  have b_rs1 := rs1.isLt
  intro h' hs hw
  obtain ⟨hu, ho, hl, hc⟩ := parts hs hw
  cases hs
  have key : ∀ w, Enc w h 22 rd.toNat rs1.toNat (0 * 2 ^ 4 + 0) → Good h [w] (.krcur h rd rs1) := by
    intro w e
    have g30 := e.fn (by omega)
    have g84 := e.rs2 (by omega) (by omega)
    have hu : h.unit.toNat = 2 := unitIs hu
    all_goals
      have hU := e.unit.trans hu
      refine ⟨?_, ?_, ?_, ?_, e.stop, e.cond, .inl rfl⟩
      · simp only [List.getD_cons_zero, List.getD_cons_succ, List.getD_nil, decodeSyl, hU, u2Of, e.op, wFn, wRs2, wL, wImm, wAm, wX, wSys, immOf, immPOf, addrOf, g30, g84, e.rd, e.rs1, wStop_long, longWord_low, ofNat_self, head_eq e]; try rfl
      · simp only [List.getD_cons_zero, touchesSig, usesSig, postMode, hU, e.op, wFn, wRs2, wL, wImm, wAm, wX, wSys, g30, g84, e.rd, e.rs1] <;> first | rfl | simp
      · refine sylFault_none ?_ ?_ (by rw [List.getD_cons_zero, e.cond]; exact hc)
        · simp only [List.getD_cons_zero, illegal, hU, illegal2, illegalLoad, e.op, wFn, wRs2, wL, wImm, wAm, wX, wSys, g30, g84, e.rd, e.rs1]
          try rfl
        · simp only [List.getD_cons_zero, reservedSet, hU, reserved2, illegalLoad, e.op, wFn, wRs2, wL, wImm, wAm, wX, wSys, g30, g84, e.rd, e.rs1]
          try rfl
      · try simp only [List.getD_cons_zero, ownsLong, hU, e.op, wFn, wRs2, wL, wImm, wAm, wX, wSys, g30, g84, e.rd, e.rs1] <;> first | rfl | simp
  exact key _ (enc_head h 22 rd.toNat rs1.toNat (0 * 2 ^ 4 + 0) (by decide) (by omega) (by omega) (by omega))
theorem krbase (h rd rs1) : Statement (.krbase h rd rs1) := by
  have b_rd := rd.isLt
  have b_rs1 := rs1.isLt
  intro h' hs hw
  obtain ⟨hu, ho, hl, hc⟩ := parts hs hw
  cases hs
  have key : ∀ w, Enc w h 22 rd.toNat rs1.toNat (0 * 2 ^ 4 + 1) → Good h [w] (.krbase h rd rs1) := by
    intro w e
    have g30 := e.fn (by omega)
    have g84 := e.rs2 (by omega) (by omega)
    have hu : h.unit.toNat = 2 := unitIs hu
    all_goals
      have hU := e.unit.trans hu
      refine ⟨?_, ?_, ?_, ?_, e.stop, e.cond, .inl rfl⟩
      · simp only [List.getD_cons_zero, List.getD_cons_succ, List.getD_nil, decodeSyl, hU, u2Of, e.op, wFn, wRs2, wL, wImm, wAm, wX, wSys, immOf, immPOf, addrOf, g30, g84, e.rd, e.rs1, wStop_long, longWord_low, ofNat_self, head_eq e]; try rfl
      · simp only [List.getD_cons_zero, touchesSig, usesSig, postMode, hU, e.op, wFn, wRs2, wL, wImm, wAm, wX, wSys, g30, g84, e.rd, e.rs1] <;> first | rfl | simp
      · refine sylFault_none ?_ ?_ (by rw [List.getD_cons_zero, e.cond]; exact hc)
        · simp only [List.getD_cons_zero, illegal, hU, illegal2, illegalLoad, e.op, wFn, wRs2, wL, wImm, wAm, wX, wSys, g30, g84, e.rd, e.rs1]
          try rfl
        · simp only [List.getD_cons_zero, reservedSet, hU, reserved2, illegalLoad, e.op, wFn, wRs2, wL, wImm, wAm, wX, wSys, g30, g84, e.rd, e.rs1]
          try rfl
      · try simp only [List.getD_cons_zero, ownsLong, hU, e.op, wFn, wRs2, wL, wImm, wAm, wX, wSys, g30, g84, e.rd, e.rs1] <;> first | rfl | simp
  exact key _ (enc_head h 22 rd.toNat rs1.toNat (0 * 2 ^ 4 + 1) (by decide) (by omega) (by omega) (by omega))
theorem krlen (h rd rs1) : Statement (.krlen h rd rs1) := by
  have b_rd := rd.isLt
  have b_rs1 := rs1.isLt
  intro h' hs hw
  obtain ⟨hu, ho, hl, hc⟩ := parts hs hw
  cases hs
  have key : ∀ w, Enc w h 22 rd.toNat rs1.toNat (0 * 2 ^ 4 + 2) → Good h [w] (.krlen h rd rs1) := by
    intro w e
    have g30 := e.fn (by omega)
    have g84 := e.rs2 (by omega) (by omega)
    have hu : h.unit.toNat = 2 := unitIs hu
    all_goals
      have hU := e.unit.trans hu
      refine ⟨?_, ?_, ?_, ?_, e.stop, e.cond, .inl rfl⟩
      · simp only [List.getD_cons_zero, List.getD_cons_succ, List.getD_nil, decodeSyl, hU, u2Of, e.op, wFn, wRs2, wL, wImm, wAm, wX, wSys, immOf, immPOf, addrOf, g30, g84, e.rd, e.rs1, wStop_long, longWord_low, ofNat_self, head_eq e]; try rfl
      · simp only [List.getD_cons_zero, touchesSig, usesSig, postMode, hU, e.op, wFn, wRs2, wL, wImm, wAm, wX, wSys, g30, g84, e.rd, e.rs1] <;> first | rfl | simp
      · refine sylFault_none ?_ ?_ (by rw [List.getD_cons_zero, e.cond]; exact hc)
        · simp only [List.getD_cons_zero, illegal, hU, illegal2, illegalLoad, e.op, wFn, wRs2, wL, wImm, wAm, wX, wSys, g30, g84, e.rd, e.rs1]
          try rfl
        · simp only [List.getD_cons_zero, reservedSet, hU, reserved2, illegalLoad, e.op, wFn, wRs2, wL, wImm, wAm, wX, wSys, g30, g84, e.rd, e.rs1]
          try rfl
      · try simp only [List.getD_cons_zero, ownsLong, hU, e.op, wFn, wRs2, wL, wImm, wAm, wX, wSys, g30, g84, e.rd, e.rs1] <;> first | rfl | simp
  exact key _ (enc_head h 22 rd.toNat rs1.toNat (0 * 2 ^ 4 + 2) (by decide) (by omega) (by omega) (by omega))
theorem krperm (h rd rs1) : Statement (.krperm h rd rs1) := by
  have b_rd := rd.isLt
  have b_rs1 := rs1.isLt
  intro h' hs hw
  obtain ⟨hu, ho, hl, hc⟩ := parts hs hw
  cases hs
  have key : ∀ w, Enc w h 22 rd.toNat rs1.toNat (0 * 2 ^ 4 + 3) → Good h [w] (.krperm h rd rs1) := by
    intro w e
    have g30 := e.fn (by omega)
    have g84 := e.rs2 (by omega) (by omega)
    have hu : h.unit.toNat = 2 := unitIs hu
    all_goals
      have hU := e.unit.trans hu
      refine ⟨?_, ?_, ?_, ?_, e.stop, e.cond, .inl rfl⟩
      · simp only [List.getD_cons_zero, List.getD_cons_succ, List.getD_nil, decodeSyl, hU, u2Of, e.op, wFn, wRs2, wL, wImm, wAm, wX, wSys, immOf, immPOf, addrOf, g30, g84, e.rd, e.rs1, wStop_long, longWord_low, ofNat_self, head_eq e]; try rfl
      · simp only [List.getD_cons_zero, touchesSig, usesSig, postMode, hU, e.op, wFn, wRs2, wL, wImm, wAm, wX, wSys, g30, g84, e.rd, e.rs1] <;> first | rfl | simp
      · refine sylFault_none ?_ ?_ (by rw [List.getD_cons_zero, e.cond]; exact hc)
        · simp only [List.getD_cons_zero, illegal, hU, illegal2, illegalLoad, e.op, wFn, wRs2, wL, wImm, wAm, wX, wSys, g30, g84, e.rd, e.rs1]
          try rfl
        · simp only [List.getD_cons_zero, reservedSet, hU, reserved2, illegalLoad, e.op, wFn, wRs2, wL, wImm, wAm, wX, wSys, g30, g84, e.rd, e.rs1]
          try rfl
      · try simp only [List.getD_cons_zero, ownsLong, hU, e.op, wFn, wRs2, wL, wImm, wAm, wX, wSys, g30, g84, e.rd, e.rs1] <;> first | rfl | simp
  exact key _ (enc_head h 22 rd.toNat rs1.toNat (0 * 2 ^ 4 + 3) (by decide) (by omega) (by omega) (by omega))
theorem krtype (h rd rs1) : Statement (.krtype h rd rs1) := by
  have b_rd := rd.isLt
  have b_rs1 := rs1.isLt
  intro h' hs hw
  obtain ⟨hu, ho, hl, hc⟩ := parts hs hw
  cases hs
  have key : ∀ w, Enc w h 22 rd.toNat rs1.toNat (0 * 2 ^ 4 + 4) → Good h [w] (.krtype h rd rs1) := by
    intro w e
    have g30 := e.fn (by omega)
    have g84 := e.rs2 (by omega) (by omega)
    have hu : h.unit.toNat = 2 := unitIs hu
    all_goals
      have hU := e.unit.trans hu
      refine ⟨?_, ?_, ?_, ?_, e.stop, e.cond, .inl rfl⟩
      · simp only [List.getD_cons_zero, List.getD_cons_succ, List.getD_nil, decodeSyl, hU, u2Of, e.op, wFn, wRs2, wL, wImm, wAm, wX, wSys, immOf, immPOf, addrOf, g30, g84, e.rd, e.rs1, wStop_long, longWord_low, ofNat_self, head_eq e]; try rfl
      · simp only [List.getD_cons_zero, touchesSig, usesSig, postMode, hU, e.op, wFn, wRs2, wL, wImm, wAm, wX, wSys, g30, g84, e.rd, e.rs1] <;> first | rfl | simp
      · refine sylFault_none ?_ ?_ (by rw [List.getD_cons_zero, e.cond]; exact hc)
        · simp only [List.getD_cons_zero, illegal, hU, illegal2, illegalLoad, e.op, wFn, wRs2, wL, wImm, wAm, wX, wSys, g30, g84, e.rd, e.rs1]
          try rfl
        · simp only [List.getD_cons_zero, reservedSet, hU, reserved2, illegalLoad, e.op, wFn, wRs2, wL, wImm, wAm, wX, wSys, g30, g84, e.rd, e.rs1]
          try rfl
      · try simp only [List.getD_cons_zero, ownsLong, hU, e.op, wFn, wRs2, wL, wImm, wAm, wX, wSys, g30, g84, e.rd, e.rs1] <;> first | rfl | simp
  exact key _ (enc_head h 22 rd.toNat rs1.toNat (0 * 2 ^ 4 + 4) (by decide) (by omega) (by omega) (by omega))
theorem krtag (h rd rs1) : Statement (.krtag h rd rs1) := by
  have b_rd := rd.isLt
  have b_rs1 := rs1.isLt
  intro h' hs hw
  obtain ⟨hu, ho, hl, hc⟩ := parts hs hw
  cases hs
  have key : ∀ w, Enc w h 22 rd.toNat rs1.toNat (0 * 2 ^ 4 + 5) → Good h [w] (.krtag h rd rs1) := by
    intro w e
    have g30 := e.fn (by omega)
    have g84 := e.rs2 (by omega) (by omega)
    have hu : h.unit.toNat = 2 := unitIs hu
    all_goals
      have hU := e.unit.trans hu
      refine ⟨?_, ?_, ?_, ?_, e.stop, e.cond, .inl rfl⟩
      · simp only [List.getD_cons_zero, List.getD_cons_succ, List.getD_nil, decodeSyl, hU, u2Of, e.op, wFn, wRs2, wL, wImm, wAm, wX, wSys, immOf, immPOf, addrOf, g30, g84, e.rd, e.rs1, wStop_long, longWord_low, ofNat_self, head_eq e]; try rfl
      · simp only [List.getD_cons_zero, touchesSig, usesSig, postMode, hU, e.op, wFn, wRs2, wL, wImm, wAm, wX, wSys, g30, g84, e.rd, e.rs1] <;> first | rfl | simp
      · refine sylFault_none ?_ ?_ (by rw [List.getD_cons_zero, e.cond]; exact hc)
        · simp only [List.getD_cons_zero, illegal, hU, illegal2, illegalLoad, e.op, wFn, wRs2, wL, wImm, wAm, wX, wSys, g30, g84, e.rd, e.rs1]
          try rfl
        · simp only [List.getD_cons_zero, reservedSet, hU, reserved2, illegalLoad, e.op, wFn, wRs2, wL, wImm, wAm, wX, wSys, g30, g84, e.rd, e.rs1]
          try rfl
      · try simp only [List.getD_cons_zero, ownsLong, hU, e.op, wFn, wRs2, wL, wImm, wAm, wX, wSys, g30, g84, e.rd, e.rs1] <;> first | rfl | simp
  exact key _ (enc_head h 22 rd.toNat rs1.toNat (0 * 2 ^ 4 + 5) (by decide) (by omega) (by omega) (by omega))
theorem qput (h rd rs1 rs2) : Statement (.qput h rd rs1 rs2) := by
  have b_rd := rd.isLt
  have b_rs1 := rs1.isLt
  have b_rs2 := rs2.isLt
  intro h' hs hw
  obtain ⟨hu, ho, hl, hc⟩ := parts hs hw
  cases hs
  have key : ∀ w, Enc w h 24 rd.toNat rs1.toNat (rs2.toNat * 2 ^ 4 + 0) → Good h [w] (.qput h rd rs1 rs2) := by
    intro w e
    have g30 := e.fn (by omega)
    have g84 := e.rs2 (by omega) (by omega)
    have hu : h.unit.toNat = 2 := unitIs hu
    all_goals
      have hU := e.unit.trans hu
      refine ⟨?_, ?_, ?_, ?_, e.stop, e.cond, .inl rfl⟩
      · simp only [List.getD_cons_zero, List.getD_cons_succ, List.getD_nil, decodeSyl, hU, u2Of, e.op, wFn, wRs2, wL, wImm, wAm, wX, wSys, immOf, immPOf, addrOf, g30, g84, e.rd, e.rs1, wStop_long, longWord_low, ofNat_self, head_eq e]; try rfl
      · simp only [List.getD_cons_zero, touchesSig, usesSig, postMode, hU, e.op, wFn, wRs2, wL, wImm, wAm, wX, wSys, g30, g84, e.rd, e.rs1] <;> first | rfl | simp
      · refine sylFault_none ?_ ?_ (by rw [List.getD_cons_zero, e.cond]; exact hc)
        · simp only [List.getD_cons_zero, illegal, hU, illegal2, illegalLoad, e.op, wFn, wRs2, wL, wImm, wAm, wX, wSys, g30, g84, e.rd, e.rs1]
          try first | rfl | (simp [operandsOk, postInc, immPDefined, BitVec.toNat_eq] at ho; simp [badIf, userKnown, sysKnown]; omega)
        · simp only [List.getD_cons_zero, reservedSet, hU, reserved2, illegalLoad, e.op, wFn, wRs2, wL, wImm, wAm, wX, wSys, g30, g84, e.rd, e.rs1]
          try first | rfl | (simp [operandsOk, postInc, immPDefined, BitVec.toNat_eq] at ho; simp [badIf, userKnown, sysKnown]; omega)
      · try simp only [List.getD_cons_zero, ownsLong, hU, e.op, wFn, wRs2, wL, wImm, wAm, wX, wSys, g30, g84, e.rd, e.rs1] <;> first | rfl | simp
  exact key _ (enc_head h 24 rd.toNat rs1.toNat (rs2.toNat * 2 ^ 4 + 0) (by decide) (by omega) (by omega) (by omega))
theorem qget (h rd rs1 rs2) : Statement (.qget h rd rs1 rs2) := by
  have b_rd := rd.isLt
  have b_rs1 := rs1.isLt
  have b_rs2 := rs2.isLt
  intro h' hs hw
  obtain ⟨hu, ho, hl, hc⟩ := parts hs hw
  cases hs
  have key : ∀ w, Enc w h 25 rd.toNat rs1.toNat (rs2.toNat * 2 ^ 4 + 0) → Good h [w] (.qget h rd rs1 rs2) := by
    intro w e
    have g30 := e.fn (by omega)
    have g84 := e.rs2 (by omega) (by omega)
    have hu : h.unit.toNat = 2 := unitIs hu
    all_goals
      have hU := e.unit.trans hu
      refine ⟨?_, ?_, ?_, ?_, e.stop, e.cond, .inl rfl⟩
      · simp only [List.getD_cons_zero, List.getD_cons_succ, List.getD_nil, decodeSyl, hU, u2Of, e.op, wFn, wRs2, wL, wImm, wAm, wX, wSys, immOf, immPOf, addrOf, g30, g84, e.rd, e.rs1, wStop_long, longWord_low, ofNat_self, head_eq e]; try rfl
      · simp only [List.getD_cons_zero, touchesSig, usesSig, postMode, hU, e.op, wFn, wRs2, wL, wImm, wAm, wX, wSys, g30, g84, e.rd, e.rs1] <;> first | rfl | simp
      · refine sylFault_none ?_ ?_ (by rw [List.getD_cons_zero, e.cond]; exact hc)
        · simp only [List.getD_cons_zero, illegal, hU, illegal2, illegalLoad, e.op, wFn, wRs2, wL, wImm, wAm, wX, wSys, g30, g84, e.rd, e.rs1]
          try first | rfl | (simp [operandsOk, postInc, immPDefined, BitVec.toNat_eq] at ho; simp [badIf, userKnown, sysKnown]; omega)
        · simp only [List.getD_cons_zero, reservedSet, hU, reserved2, illegalLoad, e.op, wFn, wRs2, wL, wImm, wAm, wX, wSys, g30, g84, e.rd, e.rs1]
          try first | rfl | (simp [operandsOk, postInc, immPDefined, BitVec.toNat_eq] at ho; simp [badIf, userKnown, sysKnown]; omega)
      · try simp only [List.getD_cons_zero, ownsLong, hU, e.op, wFn, wRs2, wL, wImm, wAm, wX, wSys, g30, g84, e.rd, e.rs1] <;> first | rfl | simp
  exact key _ (enc_head h 25 rd.toNat rs1.toNat (rs2.toNat * 2 ^ 4 + 0) (by decide) (by omega) (by omega) (by omega))
theorem qputm (h rd rs1 rs2) : Statement (.qputm h rd rs1 rs2) := by
  have b_rd := rd.isLt
  have b_rs1 := rs1.isLt
  have b_rs2 := rs2.isLt
  intro h' hs hw
  obtain ⟨hu, ho, hl, hc⟩ := parts hs hw
  cases hs
  have key : ∀ w, Enc w h 26 rd.toNat rs1.toNat (rs2.toNat * 2 ^ 4 + 0) → Good h [w] (.qputm h rd rs1 rs2) := by
    intro w e
    have g30 := e.fn (by omega)
    have g84 := e.rs2 (by omega) (by omega)
    have hu : h.unit.toNat = 2 := unitIs hu
    all_goals
      have hU := e.unit.trans hu
      refine ⟨?_, ?_, ?_, ?_, e.stop, e.cond, .inl rfl⟩
      · simp only [List.getD_cons_zero, List.getD_cons_succ, List.getD_nil, decodeSyl, hU, u2Of, e.op, wFn, wRs2, wL, wImm, wAm, wX, wSys, immOf, immPOf, addrOf, g30, g84, e.rd, e.rs1, wStop_long, longWord_low, ofNat_self, head_eq e]; try rfl
      · simp only [List.getD_cons_zero, touchesSig, usesSig, postMode, hU, e.op, wFn, wRs2, wL, wImm, wAm, wX, wSys, g30, g84, e.rd, e.rs1] <;> first | rfl | simp
      · refine sylFault_none ?_ ?_ (by rw [List.getD_cons_zero, e.cond]; exact hc)
        · simp only [List.getD_cons_zero, illegal, hU, illegal2, illegalLoad, e.op, wFn, wRs2, wL, wImm, wAm, wX, wSys, g30, g84, e.rd, e.rs1]
          try first | rfl | (simp [operandsOk, postInc, immPDefined, BitVec.toNat_eq] at ho; simp [badIf, userKnown, sysKnown]; omega)
        · simp only [List.getD_cons_zero, reservedSet, hU, reserved2, illegalLoad, e.op, wFn, wRs2, wL, wImm, wAm, wX, wSys, g30, g84, e.rd, e.rs1]
          try first | rfl | (simp [operandsOk, postInc, immPDefined, BitVec.toNat_eq] at ho; simp [badIf, userKnown, sysKnown]; omega)
      · try simp only [List.getD_cons_zero, ownsLong, hU, e.op, wFn, wRs2, wL, wImm, wAm, wX, wSys, g30, g84, e.rd, e.rs1] <;> first | rfl | simp
  exact key _ (enc_head h 26 rd.toNat rs1.toNat (rs2.toNat * 2 ^ 4 + 0) (by decide) (by omega) (by omega) (by omega))
theorem mbar (h) : Statement (.mbar h) := by
  intro h' hs hw
  obtain ⟨hu, ho, hl, hc⟩ := parts hs hw
  cases hs
  have key : ∀ w, Enc w h 28 0 0 0 → Good h [w] (.mbar h) := by
    intro w e
    have g30 : bits w.toNat 3 0 = 0 := (e.low 3 0 (by decide) (by decide)).trans (by unfold bits; omega)
    have hu : h.unit.toNat = 2 := unitIs hu
    all_goals
      have hU := e.unit.trans hu
      refine ⟨?_, ?_, ?_, ?_, e.stop, e.cond, .inl rfl⟩
      · simp only [List.getD_cons_zero, List.getD_cons_succ, List.getD_nil, decodeSyl, hU, u2Of, e.op, wFn, wRs2, wL, wImm, wAm, wX, wSys, immOf, immPOf, addrOf, g30, e.rd, e.rs1, e.all, e.mid, wStop_long, longWord_low, ofNat_self, head_eq e]; try rfl
      · simp only [List.getD_cons_zero, touchesSig, usesSig, postMode, hU, e.op, wFn, wRs2, wL, wImm, wAm, wX, wSys, g30, e.rd, e.rs1, e.all, e.mid] <;> first | rfl | simp
      · refine sylFault_none ?_ ?_ (by rw [List.getD_cons_zero, e.cond]; exact hc)
        · simp only [List.getD_cons_zero, illegal, hU, illegal2, illegalLoad, e.op, wFn, wRs2, wL, wImm, wAm, wX, wSys, g30, e.rd, e.rs1, e.all, e.mid]
          try rfl
        · simp only [List.getD_cons_zero, reservedSet, hU, reserved2, illegalLoad, e.op, wFn, wRs2, wL, wImm, wAm, wX, wSys, g30, e.rd, e.rs1, e.all, e.mid]
          try rfl
      · try simp only [List.getD_cons_zero, ownsLong, hU, e.op, wFn, wRs2, wL, wImm, wAm, wX, wSys, g30, e.rd, e.rs1, e.all, e.mid] <;> first | rfl | simp
  exact key _ (enc_head h 28 0 0 0 (by decide) (by omega) (by omega) (by omega))
theorem sbar (h) : Statement (.sbar h) := by
  intro h' hs hw
  obtain ⟨hu, ho, hl, hc⟩ := parts hs hw
  cases hs
  have key : ∀ w, Enc w h 28 0 0 1 → Good h [w] (.sbar h) := by
    intro w e
    have g30 : bits w.toNat 3 0 = 1 := (e.low 3 0 (by decide) (by decide)).trans (by unfold bits; omega)
    have hu : h.unit.toNat = 2 := unitIs hu
    all_goals
      have hU := e.unit.trans hu
      refine ⟨?_, ?_, ?_, ?_, e.stop, e.cond, .inl rfl⟩
      · simp only [List.getD_cons_zero, List.getD_cons_succ, List.getD_nil, decodeSyl, hU, u2Of, e.op, wFn, wRs2, wL, wImm, wAm, wX, wSys, immOf, immPOf, addrOf, g30, e.rd, e.rs1, e.all, e.mid, wStop_long, longWord_low, ofNat_self, head_eq e]; try rfl
      · simp only [List.getD_cons_zero, touchesSig, usesSig, postMode, hU, e.op, wFn, wRs2, wL, wImm, wAm, wX, wSys, g30, e.rd, e.rs1, e.all, e.mid] <;> first | rfl | simp
      · refine sylFault_none ?_ ?_ (by rw [List.getD_cons_zero, e.cond]; exact hc)
        · simp only [List.getD_cons_zero, illegal, hU, illegal2, illegalLoad, e.op, wFn, wRs2, wL, wImm, wAm, wX, wSys, g30, e.rd, e.rs1, e.all, e.mid]
          try rfl
        · simp only [List.getD_cons_zero, reservedSet, hU, reserved2, illegalLoad, e.op, wFn, wRs2, wL, wImm, wAm, wX, wSys, g30, e.rd, e.rs1, e.all, e.mid]
          try rfl
      · try simp only [List.getD_cons_zero, ownsLong, hU, e.op, wFn, wRs2, wL, wImm, wAm, wX, wSys, g30, e.rd, e.rs1, e.all, e.mid] <;> first | rfl | simp
  exact key _ (enc_head h 28 0 0 1 (by decide) (by omega) (by omega) (by omega))
theorem lbar (h) : Statement (.lbar h) := by
  intro h' hs hw
  obtain ⟨hu, ho, hl, hc⟩ := parts hs hw
  cases hs
  have key : ∀ w, Enc w h 28 0 0 2 → Good h [w] (.lbar h) := by
    intro w e
    have g30 : bits w.toNat 3 0 = 2 := (e.low 3 0 (by decide) (by decide)).trans (by unfold bits; omega)
    have hu : h.unit.toNat = 2 := unitIs hu
    all_goals
      have hU := e.unit.trans hu
      refine ⟨?_, ?_, ?_, ?_, e.stop, e.cond, .inl rfl⟩
      · simp only [List.getD_cons_zero, List.getD_cons_succ, List.getD_nil, decodeSyl, hU, u2Of, e.op, wFn, wRs2, wL, wImm, wAm, wX, wSys, immOf, immPOf, addrOf, g30, e.rd, e.rs1, e.all, e.mid, wStop_long, longWord_low, ofNat_self, head_eq e]; try rfl
      · simp only [List.getD_cons_zero, touchesSig, usesSig, postMode, hU, e.op, wFn, wRs2, wL, wImm, wAm, wX, wSys, g30, e.rd, e.rs1, e.all, e.mid] <;> first | rfl | simp
      · refine sylFault_none ?_ ?_ (by rw [List.getD_cons_zero, e.cond]; exact hc)
        · simp only [List.getD_cons_zero, illegal, hU, illegal2, illegalLoad, e.op, wFn, wRs2, wL, wImm, wAm, wX, wSys, g30, e.rd, e.rs1, e.all, e.mid]
          try rfl
        · simp only [List.getD_cons_zero, reservedSet, hU, reserved2, illegalLoad, e.op, wFn, wRs2, wL, wImm, wAm, wX, wSys, g30, e.rd, e.rs1, e.all, e.mid]
          try rfl
      · try simp only [List.getD_cons_zero, ownsLong, hU, e.op, wFn, wRs2, wL, wImm, wAm, wX, wSys, g30, e.rd, e.rs1, e.all, e.mid] <;> first | rfl | simp
  exact key _ (enc_head h 28 0 0 2 (by decide) (by omega) (by omega) (by omega))
theorem ibar (h) : Statement (.ibar h) := by
  intro h' hs hw
  obtain ⟨hu, ho, hl, hc⟩ := parts hs hw
  cases hs
  have key : ∀ w, Enc w h 28 0 0 3 → Good h [w] (.ibar h) := by
    intro w e
    have g30 : bits w.toNat 3 0 = 3 := (e.low 3 0 (by decide) (by decide)).trans (by unfold bits; omega)
    have hu : h.unit.toNat = 2 := unitIs hu
    all_goals
      have hU := e.unit.trans hu
      refine ⟨?_, ?_, ?_, ?_, e.stop, e.cond, .inl rfl⟩
      · simp only [List.getD_cons_zero, List.getD_cons_succ, List.getD_nil, decodeSyl, hU, u2Of, e.op, wFn, wRs2, wL, wImm, wAm, wX, wSys, immOf, immPOf, addrOf, g30, e.rd, e.rs1, e.all, e.mid, wStop_long, longWord_low, ofNat_self, head_eq e]; try rfl
      · simp only [List.getD_cons_zero, touchesSig, usesSig, postMode, hU, e.op, wFn, wRs2, wL, wImm, wAm, wX, wSys, g30, e.rd, e.rs1, e.all, e.mid] <;> first | rfl | simp
      · refine sylFault_none ?_ ?_ (by rw [List.getD_cons_zero, e.cond]; exact hc)
        · simp only [List.getD_cons_zero, illegal, hU, illegal2, illegalLoad, e.op, wFn, wRs2, wL, wImm, wAm, wX, wSys, g30, e.rd, e.rs1, e.all, e.mid]
          try rfl
        · simp only [List.getD_cons_zero, reservedSet, hU, reserved2, illegalLoad, e.op, wFn, wRs2, wL, wImm, wAm, wX, wSys, g30, e.rd, e.rs1, e.all, e.mid]
          try rfl
      · try simp only [List.getD_cons_zero, ownsLong, hU, e.op, wFn, wRs2, wL, wImm, wAm, wX, wSys, g30, e.rd, e.rs1, e.all, e.mid] <;> first | rfl | simp
  exact key _ (enc_head h 28 0 0 3 (by decide) (by omega) (by omega) (by omega))
theorem icinv (h rs1) : Statement (.icinv h rs1) := by
  have b_rs1 := rs1.isLt
  intro h' hs hw
  obtain ⟨hu, ho, hl, hc⟩ := parts hs hw
  cases hs
  have key : ∀ w, Enc w h 29 0 rs1.toNat 0 → Good h [w] (.icinv h rs1) := by
    intro w e
    have g30 : bits w.toNat 3 0 = 0 := (e.low 3 0 (by decide) (by decide)).trans (by unfold bits; omega)
    have g84 : bits w.toNat 8 4 = 0 := (e.low 8 4 (by decide) (by decide)).trans (by unfold bits; omega)
    have hu : h.unit.toNat = 2 := unitIs hu
    all_goals
      have hU := e.unit.trans hu
      refine ⟨?_, ?_, ?_, ?_, e.stop, e.cond, .inl rfl⟩
      · simp only [List.getD_cons_zero, List.getD_cons_succ, List.getD_nil, decodeSyl, hU, u2Of, e.op, wFn, wRs2, wL, wImm, wAm, wX, wSys, immOf, immPOf, addrOf, g30, g84, e.rd, e.rs1, wStop_long, longWord_low, ofNat_self, head_eq e]; try rfl
      · simp only [List.getD_cons_zero, touchesSig, usesSig, postMode, hU, e.op, wFn, wRs2, wL, wImm, wAm, wX, wSys, g30, g84, e.rd, e.rs1] <;> first | rfl | simp
      · refine sylFault_none ?_ ?_ (by rw [List.getD_cons_zero, e.cond]; exact hc)
        · simp only [List.getD_cons_zero, illegal, hU, illegal2, illegalLoad, e.op, wFn, wRs2, wL, wImm, wAm, wX, wSys, g30, g84, e.rd, e.rs1]
          try rfl
        · simp only [List.getD_cons_zero, reservedSet, hU, reserved2, illegalLoad, e.op, wFn, wRs2, wL, wImm, wAm, wX, wSys, g30, g84, e.rd, e.rs1]
          try rfl
      · try simp only [List.getD_cons_zero, ownsLong, hU, e.op, wFn, wRs2, wL, wImm, wAm, wX, wSys, g30, g84, e.rd, e.rs1] <;> first | rfl | simp
  exact key _ (enc_head h 29 0 rs1.toNat 0 (by decide) (by omega) (by omega) (by omega))
theorem tlbinv (h rs1) : Statement (.tlbinv h rs1) := by
  have b_rs1 := rs1.isLt
  intro h' hs hw
  obtain ⟨hu, ho, hl, hc⟩ := parts hs hw
  cases hs
  have key : ∀ w, Enc w h 29 0 rs1.toNat 1 → Good h [w] (.tlbinv h rs1) := by
    intro w e
    have g30 : bits w.toNat 3 0 = 1 := (e.low 3 0 (by decide) (by decide)).trans (by unfold bits; omega)
    have g84 : bits w.toNat 8 4 = 0 := (e.low 8 4 (by decide) (by decide)).trans (by unfold bits; omega)
    have hu : h.unit.toNat = 2 := unitIs hu
    all_goals
      have hU := e.unit.trans hu
      refine ⟨?_, ?_, ?_, ?_, e.stop, e.cond, .inl rfl⟩
      · simp only [List.getD_cons_zero, List.getD_cons_succ, List.getD_nil, decodeSyl, hU, u2Of, e.op, wFn, wRs2, wL, wImm, wAm, wX, wSys, immOf, immPOf, addrOf, g30, g84, e.rd, e.rs1, wStop_long, longWord_low, ofNat_self, head_eq e]; try rfl
      · simp only [List.getD_cons_zero, touchesSig, usesSig, postMode, hU, e.op, wFn, wRs2, wL, wImm, wAm, wX, wSys, g30, g84, e.rd, e.rs1] <;> first | rfl | simp
      · refine sylFault_none ?_ ?_ (by rw [List.getD_cons_zero, e.cond]; exact hc)
        · simp only [List.getD_cons_zero, illegal, hU, illegal2, illegalLoad, e.op, wFn, wRs2, wL, wImm, wAm, wX, wSys, g30, g84, e.rd, e.rs1]
          try rfl
        · simp only [List.getD_cons_zero, reservedSet, hU, reserved2, illegalLoad, e.op, wFn, wRs2, wL, wImm, wAm, wX, wSys, g30, g84, e.rd, e.rs1]
          try rfl
      · try simp only [List.getD_cons_zero, ownsLong, hU, e.op, wFn, wRs2, wL, wImm, wAm, wX, wSys, g30, g84, e.rd, e.rs1] <;> first | rfl | simp
  exact key _ (enc_head h 29 0 rs1.toNat 1 (by decide) (by omega) (by omega) (by omega))
theorem tlbsync (h) : Statement (.tlbsync h) := by
  intro h' hs hw
  obtain ⟨hu, ho, hl, hc⟩ := parts hs hw
  cases hs
  have key : ∀ w, Enc w h 29 0 0 2 → Good h [w] (.tlbsync h) := by
    intro w e
    have g30 : bits w.toNat 3 0 = 2 := (e.low 3 0 (by decide) (by decide)).trans (by unfold bits; omega)
    have g84 : bits w.toNat 8 4 = 0 := (e.low 8 4 (by decide) (by decide)).trans (by unfold bits; omega)
    have hu : h.unit.toNat = 2 := unitIs hu
    all_goals
      have hU := e.unit.trans hu
      refine ⟨?_, ?_, ?_, ?_, e.stop, e.cond, .inl rfl⟩
      · simp only [List.getD_cons_zero, List.getD_cons_succ, List.getD_nil, decodeSyl, hU, u2Of, e.op, wFn, wRs2, wL, wImm, wAm, wX, wSys, immOf, immPOf, addrOf, g30, g84, e.rd, e.rs1, wStop_long, longWord_low, ofNat_self, head_eq e]; try rfl
      · simp only [List.getD_cons_zero, touchesSig, usesSig, postMode, hU, e.op, wFn, wRs2, wL, wImm, wAm, wX, wSys, g30, g84, e.rd, e.rs1] <;> first | rfl | simp
      · refine sylFault_none ?_ ?_ (by rw [List.getD_cons_zero, e.cond]; exact hc)
        · simp only [List.getD_cons_zero, illegal, hU, illegal2, illegalLoad, e.op, wFn, wRs2, wL, wImm, wAm, wX, wSys, g30, g84, e.rd, e.rs1]
          try rfl
        · simp only [List.getD_cons_zero, reservedSet, hU, reserved2, illegalLoad, e.op, wFn, wRs2, wL, wImm, wAm, wX, wSys, g30, g84, e.rd, e.rs1]
          try rfl
      · try simp only [List.getD_cons_zero, ownsLong, hU, e.op, wFn, wRs2, wL, wImm, wAm, wX, wSys, g30, g84, e.rd, e.rs1] <;> first | rfl | simp
  exact key _ (enc_head h 29 0 0 2 (by decide) (by omega) (by omega) (by omega))
theorem macs (h ad rs1 rs2) : Statement (.macs h ad rs1 rs2) := by
  have b_ad := ad.isLt
  have b_rs1 := rs1.isLt
  have b_rs2 := rs2.isLt
  intro h' hs hw
  obtain ⟨hu, ho, hl, hc⟩ := parts hs hw
  cases hs
  have key : ∀ w, Enc w h 1 ad.toNat rs1.toNat (rs2.toNat * 2 ^ 4 + 0) → Good h [w] (.macs h ad rs1 rs2) := by
    intro w e
    have g30 := e.fn (by omega)
    have g84 := e.rs2 (by omega) (by omega)
    have gad := e.ad.trans (Nat.mod_eq_of_lt b_ad)
    have gad0 := e.ad0.trans (Nat.div_eq_of_lt b_ad)
    have hu : h.unit.toNat = 3 := unitIs hu
    all_goals
      have hU := e.unit.trans hu
      refine ⟨?_, ?_, ?_, ?_, e.stop, e.cond, .inl rfl⟩
      · simp only [List.getD_cons_zero, List.getD_cons_succ, List.getD_nil, decodeSyl, hU, u3Of, e.op, wFn, wRs2, wL, wImm, wAm, wX, wSys, immOf, immPOf, addrOf, g30, g84, e.rd, e.rs1, gad, gad0, wStop_long, longWord_low, ofNat_self, head_eq e]; try rfl
      · simp only [List.getD_cons_zero, touchesSig, usesSig, postMode, hU, e.op, wFn, wRs2, wL, wImm, wAm, wX, wSys, g30, g84, e.rd, e.rs1, gad, gad0] <;> first | rfl | simp
      · refine sylFault_none ?_ ?_ (by rw [List.getD_cons_zero, e.cond]; exact hc)
        · simp only [List.getD_cons_zero, illegal, hU, illegal3, illegalLoad, e.op, wFn, wRs2, wL, wImm, wAm, wX, wSys, g30, g84, e.rd, e.rs1, gad, gad0]
          try rfl
        · simp only [List.getD_cons_zero, reservedSet, hU, reserved3, illegalLoad, e.op, wFn, wRs2, wL, wImm, wAm, wX, wSys, g30, g84, e.rd, e.rs1, gad, gad0]
          try rfl
      · try simp only [List.getD_cons_zero, ownsLong, hU, e.op, wFn, wRs2, wL, wImm, wAm, wX, wSys, g30, g84, e.rd, e.rs1, gad, gad0] <;> first | rfl | simp
  exact key _ (enc_head h 1 ad.toNat rs1.toNat (rs2.toNat * 2 ^ 4 + 0) (by decide) (by omega) (by omega) (by omega))
theorem macu (h ad rs1 rs2) : Statement (.macu h ad rs1 rs2) := by
  have b_ad := ad.isLt
  have b_rs1 := rs1.isLt
  have b_rs2 := rs2.isLt
  intro h' hs hw
  obtain ⟨hu, ho, hl, hc⟩ := parts hs hw
  cases hs
  have key : ∀ w, Enc w h 1 ad.toNat rs1.toNat (rs2.toNat * 2 ^ 4 + 1) → Good h [w] (.macu h ad rs1 rs2) := by
    intro w e
    have g30 := e.fn (by omega)
    have g84 := e.rs2 (by omega) (by omega)
    have gad := e.ad.trans (Nat.mod_eq_of_lt b_ad)
    have gad0 := e.ad0.trans (Nat.div_eq_of_lt b_ad)
    have hu : h.unit.toNat = 3 := unitIs hu
    all_goals
      have hU := e.unit.trans hu
      refine ⟨?_, ?_, ?_, ?_, e.stop, e.cond, .inl rfl⟩
      · simp only [List.getD_cons_zero, List.getD_cons_succ, List.getD_nil, decodeSyl, hU, u3Of, e.op, wFn, wRs2, wL, wImm, wAm, wX, wSys, immOf, immPOf, addrOf, g30, g84, e.rd, e.rs1, gad, gad0, wStop_long, longWord_low, ofNat_self, head_eq e]; try rfl
      · simp only [List.getD_cons_zero, touchesSig, usesSig, postMode, hU, e.op, wFn, wRs2, wL, wImm, wAm, wX, wSys, g30, g84, e.rd, e.rs1, gad, gad0] <;> first | rfl | simp
      · refine sylFault_none ?_ ?_ (by rw [List.getD_cons_zero, e.cond]; exact hc)
        · simp only [List.getD_cons_zero, illegal, hU, illegal3, illegalLoad, e.op, wFn, wRs2, wL, wImm, wAm, wX, wSys, g30, g84, e.rd, e.rs1, gad, gad0]
          try rfl
        · simp only [List.getD_cons_zero, reservedSet, hU, reserved3, illegalLoad, e.op, wFn, wRs2, wL, wImm, wAm, wX, wSys, g30, g84, e.rd, e.rs1, gad, gad0]
          try rfl
      · try simp only [List.getD_cons_zero, ownsLong, hU, e.op, wFn, wRs2, wL, wImm, wAm, wX, wSys, g30, g84, e.rd, e.rs1, gad, gad0] <;> first | rfl | simp
  exact key _ (enc_head h 1 ad.toNat rs1.toNat (rs2.toNat * 2 ^ 4 + 1) (by decide) (by omega) (by omega) (by omega))
theorem msus (h ad rs1 rs2) : Statement (.msus h ad rs1 rs2) := by
  have b_ad := ad.isLt
  have b_rs1 := rs1.isLt
  have b_rs2 := rs2.isLt
  intro h' hs hw
  obtain ⟨hu, ho, hl, hc⟩ := parts hs hw
  cases hs
  have key : ∀ w, Enc w h 1 ad.toNat rs1.toNat (rs2.toNat * 2 ^ 4 + 2) → Good h [w] (.msus h ad rs1 rs2) := by
    intro w e
    have g30 := e.fn (by omega)
    have g84 := e.rs2 (by omega) (by omega)
    have gad := e.ad.trans (Nat.mod_eq_of_lt b_ad)
    have gad0 := e.ad0.trans (Nat.div_eq_of_lt b_ad)
    have hu : h.unit.toNat = 3 := unitIs hu
    all_goals
      have hU := e.unit.trans hu
      refine ⟨?_, ?_, ?_, ?_, e.stop, e.cond, .inl rfl⟩
      · simp only [List.getD_cons_zero, List.getD_cons_succ, List.getD_nil, decodeSyl, hU, u3Of, e.op, wFn, wRs2, wL, wImm, wAm, wX, wSys, immOf, immPOf, addrOf, g30, g84, e.rd, e.rs1, gad, gad0, wStop_long, longWord_low, ofNat_self, head_eq e]; try rfl
      · simp only [List.getD_cons_zero, touchesSig, usesSig, postMode, hU, e.op, wFn, wRs2, wL, wImm, wAm, wX, wSys, g30, g84, e.rd, e.rs1, gad, gad0] <;> first | rfl | simp
      · refine sylFault_none ?_ ?_ (by rw [List.getD_cons_zero, e.cond]; exact hc)
        · simp only [List.getD_cons_zero, illegal, hU, illegal3, illegalLoad, e.op, wFn, wRs2, wL, wImm, wAm, wX, wSys, g30, g84, e.rd, e.rs1, gad, gad0]
          try rfl
        · simp only [List.getD_cons_zero, reservedSet, hU, reserved3, illegalLoad, e.op, wFn, wRs2, wL, wImm, wAm, wX, wSys, g30, g84, e.rd, e.rs1, gad, gad0]
          try rfl
      · try simp only [List.getD_cons_zero, ownsLong, hU, e.op, wFn, wRs2, wL, wImm, wAm, wX, wSys, g30, g84, e.rd, e.rs1, gad, gad0] <;> first | rfl | simp
  exact key _ (enc_head h 1 ad.toNat rs1.toNat (rs2.toNat * 2 ^ 4 + 2) (by decide) (by omega) (by omega) (by omega))
theorem msuu (h ad rs1 rs2) : Statement (.msuu h ad rs1 rs2) := by
  have b_ad := ad.isLt
  have b_rs1 := rs1.isLt
  have b_rs2 := rs2.isLt
  intro h' hs hw
  obtain ⟨hu, ho, hl, hc⟩ := parts hs hw
  cases hs
  have key : ∀ w, Enc w h 1 ad.toNat rs1.toNat (rs2.toNat * 2 ^ 4 + 3) → Good h [w] (.msuu h ad rs1 rs2) := by
    intro w e
    have g30 := e.fn (by omega)
    have g84 := e.rs2 (by omega) (by omega)
    have gad := e.ad.trans (Nat.mod_eq_of_lt b_ad)
    have gad0 := e.ad0.trans (Nat.div_eq_of_lt b_ad)
    have hu : h.unit.toNat = 3 := unitIs hu
    all_goals
      have hU := e.unit.trans hu
      refine ⟨?_, ?_, ?_, ?_, e.stop, e.cond, .inl rfl⟩
      · simp only [List.getD_cons_zero, List.getD_cons_succ, List.getD_nil, decodeSyl, hU, u3Of, e.op, wFn, wRs2, wL, wImm, wAm, wX, wSys, immOf, immPOf, addrOf, g30, g84, e.rd, e.rs1, gad, gad0, wStop_long, longWord_low, ofNat_self, head_eq e]; try rfl
      · simp only [List.getD_cons_zero, touchesSig, usesSig, postMode, hU, e.op, wFn, wRs2, wL, wImm, wAm, wX, wSys, g30, g84, e.rd, e.rs1, gad, gad0] <;> first | rfl | simp
      · refine sylFault_none ?_ ?_ (by rw [List.getD_cons_zero, e.cond]; exact hc)
        · simp only [List.getD_cons_zero, illegal, hU, illegal3, illegalLoad, e.op, wFn, wRs2, wL, wImm, wAm, wX, wSys, g30, g84, e.rd, e.rs1, gad, gad0]
          try rfl
        · simp only [List.getD_cons_zero, reservedSet, hU, reserved3, illegalLoad, e.op, wFn, wRs2, wL, wImm, wAm, wX, wSys, g30, g84, e.rd, e.rs1, gad, gad0]
          try rfl
      · try simp only [List.getD_cons_zero, ownsLong, hU, e.op, wFn, wRs2, wL, wImm, wAm, wX, wSys, g30, g84, e.rd, e.rs1, gad, gad0] <;> first | rfl | simp
  exact key _ (enc_head h 1 ad.toNat rs1.toNat (rs2.toNat * 2 ^ 4 + 3) (by decide) (by omega) (by omega) (by omega))
theorem muls (h ad rs1 rs2) : Statement (.muls h ad rs1 rs2) := by
  have b_ad := ad.isLt
  have b_rs1 := rs1.isLt
  have b_rs2 := rs2.isLt
  intro h' hs hw
  obtain ⟨hu, ho, hl, hc⟩ := parts hs hw
  cases hs
  have key : ∀ w, Enc w h 1 ad.toNat rs1.toNat (rs2.toNat * 2 ^ 4 + 4) → Good h [w] (.muls h ad rs1 rs2) := by
    intro w e
    have g30 := e.fn (by omega)
    have g84 := e.rs2 (by omega) (by omega)
    have gad := e.ad.trans (Nat.mod_eq_of_lt b_ad)
    have gad0 := e.ad0.trans (Nat.div_eq_of_lt b_ad)
    have hu : h.unit.toNat = 3 := unitIs hu
    all_goals
      have hU := e.unit.trans hu
      refine ⟨?_, ?_, ?_, ?_, e.stop, e.cond, .inl rfl⟩
      · simp only [List.getD_cons_zero, List.getD_cons_succ, List.getD_nil, decodeSyl, hU, u3Of, e.op, wFn, wRs2, wL, wImm, wAm, wX, wSys, immOf, immPOf, addrOf, g30, g84, e.rd, e.rs1, gad, gad0, wStop_long, longWord_low, ofNat_self, head_eq e]; try rfl
      · simp only [List.getD_cons_zero, touchesSig, usesSig, postMode, hU, e.op, wFn, wRs2, wL, wImm, wAm, wX, wSys, g30, g84, e.rd, e.rs1, gad, gad0] <;> first | rfl | simp
      · refine sylFault_none ?_ ?_ (by rw [List.getD_cons_zero, e.cond]; exact hc)
        · simp only [List.getD_cons_zero, illegal, hU, illegal3, illegalLoad, e.op, wFn, wRs2, wL, wImm, wAm, wX, wSys, g30, g84, e.rd, e.rs1, gad, gad0]
          try rfl
        · simp only [List.getD_cons_zero, reservedSet, hU, reserved3, illegalLoad, e.op, wFn, wRs2, wL, wImm, wAm, wX, wSys, g30, g84, e.rd, e.rs1, gad, gad0]
          try rfl
      · try simp only [List.getD_cons_zero, ownsLong, hU, e.op, wFn, wRs2, wL, wImm, wAm, wX, wSys, g30, g84, e.rd, e.rs1, gad, gad0] <;> first | rfl | simp
  exact key _ (enc_head h 1 ad.toNat rs1.toNat (rs2.toNat * 2 ^ 4 + 4) (by decide) (by omega) (by omega) (by omega))
theorem mulu (h ad rs1 rs2) : Statement (.mulu h ad rs1 rs2) := by
  have b_ad := ad.isLt
  have b_rs1 := rs1.isLt
  have b_rs2 := rs2.isLt
  intro h' hs hw
  obtain ⟨hu, ho, hl, hc⟩ := parts hs hw
  cases hs
  have key : ∀ w, Enc w h 1 ad.toNat rs1.toNat (rs2.toNat * 2 ^ 4 + 5) → Good h [w] (.mulu h ad rs1 rs2) := by
    intro w e
    have g30 := e.fn (by omega)
    have g84 := e.rs2 (by omega) (by omega)
    have gad := e.ad.trans (Nat.mod_eq_of_lt b_ad)
    have gad0 := e.ad0.trans (Nat.div_eq_of_lt b_ad)
    have hu : h.unit.toNat = 3 := unitIs hu
    all_goals
      have hU := e.unit.trans hu
      refine ⟨?_, ?_, ?_, ?_, e.stop, e.cond, .inl rfl⟩
      · simp only [List.getD_cons_zero, List.getD_cons_succ, List.getD_nil, decodeSyl, hU, u3Of, e.op, wFn, wRs2, wL, wImm, wAm, wX, wSys, immOf, immPOf, addrOf, g30, g84, e.rd, e.rs1, gad, gad0, wStop_long, longWord_low, ofNat_self, head_eq e]; try rfl
      · simp only [List.getD_cons_zero, touchesSig, usesSig, postMode, hU, e.op, wFn, wRs2, wL, wImm, wAm, wX, wSys, g30, g84, e.rd, e.rs1, gad, gad0] <;> first | rfl | simp
      · refine sylFault_none ?_ ?_ (by rw [List.getD_cons_zero, e.cond]; exact hc)
        · simp only [List.getD_cons_zero, illegal, hU, illegal3, illegalLoad, e.op, wFn, wRs2, wL, wImm, wAm, wX, wSys, g30, g84, e.rd, e.rs1, gad, gad0]
          try rfl
        · simp only [List.getD_cons_zero, reservedSet, hU, reserved3, illegalLoad, e.op, wFn, wRs2, wL, wImm, wAm, wX, wSys, g30, g84, e.rd, e.rs1, gad, gad0]
          try rfl
      · try simp only [List.getD_cons_zero, ownsLong, hU, e.op, wFn, wRs2, wL, wImm, wAm, wX, wSys, g30, g84, e.rd, e.rs1, gad, gad0] <;> first | rfl | simp
  exact key _ (enc_head h 1 ad.toNat rs1.toNat (rs2.toNat * 2 ^ 4 + 5) (by decide) (by omega) (by omega) (by omega))
theorem aclr (h ad) : Statement (.aclr h ad) := by
  have b_ad := ad.isLt
  intro h' hs hw
  obtain ⟨hu, ho, hl, hc⟩ := parts hs hw
  cases hs
  have key : ∀ w, Enc w h 2 ad.toNat 0 (0 * 2 ^ 4 + 0) → Good h [w] (.aclr h ad) := by
    intro w e
    have g30 := e.fn (by omega)
    have g84 := e.rs2 (by omega) (by omega)
    have gad := e.ad.trans (Nat.mod_eq_of_lt b_ad)
    have gad0 := e.ad0.trans (Nat.div_eq_of_lt b_ad)
    have hu : h.unit.toNat = 3 := unitIs hu
    all_goals
      have hU := e.unit.trans hu
      refine ⟨?_, ?_, ?_, ?_, e.stop, e.cond, .inl rfl⟩
      · simp only [List.getD_cons_zero, List.getD_cons_succ, List.getD_nil, decodeSyl, hU, u3Of, e.op, wFn, wRs2, wL, wImm, wAm, wX, wSys, immOf, immPOf, addrOf, g30, g84, e.rd, e.rs1, gad, gad0, wStop_long, longWord_low, ofNat_self, head_eq e]; try rfl
      · simp only [List.getD_cons_zero, touchesSig, usesSig, postMode, hU, e.op, wFn, wRs2, wL, wImm, wAm, wX, wSys, g30, g84, e.rd, e.rs1, gad, gad0] <;> first | rfl | simp
      · refine sylFault_none ?_ ?_ (by rw [List.getD_cons_zero, e.cond]; exact hc)
        · simp only [List.getD_cons_zero, illegal, hU, illegal3, illegalLoad, e.op, wFn, wRs2, wL, wImm, wAm, wX, wSys, g30, g84, e.rd, e.rs1, gad, gad0]
          try rfl
        · simp only [List.getD_cons_zero, reservedSet, hU, reserved3, illegalLoad, e.op, wFn, wRs2, wL, wImm, wAm, wX, wSys, g30, g84, e.rd, e.rs1, gad, gad0]
          try rfl
      · try simp only [List.getD_cons_zero, ownsLong, hU, e.op, wFn, wRs2, wL, wImm, wAm, wX, wSys, g30, g84, e.rd, e.rs1, gad, gad0] <;> first | rfl | simp
  exact key _ (enc_head h 2 ad.toNat 0 (0 * 2 ^ 4 + 0) (by decide) (by omega) (by omega) (by omega))
theorem rdacc (h rd ad rs2) : Statement (.rdacc h rd ad rs2) := by
  have b_rd := rd.isLt
  have b_ad := ad.isLt
  have b_rs2 := rs2.isLt
  intro h' hs hw
  obtain ⟨hu, ho, hl, hc⟩ := parts hs hw
  cases hs
  have key : ∀ w, Enc w h 2 ad.toNat rd.toNat (rs2.toNat * 2 ^ 4 + 1) → Good h [w] (.rdacc h rd ad rs2) := by
    intro w e
    have g30 := e.fn (by omega)
    have g84 := e.rs2 (by omega) (by omega)
    have gad := e.ad.trans (Nat.mod_eq_of_lt b_ad)
    have gad0 := e.ad0.trans (Nat.div_eq_of_lt b_ad)
    have hu : h.unit.toNat = 3 := unitIs hu
    all_goals
      have hU := e.unit.trans hu
      refine ⟨?_, ?_, ?_, ?_, e.stop, e.cond, .inl rfl⟩
      · simp only [List.getD_cons_zero, List.getD_cons_succ, List.getD_nil, decodeSyl, hU, u3Of, e.op, wFn, wRs2, wL, wImm, wAm, wX, wSys, immOf, immPOf, addrOf, g30, g84, e.rd, e.rs1, gad, gad0, wStop_long, longWord_low, ofNat_self, head_eq e]; try rfl
      · simp only [List.getD_cons_zero, touchesSig, usesSig, postMode, hU, e.op, wFn, wRs2, wL, wImm, wAm, wX, wSys, g30, g84, e.rd, e.rs1, gad, gad0] <;> first | rfl | simp
      · refine sylFault_none ?_ ?_ (by rw [List.getD_cons_zero, e.cond]; exact hc)
        · simp only [List.getD_cons_zero, illegal, hU, illegal3, illegalLoad, e.op, wFn, wRs2, wL, wImm, wAm, wX, wSys, g30, g84, e.rd, e.rs1, gad, gad0]
          try rfl
        · simp only [List.getD_cons_zero, reservedSet, hU, reserved3, illegalLoad, e.op, wFn, wRs2, wL, wImm, wAm, wX, wSys, g30, g84, e.rd, e.rs1, gad, gad0]
          try rfl
      · try simp only [List.getD_cons_zero, ownsLong, hU, e.op, wFn, wRs2, wL, wImm, wAm, wX, wSys, g30, g84, e.rd, e.rs1, gad, gad0] <;> first | rfl | simp
  exact key _ (enc_head h 2 ad.toNat rd.toNat (rs2.toNat * 2 ^ 4 + 1) (by decide) (by omega) (by omega) (by omega))
theorem wracc (h ad rs1) : Statement (.wracc h ad rs1) := by
  have b_ad := ad.isLt
  have b_rs1 := rs1.isLt
  intro h' hs hw
  obtain ⟨hu, ho, hl, hc⟩ := parts hs hw
  cases hs
  have key : ∀ w, Enc w h 2 ad.toNat rs1.toNat (0 * 2 ^ 4 + 2) → Good h [w] (.wracc h ad rs1) := by
    intro w e
    have g30 := e.fn (by omega)
    have g84 := e.rs2 (by omega) (by omega)
    have gad := e.ad.trans (Nat.mod_eq_of_lt b_ad)
    have gad0 := e.ad0.trans (Nat.div_eq_of_lt b_ad)
    have hu : h.unit.toNat = 3 := unitIs hu
    all_goals
      have hU := e.unit.trans hu
      refine ⟨?_, ?_, ?_, ?_, e.stop, e.cond, .inl rfl⟩
      · simp only [List.getD_cons_zero, List.getD_cons_succ, List.getD_nil, decodeSyl, hU, u3Of, e.op, wFn, wRs2, wL, wImm, wAm, wX, wSys, immOf, immPOf, addrOf, g30, g84, e.rd, e.rs1, gad, gad0, wStop_long, longWord_low, ofNat_self, head_eq e]; try rfl
      · simp only [List.getD_cons_zero, touchesSig, usesSig, postMode, hU, e.op, wFn, wRs2, wL, wImm, wAm, wX, wSys, g30, g84, e.rd, e.rs1, gad, gad0] <;> first | rfl | simp
      · refine sylFault_none ?_ ?_ (by rw [List.getD_cons_zero, e.cond]; exact hc)
        · simp only [List.getD_cons_zero, illegal, hU, illegal3, illegalLoad, e.op, wFn, wRs2, wL, wImm, wAm, wX, wSys, g30, g84, e.rd, e.rs1, gad, gad0]
          try rfl
        · simp only [List.getD_cons_zero, reservedSet, hU, reserved3, illegalLoad, e.op, wFn, wRs2, wL, wImm, wAm, wX, wSys, g30, g84, e.rd, e.rs1, gad, gad0]
          try rfl
      · try simp only [List.getD_cons_zero, ownsLong, hU, e.op, wFn, wRs2, wL, wImm, wAm, wX, wSys, g30, g84, e.rd, e.rs1, gad, gad0] <;> first | rfl | simp
  exact key _ (enc_head h 2 ad.toNat rs1.toNat (0 * 2 ^ 4 + 2) (by decide) (by omega) (by omega) (by omega))
theorem ashr (h ad rs2) : Statement (.ashr h ad rs2) := by
  have b_ad := ad.isLt
  have b_rs2 := rs2.isLt
  intro h' hs hw
  obtain ⟨hu, ho, hl, hc⟩ := parts hs hw
  cases hs
  have key : ∀ w, Enc w h 2 ad.toNat 0 (rs2.toNat * 2 ^ 4 + 3) → Good h [w] (.ashr h ad rs2) := by
    intro w e
    have g30 := e.fn (by omega)
    have g84 := e.rs2 (by omega) (by omega)
    have gad := e.ad.trans (Nat.mod_eq_of_lt b_ad)
    have gad0 := e.ad0.trans (Nat.div_eq_of_lt b_ad)
    have hu : h.unit.toNat = 3 := unitIs hu
    all_goals
      have hU := e.unit.trans hu
      refine ⟨?_, ?_, ?_, ?_, e.stop, e.cond, .inl rfl⟩
      · simp only [List.getD_cons_zero, List.getD_cons_succ, List.getD_nil, decodeSyl, hU, u3Of, e.op, wFn, wRs2, wL, wImm, wAm, wX, wSys, immOf, immPOf, addrOf, g30, g84, e.rd, e.rs1, gad, gad0, wStop_long, longWord_low, ofNat_self, head_eq e]; try rfl
      · simp only [List.getD_cons_zero, touchesSig, usesSig, postMode, hU, e.op, wFn, wRs2, wL, wImm, wAm, wX, wSys, g30, g84, e.rd, e.rs1, gad, gad0] <;> first | rfl | simp
      · refine sylFault_none ?_ ?_ (by rw [List.getD_cons_zero, e.cond]; exact hc)
        · simp only [List.getD_cons_zero, illegal, hU, illegal3, illegalLoad, e.op, wFn, wRs2, wL, wImm, wAm, wX, wSys, g30, g84, e.rd, e.rs1, gad, gad0]
          try rfl
        · simp only [List.getD_cons_zero, reservedSet, hU, reserved3, illegalLoad, e.op, wFn, wRs2, wL, wImm, wAm, wX, wSys, g30, g84, e.rd, e.rs1, gad, gad0]
          try rfl
      · try simp only [List.getD_cons_zero, ownsLong, hU, e.op, wFn, wRs2, wL, wImm, wAm, wX, wSys, g30, g84, e.rd, e.rs1, gad, gad0] <;> first | rfl | simp
  exact key _ (enc_head h 2 ad.toNat 0 (rs2.toNat * 2 ^ 4 + 3) (by decide) (by omega) (by omega) (by omega))
theorem crcstep (h size rd rs1 rs2) : Statement (.crcstep h size rd rs1 rs2) := by
  have b_size := size.isLt
  have b_rd := rd.isLt
  have b_rs1 := rs1.isLt
  have b_rs2 := rs2.isLt
  intro h' hs hw
  obtain ⟨hu, ho, hl, hc⟩ := parts hs hw
  cases hs
  have key : ∀ w, Enc w h 3 rd.toNat rs1.toNat (rs2.toNat * 2 ^ 4 + size.toNat) → Good h [w] (.crcstep h size rd rs1 rs2) := by
    intro w e
    have g30 := e.fn (by omega)
    have g84 := e.rs2 (by omega) (by omega)
    have hu : h.unit.toNat = 3 := unitIs hu
    all_goals
      have hU := e.unit.trans hu
      refine ⟨?_, ?_, ?_, ?_, e.stop, e.cond, .inl rfl⟩
      · simp only [List.getD_cons_zero, List.getD_cons_succ, List.getD_nil, decodeSyl, hU, u3Of, e.op, wFn, wRs2, wL, wImm, wAm, wX, wSys, immOf, immPOf, addrOf, g30, g84, e.rd, e.rs1, wStop_long, longWord_low, ofNat_self, head_eq e]; try rfl
      · simp only [List.getD_cons_zero, touchesSig, usesSig, postMode, hU, e.op, wFn, wRs2, wL, wImm, wAm, wX, wSys, g30, g84, e.rd, e.rs1] <;> first | rfl | simp
      · refine sylFault_none ?_ ?_ (by rw [List.getD_cons_zero, e.cond]; exact hc)
        · simp only [List.getD_cons_zero, illegal, hU, illegal3, illegalLoad, e.op, wFn, wRs2, wL, wImm, wAm, wX, wSys, g30, g84, e.rd, e.rs1]
          try first | rfl | (simp [badIf]; omega)
        · simp only [List.getD_cons_zero, reservedSet, hU, reserved3, illegalLoad, e.op, wFn, wRs2, wL, wImm, wAm, wX, wSys, g30, g84, e.rd, e.rs1]
          try first | rfl | (simp [badIf]; omega)
      · try simp only [List.getD_cons_zero, ownsLong, hU, e.op, wFn, wRs2, wL, wImm, wAm, wX, wSys, g30, g84, e.rd, e.rs1] <;> first | rfl | simp
  exact key _ (enc_head h 3 rd.toNat rs1.toNat (rs2.toNat * 2 ^ 4 + size.toNat) (by decide) (by omega) (by omega) (by omega))
theorem parity (h rd rs1) : Statement (.parity h rd rs1) := by
  have b_rd := rd.isLt
  have b_rs1 := rs1.isLt
  intro h' hs hw
  obtain ⟨hu, ho, hl, hc⟩ := parts hs hw
  cases hs
  have key : ∀ w, Enc w h 4 rd.toNat rs1.toNat (0 * 2 ^ 4 + 0) → Good h [w] (.parity h rd rs1) := by
    intro w e
    have g30 := e.fn (by omega)
    have g84 := e.rs2 (by omega) (by omega)
    have hu : h.unit.toNat = 3 := unitIs hu
    all_goals
      have hU := e.unit.trans hu
      refine ⟨?_, ?_, ?_, ?_, e.stop, e.cond, .inl rfl⟩
      · simp only [List.getD_cons_zero, List.getD_cons_succ, List.getD_nil, decodeSyl, hU, u3Of, e.op, wFn, wRs2, wL, wImm, wAm, wX, wSys, immOf, immPOf, addrOf, g30, g84, e.rd, e.rs1, wStop_long, longWord_low, ofNat_self, head_eq e]; try rfl
      · simp only [List.getD_cons_zero, touchesSig, usesSig, postMode, hU, e.op, wFn, wRs2, wL, wImm, wAm, wX, wSys, g30, g84, e.rd, e.rs1] <;> first | rfl | simp
      · refine sylFault_none ?_ ?_ (by rw [List.getD_cons_zero, e.cond]; exact hc)
        · simp only [List.getD_cons_zero, illegal, hU, illegal3, illegalLoad, e.op, wFn, wRs2, wL, wImm, wAm, wX, wSys, g30, g84, e.rd, e.rs1]
          try rfl
        · simp only [List.getD_cons_zero, reservedSet, hU, reserved3, illegalLoad, e.op, wFn, wRs2, wL, wImm, wAm, wX, wSys, g30, g84, e.rd, e.rs1]
          try rfl
      · try simp only [List.getD_cons_zero, ownsLong, hU, e.op, wFn, wRs2, wL, wImm, wAm, wX, wSys, g30, g84, e.rd, e.rs1] <;> first | rfl | simp
  exact key _ (enc_head h 4 rd.toNat rs1.toNat (0 * 2 ^ 4 + 0) (by decide) (by omega) (by omega) (by omega))
theorem bitrev (h rd rs1 rs2) : Statement (.bitrev h rd rs1 rs2) := by
  have b_rd := rd.isLt
  have b_rs1 := rs1.isLt
  have b_rs2 := rs2.isLt
  intro h' hs hw
  obtain ⟨hu, ho, hl, hc⟩ := parts hs hw
  cases hs
  have key : ∀ w, Enc w h 4 rd.toNat rs1.toNat (rs2.toNat * 2 ^ 4 + 1) → Good h [w] (.bitrev h rd rs1 rs2) := by
    intro w e
    have g30 := e.fn (by omega)
    have g84 := e.rs2 (by omega) (by omega)
    have hu : h.unit.toNat = 3 := unitIs hu
    all_goals
      have hU := e.unit.trans hu
      refine ⟨?_, ?_, ?_, ?_, e.stop, e.cond, .inl rfl⟩
      · simp only [List.getD_cons_zero, List.getD_cons_succ, List.getD_nil, decodeSyl, hU, u3Of, e.op, wFn, wRs2, wL, wImm, wAm, wX, wSys, immOf, immPOf, addrOf, g30, g84, e.rd, e.rs1, wStop_long, longWord_low, ofNat_self, head_eq e]; try rfl
      · simp only [List.getD_cons_zero, touchesSig, usesSig, postMode, hU, e.op, wFn, wRs2, wL, wImm, wAm, wX, wSys, g30, g84, e.rd, e.rs1] <;> first | rfl | simp
      · refine sylFault_none ?_ ?_ (by rw [List.getD_cons_zero, e.cond]; exact hc)
        · simp only [List.getD_cons_zero, illegal, hU, illegal3, illegalLoad, e.op, wFn, wRs2, wL, wImm, wAm, wX, wSys, g30, g84, e.rd, e.rs1]
          try rfl
        · simp only [List.getD_cons_zero, reservedSet, hU, reserved3, illegalLoad, e.op, wFn, wRs2, wL, wImm, wAm, wX, wSys, g30, g84, e.rd, e.rs1]
          try rfl
      · try simp only [List.getD_cons_zero, ownsLong, hU, e.op, wFn, wRs2, wL, wImm, wAm, wX, wSys, g30, g84, e.rd, e.rs1] <;> first | rfl | simp
  exact key _ (enc_head h 4 rd.toNat rs1.toNat (rs2.toNat * 2 ^ 4 + 1) (by decide) (by omega) (by omega) (by omega))
theorem fadd (h rd rs1 rs2) : Statement (.fadd h rd rs1 rs2) := by
  have b_rd := rd.isLt
  have b_rs1 := rs1.isLt
  have b_rs2 := rs2.isLt
  intro h' hs hw
  obtain ⟨hu, ho, hl, hc⟩ := parts hs hw
  cases hs
  have key : ∀ w, Enc w h 5 rd.toNat rs1.toNat (rs2.toNat * 2 ^ 4 + 0) → Good h [w] (.fadd h rd rs1 rs2) := by
    intro w e
    have g30 := e.fn (by omega)
    have g84 := e.rs2 (by omega) (by omega)
    have hu : h.unit.toNat = 3 := unitIs hu
    all_goals
      have hU := e.unit.trans hu
      refine ⟨?_, ?_, ?_, ?_, e.stop, e.cond, .inl rfl⟩
      · simp only [List.getD_cons_zero, List.getD_cons_succ, List.getD_nil, decodeSyl, hU, u3Of, e.op, wFn, wRs2, wL, wImm, wAm, wX, wSys, immOf, immPOf, addrOf, g30, g84, e.rd, e.rs1, wStop_long, longWord_low, ofNat_self, head_eq e]; try rfl
      · simp only [List.getD_cons_zero, touchesSig, usesSig, postMode, hU, e.op, wFn, wRs2, wL, wImm, wAm, wX, wSys, g30, g84, e.rd, e.rs1] <;> first | rfl | simp
      · refine sylFault_none ?_ ?_ (by rw [List.getD_cons_zero, e.cond]; exact hc)
        · simp only [List.getD_cons_zero, illegal, hU, illegal3, illegalLoad, e.op, wFn, wRs2, wL, wImm, wAm, wX, wSys, g30, g84, e.rd, e.rs1]
          try rfl
        · simp only [List.getD_cons_zero, reservedSet, hU, reserved3, illegalLoad, e.op, wFn, wRs2, wL, wImm, wAm, wX, wSys, g30, g84, e.rd, e.rs1]
          try rfl
      · try simp only [List.getD_cons_zero, ownsLong, hU, e.op, wFn, wRs2, wL, wImm, wAm, wX, wSys, g30, g84, e.rd, e.rs1] <;> first | rfl | simp
  exact key _ (enc_head h 5 rd.toNat rs1.toNat (rs2.toNat * 2 ^ 4 + 0) (by decide) (by omega) (by omega) (by omega))
theorem fsub (h rd rs1 rs2) : Statement (.fsub h rd rs1 rs2) := by
  have b_rd := rd.isLt
  have b_rs1 := rs1.isLt
  have b_rs2 := rs2.isLt
  intro h' hs hw
  obtain ⟨hu, ho, hl, hc⟩ := parts hs hw
  cases hs
  have key : ∀ w, Enc w h 5 rd.toNat rs1.toNat (rs2.toNat * 2 ^ 4 + 1) → Good h [w] (.fsub h rd rs1 rs2) := by
    intro w e
    have g30 := e.fn (by omega)
    have g84 := e.rs2 (by omega) (by omega)
    have hu : h.unit.toNat = 3 := unitIs hu
    all_goals
      have hU := e.unit.trans hu
      refine ⟨?_, ?_, ?_, ?_, e.stop, e.cond, .inl rfl⟩
      · simp only [List.getD_cons_zero, List.getD_cons_succ, List.getD_nil, decodeSyl, hU, u3Of, e.op, wFn, wRs2, wL, wImm, wAm, wX, wSys, immOf, immPOf, addrOf, g30, g84, e.rd, e.rs1, wStop_long, longWord_low, ofNat_self, head_eq e]; try rfl
      · simp only [List.getD_cons_zero, touchesSig, usesSig, postMode, hU, e.op, wFn, wRs2, wL, wImm, wAm, wX, wSys, g30, g84, e.rd, e.rs1] <;> first | rfl | simp
      · refine sylFault_none ?_ ?_ (by rw [List.getD_cons_zero, e.cond]; exact hc)
        · simp only [List.getD_cons_zero, illegal, hU, illegal3, illegalLoad, e.op, wFn, wRs2, wL, wImm, wAm, wX, wSys, g30, g84, e.rd, e.rs1]
          try rfl
        · simp only [List.getD_cons_zero, reservedSet, hU, reserved3, illegalLoad, e.op, wFn, wRs2, wL, wImm, wAm, wX, wSys, g30, g84, e.rd, e.rs1]
          try rfl
      · try simp only [List.getD_cons_zero, ownsLong, hU, e.op, wFn, wRs2, wL, wImm, wAm, wX, wSys, g30, g84, e.rd, e.rs1] <;> first | rfl | simp
  exact key _ (enc_head h 5 rd.toNat rs1.toNat (rs2.toNat * 2 ^ 4 + 1) (by decide) (by omega) (by omega) (by omega))
theorem fmul (h rd rs1 rs2) : Statement (.fmul h rd rs1 rs2) := by
  have b_rd := rd.isLt
  have b_rs1 := rs1.isLt
  have b_rs2 := rs2.isLt
  intro h' hs hw
  obtain ⟨hu, ho, hl, hc⟩ := parts hs hw
  cases hs
  have key : ∀ w, Enc w h 5 rd.toNat rs1.toNat (rs2.toNat * 2 ^ 4 + 2) → Good h [w] (.fmul h rd rs1 rs2) := by
    intro w e
    have g30 := e.fn (by omega)
    have g84 := e.rs2 (by omega) (by omega)
    have hu : h.unit.toNat = 3 := unitIs hu
    all_goals
      have hU := e.unit.trans hu
      refine ⟨?_, ?_, ?_, ?_, e.stop, e.cond, .inl rfl⟩
      · simp only [List.getD_cons_zero, List.getD_cons_succ, List.getD_nil, decodeSyl, hU, u3Of, e.op, wFn, wRs2, wL, wImm, wAm, wX, wSys, immOf, immPOf, addrOf, g30, g84, e.rd, e.rs1, wStop_long, longWord_low, ofNat_self, head_eq e]; try rfl
      · simp only [List.getD_cons_zero, touchesSig, usesSig, postMode, hU, e.op, wFn, wRs2, wL, wImm, wAm, wX, wSys, g30, g84, e.rd, e.rs1] <;> first | rfl | simp
      · refine sylFault_none ?_ ?_ (by rw [List.getD_cons_zero, e.cond]; exact hc)
        · simp only [List.getD_cons_zero, illegal, hU, illegal3, illegalLoad, e.op, wFn, wRs2, wL, wImm, wAm, wX, wSys, g30, g84, e.rd, e.rs1]
          try rfl
        · simp only [List.getD_cons_zero, reservedSet, hU, reserved3, illegalLoad, e.op, wFn, wRs2, wL, wImm, wAm, wX, wSys, g30, g84, e.rd, e.rs1]
          try rfl
      · try simp only [List.getD_cons_zero, ownsLong, hU, e.op, wFn, wRs2, wL, wImm, wAm, wX, wSys, g30, g84, e.rd, e.rs1] <;> first | rfl | simp
  exact key _ (enc_head h 5 rd.toNat rs1.toNat (rs2.toNat * 2 ^ 4 + 2) (by decide) (by omega) (by omega) (by omega))
theorem fmadd (h rd rs1 rs2) : Statement (.fmadd h rd rs1 rs2) := by
  have b_rd := rd.isLt
  have b_rs1 := rs1.isLt
  have b_rs2 := rs2.isLt
  intro h' hs hw
  obtain ⟨hu, ho, hl, hc⟩ := parts hs hw
  cases hs
  have key : ∀ w, Enc w h 5 rd.toNat rs1.toNat (rs2.toNat * 2 ^ 4 + 3) → Good h [w] (.fmadd h rd rs1 rs2) := by
    intro w e
    have g30 := e.fn (by omega)
    have g84 := e.rs2 (by omega) (by omega)
    have hu : h.unit.toNat = 3 := unitIs hu
    all_goals
      have hU := e.unit.trans hu
      refine ⟨?_, ?_, ?_, ?_, e.stop, e.cond, .inl rfl⟩
      · simp only [List.getD_cons_zero, List.getD_cons_succ, List.getD_nil, decodeSyl, hU, u3Of, e.op, wFn, wRs2, wL, wImm, wAm, wX, wSys, immOf, immPOf, addrOf, g30, g84, e.rd, e.rs1, wStop_long, longWord_low, ofNat_self, head_eq e]; try rfl
      · simp only [List.getD_cons_zero, touchesSig, usesSig, postMode, hU, e.op, wFn, wRs2, wL, wImm, wAm, wX, wSys, g30, g84, e.rd, e.rs1] <;> first | rfl | simp
      · refine sylFault_none ?_ ?_ (by rw [List.getD_cons_zero, e.cond]; exact hc)
        · simp only [List.getD_cons_zero, illegal, hU, illegal3, illegalLoad, e.op, wFn, wRs2, wL, wImm, wAm, wX, wSys, g30, g84, e.rd, e.rs1]
          try rfl
        · simp only [List.getD_cons_zero, reservedSet, hU, reserved3, illegalLoad, e.op, wFn, wRs2, wL, wImm, wAm, wX, wSys, g30, g84, e.rd, e.rs1]
          try rfl
      · try simp only [List.getD_cons_zero, ownsLong, hU, e.op, wFn, wRs2, wL, wImm, wAm, wX, wSys, g30, g84, e.rd, e.rs1] <;> first | rfl | simp
  exact key _ (enc_head h 5 rd.toNat rs1.toNat (rs2.toNat * 2 ^ 4 + 3) (by decide) (by omega) (by omega) (by omega))
theorem fmin (h rd rs1 rs2) : Statement (.fmin h rd rs1 rs2) := by
  have b_rd := rd.isLt
  have b_rs1 := rs1.isLt
  have b_rs2 := rs2.isLt
  intro h' hs hw
  obtain ⟨hu, ho, hl, hc⟩ := parts hs hw
  cases hs
  have key : ∀ w, Enc w h 5 rd.toNat rs1.toNat (rs2.toNat * 2 ^ 4 + 4) → Good h [w] (.fmin h rd rs1 rs2) := by
    intro w e
    have g30 := e.fn (by omega)
    have g84 := e.rs2 (by omega) (by omega)
    have hu : h.unit.toNat = 3 := unitIs hu
    all_goals
      have hU := e.unit.trans hu
      refine ⟨?_, ?_, ?_, ?_, e.stop, e.cond, .inl rfl⟩
      · simp only [List.getD_cons_zero, List.getD_cons_succ, List.getD_nil, decodeSyl, hU, u3Of, e.op, wFn, wRs2, wL, wImm, wAm, wX, wSys, immOf, immPOf, addrOf, g30, g84, e.rd, e.rs1, wStop_long, longWord_low, ofNat_self, head_eq e]; try rfl
      · simp only [List.getD_cons_zero, touchesSig, usesSig, postMode, hU, e.op, wFn, wRs2, wL, wImm, wAm, wX, wSys, g30, g84, e.rd, e.rs1] <;> first | rfl | simp
      · refine sylFault_none ?_ ?_ (by rw [List.getD_cons_zero, e.cond]; exact hc)
        · simp only [List.getD_cons_zero, illegal, hU, illegal3, illegalLoad, e.op, wFn, wRs2, wL, wImm, wAm, wX, wSys, g30, g84, e.rd, e.rs1]
          try rfl
        · simp only [List.getD_cons_zero, reservedSet, hU, reserved3, illegalLoad, e.op, wFn, wRs2, wL, wImm, wAm, wX, wSys, g30, g84, e.rd, e.rs1]
          try rfl
      · try simp only [List.getD_cons_zero, ownsLong, hU, e.op, wFn, wRs2, wL, wImm, wAm, wX, wSys, g30, g84, e.rd, e.rs1] <;> first | rfl | simp
  exact key _ (enc_head h 5 rd.toNat rs1.toNat (rs2.toNat * 2 ^ 4 + 4) (by decide) (by omega) (by omega) (by omega))
theorem fmax (h rd rs1 rs2) : Statement (.fmax h rd rs1 rs2) := by
  have b_rd := rd.isLt
  have b_rs1 := rs1.isLt
  have b_rs2 := rs2.isLt
  intro h' hs hw
  obtain ⟨hu, ho, hl, hc⟩ := parts hs hw
  cases hs
  have key : ∀ w, Enc w h 5 rd.toNat rs1.toNat (rs2.toNat * 2 ^ 4 + 5) → Good h [w] (.fmax h rd rs1 rs2) := by
    intro w e
    have g30 := e.fn (by omega)
    have g84 := e.rs2 (by omega) (by omega)
    have hu : h.unit.toNat = 3 := unitIs hu
    all_goals
      have hU := e.unit.trans hu
      refine ⟨?_, ?_, ?_, ?_, e.stop, e.cond, .inl rfl⟩
      · simp only [List.getD_cons_zero, List.getD_cons_succ, List.getD_nil, decodeSyl, hU, u3Of, e.op, wFn, wRs2, wL, wImm, wAm, wX, wSys, immOf, immPOf, addrOf, g30, g84, e.rd, e.rs1, wStop_long, longWord_low, ofNat_self, head_eq e]; try rfl
      · simp only [List.getD_cons_zero, touchesSig, usesSig, postMode, hU, e.op, wFn, wRs2, wL, wImm, wAm, wX, wSys, g30, g84, e.rd, e.rs1] <;> first | rfl | simp
      · refine sylFault_none ?_ ?_ (by rw [List.getD_cons_zero, e.cond]; exact hc)
        · simp only [List.getD_cons_zero, illegal, hU, illegal3, illegalLoad, e.op, wFn, wRs2, wL, wImm, wAm, wX, wSys, g30, g84, e.rd, e.rs1]
          try rfl
        · simp only [List.getD_cons_zero, reservedSet, hU, reserved3, illegalLoad, e.op, wFn, wRs2, wL, wImm, wAm, wX, wSys, g30, g84, e.rd, e.rs1]
          try rfl
      · try simp only [List.getD_cons_zero, ownsLong, hU, e.op, wFn, wRs2, wL, wImm, wAm, wX, wSys, g30, g84, e.rd, e.rs1] <;> first | rfl | simp
  exact key _ (enc_head h 5 rd.toNat rs1.toNat (rs2.toNat * 2 ^ 4 + 5) (by decide) (by omega) (by omega) (by omega))
theorem fabs (h rd rs1) : Statement (.fabs h rd rs1) := by
  have b_rd := rd.isLt
  have b_rs1 := rs1.isLt
  intro h' hs hw
  obtain ⟨hu, ho, hl, hc⟩ := parts hs hw
  cases hs
  have key : ∀ w, Enc w h 5 rd.toNat rs1.toNat (0 * 2 ^ 4 + 6) → Good h [w] (.fabs h rd rs1) := by
    intro w e
    have g30 := e.fn (by omega)
    have g84 := e.rs2 (by omega) (by omega)
    have hu : h.unit.toNat = 3 := unitIs hu
    all_goals
      have hU := e.unit.trans hu
      refine ⟨?_, ?_, ?_, ?_, e.stop, e.cond, .inl rfl⟩
      · simp only [List.getD_cons_zero, List.getD_cons_succ, List.getD_nil, decodeSyl, hU, u3Of, e.op, wFn, wRs2, wL, wImm, wAm, wX, wSys, immOf, immPOf, addrOf, g30, g84, e.rd, e.rs1, wStop_long, longWord_low, ofNat_self, head_eq e]; try rfl
      · simp only [List.getD_cons_zero, touchesSig, usesSig, postMode, hU, e.op, wFn, wRs2, wL, wImm, wAm, wX, wSys, g30, g84, e.rd, e.rs1] <;> first | rfl | simp
      · refine sylFault_none ?_ ?_ (by rw [List.getD_cons_zero, e.cond]; exact hc)
        · simp only [List.getD_cons_zero, illegal, hU, illegal3, illegalLoad, e.op, wFn, wRs2, wL, wImm, wAm, wX, wSys, g30, g84, e.rd, e.rs1]
          try rfl
        · simp only [List.getD_cons_zero, reservedSet, hU, reserved3, illegalLoad, e.op, wFn, wRs2, wL, wImm, wAm, wX, wSys, g30, g84, e.rd, e.rs1]
          try rfl
      · try simp only [List.getD_cons_zero, ownsLong, hU, e.op, wFn, wRs2, wL, wImm, wAm, wX, wSys, g30, g84, e.rd, e.rs1] <;> first | rfl | simp
  exact key _ (enc_head h 5 rd.toNat rs1.toNat (0 * 2 ^ 4 + 6) (by decide) (by omega) (by omega) (by omega))
theorem fneg (h rd rs1) : Statement (.fneg h rd rs1) := by
  have b_rd := rd.isLt
  have b_rs1 := rs1.isLt
  intro h' hs hw
  obtain ⟨hu, ho, hl, hc⟩ := parts hs hw
  cases hs
  have key : ∀ w, Enc w h 5 rd.toNat rs1.toNat (0 * 2 ^ 4 + 7) → Good h [w] (.fneg h rd rs1) := by
    intro w e
    have g30 := e.fn (by omega)
    have g84 := e.rs2 (by omega) (by omega)
    have hu : h.unit.toNat = 3 := unitIs hu
    all_goals
      have hU := e.unit.trans hu
      refine ⟨?_, ?_, ?_, ?_, e.stop, e.cond, .inl rfl⟩
      · simp only [List.getD_cons_zero, List.getD_cons_succ, List.getD_nil, decodeSyl, hU, u3Of, e.op, wFn, wRs2, wL, wImm, wAm, wX, wSys, immOf, immPOf, addrOf, g30, g84, e.rd, e.rs1, wStop_long, longWord_low, ofNat_self, head_eq e]; try rfl
      · simp only [List.getD_cons_zero, touchesSig, usesSig, postMode, hU, e.op, wFn, wRs2, wL, wImm, wAm, wX, wSys, g30, g84, e.rd, e.rs1] <;> first | rfl | simp
      · refine sylFault_none ?_ ?_ (by rw [List.getD_cons_zero, e.cond]; exact hc)
        · simp only [List.getD_cons_zero, illegal, hU, illegal3, illegalLoad, e.op, wFn, wRs2, wL, wImm, wAm, wX, wSys, g30, g84, e.rd, e.rs1]
          try rfl
        · simp only [List.getD_cons_zero, reservedSet, hU, reserved3, illegalLoad, e.op, wFn, wRs2, wL, wImm, wAm, wX, wSys, g30, g84, e.rd, e.rs1]
          try rfl
      · try simp only [List.getD_cons_zero, ownsLong, hU, e.op, wFn, wRs2, wL, wImm, wAm, wX, wSys, g30, g84, e.rd, e.rs1] <;> first | rfl | simp
  exact key _ (enc_head h 5 rd.toNat rs1.toNat (0 * 2 ^ 4 + 7) (by decide) (by omega) (by omega) (by omega))
theorem fcvtws (h rd rs1) : Statement (.fcvtws h rd rs1) := by
  have b_rd := rd.isLt
  have b_rs1 := rs1.isLt
  intro h' hs hw
  obtain ⟨hu, ho, hl, hc⟩ := parts hs hw
  cases hs
  have key : ∀ w, Enc w h 5 rd.toNat rs1.toNat (0 * 2 ^ 4 + 8) → Good h [w] (.fcvtws h rd rs1) := by
    intro w e
    have g30 := e.fn (by omega)
    have g84 := e.rs2 (by omega) (by omega)
    have hu : h.unit.toNat = 3 := unitIs hu
    all_goals
      have hU := e.unit.trans hu
      refine ⟨?_, ?_, ?_, ?_, e.stop, e.cond, .inl rfl⟩
      · simp only [List.getD_cons_zero, List.getD_cons_succ, List.getD_nil, decodeSyl, hU, u3Of, e.op, wFn, wRs2, wL, wImm, wAm, wX, wSys, immOf, immPOf, addrOf, g30, g84, e.rd, e.rs1, wStop_long, longWord_low, ofNat_self, head_eq e]; try rfl
      · simp only [List.getD_cons_zero, touchesSig, usesSig, postMode, hU, e.op, wFn, wRs2, wL, wImm, wAm, wX, wSys, g30, g84, e.rd, e.rs1] <;> first | rfl | simp
      · refine sylFault_none ?_ ?_ (by rw [List.getD_cons_zero, e.cond]; exact hc)
        · simp only [List.getD_cons_zero, illegal, hU, illegal3, illegalLoad, e.op, wFn, wRs2, wL, wImm, wAm, wX, wSys, g30, g84, e.rd, e.rs1]
          try rfl
        · simp only [List.getD_cons_zero, reservedSet, hU, reserved3, illegalLoad, e.op, wFn, wRs2, wL, wImm, wAm, wX, wSys, g30, g84, e.rd, e.rs1]
          try rfl
      · try simp only [List.getD_cons_zero, ownsLong, hU, e.op, wFn, wRs2, wL, wImm, wAm, wX, wSys, g30, g84, e.rd, e.rs1] <;> first | rfl | simp
  exact key _ (enc_head h 5 rd.toNat rs1.toNat (0 * 2 ^ 4 + 8) (by decide) (by omega) (by omega) (by omega))
theorem fcvtsw (h rd rs1) : Statement (.fcvtsw h rd rs1) := by
  have b_rd := rd.isLt
  have b_rs1 := rs1.isLt
  intro h' hs hw
  obtain ⟨hu, ho, hl, hc⟩ := parts hs hw
  cases hs
  have key : ∀ w, Enc w h 5 rd.toNat rs1.toNat (0 * 2 ^ 4 + 9) → Good h [w] (.fcvtsw h rd rs1) := by
    intro w e
    have g30 := e.fn (by omega)
    have g84 := e.rs2 (by omega) (by omega)
    have hu : h.unit.toNat = 3 := unitIs hu
    all_goals
      have hU := e.unit.trans hu
      refine ⟨?_, ?_, ?_, ?_, e.stop, e.cond, .inl rfl⟩
      · simp only [List.getD_cons_zero, List.getD_cons_succ, List.getD_nil, decodeSyl, hU, u3Of, e.op, wFn, wRs2, wL, wImm, wAm, wX, wSys, immOf, immPOf, addrOf, g30, g84, e.rd, e.rs1, wStop_long, longWord_low, ofNat_self, head_eq e]; try rfl
      · simp only [List.getD_cons_zero, touchesSig, usesSig, postMode, hU, e.op, wFn, wRs2, wL, wImm, wAm, wX, wSys, g30, g84, e.rd, e.rs1] <;> first | rfl | simp
      · refine sylFault_none ?_ ?_ (by rw [List.getD_cons_zero, e.cond]; exact hc)
        · simp only [List.getD_cons_zero, illegal, hU, illegal3, illegalLoad, e.op, wFn, wRs2, wL, wImm, wAm, wX, wSys, g30, g84, e.rd, e.rs1]
          try rfl
        · simp only [List.getD_cons_zero, reservedSet, hU, reserved3, illegalLoad, e.op, wFn, wRs2, wL, wImm, wAm, wX, wSys, g30, g84, e.rd, e.rs1]
          try rfl
      · try simp only [List.getD_cons_zero, ownsLong, hU, e.op, wFn, wRs2, wL, wImm, wAm, wX, wSys, g30, g84, e.rd, e.rs1] <;> first | rfl | simp
  exact key _ (enc_head h 5 rd.toNat rs1.toNat (0 * 2 ^ 4 + 9) (by decide) (by omega) (by omega) (by omega))
theorem feq (h pd rs1 rs2) : Statement (.feq h pd rs1 rs2) := by
  have b_pd := pd.isLt
  have b_rs1 := rs1.isLt
  have b_rs2 := rs2.isLt
  intro h' hs hw
  obtain ⟨hu, ho, hl, hc⟩ := parts hs hw
  cases hs
  have key : ∀ w, Enc w h 6 pd.toNat rs1.toNat (rs2.toNat * 2 ^ 4 + 0) → Good h [w] (.feq h pd rs1 rs2) := by
    intro w e
    have g30 := e.fn (by omega)
    have g84 := e.rs2 (by omega) (by omega)
    have gpd := e.pd.trans (Nat.mod_eq_of_lt b_pd)
    have gpd0 := e.pd0.trans (Nat.div_eq_of_lt b_pd)
    have hu : h.unit.toNat = 3 := unitIs hu
    all_goals
      have hU := e.unit.trans hu
      refine ⟨?_, ?_, ?_, ?_, e.stop, e.cond, .inl rfl⟩
      · simp only [List.getD_cons_zero, List.getD_cons_succ, List.getD_nil, decodeSyl, hU, u3Of, e.op, wFn, wRs2, wL, wImm, wAm, wX, wSys, immOf, immPOf, addrOf, g30, g84, e.rd, e.rs1, gpd, gpd0, wStop_long, longWord_low, ofNat_self, head_eq e]; try rfl
      · simp only [List.getD_cons_zero, touchesSig, usesSig, postMode, hU, e.op, wFn, wRs2, wL, wImm, wAm, wX, wSys, g30, g84, e.rd, e.rs1, gpd, gpd0] <;> first | rfl | simp
      · refine sylFault_none ?_ ?_ (by rw [List.getD_cons_zero, e.cond]; exact hc)
        · simp only [List.getD_cons_zero, illegal, hU, illegal3, illegalLoad, e.op, wFn, wRs2, wL, wImm, wAm, wX, wSys, g30, g84, e.rd, e.rs1, gpd, gpd0]
          try rfl
        · simp only [List.getD_cons_zero, reservedSet, hU, reserved3, illegalLoad, e.op, wFn, wRs2, wL, wImm, wAm, wX, wSys, g30, g84, e.rd, e.rs1, gpd, gpd0]
          try rfl
      · try simp only [List.getD_cons_zero, ownsLong, hU, e.op, wFn, wRs2, wL, wImm, wAm, wX, wSys, g30, g84, e.rd, e.rs1, gpd, gpd0] <;> first | rfl | simp
  exact key _ (enc_head h 6 pd.toNat rs1.toNat (rs2.toNat * 2 ^ 4 + 0) (by decide) (by omega) (by omega) (by omega))
theorem flt (h pd rs1 rs2) : Statement (.flt h pd rs1 rs2) := by
  have b_pd := pd.isLt
  have b_rs1 := rs1.isLt
  have b_rs2 := rs2.isLt
  intro h' hs hw
  obtain ⟨hu, ho, hl, hc⟩ := parts hs hw
  cases hs
  have key : ∀ w, Enc w h 6 pd.toNat rs1.toNat (rs2.toNat * 2 ^ 4 + 1) → Good h [w] (.flt h pd rs1 rs2) := by
    intro w e
    have g30 := e.fn (by omega)
    have g84 := e.rs2 (by omega) (by omega)
    have gpd := e.pd.trans (Nat.mod_eq_of_lt b_pd)
    have gpd0 := e.pd0.trans (Nat.div_eq_of_lt b_pd)
    have hu : h.unit.toNat = 3 := unitIs hu
    all_goals
      have hU := e.unit.trans hu
      refine ⟨?_, ?_, ?_, ?_, e.stop, e.cond, .inl rfl⟩
      · simp only [List.getD_cons_zero, List.getD_cons_succ, List.getD_nil, decodeSyl, hU, u3Of, e.op, wFn, wRs2, wL, wImm, wAm, wX, wSys, immOf, immPOf, addrOf, g30, g84, e.rd, e.rs1, gpd, gpd0, wStop_long, longWord_low, ofNat_self, head_eq e]; try rfl
      · simp only [List.getD_cons_zero, touchesSig, usesSig, postMode, hU, e.op, wFn, wRs2, wL, wImm, wAm, wX, wSys, g30, g84, e.rd, e.rs1, gpd, gpd0] <;> first | rfl | simp
      · refine sylFault_none ?_ ?_ (by rw [List.getD_cons_zero, e.cond]; exact hc)
        · simp only [List.getD_cons_zero, illegal, hU, illegal3, illegalLoad, e.op, wFn, wRs2, wL, wImm, wAm, wX, wSys, g30, g84, e.rd, e.rs1, gpd, gpd0]
          try rfl
        · simp only [List.getD_cons_zero, reservedSet, hU, reserved3, illegalLoad, e.op, wFn, wRs2, wL, wImm, wAm, wX, wSys, g30, g84, e.rd, e.rs1, gpd, gpd0]
          try rfl
      · try simp only [List.getD_cons_zero, ownsLong, hU, e.op, wFn, wRs2, wL, wImm, wAm, wX, wSys, g30, g84, e.rd, e.rs1, gpd, gpd0] <;> first | rfl | simp
  exact key _ (enc_head h 6 pd.toNat rs1.toNat (rs2.toNat * 2 ^ 4 + 1) (by decide) (by omega) (by omega) (by omega))
theorem fle (h pd rs1 rs2) : Statement (.fle h pd rs1 rs2) := by
  have b_pd := pd.isLt
  have b_rs1 := rs1.isLt
  have b_rs2 := rs2.isLt
  intro h' hs hw
  obtain ⟨hu, ho, hl, hc⟩ := parts hs hw
  cases hs
  have key : ∀ w, Enc w h 6 pd.toNat rs1.toNat (rs2.toNat * 2 ^ 4 + 2) → Good h [w] (.fle h pd rs1 rs2) := by
    intro w e
    have g30 := e.fn (by omega)
    have g84 := e.rs2 (by omega) (by omega)
    have gpd := e.pd.trans (Nat.mod_eq_of_lt b_pd)
    have gpd0 := e.pd0.trans (Nat.div_eq_of_lt b_pd)
    have hu : h.unit.toNat = 3 := unitIs hu
    all_goals
      have hU := e.unit.trans hu
      refine ⟨?_, ?_, ?_, ?_, e.stop, e.cond, .inl rfl⟩
      · simp only [List.getD_cons_zero, List.getD_cons_succ, List.getD_nil, decodeSyl, hU, u3Of, e.op, wFn, wRs2, wL, wImm, wAm, wX, wSys, immOf, immPOf, addrOf, g30, g84, e.rd, e.rs1, gpd, gpd0, wStop_long, longWord_low, ofNat_self, head_eq e]; try rfl
      · simp only [List.getD_cons_zero, touchesSig, usesSig, postMode, hU, e.op, wFn, wRs2, wL, wImm, wAm, wX, wSys, g30, g84, e.rd, e.rs1, gpd, gpd0] <;> first | rfl | simp
      · refine sylFault_none ?_ ?_ (by rw [List.getD_cons_zero, e.cond]; exact hc)
        · simp only [List.getD_cons_zero, illegal, hU, illegal3, illegalLoad, e.op, wFn, wRs2, wL, wImm, wAm, wX, wSys, g30, g84, e.rd, e.rs1, gpd, gpd0]
          try rfl
        · simp only [List.getD_cons_zero, reservedSet, hU, reserved3, illegalLoad, e.op, wFn, wRs2, wL, wImm, wAm, wX, wSys, g30, g84, e.rd, e.rs1, gpd, gpd0]
          try rfl
      · try simp only [List.getD_cons_zero, ownsLong, hU, e.op, wFn, wRs2, wL, wImm, wAm, wX, wSys, g30, g84, e.rd, e.rs1, gpd, gpd0] <;> first | rfl | simp
  exact key _ (enc_head h 6 pd.toNat rs1.toNat (rs2.toNat * 2 ^ 4 + 2) (by decide) (by omega) (by omega) (by omega))
theorem funord (h pd rs1 rs2) : Statement (.funord h pd rs1 rs2) := by
  have b_pd := pd.isLt
  have b_rs1 := rs1.isLt
  have b_rs2 := rs2.isLt
  intro h' hs hw
  obtain ⟨hu, ho, hl, hc⟩ := parts hs hw
  cases hs
  have key : ∀ w, Enc w h 6 pd.toNat rs1.toNat (rs2.toNat * 2 ^ 4 + 3) → Good h [w] (.funord h pd rs1 rs2) := by
    intro w e
    have g30 := e.fn (by omega)
    have g84 := e.rs2 (by omega) (by omega)
    have gpd := e.pd.trans (Nat.mod_eq_of_lt b_pd)
    have gpd0 := e.pd0.trans (Nat.div_eq_of_lt b_pd)
    have hu : h.unit.toNat = 3 := unitIs hu
    all_goals
      have hU := e.unit.trans hu
      refine ⟨?_, ?_, ?_, ?_, e.stop, e.cond, .inl rfl⟩
      · simp only [List.getD_cons_zero, List.getD_cons_succ, List.getD_nil, decodeSyl, hU, u3Of, e.op, wFn, wRs2, wL, wImm, wAm, wX, wSys, immOf, immPOf, addrOf, g30, g84, e.rd, e.rs1, gpd, gpd0, wStop_long, longWord_low, ofNat_self, head_eq e]; try rfl
      · simp only [List.getD_cons_zero, touchesSig, usesSig, postMode, hU, e.op, wFn, wRs2, wL, wImm, wAm, wX, wSys, g30, g84, e.rd, e.rs1, gpd, gpd0] <;> first | rfl | simp
      · refine sylFault_none ?_ ?_ (by rw [List.getD_cons_zero, e.cond]; exact hc)
        · simp only [List.getD_cons_zero, illegal, hU, illegal3, illegalLoad, e.op, wFn, wRs2, wL, wImm, wAm, wX, wSys, g30, g84, e.rd, e.rs1, gpd, gpd0]
          try rfl
        · simp only [List.getD_cons_zero, reservedSet, hU, reserved3, illegalLoad, e.op, wFn, wRs2, wL, wImm, wAm, wX, wSys, g30, g84, e.rd, e.rs1, gpd, gpd0]
          try rfl
      · try simp only [List.getD_cons_zero, ownsLong, hU, e.op, wFn, wRs2, wL, wImm, wAm, wX, wSys, g30, g84, e.rd, e.rs1, gpd, gpd0] <;> first | rfl | simp
  exact key _ (enc_head h 6 pd.toNat rs1.toNat (rs2.toNat * 2 ^ 4 + 3) (by decide) (by omega) (by omega) (by omega))
theorem div (h rd rs1 rs2) : Statement (.div h rd rs1 rs2) := by
  have b_rd := rd.isLt
  have b_rs1 := rs1.isLt
  have b_rs2 := rs2.isLt
  intro h' hs hw
  obtain ⟨hu, ho, hl, hc⟩ := parts hs hw
  cases hs
  have key : ∀ w, Enc w h 8 rd.toNat rs1.toNat (rs2.toNat * 2 ^ 4 + 0) → Good h [w] (.div h rd rs1 rs2) := by
    intro w e
    have g30 := e.fn (by omega)
    have g84 := e.rs2 (by omega) (by omega)
    have hu : h.unit.toNat = 3 := unitIs hu
    all_goals
      have hU := e.unit.trans hu
      refine ⟨?_, ?_, ?_, ?_, e.stop, e.cond, .inl rfl⟩
      · simp only [List.getD_cons_zero, List.getD_cons_succ, List.getD_nil, decodeSyl, hU, u3Of, e.op, wFn, wRs2, wL, wImm, wAm, wX, wSys, immOf, immPOf, addrOf, g30, g84, e.rd, e.rs1, wStop_long, longWord_low, ofNat_self, head_eq e]; try rfl
      · simp only [List.getD_cons_zero, touchesSig, usesSig, postMode, hU, e.op, wFn, wRs2, wL, wImm, wAm, wX, wSys, g30, g84, e.rd, e.rs1] <;> first | rfl | simp
      · refine sylFault_none ?_ ?_ (by rw [List.getD_cons_zero, e.cond]; exact hc)
        · simp only [List.getD_cons_zero, illegal, hU, illegal3, illegalLoad, e.op, wFn, wRs2, wL, wImm, wAm, wX, wSys, g30, g84, e.rd, e.rs1]
          try rfl
        · simp only [List.getD_cons_zero, reservedSet, hU, reserved3, illegalLoad, e.op, wFn, wRs2, wL, wImm, wAm, wX, wSys, g30, g84, e.rd, e.rs1]
          try rfl
      · try simp only [List.getD_cons_zero, ownsLong, hU, e.op, wFn, wRs2, wL, wImm, wAm, wX, wSys, g30, g84, e.rd, e.rs1] <;> first | rfl | simp
  exact key _ (enc_head h 8 rd.toNat rs1.toNat (rs2.toNat * 2 ^ 4 + 0) (by decide) (by omega) (by omega) (by omega))
theorem divu (h rd rs1 rs2) : Statement (.divu h rd rs1 rs2) := by
  have b_rd := rd.isLt
  have b_rs1 := rs1.isLt
  have b_rs2 := rs2.isLt
  intro h' hs hw
  obtain ⟨hu, ho, hl, hc⟩ := parts hs hw
  cases hs
  have key : ∀ w, Enc w h 8 rd.toNat rs1.toNat (rs2.toNat * 2 ^ 4 + 1) → Good h [w] (.divu h rd rs1 rs2) := by
    intro w e
    have g30 := e.fn (by omega)
    have g84 := e.rs2 (by omega) (by omega)
    have hu : h.unit.toNat = 3 := unitIs hu
    all_goals
      have hU := e.unit.trans hu
      refine ⟨?_, ?_, ?_, ?_, e.stop, e.cond, .inl rfl⟩
      · simp only [List.getD_cons_zero, List.getD_cons_succ, List.getD_nil, decodeSyl, hU, u3Of, e.op, wFn, wRs2, wL, wImm, wAm, wX, wSys, immOf, immPOf, addrOf, g30, g84, e.rd, e.rs1, wStop_long, longWord_low, ofNat_self, head_eq e]; try rfl
      · simp only [List.getD_cons_zero, touchesSig, usesSig, postMode, hU, e.op, wFn, wRs2, wL, wImm, wAm, wX, wSys, g30, g84, e.rd, e.rs1] <;> first | rfl | simp
      · refine sylFault_none ?_ ?_ (by rw [List.getD_cons_zero, e.cond]; exact hc)
        · simp only [List.getD_cons_zero, illegal, hU, illegal3, illegalLoad, e.op, wFn, wRs2, wL, wImm, wAm, wX, wSys, g30, g84, e.rd, e.rs1]
          try rfl
        · simp only [List.getD_cons_zero, reservedSet, hU, reserved3, illegalLoad, e.op, wFn, wRs2, wL, wImm, wAm, wX, wSys, g30, g84, e.rd, e.rs1]
          try rfl
      · try simp only [List.getD_cons_zero, ownsLong, hU, e.op, wFn, wRs2, wL, wImm, wAm, wX, wSys, g30, g84, e.rd, e.rs1] <;> first | rfl | simp
  exact key _ (enc_head h 8 rd.toNat rs1.toNat (rs2.toNat * 2 ^ 4 + 1) (by decide) (by omega) (by omega) (by omega))
theorem rem (h rd rs1 rs2) : Statement (.rem h rd rs1 rs2) := by
  have b_rd := rd.isLt
  have b_rs1 := rs1.isLt
  have b_rs2 := rs2.isLt
  intro h' hs hw
  obtain ⟨hu, ho, hl, hc⟩ := parts hs hw
  cases hs
  have key : ∀ w, Enc w h 8 rd.toNat rs1.toNat (rs2.toNat * 2 ^ 4 + 2) → Good h [w] (.rem h rd rs1 rs2) := by
    intro w e
    have g30 := e.fn (by omega)
    have g84 := e.rs2 (by omega) (by omega)
    have hu : h.unit.toNat = 3 := unitIs hu
    all_goals
      have hU := e.unit.trans hu
      refine ⟨?_, ?_, ?_, ?_, e.stop, e.cond, .inl rfl⟩
      · simp only [List.getD_cons_zero, List.getD_cons_succ, List.getD_nil, decodeSyl, hU, u3Of, e.op, wFn, wRs2, wL, wImm, wAm, wX, wSys, immOf, immPOf, addrOf, g30, g84, e.rd, e.rs1, wStop_long, longWord_low, ofNat_self, head_eq e]; try rfl
      · simp only [List.getD_cons_zero, touchesSig, usesSig, postMode, hU, e.op, wFn, wRs2, wL, wImm, wAm, wX, wSys, g30, g84, e.rd, e.rs1] <;> first | rfl | simp
      · refine sylFault_none ?_ ?_ (by rw [List.getD_cons_zero, e.cond]; exact hc)
        · simp only [List.getD_cons_zero, illegal, hU, illegal3, illegalLoad, e.op, wFn, wRs2, wL, wImm, wAm, wX, wSys, g30, g84, e.rd, e.rs1]
          try rfl
        · simp only [List.getD_cons_zero, reservedSet, hU, reserved3, illegalLoad, e.op, wFn, wRs2, wL, wImm, wAm, wX, wSys, g30, g84, e.rd, e.rs1]
          try rfl
      · try simp only [List.getD_cons_zero, ownsLong, hU, e.op, wFn, wRs2, wL, wImm, wAm, wX, wSys, g30, g84, e.rd, e.rs1] <;> first | rfl | simp
  exact key _ (enc_head h 8 rd.toNat rs1.toNat (rs2.toNat * 2 ^ 4 + 2) (by decide) (by omega) (by omega) (by omega))
theorem remu (h rd rs1 rs2) : Statement (.remu h rd rs1 rs2) := by
  have b_rd := rd.isLt
  have b_rs1 := rs1.isLt
  have b_rs2 := rs2.isLt
  intro h' hs hw
  obtain ⟨hu, ho, hl, hc⟩ := parts hs hw
  cases hs
  have key : ∀ w, Enc w h 8 rd.toNat rs1.toNat (rs2.toNat * 2 ^ 4 + 3) → Good h [w] (.remu h rd rs1 rs2) := by
    intro w e
    have g30 := e.fn (by omega)
    have g84 := e.rs2 (by omega) (by omega)
    have hu : h.unit.toNat = 3 := unitIs hu
    all_goals
      have hU := e.unit.trans hu
      refine ⟨?_, ?_, ?_, ?_, e.stop, e.cond, .inl rfl⟩
      · simp only [List.getD_cons_zero, List.getD_cons_succ, List.getD_nil, decodeSyl, hU, u3Of, e.op, wFn, wRs2, wL, wImm, wAm, wX, wSys, immOf, immPOf, addrOf, g30, g84, e.rd, e.rs1, wStop_long, longWord_low, ofNat_self, head_eq e]; try rfl
      · simp only [List.getD_cons_zero, touchesSig, usesSig, postMode, hU, e.op, wFn, wRs2, wL, wImm, wAm, wX, wSys, g30, g84, e.rd, e.rs1] <;> first | rfl | simp
      · refine sylFault_none ?_ ?_ (by rw [List.getD_cons_zero, e.cond]; exact hc)
        · simp only [List.getD_cons_zero, illegal, hU, illegal3, illegalLoad, e.op, wFn, wRs2, wL, wImm, wAm, wX, wSys, g30, g84, e.rd, e.rs1]
          try rfl
        · simp only [List.getD_cons_zero, reservedSet, hU, reserved3, illegalLoad, e.op, wFn, wRs2, wL, wImm, wAm, wX, wSys, g30, g84, e.rd, e.rs1]
          try rfl
      · try simp only [List.getD_cons_zero, ownsLong, hU, e.op, wFn, wRs2, wL, wImm, wAm, wX, wSys, g30, g84, e.rd, e.rs1] <;> first | rfl | simp
  exact key _ (enc_head h 8 rd.toNat rs1.toNat (rs2.toNat * 2 ^ 4 + 3) (by decide) (by omega) (by omega) (by omega))
theorem fdiv (h rd rs1 rs2) : Statement (.fdiv h rd rs1 rs2) := by
  have b_rd := rd.isLt
  have b_rs1 := rs1.isLt
  have b_rs2 := rs2.isLt
  intro h' hs hw
  obtain ⟨hu, ho, hl, hc⟩ := parts hs hw
  cases hs
  have key : ∀ w, Enc w h 8 rd.toNat rs1.toNat (rs2.toNat * 2 ^ 4 + 4) → Good h [w] (.fdiv h rd rs1 rs2) := by
    intro w e
    have g30 := e.fn (by omega)
    have g84 := e.rs2 (by omega) (by omega)
    have hu : h.unit.toNat = 3 := unitIs hu
    all_goals
      have hU := e.unit.trans hu
      refine ⟨?_, ?_, ?_, ?_, e.stop, e.cond, .inl rfl⟩
      · simp only [List.getD_cons_zero, List.getD_cons_succ, List.getD_nil, decodeSyl, hU, u3Of, e.op, wFn, wRs2, wL, wImm, wAm, wX, wSys, immOf, immPOf, addrOf, g30, g84, e.rd, e.rs1, wStop_long, longWord_low, ofNat_self, head_eq e]; try rfl
      · simp only [List.getD_cons_zero, touchesSig, usesSig, postMode, hU, e.op, wFn, wRs2, wL, wImm, wAm, wX, wSys, g30, g84, e.rd, e.rs1] <;> first | rfl | simp
      · refine sylFault_none ?_ ?_ (by rw [List.getD_cons_zero, e.cond]; exact hc)
        · simp only [List.getD_cons_zero, illegal, hU, illegal3, illegalLoad, e.op, wFn, wRs2, wL, wImm, wAm, wX, wSys, g30, g84, e.rd, e.rs1]
          try rfl
        · simp only [List.getD_cons_zero, reservedSet, hU, reserved3, illegalLoad, e.op, wFn, wRs2, wL, wImm, wAm, wX, wSys, g30, g84, e.rd, e.rs1]
          try rfl
      · try simp only [List.getD_cons_zero, ownsLong, hU, e.op, wFn, wRs2, wL, wImm, wAm, wX, wSys, g30, g84, e.rd, e.rs1] <;> first | rfl | simp
  exact key _ (enc_head h 8 rd.toNat rs1.toNat (rs2.toNat * 2 ^ 4 + 4) (by decide) (by omega) (by omega) (by omega))
theorem fsqrt (h rd rs1) : Statement (.fsqrt h rd rs1) := by
  have b_rd := rd.isLt
  have b_rs1 := rs1.isLt
  intro h' hs hw
  obtain ⟨hu, ho, hl, hc⟩ := parts hs hw
  cases hs
  have key : ∀ w, Enc w h 8 rd.toNat rs1.toNat (0 * 2 ^ 4 + 5) → Good h [w] (.fsqrt h rd rs1) := by
    intro w e
    have g30 := e.fn (by omega)
    have g84 := e.rs2 (by omega) (by omega)
    have hu : h.unit.toNat = 3 := unitIs hu
    all_goals
      have hU := e.unit.trans hu
      refine ⟨?_, ?_, ?_, ?_, e.stop, e.cond, .inl rfl⟩
      · simp only [List.getD_cons_zero, List.getD_cons_succ, List.getD_nil, decodeSyl, hU, u3Of, e.op, wFn, wRs2, wL, wImm, wAm, wX, wSys, immOf, immPOf, addrOf, g30, g84, e.rd, e.rs1, wStop_long, longWord_low, ofNat_self, head_eq e]; try rfl
      · simp only [List.getD_cons_zero, touchesSig, usesSig, postMode, hU, e.op, wFn, wRs2, wL, wImm, wAm, wX, wSys, g30, g84, e.rd, e.rs1] <;> first | rfl | simp
      · refine sylFault_none ?_ ?_ (by rw [List.getD_cons_zero, e.cond]; exact hc)
        · simp only [List.getD_cons_zero, illegal, hU, illegal3, illegalLoad, e.op, wFn, wRs2, wL, wImm, wAm, wX, wSys, g30, g84, e.rd, e.rs1]
          try rfl
        · simp only [List.getD_cons_zero, reservedSet, hU, reserved3, illegalLoad, e.op, wFn, wRs2, wL, wImm, wAm, wX, wSys, g30, g84, e.rd, e.rs1]
          try rfl
      · try simp only [List.getD_cons_zero, ownsLong, hU, e.op, wFn, wRs2, wL, wImm, wAm, wX, wSys, g30, g84, e.rd, e.rs1] <;> first | rfl | simp
  exact key _ (enc_head h 8 rd.toNat rs1.toNat (0 * 2 ^ 4 + 5) (by decide) (by omega) (by omega) (by omega))
theorem crcp (h rd rs1 rs2) : Statement (.crcp h rd rs1 rs2) := by
  have b_rd := rd.isLt
  have b_rs1 := rs1.isLt
  have b_rs2 := rs2.isLt
  intro h' hs hw
  obtain ⟨hu, ho, hl, hc⟩ := parts hs hw
  cases hs
  have key : ∀ w, Enc w h 8 rd.toNat rs1.toNat (rs2.toNat * 2 ^ 4 + 6) → Good h [w] (.crcp h rd rs1 rs2) := by
    intro w e
    have g30 := e.fn (by omega)
    have g84 := e.rs2 (by omega) (by omega)
    have hu : h.unit.toNat = 3 := unitIs hu
    all_goals
      have hU := e.unit.trans hu
      refine ⟨?_, ?_, ?_, ?_, e.stop, e.cond, .inl rfl⟩
      · simp only [List.getD_cons_zero, List.getD_cons_succ, List.getD_nil, decodeSyl, hU, u3Of, e.op, wFn, wRs2, wL, wImm, wAm, wX, wSys, immOf, immPOf, addrOf, g30, g84, e.rd, e.rs1, wStop_long, longWord_low, ofNat_self, head_eq e]; try rfl
      · simp only [List.getD_cons_zero, touchesSig, usesSig, postMode, hU, e.op, wFn, wRs2, wL, wImm, wAm, wX, wSys, g30, g84, e.rd, e.rs1] <;> first | rfl | simp
      · refine sylFault_none ?_ ?_ (by rw [List.getD_cons_zero, e.cond]; exact hc)
        · simp only [List.getD_cons_zero, illegal, hU, illegal3, illegalLoad, e.op, wFn, wRs2, wL, wImm, wAm, wX, wSys, g30, g84, e.rd, e.rs1]
          try first | rfl | (simp [operandsOk, postInc, immPDefined, BitVec.toNat_eq] at ho; simp [badIf, userKnown, sysKnown]; omega)
        · simp only [List.getD_cons_zero, reservedSet, hU, reserved3, illegalLoad, e.op, wFn, wRs2, wL, wImm, wAm, wX, wSys, g30, g84, e.rd, e.rs1]
          try first | rfl | (simp [operandsOk, postInc, immPDefined, BitVec.toNat_eq] at ho; simp [badIf, userKnown, sysKnown]; omega)
      · try simp only [List.getD_cons_zero, ownsLong, hU, e.op, wFn, wRs2, wL, wImm, wAm, wX, wSys, g30, g84, e.rd, e.rs1] <;> first | rfl | simp
  exact key _ (enc_head h 8 rd.toNat rs1.toNat (rs2.toNat * 2 ^ 4 + 6) (by decide) (by omega) (by omega) (by omega))
theorem longOperationFinish (core index) : Statement (.longOperationFinish core index) := fun _ hs => nomatch hs
theorem longOperationError (core) : Statement (.longOperationError core) := fun _ hs => nomatch hs
theorem loadMissFill (core word upset) : Statement (.loadMissFill core word upset) := fun _ hs => nomatch hs
theorem storeBufferSend (core) : Statement (.storeBufferSend core) := fun _ hs => nomatch hs
theorem storeWriteCompletion (core index) : Statement (.storeWriteCompletion core index) := fun _ hs => nomatch hs
theorem lateStoreTimeout (core index) : Statement (.lateStoreTimeout core index) := fun _ hs => nomatch hs
theorem lateStoreError (core) : Statement (.lateStoreError core) := fun _ hs => nomatch hs
theorem interrupt (core) : Statement (.interrupt core) := fun _ hs => nomatch hs
theorem twinAlert (core) : Statement (.twinAlert core) := fun _ hs => nomatch hs
theorem tableWalk (core) : Statement (.tableWalk core) := fun _ hs => nomatch hs
theorem tlbInvalidationReceipt (core) : Statement (.tlbInvalidationReceipt core) := fun _ hs => nomatch hs
theorem icinvReceipt (core) : Statement (.icinvReceipt core) := fun _ hs => nomatch hs
theorem tileAccess (tile portA portB) : Statement (.tileAccess tile portA portB) := fun _ hs => nomatch hs
theorem correctedWordWriteBack (word) : Statement (.correctedWordWriteBack word) := fun _ hs => nomatch hs
theorem reservedSpaceAccess (src addr write) : Statement (.reservedSpaceAccess src addr write) := fun _ hs => nomatch hs
theorem absentUnitWrite (src addr value) : Statement (.absentUnitWrite src addr value) := fun _ hs => nomatch hs
theorem blockEnable (src block qmode) : Statement (.blockEnable src block qmode) := fun _ hs => nomatch hs
theorem blockDisable (src block qmode) : Statement (.blockDisable src block qmode) := fun _ hs => nomatch hs
theorem qmodeWrite (src block qmode) : Statement (.qmodeWrite src block qmode) := fun _ hs => nomatch hs
theorem drainComplete (block) : Statement (.drainComplete block) := fun _ hs => nomatch hs
theorem softReset (src block) : Statement (.softReset src block) := fun _ hs => nomatch hs
theorem softResetComplete (block) : Statement (.softResetComplete block) := fun _ hs => nomatch hs
theorem blockFault (block) : Statement (.blockFault block) := fun _ hs => nomatch hs
theorem featAcceptWrite (src block hi value) : Statement (.featAcceptWrite src block hi value) := fun _ hs => nomatch hs
theorem evEnableWrite (src block second value) : Statement (.evEnableWrite src block second value) := fun _ hs => nomatch hs
theorem evPendingClear (src block second value) : Statement (.evPendingClear src block second value) := fun _ hs => nomatch hs
theorem blockEvent (block event) : Statement (.blockEvent block event) := fun _ hs => nomatch hs
theorem errCodeRead (src block) : Statement (.errCodeRead src block) := fun _ hs => nomatch hs
theorem rcRead (src addr) : Statement (.rcRead src addr) := fun _ hs => nomatch hs
theorem pairLowRead (src addr) : Statement (.pairLowRead src addr) := fun _ hs => nomatch hs
theorem pairLowWrite (src addr value) : Statement (.pairLowWrite src addr value) := fun _ hs => nomatch hs
theorem pairHighWrite (src addr value) : Statement (.pairHighWrite src addr value) := fun _ hs => nomatch hs
theorem registerWrite (src addr value) : Statement (.registerWrite src addr value) := fun _ hs => nomatch hs
theorem typerevWrite (src index value) : Statement (.typerevWrite src index value) := fun _ hs => nomatch hs
theorem bownWrite (src bank dom) : Statement (.bownWrite src bank dom) := fun _ hs => nomatch hs
theorem handoverComplete (bank) : Statement (.handoverComplete bank) := fun _ hs => nomatch hs
theorem create (src ctx ev) : Statement (.create src ctx ev) := fun _ hs => nomatch hs
theorem resume (src ctx ev) : Statement (.resume src ctx ev) := fun _ hs => nomatch hs
theorem suspend (src ctx ev) : Statement (.suspend src ctx ev) := fun _ hs => nomatch hs
theorem release (src ctx ev) : Statement (.release src ctx ev) := fun _ hs => nomatch hs
theorem setprio (src ctx ev) : Statement (.setprio src ctx ev) := fun _ hs => nomatch hs
theorem setcores (src ctx ev) : Statement (.setcores src ctx ev) := fun _ hs => nomatch hs
theorem query (src ctx ev) : Statement (.query src ctx ev) := fun _ hs => nomatch hs
theorem recsave (src ctx ev) : Statement (.recsave src ctx ev) := fun _ hs => nomatch hs
theorem recload (src ctx ev) : Statement (.recload src ctx ev) := fun _ hs => nomatch hs
theorem abort (src ctx ev) : Statement (.abort src ctx ev) := fun _ hs => nomatch hs
theorem corectlWrite (src core admitted) : Statement (.corectlWrite src core admitted) := fun _ hs => nomatch hs
theorem placement : Statement (.placement) := fun _ hs => nomatch hs
theorem recordLoad (load) : Statement (.recordLoad load) := fun _ hs => nomatch hs
theorem bankSwitch (core) : Statement (.bankSwitch core) := fun _ hs => nomatch hs
theorem eviction (ctx) : Statement (.eviction ctx) := fun _ hs => nomatch hs
theorem quantumExpiry (core) : Statement (.quantumExpiry core) := fun _ hs => nomatch hs
theorem trafHalving : Statement (.trafHalving) := fun _ hs => nomatch hs
theorem queuePut (queue owner cls axis flags plen payload) : Statement (.queuePut queue owner cls axis flags plen payload) := fun _ hs => nomatch hs
theorem qcmdWriteDescriptor (src) : Statement (.qcmdWriteDescriptor src) := fun _ hs => nomatch hs
theorem qcmdReadDescriptor (src) : Statement (.qcmdReadDescriptor src) := fun _ hs => nomatch hs
theorem flush (src) : Statement (.flush src) := fun _ hs => nomatch hs
theorem eventOccurrence (source) : Statement (.eventOccurrence source) := fun _ hs => nomatch hs
theorem grantRequest (core) : Statement (.grantRequest core) := fun _ hs => nomatch hs
theorem eventMessagePut : Statement (.eventMessagePut) := fun _ hs => nomatch hs
theorem eventPutRetry (source) : Statement (.eventPutRetry source) := fun _ hs => nomatch hs
theorem swset (src source) : Statement (.swset src source) := fun _ hs => nomatch hs
theorem pendwClear (src word value) : Statement (.pendwClear src word value) := fun _ hs => nomatch hs
theorem srccfgWrite (src source value) : Statement (.srccfgWrite src source value) := fun _ hs => nomatch hs
theorem phaseTick : Statement (.phaseTick) := fun _ hs => nomatch hs
theorem pinAction : Statement (.pinAction) := fun _ hs => nomatch hs
theorem markActionIssue : Statement (.markActionIssue) := fun _ hs => nomatch hs
theorem axmeasWrite (src axis value) : Statement (.axmeasWrite src axis value) := fun _ hs => nomatch hs
theorem axisLoss (axis) : Statement (.axisLoss axis) := fun _ hs => nomatch hs
theorem axisDead (axis) : Statement (.axisDead axis) := fun _ hs => nomatch hs
theorem axctlWrite (src axis value) : Statement (.axctlWrite src axis value) := fun _ hs => nomatch hs
theorem markctlWrite (src mark value) : Statement (.markctlWrite src mark value) := fun _ hs => nomatch hs
theorem stepRequest (cell depth late pred chained) : Statement (.stepRequest cell depth late pred chained) := fun _ hs => nomatch hs
theorem stepreq (src cell) : Statement (.stepreq src cell) := fun _ hs => nomatch hs
theorem cellStep (upset) : Statement (.cellStep upset) := fun _ hs => nomatch hs
theorem tuneStart (src value) : Statement (.tuneStart src value) := fun _ hs => nomatch hs
theorem tuneAbort (src) : Statement (.tuneAbort src) := fun _ hs => nomatch hs
theorem gcmd (src cell) : Statement (.gcmd src cell) := fun _ hs => nomatch hs
theorem gainCommit : Statement (.gainCommit) := fun _ hs => nomatch hs
theorem cctlResume (src cell) : Statement (.cctlResume src cell) := fun _ hs => nomatch hs
theorem bridgeFrame (crcOk) : Statement (.bridgeFrame crcOk) := fun _ hs => nomatch hs
theorem bridgeLoss : Statement (.bridgeLoss) := fun _ hs => nomatch hs
theorem fieldSupplyFault : Statement (.fieldSupplyFault) := fun _ hs => nomatch hs
theorem fieldSupplyRecovery (pri) : Statement (.fieldSupplyRecovery pri) := fun _ hs => nomatch hs
theorem fieldRegisterAccess (core store) : Statement (.fieldRegisterAccess core store) := fun _ hs => nomatch hs
theorem sigmaDeltaResult (channel code overload trig centre) : Statement (.sigmaDeltaResult channel code overload trig centre) := fun _ hs => nomatch hs
theorem sampleTrigger (mask tick) : Statement (.sampleTrigger mask tick) := fun _ hs => nomatch hs
theorem trigsw (src mask) : Statement (.trigsw src mask) := fun _ hs => nomatch hs
theorem encoderEdge (enc a b z) : Statement (.encoderEdge enc a b z) := fun _ hs => nomatch hs
theorem ssiRead (enc word par ready) : Statement (.ssiRead enc word par ready) := fun _ hs => nomatch hs
theorem digitalInputSample (levels) : Statement (.digitalInputSample levels) := fun _ hs => nomatch hs
theorem docmd (src value) : Statement (.docmd src value) := fun _ hs => nomatch hs
theorem doset (src value) : Statement (.doset src value) := fun _ hs => nomatch hs
theorem doclr (src value) : Statement (.doclr src value) := fun _ hs => nomatch hs
theorem outenWrite (src second value) : Statement (.outenWrite src second value) := fun _ hs => nomatch hs
theorem fieldOutputCommand : Statement (.fieldOutputCommand) := fun _ hs => nomatch hs
theorem outputReadback (output level) : Statement (.outputReadback output level) := fun _ hs => nomatch hs
theorem pwmPeriod (timer) : Statement (.pwmPeriod timer) := fun _ hs => nomatch hs
theorem twinClaimSeen : Statement (.twinClaimSeen) := fun _ hs => nomatch hs
theorem twinClaimAbsent : Statement (.twinClaimAbsent) := fun _ hs => nomatch hs
theorem authorityLineChange : Statement (.authorityLineChange) := fun _ hs => nomatch hs
theorem driveRise : Statement (.driveRise) := fun _ hs => nomatch hs
theorem laneFrameReceive (lane preamble delimiter header payload tag crc) : Statement (.laneFrameReceive lane preamble delimiter header payload tag crc) := fun _ hs => nomatch hs
theorem laneRequest (lane) : Statement (.laneRequest lane) := fun _ hs => nomatch hs
theorem laneTransmitEnd (lane) : Statement (.laneTransmitEnd lane) := fun _ hs => nomatch hs
theorem replyWindowExpiry (lane) : Statement (.replyWindowExpiry lane) := fun _ hs => nomatch hs
theorem malsecClear : Statement (.malsecClear) := fun _ hs => nomatch hs
theorem quarantineExpiry (lane partner) : Statement (.quarantineExpiry lane partner) := fun _ hs => nomatch hs
theorem pstatRelease (src lane partner) : Statement (.pstatRelease src lane partner) := fun _ hs => nomatch hs
theorem pcfgWrite (src lane partner value) : Statement (.pcfgWrite src lane partner value) := fun _ hs => nomatch hs
theorem ethernetFrameReceive (port frame) : Statement (.ethernetFrameReceive port frame) := fun _ hs => nomatch hs
theorem writeRule (src) : Statement (.writeRule src) := fun _ hs => nomatch hs
theorem readRule (src) : Statement (.readRule src) := fun _ hs => nomatch hs
theorem writeSa (src) : Statement (.writeSa src) := fun _ hs => nomatch hs
theorem readSa (src) : Statement (.readSa src) := fun _ hs => nomatch hs
theorem portTransmitRequest (port) : Statement (.portTransmitRequest port) := fun _ hs => nomatch hs
theorem portTransmitComplete (port) : Statement (.portTransmitComplete port) := fun _ hs => nomatch hs
theorem linkChange (port up half speed) : Statement (.linkChange port up half speed) := fun _ hs => nomatch hs
theorem ptpstepWrite (src value) : Statement (.ptpstepWrite src value) := fun _ hs => nomatch hs
theorem qbvCycleStart (port) : Statement (.qbvCycleStart port) := fun _ hs => nomatch hs
theorem uartFrameReceive (uart start data ferr perr) : Statement (.uartFrameReceive uart start data ferr perr) := fun _ hs => nomatch hs
theorem uartBreak (uart) : Statement (.uartBreak uart) := fun _ hs => nomatch hs
theorem uartTransmitRequest (uart) : Statement (.uartTransmitRequest uart) := fun _ hs => nomatch hs
theorem uartTransmitComplete (uart) : Statement (.uartTransmitComplete uart) := fun _ hs => nomatch hs
theorem hello (nonce role prio unitmap accept latency tag) : Statement (.hello nonce role prio unitmap accept latency tag) := fun _ hs => nomatch hs
theorem laneLoss (lane) : Statement (.laneLoss lane) := fun _ hs => nomatch hs
theorem twinFrameReceive (frame tag) : Statement (.twinFrameReceive frame tag) := fun _ hs => nomatch hs
theorem store : Statement (.store) := fun _ hs => nomatch hs
theorem queue : Statement (.queue) := fun _ hs => nomatch hs
theorem queueSyncApply : Statement (.queueSyncApply) := fun _ hs => nomatch hs
theorem record : Statement (.record) := fun _ hs => nomatch hs
theorem checkpoint : Statement (.checkpoint) := fun _ hs => nomatch hs
theorem notice : Statement (.notice) := fun _ hs => nomatch hs
theorem command : Statement (.command) := fun _ hs => nomatch hs
theorem heartbeat : Statement (.heartbeat) := fun _ hs => nomatch hs
theorem ack : Statement (.ack) := fun _ hs => nomatch hs
theorem nak : Statement (.nak) := fun _ hs => nomatch hs
theorem retransmission : Statement (.retransmission) := fun _ hs => nomatch hs
theorem heartbeatSend : Statement (.heartbeatSend) := fun _ hs => nomatch hs
theorem peerLoss : Statement (.peerLoss) := fun _ hs => nomatch hs
theorem split : Statement (.split) := fun _ hs => nomatch hs
theorem takeover : Statement (.takeover) := fun _ hs => nomatch hs
theorem replicatedWriteAdmit (core index) : Statement (.replicatedWriteAdmit core index) := fun _ hs => nomatch hs
theorem goSolo (src) : Statement (.goSolo src) := fun _ hs => nomatch hs
theorem join (src) : Statement (.join src) := fun _ hs => nomatch hs
theorem switch (src tag) : Statement (.switch src tag) := fun _ hs => nomatch hs
theorem fence (src) : Statement (.fence src) := fun _ hs => nomatch hs
theorem take (src) : Statement (.take src) := fun _ hs => nomatch hs
theorem syncdone (src) : Statement (.syncdone src) := fun _ hs => nomatch hs
theorem peerfence (src) : Statement (.peerfence src) := fun _ hs => nomatch hs
theorem peerreset (src) : Statement (.peerreset src) := fun _ hs => nomatch hs
theorem checkpointRequest (src tag) : Statement (.checkpointRequest src tag) := fun _ hs => nomatch hs
theorem checkpointCapture : Statement (.checkpointCapture) := fun _ hs => nomatch hs
theorem rfence (src) : Statement (.rfence src) := fun _ hs => nomatch hs
theorem rfenceComplete : Statement (.rfenceComplete) := fun _ hs => nomatch hs
theorem recpush (src ctx) : Statement (.recpush src ctx) := fun _ hs => nomatch hs
theorem synccmd (src) : Statement (.synccmd src) := fun _ hs => nomatch hs
theorem syncDone : Statement (.syncDone) := fun _ hs => nomatch hs
theorem qsync (src queue) : Statement (.qsync src queue) := fun _ hs => nomatch hs
theorem powerOnReset : Statement (.powerOnReset) := fun _ hs => nomatch hs
theorem pinReset : Statement (.pinReset) := fun _ hs => nomatch hs
theorem chipResetRelease (rom board) : Statement (.chipResetRelease rom board) := fun _ hs => nomatch hs
theorem swrst (src value) : Statement (.swrst src value) := fun _ hs => nomatch hs
theorem coreWatchdogExpiry (core ieLimit) : Statement (.coreWatchdogExpiry core ieLimit) := fun _ hs => nomatch hs
theorem corkick (src core value) : Statement (.corkick src core value) := fun _ hs => nomatch hs
theorem chipWatchdogExpiry : Statement (.chipWatchdogExpiry) := fun _ hs => nomatch hs
theorem chipWatchdogHalf : Statement (.chipWatchdogHalf) := fun _ hs => nomatch hs
theorem cwdkick (src value) : Statement (.cwdkick src value) := fun _ hs => nomatch hs
theorem cwdctlEnable (src period) : Statement (.cwdctlEnable src period) := fun _ hs => nomatch hs
theorem flcmd (src value) : Statement (.flcmd src value) := fun _ hs => nomatch hs
theorem flashCommandDone (data) : Statement (.flashCommandDone data) := fun _ hs => nomatch hs
theorem bmrExtend (src index) : Statement (.bmrExtend src index) := fun _ hs => nomatch hs
theorem rollminWrite (src value) : Statement (.rollminWrite src value) := fun _ hs => nomatch hs
theorem aesGcmEncrypt : Statement (.aesGcmEncrypt) := fun _ hs => nomatch hs
theorem aesGcmDecrypt : Statement (.aesGcmDecrypt) := fun _ hs => nomatch hs
theorem aesCmac : Statement (.aesCmac) := fun _ hs => nomatch hs
theorem sha256 : Statement (.sha256) := fun _ hs => nomatch hs
theorem sha384 : Statement (.sha384) := fun _ hs => nomatch hs
theorem ecdsaVerify : Statement (.ecdsaVerify) := fun _ hs => nomatch hs
theorem loadKey : Statement (.loadKey) := fun _ hs => nomatch hs
theorem unwrap : Statement (.unwrap) := fun _ hs => nomatch hs
theorem kdf : Statement (.kdf) := fun _ hs => nomatch hs
theorem erase : Statement (.erase) := fun _ hs => nomatch hs
theorem quote : Statement (.quote) := fun _ hs => nomatch hs
theorem keyCommandDone : Statement (.keyCommandDone) := fun _ hs => nomatch hs
theorem trngRead (src) : Statement (.trngRead src) := fun _ hs => nomatch hs
theorem trngHealthFailure : Statement (.trngHealthFailure) := fun _ hs => nomatch hs
theorem challengeRead (src) : Statement (.challengeRead src) := fun _ hs => nomatch hs
theorem debugUnlock (src level) : Statement (.debugUnlock src level) := fun _ hs => nomatch hs
theorem debugRelock (src) : Statement (.debugRelock src) := fun _ hs => nomatch hs
theorem refclkLoss : Statement (.refclkLoss) := fun _ hs => nomatch hs
theorem refclkReturn : Statement (.refclkReturn) := fun _ hs => nomatch hs
theorem coreopWrite (src core value) : Statement (.coreopWrite src core value) := fun _ hs => nomatch hs
theorem opChangeComplete (core) : Statement (.opChangeComplete core) := fun _ hs => nomatch hs
theorem avsEvaluation (slack) : Statement (.avsEvaluation slack) := fun _ hs => nomatch hs
theorem regulatorCommand (acknowledged status vout iout) : Statement (.regulatorCommand acknowledged status vout iout) := fun _ hs => nomatch hs
theorem pmbAlert : Statement (.pmbAlert) := fun _ hs => nomatch hs
theorem droopLevel1 (quadrant) : Statement (.droopLevel1 quadrant) := fun _ hs => nomatch hs
theorem droopLevel2 (quadrant) : Statement (.droopLevel2 quadrant) := fun _ hs => nomatch hs
theorem droopEnd (quadrant) : Statement (.droopEnd quadrant) := fun _ hs => nomatch hs
theorem thermalSensorReport (readings) : Statement (.thermalSensorReport readings) := fun _ hs => nomatch hs
theorem spareTest (src arg) : Statement (.spareTest src arg) := fun _ hs => nomatch hs
theorem logicTest (src arg) : Statement (.logicTest src arg) := fun _ hs => nomatch hs
theorem commit (src arg) : Statement (.commit src arg) := fun _ hs => nomatch hs
theorem tileRelease (src arg) : Statement (.tileRelease src arg) := fun _ hs => nomatch hs
theorem burn (src arg) : Statement (.burn src arg) := fun _ hs => nomatch hs
theorem testCommandDone (result) : Statement (.testCommandDone result) := fun _ hs => nomatch hs
theorem tileTest : Statement (.tileTest) := fun _ hs => nomatch hs
theorem tileTestPhaseEnd (pass) : Statement (.tileTestPhaseEnd pass) := fun _ hs => nomatch hs
theorem scrubRead : Statement (.scrubRead) := fun _ hs => nomatch hs
theorem urgentWrite (src banks) : Statement (.urgentWrite src banks) := fun _ hs => nomatch hs
theorem jtagInstruction (ir) : Statement (.jtagInstruction ir) := fun _ hs => nomatch hs
theorem dbgacc (word) : Statement (.dbgacc word) := fun _ hs => nomatch hs
theorem halt (cores) : Statement (.halt cores) := fun _ hs => nomatch hs
theorem coreHalted (core) : Statement (.coreHalted core) := fun _ hs => nomatch hs
theorem debugResume (cores) : Statement (.debugResume cores) := fun _ hs => nomatch hs
theorem step (cores) : Statement (.step cores) := fun _ hs => nomatch hs
theorem dhRead : Statement (.dhRead) := fun _ hs => nomatch hs
theorem dhWrite : Statement (.dhWrite) := fun _ hs => nomatch hs
theorem dmRead : Statement (.dmRead) := fun _ hs => nomatch hs
theorem dmWrite : Statement (.dmWrite) := fun _ hs => nomatch hs
theorem traceDataRead (src) : Statement (.traceDataRead src) := fun _ hs => nomatch hs
theorem trsw (src value) : Statement (.trsw src value) := fun _ hs => nomatch hs
theorem laneTrained (lane) : Statement (.laneTrained lane) := fun _ hs => nomatch hs
theorem trngStartupTestsPass : Statement (.trngStartupTestsPass) := fun _ hs => nomatch hs
theorem mresRead (src channel) : Statement (.mresRead src channel) := fun _ hs => nomatch hs
theorem miglimMillisecond : Statement (.miglimMillisecond) := fun _ hs => nomatch hs

end Sys2Proof.Laws.Encode
end

