-- ==== Sys2Proof/Laws/Regs.lean ====
section
/-! SUPPORT. The registers of a core: reads after writes, and what a write leaves alone (R43, R133–R135). -/

namespace Sys2Proof.Machine

/-! ### Cores -/

theorem core_setCore_same {s : State} {n : Nat} {c : Core} (h : n < s.cores.length) : core (setCore s n c) n = c := by
  simp [core, setCore, h]
theorem core_setCore_ne {s : State} {n m : Nat} {c : Core} (h : n ≠ m) : core (setCore s n c) m = core s m := by
  simp [core, setCore, List.getD_eq_getElem?_getD, List.getElem?_set_ne h]
theorem setCore_setCore (s : State) (n : Nat) (c d : Core) : setCore (setCore s n c) n d = setCore s n d := by
  simp [setCore]
theorem setCore_core {s : State} {n : Nat} (h : n < s.cores.length) : setCore s n (core s n) = s := by
  cases s
  simp_all [setCore, core]
theorem core_updCore_same {s : State} {n : Nat} {f : Core → Core} (h : n < s.cores.length) : core (updCore s n f) n = f (core s n) :=
  core_setCore_same h
theorem core_updCore_ne {s : State} {n m : Nat} {f : Core → Core} (h : n ≠ m) : core (updCore s n f) m = core s m := core_setCore_ne h
theorem cores_length_setCore (s : State) (n : Nat) (c : Core) : (setCore s n c).cores.length = s.cores.length := by
  simp [setCore]
theorem cores_length_updCore (s : State) (n : Nat) (f : Core → Core) : (updCore s n f).cores.length = s.cores.length :=
  cores_length_setCore s n _
theorem updCore_updCore {s : State} {n : Nat} {f g : Core → Core} (h : n < s.cores.length) :
    updCore (updCore s n f) n g = updCore s n (fun c => g (f c)) := by
  unfold updCore
  rw [core_setCore_same h, setCore_setCore]
theorem updCore_id {s : State} {n : Nat} {f : Core → Core} (h : n < s.cores.length) (e : f (core s n) = core s n) : updCore s n f = s := by
  unfold updCore; rw [e, setCore_core h]

/-- A core beyond the list reads as an empty one, which no context runs on. -/
theorem core_lt {s : State} {n : Nat} (h : (core s n).cur ≠ none) : n < s.cores.length := by
  apply Decidable.byContradiction
  intro hn
  apply h
  simp [core, List.getD_eq_getElem?_getD, List.getElem?_eq_none (Nat.le_of_not_lt hn), Core.empty]

theorem runs_cur {s : State} {n : Nat} (h : (runningCtx s n).isSome = true) : (core s n).cur ≠ none := by
  intro e
  simp [runningCtx, curCtx, curBank, e] at h

theorem issues_lt {s : State} {n : Nat} (h : canIssue s n = true) : n < s.cores.length := by
  simp only [canIssue, Bool.and_eq_true] at h
  exact core_lt (runs_cur h.1.1.1.1.2)

/-- A context runs on core `n`: the core and its current bank are in the lists. -/
structure Live (s : State) (n b : Nat) : Prop where
  here : n < s.cores.length
  cur : (core s n).cur = some b
  bank : b < (core s n).banks.length

theorem issues_live {s : State} {n : Nat} (h : canIssue s n = true) : ∃ b, Live s n b := by
  have hl := issues_lt h
  simp only [canIssue, Bool.and_eq_true] at h
  have hr := h.1.1.1.1.2
  have hc := runs_cur hr
  cases hb : (core s n).cur with
  | none => exact absurd hb hc
  | some b =>
    refine ⟨b, hl, hb, ?_⟩
    apply Decidable.byContradiction
    intro hn
    simp [runningCtx, curCtx, curBank, hb, bankOf, List.getD_eq_getElem?_getD, List.getElem?_eq_none (Nat.le_of_not_lt hn), ResBank.empty] at hr

/-! ### The current bank -/

theorem curRegs_live {s : State} {n b : Nat} (h : Live s n b) : curRegs s n = (bankOf (core s n) b).regs := by
  simp [curRegs, curBank, h.cur]

theorem bankOf_modAt (c : Core) (b : Nat) (f : ResBank → ResBank) (h : b < c.banks.length) :
    bankOf { c with banks := modAt c.banks b f } b = f (bankOf c b) := by
  simp [bankOf, modAt, List.getD_eq_getElem?_getD, List.getElem?_modify, h]
theorem bankOf_modAt_ne (c : Core) (b k : Nat) (f : ResBank → ResBank) (h : b ≠ k) :
    bankOf { c with banks := modAt c.banks b f } k = bankOf c k := by
  simp [bankOf, modAt, List.getD_eq_getElem?_getD, List.getElem?_modify, h]

theorem updRegs_live {s : State} {n b : Nat} {f : CtxRegs → CtxRegs} (h : Live s n b) :
    updRegs s n f = updCore s n (fun c => { c with banks := modAt c.banks b (fun r => { r with regs := f r.regs }) }) := by
  simp [updRegs, h.cur]

theorem core_updRegs {s : State} {n b : Nat} {f : CtxRegs → CtxRegs} (h : Live s n b) :
    core (updRegs s n f) n = { core s n with banks := modAt (core s n).banks b (fun r => { r with regs := f r.regs }) } := by
  rw [updRegs_live h, core_updCore_same h.here]

theorem live_updRegs {s : State} {n b : Nat} {f : CtxRegs → CtxRegs} (h : Live s n b) : Live (updRegs s n f) n b := by
  constructor
  · rw [updRegs_live h, cores_length_updCore]; exact h.here
  · rw [core_updRegs h]; exact h.cur
  · rw [core_updRegs h]; simpa [modAt] using h.bank

theorem curRegs_updRegs {s : State} {n b : Nat} {f : CtxRegs → CtxRegs} (h : Live s n b) : curRegs (updRegs s n f) n = f (curRegs s n) := by
  rw [curRegs_live (live_updRegs h), curRegs_live h, core_updRegs h, bankOf_modAt _ _ _ h.bank]

theorem curCtx_updRegs {s : State} {n b : Nat} {f : CtxRegs → CtxRegs} (h : Live s n b) : curCtx (updRegs s n f) n = curCtx s n := by
  simp only [curCtx, curBank, (live_updRegs (f := f) h).cur, h.cur]
  rw [core_updRegs h, bankOf_modAt _ _ _ h.bank]

/-- A change of a core that leaves its banks alone leaves the registers alone. -/
theorem curRegs_updCore {s : State} {n : Nat} {f : Core → Core} (hn : n < s.cores.length) (h1 : (f (core s n)).banks = (core s n).banks)
    (h2 : (f (core s n)).cur = (core s n).cur) : curRegs (updCore s n f) n = curRegs s n := by
  simp only [curRegs, curBank, core_updCore_same hn, h2, bankOf, h1]
theorem live_updCore {s : State} {n b : Nat} {f : Core → Core} (h : Live s n b) (h1 : (f (core s n)).banks = (core s n).banks)
    (h2 : (f (core s n)).cur = (core s n).cur) : Live (updCore s n f) n b := by
  constructor
  · rw [cores_length_updCore]; exact h.here
  · rw [core_updCore_same h.here, h2]; exact h.cur
  · rw [core_updCore_same h.here, h1]; exact h.bank

/-! ### Arrays -/

theorem putAt_same {α : Type} (d : α) (l : List α) (i : Nat) (v : α) : (putAt d l i v).getD i d = v := by
  induction i generalizing l with
  | zero => cases l <;> rfl
  | succ k ih => cases l <;> exact ih _
theorem putAt_ne {α : Type} (d : α) (l : List α) (i j : Nat) (v : α) (h : i ≠ j) : (putAt d l i v).getD j d = l.getD j d := by
  induction i generalizing l j with
  | zero =>
    cases j with
    | zero => exact absurd rfl h
    | succ j => cases l <;> simp [putAt]
  | succ k ih =>
    cases j with
    | zero => cases l <;> simp [putAt]
    | succ j =>
      cases l with
      | nil => simp only [putAt, List.getD_cons_succ]; rw [ih [] j (by omega)]; simp
      | cons x r => simp only [putAt, List.getD_cons_succ]; exact ih r j (by omega)

/-! ### Places -/

/-- A place read after a write of it. -/
theorem getReg_putReg_same {s : State} {n b : Nat} {id : RegId} {w : CapW} (h : Live s n b) (hid : id ≠ .null) :
    getReg (putReg s n id w) n id = w := by
  cases id with
  | null => exact absurd rfl hid
  | glob i => simp only [getReg, putReg, curRegs_updRegs h, putAt_same]
  | own i => simp only [getReg, putReg, curRegs_updRegs h, putAt_same]
  | pas i => simp only [getReg, putReg, curRegs_updRegs h, putAt_same]
  | fb i => simp only [getReg, putReg, core_updCore_same h.here, putAt_same]

/-- Another place is untouched. -/
theorem getReg_putReg_ne {s : State} {n b : Nat} {id k : RegId} {w : CapW} (h : Live s n b) (hne : id ≠ k) :
    getReg (putReg s n id w) n k = getReg s n k := by
  cases id with
  | null => rfl
  | glob i =>
    cases k with
    | glob j => simp only [getReg, putReg, curRegs_updRegs h]; exact putAt_ne _ _ _ _ _ (fun e => hne (by rw [e]))
    | fb j => simp only [getReg, putReg, core_updRegs h]
    | _ => simp only [getReg, putReg, curRegs_updRegs h]
  | own i =>
    cases k with
    | own j => simp only [getReg, putReg, curRegs_updRegs h]; exact putAt_ne _ _ _ _ _ (fun e => hne (by rw [e]))
    | fb j => simp only [getReg, putReg, core_updRegs h]
    | _ => simp only [getReg, putReg, curRegs_updRegs h]
  | pas i =>
    cases k with
    | pas j => simp only [getReg, putReg, curRegs_updRegs h]; exact putAt_ne _ _ _ _ _ (fun e => hne (by rw [e]))
    | fb j => simp only [getReg, putReg, core_updRegs h]
    | _ => simp only [getReg, putReg, curRegs_updRegs h]
  | fb i =>
    cases k with
    | fb j => simp only [getReg, putReg, core_updCore_same h.here]; exact putAt_ne _ _ _ _ _ (fun e => hne (by rw [e]))
    | null => rfl
    | _ => simp only [getReg, putReg]; rw [curRegs_updCore h.here rfl rfl]

/-- What a write of a place leaves of the context's other registers. -/
theorem curRegs_putReg {s : State} {n b : Nat} {id : RegId} {w : CapW} (h : Live s n b) :
    curRegs (putReg s n id w) n =
      { curRegs s n with glob := (curRegs (putReg s n id w) n).glob, own := (curRegs (putReg s n id w) n).own
                         pas := (curRegs (putReg s n id w) n).pas } := by
  cases id with
  | null => rfl
  | fb i => simp only [putReg]; rw [curRegs_updCore h.here rfl rfl]
  | _ => simp only [putReg, curRegs_updRegs h]

theorem live_putReg {s : State} {n b : Nat} {id : RegId} {w : CapW} (h : Live s n b) : Live (putReg s n id w) n b := by
  cases id with
  | null => exact h
  | fb i => unfold putReg; exact live_updCore h rfl rfl
  | _ => unfold putReg; exact live_updRegs h

theorem status_putReg {s : State} {n b : Nat} {id : RegId} {w : CapW} (h : Live s n b) : status (putReg s n id w) n = status s n := by
  unfold status; rw [curRegs_putReg h]
theorem regIdOf_putReg {s : State} {n b : Nat} {id : RegId} {w : CapW} (h : Live s n b) (r : Nat) :
    regIdOf (putReg s n id w) n r = regIdOf s n r := by
  simp only [regIdOf, status_putReg h, congrArg CtxRegs.winctl (curRegs_putReg (id := id) (w := w) h)]

/-- The registers c0–c31 name 32 places (R134, R274). -/
theorem regPlace_inj {dfl : Bool} {cur a b : Nat} (ha : a < 32) (hb : b < 32) (h : regPlace dfl cur a = regPlace dfl cur b) : a = b := by
  unfold regPlace at h
  split at h <;> split at h <;> (try split at h) <;> (try split at h) <;> (try split at h) <;> (try split at h) <;> (try split at h) <;>
    (try split at h) <;> (try split at h) <;> simp_all <;> omega

theorem regPlace_null {dfl : Bool} {cur a : Nat} : regPlace dfl cur a = .null ↔ a = 0 := by
  unfold regPlace
  split
  · simp_all
  · split <;> (try split) <;> (try split) <;> (try split) <;> simp_all

/-- Register `r` read after a write of register `rd`. -/
theorem readC_write {s : State} {n b : Nat} {rd : CReg} {w : CapW} (h : Live s n b) :
    readC (putReg s n (regIdOf s n rd.toNat) w) n rd.toNat = kept rd w := by
  unfold readC
  rw [regIdOf_putReg h]
  by_cases e : rd = 0
  · subst e
    have : regIdOf s n (0 : CReg).toNat = .null := rfl
    rw [this]; simp [getReg, kept]
  · have hne : regIdOf s n rd.toNat ≠ .null := by
      intro k
      have := regPlace_null.1 k
      exact e (BitVec.eq_of_toNat_eq (by simpa using this))
    rw [getReg_putReg_same h hne, kept, if_neg e]

theorem readC_write_ne {s : State} {n b : Nat} {rd r : CReg} {w : CapW} (h : Live s n b) (hr : r ≠ rd) :
    readC (putReg s n (regIdOf s n rd.toNat) w) n r.toNat = readC s n r.toNat := by
  unfold readC
  rw [regIdOf_putReg h]
  refine getReg_putReg_ne h ?_
  intro e
  exact hr (BitVec.eq_of_toNat_eq (regPlace_inj rd.isLt r.isLt e)).symm

/-- What a write of a place leaves of the core. -/
theorem core_putReg {s : State} {n b : Nat} {id : RegId} {w : CapW} (h : Live s n b) :
    core (putReg s n id w) n =
      { core s n with banks := (core (putReg s n id w) n).banks, fbank := (core (putReg s n id w) n).fbank } := by
  cases id with
  | null => rfl
  | fb i => simp only [putReg, core_updCore_same h.here]
  | _ => simp only [putReg, core_updRegs h]

/-! ### Frames -/

theorem regsOnly_refl {s : State} {n b : Nat} (h : Live s n b) : RegsOnly s s n :=
  ⟨(setCore_core h.here).symm, rfl, fun _ _ => rfl, rfl⟩

theorem regsOnly_trans {s t u : State} {n : Nat} (h1 : RegsOnly s t n) (h2 : RegsOnly t u n) (hc : (core t n).cur = (core s n).cur) :
    RegsOnly s u n := by
  refine ⟨?_, ?_, ?_, h2.context.trans h1.context⟩
  · have e : ∀ (x : Core) (c : Core), t = { s with cores := s.cores.set n x } →
        ({ t with cores := t.cores.set n c } : State) = { s with cores := s.cores.set n c } := by
      intro x c e; subst e; simp
    exact h2.outside.trans (e _ _ h1.outside)
  · have e := h2.inside
    rw [h1.inside] at e
    rw [e]
  · intro b hb
    rw [h2.others b (by rw [hc]; exact hb), h1.others b hb]

theorem regsOnly_updCore {s : State} {n b : Nat} {f : Core → Core} (h : Live s n b)
    (h1 : f (core s n) = { core s n with fbank := (f (core s n)).fbank, fbuf := (f (core s n)).fbuf }) : RegsOnly s (updCore s n f) n := by
  have e := core_updCore_same (f := f) h.here
  refine ⟨?_, ?_, ?_, ?_⟩
  · rw [e]; rfl
  · rw [e, h1]
  · intro k _; rw [e]; simp only [bankOf, congrArg Core.banks h1]
  · simp only [curCtx, curBank, bankOf, e, congrArg Core.banks h1, congrArg Core.cur h1]

theorem regsOnly_updRegs {s : State} {n b : Nat} {f : CtxRegs → CtxRegs} (h : Live s n b) : RegsOnly s (updRegs s n f) n := by
  have e := core_updRegs (f := f) h
  refine ⟨?_, ?_, ?_, curCtx_updRegs h⟩
  · rw [e, updRegs_live h]; rfl
  · rw [e]
  · intro k hk
    rw [e]
    refine bankOf_modAt_ne _ _ _ _ ?_
    intro he; subst he
    exact hk h.cur.symm

theorem regsOnly_putReg {s : State} {n b : Nat} {id : RegId} {w : CapW} (h : Live s n b) : RegsOnly s (putReg s n id w) n := by
  cases id with
  | null => exact regsOnly_refl h
  | fb i => unfold putReg; exact regsOnly_updCore h rfl
  | _ => unfold putReg; exact regsOnly_updRegs h

end Sys2Proof.Machine
end

