-- ==== Sys2Proof/Laws/Issue.lean ====
section
/-! SUPPORT. A whole syllable issued on a ready core: its bundle is run (R127, R131, R271). -/

namespace Sys2Proof.Machine
open Sys2Proof.Laws

/-! ### The bundle of one syllable -/

/-- The words of a good syllable make one slot that spells it, and no encoding check fails (R145–R148). -/
theorem whole_bundle {i : Instr} {h : Syl} (hg : Encode.Good h (encodeSyl i) i) (a : Nat) :
    ∃ x : Slot, parse 0 (encodeSyl i) = [x] ∧ x.instr h.core = i ∧ x.pos = 0 ∧ wStop x.word = h.stop ∧
      x.word = (encodeSyl i).getD 0 0 ∧ encodingFault a (encodeSyl i) [x] = none := by
  obtain ⟨hd, ht, hf, ho, hs, hc, hl⟩ := hg
  generalize encodeSyl i = ws at *
  match ws, hl with
  | [w], _ =>
    simp only [List.getD_cons_zero, List.getD_cons_succ, List.getD_nil, List.length_singleton] at hd hf ho hs
    refine ⟨_, rfl, hd, rfl, hs, rfl, ?_⟩
    have ho' : ownsLong w = false := by simpa using ho
    by_cases hp : isPrefix w = true <;>
      simp [encodingFault, bundleFault, outOfOrder, slotFault, hf, ho', hp]
  | [w, l], hl =>
    simp only [List.getD_cons_zero, List.getD_cons_succ, List.getD_nil] at hd hf ho hs
    have ho' : ownsLong w = true := by simpa using ho
    have hst : h.stop = false := by rcases hl with e | ⟨_, e⟩ <;> simp_all
    have hw : wStop w = false := hs.trans hst
    have hx : parse 0 [w, l] = [{ pos := 0, word := w, li := l, owns := true }] := by
      simp [parse, ho', hw]
    refine ⟨_, hx, hd, rfl, hs, rfl, ?_⟩
    by_cases hp : isPrefix w = true <;>
      simp [encodingFault, bundleFault, outOfOrder, slotFault, hf, ho', hp]

/-- The condition of the slot is the syllable's. -/
theorem cond_slot {s : State} {h : Syl} {w : W32} (hc : wCond w.toNat = h.cond.toNat) :
    condHolds (curRegs s h.core) w = condOn s h := by
  have hb : ∀ c : BitVec 4, bit c.toNat 3 = decide (8 ≤ c.toNat) := by decide
  simp [condHolds, condOn, hc, hb]

theorem isSome_map {α β : Type} {o : Option α} {f : α → β} : (o.map f).isSome = o.isSome := by cases o <;> rfl

theorem words_short {i : Instr} {h : Syl} (hg : Encode.Good h (encodeSyl i) i) : (encodeSyl i).length = 1 ∨ (encodeSyl i).length = 2 := by
  rcases hg.2.2.2.2.2.2 with e | e
  · exact .inl e
  · exact .inr e.1

/-- A whole syllable issued on a ready core: its bundle is executed (ranks 5 to 9 of R271). -/
theorem issueWords_ready {s : State} {n : Nat} {i : Instr} {h : Syl} (hn : h.core = n) (hg : Encode.Good h (encodeSyl i) i)
    (he : wStop ((encodeSyl i).getLastD 0) = true) (hr : Ready s n (encodeSyl i)) :
    issueWords s n (encodeSyl i) = settle n (runDecoded s (mkBundle n (pcAddr s n) (encodeSyl i)) (freshHeld (encodeSyl i))) := by
  have hlt := issues_lt hr.issues
  have hws : wakeYield s n = s := by simp [wakeYield, hr.awake]
  have htake : (encodeSyl i).take 4 = encodeSyl i := by
    rcases words_short hg with e | e <;> exact List.take_of_length_le (by omega)
  obtain ⟨x, hx, hxi, hx0, hxs, hxw, hxf⟩ := whole_bundle hg (pcAddr s n)
  have hlast : wStop ((encodeSyl i).getLast?.getD 0) = true := by
    rw [← List.getLastD_eq_getLast?]; exact he
  unfold issueWords
  simp only [hws, hr.issues, hr.awake, hr.empty, List.nil_append, htake, hlast, Bool.not_true, Bool.false_or, Bool.or_self, or_true,
    if_true]
  have e1 : updCore (updCore s n (fun c => { c with opened := encodeSyl i })) n (fun c => { c with opened := [] }) = s := by
    rw [updCore_updCore hlt]
    refine updCore_id hlt ?_
    have := hr.empty
    revert this
    generalize core s n = c
    intro hc; cases c; simp_all
  have e2 : (core (updCore s n (fun c => { c with opened := encodeSyl i })) n).opened = encodeSyl i := by
    rw [core_updCore_same hlt]
  simp only [Bool.false_eq_true, if_false, startBundle, e1, e2, hr.noGrant, hr.go]
  have e3 : (mkBundle n (pcAddr s n) (encodeSyl i)).slots = [x] := hx
  have e4 : (freshHeld (encodeSyl i)).words = encodeSyl i := rfl
  simp only [runBundle, hr.fetch, e4]
  have e5 : encodingFault (mkBundle n (pcAddr s n) (encodeSyl i)).a (mkBundle n (pcAddr s n) (encodeSyl i)).words
      (mkBundle n (pcAddr s n) (encodeSyl i)).slots = none := by rw [e3]; exact hxf
  simp only [e5]


/-! ### A bundle that neither waits nor faults -/

/-- A syllable that is no prefix, block instruction, load, store, queue instruction or long operation. -/
structure Plain (i : Instr) : Prop where
  noPrefix : prefixTimes i = none
  noBlock : blockReq i = none
  noLoad : loadForm i = none
  noStore : storeForm i = none
  noPut : isPut i = false
  noLong : ∀ v, longOf v i = none
  noQueue : ∀ v h s, performSyl v h i s = (s, .inr [])

/-- The checks that stand between a ready core and its sole bundle all pass. -/
structure Checks (s : State) (n : Nat) (i : Instr) : Prop where
  priv : privChk s (soleBundle s n i) = .pass
  window : windowChk s (soleBundle s n i) = .pass
  syl : sylChk (viewOf s n i) (freshHeld (encodeSyl i)) i = .pass
  noLazy : lazySlot s (soleBundle s n i) = none
  barrier : barrierChk s n i = .pass
  noReload : isEret i = true → eretReloads (status s n) = false

/-- And it is no wait, or one that does not block and arms no timeout. -/
structure Passes (s : State) (n : Nat) (i : Instr) : Prop extends Checks s n i where
  noWait : waitStep s (soleBundle s n i) = none
  noArm : ∀ (x : Slot) (t : State), x.instr n = i → waitArm s (soleBundle s n i) [x] t = t

theorem alone_slot {s : State} {h : Syl} {i : Instr} (hg : Encode.Good h (encodeSyl i) i) (hc : condOn s h = true) :
    ∃ x : Slot, (soleBundle s h.core i).live s = [x] ∧ x.instr h.core = i ∧ (soleBundle s h.core i).view s x = viewOf s h.core i := by
  obtain ⟨x, hx, hxi, hx0, hxs, hxw, hxf⟩ := whole_bundle hg 0
  refine ⟨x, ?_, hxi, ?_⟩
  · have e : (soleBundle s h.core i).slots = [x] := hx
    have e2 : condHolds (curRegs s h.core) x.word = true := by
      rw [hxw, cond_slot hg.2.2.2.2.2.1, hc]
    show executing (curRegs s h.core) (soleBundle s h.core i).slots = [x]
    rw [e]; simp [executing, e2]
  · simp [Bundle.view, viewOf, soleBundle, mkBundle, Bundle.len, hx0, hxw]

/-! A bundle not held before has done nothing. -/

@[simp] theorem freshHeld_words (ws : List W32) : (freshHeld ws).words = ws := rfl
@[simp] theorem freshHeld_begun (ws : List W32) : (freshHeld ws).begun = false := rfl
@[simp] theorem freshHeld_unitOut (ws : List W32) : (freshHeld ws).unitOut = false := rfl
@[simp] theorem freshHeld_sigBytes (ws : List W32) : (freshHeld ws).sigBytes = [] := rfl
@[simp] theorem freshHeld_answer (ws : List W32) : (freshHeld ws).answer = none := rfl
@[simp] theorem freshHeld_target (ws : List W32) : (freshHeld ws).target = [] := rfl

/-- The bundle of such a syllable commits unless it blocks its context (R315). -/
theorem runDecoded_wait {s : State} {h : Syl} {i : Instr} (hg : Encode.Good h (encodeSyl i) i) (hc : condOn s h = true) (hp : Plain i)
    (hk : Checks s h.core i) (hl : (core s h.core).longs = [])
    (hw : waitStep s (soleBundle s h.core i) = none) :
    runDecoded s (soleBundle s h.core i) (freshHeld (encodeSyl i)) =
      .done (commit s s (soleBundle s h.core i) (freshHeld (encodeSyl i)) true []) := by
  obtain ⟨x, hx, hxi, hv⟩ := alone_slot hg hc
  have hn : (soleBundle s h.core i).n = h.core := rfl
  have e1 : prefixIn s (soleBundle s h.core i) = none := by simp [prefixIn, hx, hn, hxi, hp.noPrefix]
  have e2 : blockIn s (soleBundle s h.core i) = none := by simp [blockIn, hx, hn, hxi, hp.noBlock]
  have e3 : longIn s (soleBundle s h.core i) = none := by simp [longIn, hx, hn, hxi, hp.noLong]
  have e4 : owed s (soleBundle s h.core i) = false := by simp [owed, hx, hn, hl]
  have e5 : bundleChk s (soleBundle s h.core i) (freshHeld (encodeSyl i)) = .pass := by
    simp [bundleChk, longHold, e3, e4, precChk, hk.priv, hk.window, slotChks, hx, hn, hxi, hv, hk.syl, seqChk]
  have e6 : lazyStep s (soleBundle s h.core i) (freshHeld (encodeSyl i)) = .none := by simp [lazyStep, hk.noLazy]
  have e7 : barriers s h.core [x] = .pass := by simp [barriers, hxi, hk.barrier]
  have e8 : bundleStores s (soleBundle s h.core i) (freshHeld (encodeSyl i)) = [] := by simp [bundleStores, hx, hn, hxi, hp.noStore]
  have e10 : performAll (soleBundle s h.core i) s (freshHeld (encodeSyl i)) [x] s = (s, .inr []) := by
    simp [performAll, hn, hxi, hp.noQueue]
  have e11 : reload s (soleBundle s h.core i) (freshHeld (encodeSyl i)) = (s, .inr []) := by
    by_cases he : isEret i = true
    · simp [reload, hx, hn, hxi, he, hk.noReload he]
    · simp [reload, hx, hn, hxi, he]
  simp [runDecoded, e1, e2, attempt, e5, e6, hx, hn, attemptRest, e7, finishBundle, storesHold, e8, bufferFull, hxi, hp.noPut,
    fieldLoad, hp.noLoad, hw, e11, finishEffects]
  change (match performAll (soleBundle s h.core i) s (freshHeld (encodeSyl i)) [x] s with
    | (s1, .inl c) => Out.fault s1 c
    | (s1, .inr owes) => Out.done (commit s1 s (soleBundle s h.core i) (freshHeld (encodeSyl i)) true owes)) = _
  rw [e10]


theorem runDecoded_plain {s : State} {h : Syl} {i : Instr} (hg : Encode.Good h (encodeSyl i) i) (hc : condOn s h = true) (hp : Plain i)
    (hk : Passes s h.core i) (hl : (core s h.core).longs = []) :
    runDecoded s (soleBundle s h.core i) (freshHeld (encodeSyl i)) =
      .done (commit s s (soleBundle s h.core i) (freshHeld (encodeSyl i)) true []) := runDecoded_wait hg hc hp hk.toChecks hl hk.noWait

/-! ### Its commit -/

theorem live_passed {s : State} {n b : Nat} {i : Instr} (h : Live s n b) : Live (passed s n i) n b := by
  unfold passed passBundle
  simp only [if_true]
  exact live_updRegs (live_updCore h rfl rfl)

/-- The bundle's address passed: the PCC's cursor moves, and nothing else of the context's registers. -/
theorem curRegs_passed {s : State} {n b : Nat} {i : Instr} (h : Live s n b) :
    curRegs (passed s n i) n = { curRegs s n with pcc := setCursor (pcc s n) (nextPc s n i) } := by
  have hn : (soleBundle s n i).n = n := rfl
  unfold passed passBundle
  simp only [if_true, hn]
  unfold setPcc
  rw [curRegs_updRegs (live_updCore h rfl rfl), curRegs_updCore h.here rfl rfl]
  rfl

theorem core_passed {s : State} {n b : Nat} {i : Instr} (h : Live s n b) :
    core (passed s n i) n = { core s n with banks := (core (passed s n i) n).banks, fbuf := (core (passed s n i) n).fbuf } := by
  have hn : (soleBundle s n i).n = n := rfl
  unfold passed passBundle
  simp only [if_true, hn]
  unfold setPcc
  rw [core_updRegs (live_updCore h rfl rfl), core_updCore_same h.here]

/-- The last part of a commit and the end of a step change nothing of a core that owes no load, is not held, does not yield and is not
being stepped. -/
theorem settle_done {s : State} {n : Nat} (hn : n < s.cores.length) (h1 : (core s n).late = []) (h2 : (core s n).held = none)
    (h3 : (core s n).yhalt = false) (h4 : (core s n).stepping = false) :
    afterStep (yieldSwitch (updCore s n (fun c => { c with late := [], held := none })) n) n = s := by
  have e : updCore s n (fun c => { c with late := [], held := none }) = s := by
    refine updCore_id hn ?_
    revert h1 h2
    generalize core s n = c
    intro h1 h2; cases c; simp_all
  rw [e]; simp [yieldSwitch, h3, afterStep, h4]

/-- A plain syllable issued alone: its effect on the state in which its address has been passed. -/
theorem exec_plain {s : State} {h : Syl} {i : Instr} (hg : Encode.Good h (encodeSyl i) i) (ha : Alone s h i) (hp : Plain i)
    (hk : Passes s h.core i) {t : State} (ht : applyInstr (viewOf s h.core i) (freshHeld (encodeSyl i)) i (passed s h.core i) = t)
    (hn : h.core < t.cores.length) (h1 : (core t h.core).late = []) (h2 : (core t h.core).held = none)
    (h3 : (core t h.core).yhalt = false) (h4 : (core t h.core).stepping = false) : issue i s = t := by
  obtain ⟨x, hx, hxi, hv⟩ := alone_slot hg ha.cond
  have hr := ha.ready
  have hlt := issues_lt hr.issues
  have hu : unitOk i = true := (Encode.parts ha.syl ha.wf).1
  have hio : issueOf i h = encodeSyl i := by
    unfold issueOf
    split
    · rename_i hs
      rcases hg.2.2.2.2.2.2 with e | e
      · exact List.take_of_length_le (by omega)
      · simp [e.2] at hs
    · rfl
  have hl : applyLate s h.core = s := by
    unfold applyLate
    simp only [hr.noLate, putRegs]
    refine updCore_id hlt ?_
    have := hr.noLate
    revert this
    generalize core s h.core = c
    intro e; cases c; simp_all
  have hcm : commit s s (soleBundle s h.core i) (freshHeld (encodeSyl i)) true [] =
      updCore t h.core (fun c => { c with late := [], held := none }) := by
    have hb : (soleBundle s h.core i).n = h.core := rfl
    unfold commit
    rw [hb, hl, hx]
    simp only [applyAll, hb, hxi, hv, applySyl, hp.noLong, hk.noArm x _ hxi]
    rw [← ht]; rfl
  unfold issue
  simp only [ha.syl, hu, if_true, hio]
  rw [issueWords_ready rfl hg ha.ends hr, show mkBundle h.core (pcAddr s h.core) (encodeSyl i) = soleBundle s h.core i from rfl,
    runDecoded_plain hg ha.cond hp hk hr.noLongs]
  simp only [settle, hcm]
  exact settle_done hn h1 h2 h3 h4


/-! ### The checks of a sole bundle -/

theorem priv_pass {s : State} {h : Syl} {i : Instr} (hg : Encode.Good h (encodeSyl i) i) (hc : condOn s h = true)
    (hi : privileged i = false) : privChk s (soleBundle s h.core i) = .pass := by
  obtain ⟨x, hx, hxi, hv⟩ := alone_slot hg hc
  have hn : (soleBundle s h.core i).n = h.core := rfl
  simp [privChk, hx, hn, hxi, hi]

theorem window_pass {s : State} {h : Syl} {i : Instr} (hg : Encode.Good h (encodeSyl i) i) (hc : condOn s h = true)
    (hi : windowKind i = none) : windowChk s (soleBundle s h.core i) = .pass := by
  obtain ⟨x, hx, hxi, hv⟩ := alone_slot hg hc
  have hn : (soleBundle s h.core i).n = h.core := rfl
  simp [windowChk, hx, hn, hxi, hi]

/-- No lazy save stands before a syllable that does not touch the signal-unit state, or while none is pending (R261). -/
theorem lazy_pass {s : State} {h : Syl} {i : Instr} (hg : Encode.Good h (encodeSyl i) i) (hc : condOn s h = true)
    (hi : usesSig i = false ∨ stLAZYP (status s h.core) = false ∨ stEXL (status s h.core) = false) :
    lazySlot s (soleBundle s h.core i) = none := by
  obtain ⟨x, hx, hxi, hx0, hxs, hxw, hxf⟩ := whole_bundle hg 0
  have hl : (soleBundle s h.core i).live s = [x] := by
    have e2 : condHolds (curRegs s h.core) x.word = true := by rw [hxw, cond_slot hg.2.2.2.2.2.1, hc]
    show executing (curRegs s h.core) (soleBundle s h.core i).slots = [x]
    rw [show (soleBundle s h.core i).slots = [x] from hx]; simp [executing, e2]
  have hn : (soleBundle s h.core i).n = h.core := rfl
  unfold lazySlot
  rw [hl, hn]
  have ht := hg.2.1
  rw [← hxw] at ht
  rcases hi with e | e | e <;> simp [ht, e]

/-- A plain syllable whose effect is one register write. -/
theorem exec_write {s : State} {h : Syl} {i : Instr} {rd : CReg} {w : CapW} (hg : Encode.Good h (encodeSyl i) i) (ha : Alone s h i)
    (hp : Plain i) (hk : Passes s h.core i)
    (ht : ∀ s1, applyInstr (viewOf s h.core i) (freshHeld (encodeSyl i)) i s1 = putReg s1 h.core (regIdOf s h.core rd.toNat) w) :
    issue i s = putReg (passed s h.core i) h.core (regIdOf s h.core rd.toNat) w := by
  obtain ⟨b, hb⟩ := issues_live ha.ready.issues
  have hb2 : Live (passed s h.core i) h.core b := live_passed hb
  have hc := core_putReg (id := regIdOf s h.core rd.toNat) (w := w) hb2
  have hc2 := core_passed (i := i) hb
  have hi := ha.ready.issues
  simp only [canIssue, Bool.and_eq_true] at hi
  refine exec_plain hg ha hp hk (ht _) (live_putReg hb2).here ?_ ?_ ?_ ?_
  · rw [congrArg Core.late hc, congrArg Core.late hc2]; exact ha.ready.noLate
  · rw [congrArg Core.held hc, congrArg Core.held hc2]; simpa using hi.1.1.2
  · rw [congrArg Core.yhalt hc, congrArg Core.yhalt hc2]; exact ha.ready.awake
  · rw [congrArg Core.stepping hc, congrArg Core.stepping hc2]; exact ha.ready.noStep

/-! ### What a passed address leaves alone -/

theorem status_passed {s : State} {n b : Nat} {i : Instr} (h : Live s n b) : status (passed s n i) n = status s n := by
  unfold status; rw [curRegs_passed h]
theorem regIdOf_passed {s : State} {n b : Nat} {i : Instr} (h : Live s n b) (r : Nat) : regIdOf (passed s n i) n r = regIdOf s n r := by
  simp only [regIdOf, status_passed h, curRegs_passed h]
theorem getReg_passed {s : State} {n b : Nat} {i : Instr} (h : Live s n b) (id : RegId) : getReg (passed s n i) n id = getReg s n id := by
  cases id with
  | fb k => simp only [getReg, congrArg Core.fbank (core_passed (i := i) h)]
  | null => rfl
  | _ => simp only [getReg, curRegs_passed h]
theorem readC_passed {s : State} {n b : Nat} {i : Instr} (h : Live s n b) (r : Nat) : readC (passed s n i) n r = readC s n r := by
  unfold readC; rw [regIdOf_passed h, getReg_passed h]
theorem regsOnly_passed {s : State} {n b : Nat} {i : Instr} (h : Live s n b) : RegsOnly s (passed s n i) n := by
  have hn : (soleBundle s n i).n = n := rfl
  unfold passed passBundle
  simp only [if_true, hn]
  unfold setPcc
  refine regsOnly_trans (regsOnly_updCore h rfl) (regsOnly_updRegs (live_updCore h rfl rfl)) ?_
  rw [core_updCore_same h.here]

/-- One register written after the address is passed is all that has changed. -/
theorem wrote_putReg {s : State} {n b : Nat} {i : Instr} {rd : CReg} {w : CapW} (h : Live s n b) :
    Wrote s (putReg (passed s n i) n (regIdOf s n rd.toNat) w) n i rd w := by
  have h2 : Live (passed s n i) n b := live_passed h
  rw [← regIdOf_passed (i := i) h]
  refine ⟨readC_write h2, ?_, ?_, ?_⟩
  · intro r hr; rw [readC_write_ne h2 hr, readC_passed h]
  · rw [curRegs_putReg h2, curRegs_passed h]
  · refine regsOnly_trans (regsOnly_passed h) (regsOnly_putReg h2) ?_
    rw [congrArg Core.cur (core_passed (i := i) h)]

end Sys2Proof.Machine
end

