-- ==== Sys2Proof/Laws/State.lean ====
section
/-! SUPPORT. What each named update of the state leaves alone, field by field, so that no proof unfolds a record update. -/

namespace Sys2Proof.Machine

/-! ### setReg -/

@[simp] theorem setReg_pending (s : State) (a : Nat) (v : W32) : (setReg s a v).pending = s.pending := rfl
@[simp] theorem setReg_variant (s : State) (a : Nat) (v : W32) : (setReg s a v).variant = s.variant := rfl
@[simp] theorem setReg_free (s : State) (a : Nat) (v : W32) : (setReg s a v).free = s.free := rfl
@[simp] theorem setReg_seq (s : State) (a : Nat) (v : W32) : (setReg s a v).seq = s.seq := rfl
@[simp] theorem setReg_tick (s : State) (a : Nat) (v : W32) : (setReg s a v).tick = s.tick := rfl
@[simp] theorem setReg_rdShadow (s : State) (a : Nat) (v : W32) : (setReg s a v).rdShadow = s.rdShadow := rfl
@[simp] theorem setReg_wrShadow (s : State) (a : Nat) (v : W32) : (setReg s a v).wrShadow = s.wrShadow := rfl
@[simp] theorem setReg_answer (s : State) (a : Nat) (v : W32) : (setReg s a v).answer = s.answer := rfl
@[simp] theorem setReg_mem (s : State) (a : Nat) (v : W32) : (setReg s a v).mem = s.mem := rfl
@[simp] theorem setReg_tags (s : State) (a : Nat) (v : W32) : (setReg s a v).tags = s.tags := rfl
@[simp] theorem setReg_ecc (s : State) (a : Nat) (v : W32) : (setReg s a v).ecc = s.ecc := rfl
@[simp] theorem setReg_done (s : State) (a : Nat) (v : W32) : (setReg s a v).done = s.done := rfl
@[simp] theorem setReg_cores (s : State) (a : Nat) (v : W32) : (setReg s a v).cores = s.cores := rfl
@[simp] theorem setReg_recs (s : State) (a : Nat) (v : W32) : (setReg s a v).recs = s.recs := rfl
@[simp] theorem setReg_recEcc (s : State) (a : Nat) (v : W32) : (setReg s a v).recEcc = s.recEcc := rfl
@[simp] theorem setReg_readyAt (s : State) (a : Nat) (v : W32) : (setReg s a v).readyAt = s.readyAt := rfl
@[simp] theorem setReg_suspend (s : State) (a : Nat) (v : W32) : (setReg s a v).suspend = s.suspend := rfl
@[simp] theorem setReg_quanta (s : State) (a : Nat) (v : W32) : (setReg s a v).quanta = s.quanta := rfl
@[simp] theorem setReg_queues (s : State) (a : Nat) (v : W32) : (setReg s a v).queues = s.queues := rfl
@[simp] theorem setReg_evtCount (s : State) (a : Nat) (v : W32) : (setReg s a v).evtCount = s.evtCount := rfl
@[simp] theorem setReg_evtFirst (s : State) (a : Nat) (v : W32) : (setReg s a v).evtFirst = s.evtFirst := rfl
@[simp] theorem setReg_evtWait (s : State) (a : Nat) (v : W32) : (setReg s a v).evtWait = s.evtWait := rfl
@[simp] theorem setReg_wback (s : State) (a : Nat) (v : W32) : (setReg s a v).wback = s.wback := rfl
@[simp] theorem setReg_phase (s : State) (a : Nat) (v : W32) : (setReg s a v).phase = s.phase := rfl
@[simp] theorem setReg_loop (s : State) (a : Nat) (v : W32) : (setReg s a v).loop = s.loop := rfl
@[simp] theorem setReg_meas (s : State) (a : Nat) (v : W32) : (setReg s a v).meas = s.meas := rfl
@[simp] theorem setReg_key (s : State) (a : Nat) (v : W32) : (setReg s a v).key = s.key := rfl
@[simp] theorem setReg_boot (s : State) (a : Nat) (v : W32) : (setReg s a v).boot = s.boot := rfl
@[simp] theorem setReg_wdr (s : State) (a : Nat) (v : W32) : (setReg s a v).wdr = s.wdr := rfl
@[simp] theorem setReg_flink (s : State) (a : Nat) (v : W32) : (setReg s a v).flink = s.flink := rfl
@[simp] theorem setReg_net (s : State) (a : Nat) (v : W32) : (setReg s a v).net = s.net := rfl
@[simp] theorem setReg_ser (s : State) (a : Nat) (v : W32) : (setReg s a v).ser = s.ser := rfl
@[simp] theorem setReg_flashGen (s : State) (a : Nat) (v : W32) : (setReg s a v).flashGen = s.flashGen := rfl
@[simp] theorem setReg_evicts (s : State) (a : Nat) (v : W32) : (setReg s a v).evicts = s.evicts := rfl
@[simp] theorem setReg_moves (s : State) (a : Nat) (v : W32) : (setReg s a v).moves = s.moves := rfl
@[simp] theorem setReg_movesNoted (s : State) (a : Nat) (v : W32) : (setReg s a v).movesNoted = s.movesNoted := rfl
@[simp] theorem setReg_trace (s : State) (a : Nat) (v : W32) : (setReg s a v).trace = s.trace := rfl
@[simp] theorem setReg_pwr (s : State) (a : Nat) (v : W32) : (setReg s a v).pwr = s.pwr := rfl
@[simp] theorem setReg_test (s : State) (a : Nat) (v : W32) : (setReg s a v).test = s.test := rfl
@[simp] theorem setReg_dbg (s : State) (a : Nat) (v : W32) : (setReg s a v).dbg = s.dbg := rfl
@[simp] theorem setReg_softErr (s : State) (a : Nat) (v : W32) : (setReg s a v).softErr = s.softErr := rfl
@[simp] theorem setReg_twin (s : State) (a : Nat) (v : W32) : (setReg s a v).twin = s.twin := rfl
@[simp] theorem setReg_tiles (s : State) (a : Nat) (v : W32) : (setReg s a v).tiles = s.tiles := rfl
@[simp] theorem setReg_spare (s : State) (a : Nat) (v : W32) : (setReg s a v).spare = s.spare := rfl
@[simp] theorem setReg_spareEcc (s : State) (a : Nat) (v : W32) : (setReg s a v).spareEcc = s.spareEcc := rfl
@[simp] theorem setReg_waitAt (s : State) (a : Nat) (v : W32) : (setReg s a v).waitAt = s.waitAt := rfl

/-! ### setCore -/

@[simp] theorem setCore_pending (s : State) (n : Nat) (c : Core) : (setCore s n c).pending = s.pending := rfl
@[simp] theorem setCore_variant (s : State) (n : Nat) (c : Core) : (setCore s n c).variant = s.variant := rfl
@[simp] theorem setCore_free (s : State) (n : Nat) (c : Core) : (setCore s n c).free = s.free := rfl
@[simp] theorem setCore_seq (s : State) (n : Nat) (c : Core) : (setCore s n c).seq = s.seq := rfl
@[simp] theorem setCore_tick (s : State) (n : Nat) (c : Core) : (setCore s n c).tick = s.tick := rfl
@[simp] theorem setCore_regs (s : State) (n : Nat) (c : Core) : (setCore s n c).regs = s.regs := rfl
@[simp] theorem setCore_rdShadow (s : State) (n : Nat) (c : Core) : (setCore s n c).rdShadow = s.rdShadow := rfl
@[simp] theorem setCore_wrShadow (s : State) (n : Nat) (c : Core) : (setCore s n c).wrShadow = s.wrShadow := rfl
@[simp] theorem setCore_answer (s : State) (n : Nat) (c : Core) : (setCore s n c).answer = s.answer := rfl
@[simp] theorem setCore_mem (s : State) (n : Nat) (c : Core) : (setCore s n c).mem = s.mem := rfl
@[simp] theorem setCore_tags (s : State) (n : Nat) (c : Core) : (setCore s n c).tags = s.tags := rfl
@[simp] theorem setCore_ecc (s : State) (n : Nat) (c : Core) : (setCore s n c).ecc = s.ecc := rfl
@[simp] theorem setCore_done (s : State) (n : Nat) (c : Core) : (setCore s n c).done = s.done := rfl
@[simp] theorem setCore_recs (s : State) (n : Nat) (c : Core) : (setCore s n c).recs = s.recs := rfl
@[simp] theorem setCore_recEcc (s : State) (n : Nat) (c : Core) : (setCore s n c).recEcc = s.recEcc := rfl
@[simp] theorem setCore_readyAt (s : State) (n : Nat) (c : Core) : (setCore s n c).readyAt = s.readyAt := rfl
@[simp] theorem setCore_suspend (s : State) (n : Nat) (c : Core) : (setCore s n c).suspend = s.suspend := rfl
@[simp] theorem setCore_quanta (s : State) (n : Nat) (c : Core) : (setCore s n c).quanta = s.quanta := rfl
@[simp] theorem setCore_queues (s : State) (n : Nat) (c : Core) : (setCore s n c).queues = s.queues := rfl
@[simp] theorem setCore_evtCount (s : State) (n : Nat) (c : Core) : (setCore s n c).evtCount = s.evtCount := rfl
@[simp] theorem setCore_evtFirst (s : State) (n : Nat) (c : Core) : (setCore s n c).evtFirst = s.evtFirst := rfl
@[simp] theorem setCore_evtWait (s : State) (n : Nat) (c : Core) : (setCore s n c).evtWait = s.evtWait := rfl
@[simp] theorem setCore_wback (s : State) (n : Nat) (c : Core) : (setCore s n c).wback = s.wback := rfl
@[simp] theorem setCore_phase (s : State) (n : Nat) (c : Core) : (setCore s n c).phase = s.phase := rfl
@[simp] theorem setCore_loop (s : State) (n : Nat) (c : Core) : (setCore s n c).loop = s.loop := rfl
@[simp] theorem setCore_meas (s : State) (n : Nat) (c : Core) : (setCore s n c).meas = s.meas := rfl
@[simp] theorem setCore_key (s : State) (n : Nat) (c : Core) : (setCore s n c).key = s.key := rfl
@[simp] theorem setCore_boot (s : State) (n : Nat) (c : Core) : (setCore s n c).boot = s.boot := rfl
@[simp] theorem setCore_wdr (s : State) (n : Nat) (c : Core) : (setCore s n c).wdr = s.wdr := rfl
@[simp] theorem setCore_flink (s : State) (n : Nat) (c : Core) : (setCore s n c).flink = s.flink := rfl
@[simp] theorem setCore_net (s : State) (n : Nat) (c : Core) : (setCore s n c).net = s.net := rfl
@[simp] theorem setCore_ser (s : State) (n : Nat) (c : Core) : (setCore s n c).ser = s.ser := rfl
@[simp] theorem setCore_flashGen (s : State) (n : Nat) (c : Core) : (setCore s n c).flashGen = s.flashGen := rfl
@[simp] theorem setCore_evicts (s : State) (n : Nat) (c : Core) : (setCore s n c).evicts = s.evicts := rfl
@[simp] theorem setCore_moves (s : State) (n : Nat) (c : Core) : (setCore s n c).moves = s.moves := rfl
@[simp] theorem setCore_movesNoted (s : State) (n : Nat) (c : Core) : (setCore s n c).movesNoted = s.movesNoted := rfl
@[simp] theorem setCore_trace (s : State) (n : Nat) (c : Core) : (setCore s n c).trace = s.trace := rfl
@[simp] theorem setCore_pwr (s : State) (n : Nat) (c : Core) : (setCore s n c).pwr = s.pwr := rfl
@[simp] theorem setCore_test (s : State) (n : Nat) (c : Core) : (setCore s n c).test = s.test := rfl
@[simp] theorem setCore_dbg (s : State) (n : Nat) (c : Core) : (setCore s n c).dbg = s.dbg := rfl
@[simp] theorem setCore_softErr (s : State) (n : Nat) (c : Core) : (setCore s n c).softErr = s.softErr := rfl
@[simp] theorem setCore_twin (s : State) (n : Nat) (c : Core) : (setCore s n c).twin = s.twin := rfl
@[simp] theorem setCore_tiles (s : State) (n : Nat) (c : Core) : (setCore s n c).tiles = s.tiles := rfl
@[simp] theorem setCore_spare (s : State) (n : Nat) (c : Core) : (setCore s n c).spare = s.spare := rfl
@[simp] theorem setCore_spareEcc (s : State) (n : Nat) (c : Core) : (setCore s n c).spareEcc = s.spareEcc := rfl
@[simp] theorem setCore_waitAt (s : State) (n : Nat) (c : Core) : (setCore s n c).waitAt = s.waitAt := rfl

/-! ### setRecWord -/

@[simp] theorem setRecWord_pending (s : State) (n w : Nat) (v : CapW) : (setRecWord s n w v).pending = s.pending := rfl
@[simp] theorem setRecWord_variant (s : State) (n w : Nat) (v : CapW) : (setRecWord s n w v).variant = s.variant := rfl
@[simp] theorem setRecWord_free (s : State) (n w : Nat) (v : CapW) : (setRecWord s n w v).free = s.free := rfl
@[simp] theorem setRecWord_seq (s : State) (n w : Nat) (v : CapW) : (setRecWord s n w v).seq = s.seq := rfl
@[simp] theorem setRecWord_tick (s : State) (n w : Nat) (v : CapW) : (setRecWord s n w v).tick = s.tick := rfl
@[simp] theorem setRecWord_regs (s : State) (n w : Nat) (v : CapW) : (setRecWord s n w v).regs = s.regs := rfl
@[simp] theorem setRecWord_rdShadow (s : State) (n w : Nat) (v : CapW) : (setRecWord s n w v).rdShadow = s.rdShadow := rfl
@[simp] theorem setRecWord_wrShadow (s : State) (n w : Nat) (v : CapW) : (setRecWord s n w v).wrShadow = s.wrShadow := rfl
@[simp] theorem setRecWord_answer (s : State) (n w : Nat) (v : CapW) : (setRecWord s n w v).answer = s.answer := rfl
@[simp] theorem setRecWord_mem (s : State) (n w : Nat) (v : CapW) : (setRecWord s n w v).mem = s.mem := rfl
@[simp] theorem setRecWord_tags (s : State) (n w : Nat) (v : CapW) : (setRecWord s n w v).tags = s.tags := rfl
@[simp] theorem setRecWord_ecc (s : State) (n w : Nat) (v : CapW) : (setRecWord s n w v).ecc = s.ecc := rfl
@[simp] theorem setRecWord_done (s : State) (n w : Nat) (v : CapW) : (setRecWord s n w v).done = s.done := rfl
@[simp] theorem setRecWord_cores (s : State) (n w : Nat) (v : CapW) : (setRecWord s n w v).cores = s.cores := rfl
@[simp] theorem setRecWord_recEcc (s : State) (n w : Nat) (v : CapW) : (setRecWord s n w v).recEcc = s.recEcc := rfl
@[simp] theorem setRecWord_readyAt (s : State) (n w : Nat) (v : CapW) : (setRecWord s n w v).readyAt = s.readyAt := rfl
@[simp] theorem setRecWord_suspend (s : State) (n w : Nat) (v : CapW) : (setRecWord s n w v).suspend = s.suspend := rfl
@[simp] theorem setRecWord_quanta (s : State) (n w : Nat) (v : CapW) : (setRecWord s n w v).quanta = s.quanta := rfl
@[simp] theorem setRecWord_queues (s : State) (n w : Nat) (v : CapW) : (setRecWord s n w v).queues = s.queues := rfl
@[simp] theorem setRecWord_evtCount (s : State) (n w : Nat) (v : CapW) : (setRecWord s n w v).evtCount = s.evtCount := rfl
@[simp] theorem setRecWord_evtFirst (s : State) (n w : Nat) (v : CapW) : (setRecWord s n w v).evtFirst = s.evtFirst := rfl
@[simp] theorem setRecWord_evtWait (s : State) (n w : Nat) (v : CapW) : (setRecWord s n w v).evtWait = s.evtWait := rfl
@[simp] theorem setRecWord_wback (s : State) (n w : Nat) (v : CapW) : (setRecWord s n w v).wback = s.wback := rfl
@[simp] theorem setRecWord_phase (s : State) (n w : Nat) (v : CapW) : (setRecWord s n w v).phase = s.phase := rfl
@[simp] theorem setRecWord_loop (s : State) (n w : Nat) (v : CapW) : (setRecWord s n w v).loop = s.loop := rfl
@[simp] theorem setRecWord_meas (s : State) (n w : Nat) (v : CapW) : (setRecWord s n w v).meas = s.meas := rfl
@[simp] theorem setRecWord_key (s : State) (n w : Nat) (v : CapW) : (setRecWord s n w v).key = s.key := rfl
@[simp] theorem setRecWord_boot (s : State) (n w : Nat) (v : CapW) : (setRecWord s n w v).boot = s.boot := rfl
@[simp] theorem setRecWord_wdr (s : State) (n w : Nat) (v : CapW) : (setRecWord s n w v).wdr = s.wdr := rfl
@[simp] theorem setRecWord_flink (s : State) (n w : Nat) (v : CapW) : (setRecWord s n w v).flink = s.flink := rfl
@[simp] theorem setRecWord_net (s : State) (n w : Nat) (v : CapW) : (setRecWord s n w v).net = s.net := rfl
@[simp] theorem setRecWord_ser (s : State) (n w : Nat) (v : CapW) : (setRecWord s n w v).ser = s.ser := rfl
@[simp] theorem setRecWord_flashGen (s : State) (n w : Nat) (v : CapW) : (setRecWord s n w v).flashGen = s.flashGen := rfl
@[simp] theorem setRecWord_evicts (s : State) (n w : Nat) (v : CapW) : (setRecWord s n w v).evicts = s.evicts := rfl
@[simp] theorem setRecWord_moves (s : State) (n w : Nat) (v : CapW) : (setRecWord s n w v).moves = s.moves := rfl
@[simp] theorem setRecWord_movesNoted (s : State) (n w : Nat) (v : CapW) : (setRecWord s n w v).movesNoted = s.movesNoted := rfl
@[simp] theorem setRecWord_trace (s : State) (n w : Nat) (v : CapW) : (setRecWord s n w v).trace = s.trace := rfl
@[simp] theorem setRecWord_pwr (s : State) (n w : Nat) (v : CapW) : (setRecWord s n w v).pwr = s.pwr := rfl
@[simp] theorem setRecWord_test (s : State) (n w : Nat) (v : CapW) : (setRecWord s n w v).test = s.test := rfl
@[simp] theorem setRecWord_dbg (s : State) (n w : Nat) (v : CapW) : (setRecWord s n w v).dbg = s.dbg := rfl
@[simp] theorem setRecWord_softErr (s : State) (n w : Nat) (v : CapW) : (setRecWord s n w v).softErr = s.softErr := rfl
@[simp] theorem setRecWord_twin (s : State) (n w : Nat) (v : CapW) : (setRecWord s n w v).twin = s.twin := rfl
@[simp] theorem setRecWord_tiles (s : State) (n w : Nat) (v : CapW) : (setRecWord s n w v).tiles = s.tiles := rfl
@[simp] theorem setRecWord_spare (s : State) (n w : Nat) (v : CapW) : (setRecWord s n w v).spare = s.spare := rfl
@[simp] theorem setRecWord_spareEcc (s : State) (n w : Nat) (v : CapW) : (setRecWord s n w v).spareEcc = s.spareEcc := rfl
@[simp] theorem setRecWord_waitAt (s : State) (n w : Nat) (v : CapW) : (setRecWord s n w v).waitAt = s.waitAt := rfl

/-! ### setMemByte -/

@[simp] theorem setMemByte_pending (s : State) (a : Nat) (v : Byte) : (setMemByte s a v).pending = s.pending := rfl
@[simp] theorem setMemByte_variant (s : State) (a : Nat) (v : Byte) : (setMemByte s a v).variant = s.variant := rfl
@[simp] theorem setMemByte_free (s : State) (a : Nat) (v : Byte) : (setMemByte s a v).free = s.free := rfl
@[simp] theorem setMemByte_seq (s : State) (a : Nat) (v : Byte) : (setMemByte s a v).seq = s.seq := rfl
@[simp] theorem setMemByte_tick (s : State) (a : Nat) (v : Byte) : (setMemByte s a v).tick = s.tick := rfl
@[simp] theorem setMemByte_regs (s : State) (a : Nat) (v : Byte) : (setMemByte s a v).regs = s.regs := rfl
@[simp] theorem setMemByte_rdShadow (s : State) (a : Nat) (v : Byte) : (setMemByte s a v).rdShadow = s.rdShadow := rfl
@[simp] theorem setMemByte_wrShadow (s : State) (a : Nat) (v : Byte) : (setMemByte s a v).wrShadow = s.wrShadow := rfl
@[simp] theorem setMemByte_answer (s : State) (a : Nat) (v : Byte) : (setMemByte s a v).answer = s.answer := rfl
@[simp] theorem setMemByte_tags (s : State) (a : Nat) (v : Byte) : (setMemByte s a v).tags = s.tags := rfl
@[simp] theorem setMemByte_ecc (s : State) (a : Nat) (v : Byte) : (setMemByte s a v).ecc = s.ecc := rfl
@[simp] theorem setMemByte_done (s : State) (a : Nat) (v : Byte) : (setMemByte s a v).done = s.done := rfl
@[simp] theorem setMemByte_cores (s : State) (a : Nat) (v : Byte) : (setMemByte s a v).cores = s.cores := rfl
@[simp] theorem setMemByte_recs (s : State) (a : Nat) (v : Byte) : (setMemByte s a v).recs = s.recs := rfl
@[simp] theorem setMemByte_recEcc (s : State) (a : Nat) (v : Byte) : (setMemByte s a v).recEcc = s.recEcc := rfl
@[simp] theorem setMemByte_readyAt (s : State) (a : Nat) (v : Byte) : (setMemByte s a v).readyAt = s.readyAt := rfl
@[simp] theorem setMemByte_suspend (s : State) (a : Nat) (v : Byte) : (setMemByte s a v).suspend = s.suspend := rfl
@[simp] theorem setMemByte_quanta (s : State) (a : Nat) (v : Byte) : (setMemByte s a v).quanta = s.quanta := rfl
@[simp] theorem setMemByte_queues (s : State) (a : Nat) (v : Byte) : (setMemByte s a v).queues = s.queues := rfl
@[simp] theorem setMemByte_evtCount (s : State) (a : Nat) (v : Byte) : (setMemByte s a v).evtCount = s.evtCount := rfl
@[simp] theorem setMemByte_evtFirst (s : State) (a : Nat) (v : Byte) : (setMemByte s a v).evtFirst = s.evtFirst := rfl
@[simp] theorem setMemByte_evtWait (s : State) (a : Nat) (v : Byte) : (setMemByte s a v).evtWait = s.evtWait := rfl
@[simp] theorem setMemByte_wback (s : State) (a : Nat) (v : Byte) : (setMemByte s a v).wback = s.wback := rfl
@[simp] theorem setMemByte_phase (s : State) (a : Nat) (v : Byte) : (setMemByte s a v).phase = s.phase := rfl
@[simp] theorem setMemByte_loop (s : State) (a : Nat) (v : Byte) : (setMemByte s a v).loop = s.loop := rfl
@[simp] theorem setMemByte_meas (s : State) (a : Nat) (v : Byte) : (setMemByte s a v).meas = s.meas := rfl
@[simp] theorem setMemByte_key (s : State) (a : Nat) (v : Byte) : (setMemByte s a v).key = s.key := rfl
@[simp] theorem setMemByte_boot (s : State) (a : Nat) (v : Byte) : (setMemByte s a v).boot = s.boot := rfl
@[simp] theorem setMemByte_wdr (s : State) (a : Nat) (v : Byte) : (setMemByte s a v).wdr = s.wdr := rfl
@[simp] theorem setMemByte_flink (s : State) (a : Nat) (v : Byte) : (setMemByte s a v).flink = s.flink := rfl
@[simp] theorem setMemByte_net (s : State) (a : Nat) (v : Byte) : (setMemByte s a v).net = s.net := rfl
@[simp] theorem setMemByte_ser (s : State) (a : Nat) (v : Byte) : (setMemByte s a v).ser = s.ser := rfl
@[simp] theorem setMemByte_flashGen (s : State) (a : Nat) (v : Byte) : (setMemByte s a v).flashGen = s.flashGen := rfl
@[simp] theorem setMemByte_evicts (s : State) (a : Nat) (v : Byte) : (setMemByte s a v).evicts = s.evicts := rfl
@[simp] theorem setMemByte_moves (s : State) (a : Nat) (v : Byte) : (setMemByte s a v).moves = s.moves := rfl
@[simp] theorem setMemByte_movesNoted (s : State) (a : Nat) (v : Byte) : (setMemByte s a v).movesNoted = s.movesNoted := rfl
@[simp] theorem setMemByte_trace (s : State) (a : Nat) (v : Byte) : (setMemByte s a v).trace = s.trace := rfl
@[simp] theorem setMemByte_pwr (s : State) (a : Nat) (v : Byte) : (setMemByte s a v).pwr = s.pwr := rfl
@[simp] theorem setMemByte_test (s : State) (a : Nat) (v : Byte) : (setMemByte s a v).test = s.test := rfl
@[simp] theorem setMemByte_dbg (s : State) (a : Nat) (v : Byte) : (setMemByte s a v).dbg = s.dbg := rfl
@[simp] theorem setMemByte_softErr (s : State) (a : Nat) (v : Byte) : (setMemByte s a v).softErr = s.softErr := rfl
@[simp] theorem setMemByte_twin (s : State) (a : Nat) (v : Byte) : (setMemByte s a v).twin = s.twin := rfl
@[simp] theorem setMemByte_tiles (s : State) (a : Nat) (v : Byte) : (setMemByte s a v).tiles = s.tiles := rfl
@[simp] theorem setMemByte_spare (s : State) (a : Nat) (v : Byte) : (setMemByte s a v).spare = s.spare := rfl
@[simp] theorem setMemByte_spareEcc (s : State) (a : Nat) (v : Byte) : (setMemByte s a v).spareEcc = s.spareEcc := rfl
@[simp] theorem setMemByte_waitAt (s : State) (a : Nat) (v : Byte) : (setMemByte s a v).waitAt = s.waitAt := rfl

/-! ### setMemTag -/

@[simp] theorem setMemTag_pending (s : State) (a : Nat) (b : Bool) : (setMemTag s a b).pending = s.pending := rfl
@[simp] theorem setMemTag_variant (s : State) (a : Nat) (b : Bool) : (setMemTag s a b).variant = s.variant := rfl
@[simp] theorem setMemTag_free (s : State) (a : Nat) (b : Bool) : (setMemTag s a b).free = s.free := rfl
@[simp] theorem setMemTag_seq (s : State) (a : Nat) (b : Bool) : (setMemTag s a b).seq = s.seq := rfl
@[simp] theorem setMemTag_tick (s : State) (a : Nat) (b : Bool) : (setMemTag s a b).tick = s.tick := rfl
@[simp] theorem setMemTag_regs (s : State) (a : Nat) (b : Bool) : (setMemTag s a b).regs = s.regs := rfl
@[simp] theorem setMemTag_rdShadow (s : State) (a : Nat) (b : Bool) : (setMemTag s a b).rdShadow = s.rdShadow := rfl
@[simp] theorem setMemTag_wrShadow (s : State) (a : Nat) (b : Bool) : (setMemTag s a b).wrShadow = s.wrShadow := rfl
@[simp] theorem setMemTag_answer (s : State) (a : Nat) (b : Bool) : (setMemTag s a b).answer = s.answer := rfl
@[simp] theorem setMemTag_mem (s : State) (a : Nat) (b : Bool) : (setMemTag s a b).mem = s.mem := rfl
@[simp] theorem setMemTag_ecc (s : State) (a : Nat) (b : Bool) : (setMemTag s a b).ecc = s.ecc := rfl
@[simp] theorem setMemTag_done (s : State) (a : Nat) (b : Bool) : (setMemTag s a b).done = s.done := rfl
@[simp] theorem setMemTag_cores (s : State) (a : Nat) (b : Bool) : (setMemTag s a b).cores = s.cores := rfl
@[simp] theorem setMemTag_recs (s : State) (a : Nat) (b : Bool) : (setMemTag s a b).recs = s.recs := rfl
@[simp] theorem setMemTag_recEcc (s : State) (a : Nat) (b : Bool) : (setMemTag s a b).recEcc = s.recEcc := rfl
@[simp] theorem setMemTag_readyAt (s : State) (a : Nat) (b : Bool) : (setMemTag s a b).readyAt = s.readyAt := rfl
@[simp] theorem setMemTag_suspend (s : State) (a : Nat) (b : Bool) : (setMemTag s a b).suspend = s.suspend := rfl
@[simp] theorem setMemTag_quanta (s : State) (a : Nat) (b : Bool) : (setMemTag s a b).quanta = s.quanta := rfl
@[simp] theorem setMemTag_queues (s : State) (a : Nat) (b : Bool) : (setMemTag s a b).queues = s.queues := rfl
@[simp] theorem setMemTag_evtCount (s : State) (a : Nat) (b : Bool) : (setMemTag s a b).evtCount = s.evtCount := rfl
@[simp] theorem setMemTag_evtFirst (s : State) (a : Nat) (b : Bool) : (setMemTag s a b).evtFirst = s.evtFirst := rfl
@[simp] theorem setMemTag_evtWait (s : State) (a : Nat) (b : Bool) : (setMemTag s a b).evtWait = s.evtWait := rfl
@[simp] theorem setMemTag_wback (s : State) (a : Nat) (b : Bool) : (setMemTag s a b).wback = s.wback := rfl
@[simp] theorem setMemTag_phase (s : State) (a : Nat) (b : Bool) : (setMemTag s a b).phase = s.phase := rfl
@[simp] theorem setMemTag_loop (s : State) (a : Nat) (b : Bool) : (setMemTag s a b).loop = s.loop := rfl
@[simp] theorem setMemTag_meas (s : State) (a : Nat) (b : Bool) : (setMemTag s a b).meas = s.meas := rfl
@[simp] theorem setMemTag_key (s : State) (a : Nat) (b : Bool) : (setMemTag s a b).key = s.key := rfl
@[simp] theorem setMemTag_boot (s : State) (a : Nat) (b : Bool) : (setMemTag s a b).boot = s.boot := rfl
@[simp] theorem setMemTag_wdr (s : State) (a : Nat) (b : Bool) : (setMemTag s a b).wdr = s.wdr := rfl
@[simp] theorem setMemTag_flink (s : State) (a : Nat) (b : Bool) : (setMemTag s a b).flink = s.flink := rfl
@[simp] theorem setMemTag_net (s : State) (a : Nat) (b : Bool) : (setMemTag s a b).net = s.net := rfl
@[simp] theorem setMemTag_ser (s : State) (a : Nat) (b : Bool) : (setMemTag s a b).ser = s.ser := rfl
@[simp] theorem setMemTag_flashGen (s : State) (a : Nat) (b : Bool) : (setMemTag s a b).flashGen = s.flashGen := rfl
@[simp] theorem setMemTag_evicts (s : State) (a : Nat) (b : Bool) : (setMemTag s a b).evicts = s.evicts := rfl
@[simp] theorem setMemTag_moves (s : State) (a : Nat) (b : Bool) : (setMemTag s a b).moves = s.moves := rfl
@[simp] theorem setMemTag_movesNoted (s : State) (a : Nat) (b : Bool) : (setMemTag s a b).movesNoted = s.movesNoted := rfl
@[simp] theorem setMemTag_trace (s : State) (a : Nat) (b : Bool) : (setMemTag s a b).trace = s.trace := rfl
@[simp] theorem setMemTag_pwr (s : State) (a : Nat) (b : Bool) : (setMemTag s a b).pwr = s.pwr := rfl
@[simp] theorem setMemTag_test (s : State) (a : Nat) (b : Bool) : (setMemTag s a b).test = s.test := rfl
@[simp] theorem setMemTag_dbg (s : State) (a : Nat) (b : Bool) : (setMemTag s a b).dbg = s.dbg := rfl
@[simp] theorem setMemTag_softErr (s : State) (a : Nat) (b : Bool) : (setMemTag s a b).softErr = s.softErr := rfl
@[simp] theorem setMemTag_twin (s : State) (a : Nat) (b : Bool) : (setMemTag s a b).twin = s.twin := rfl
@[simp] theorem setMemTag_tiles (s : State) (a : Nat) (b : Bool) : (setMemTag s a b).tiles = s.tiles := rfl
@[simp] theorem setMemTag_spare (s : State) (a : Nat) (b : Bool) : (setMemTag s a b).spare = s.spare := rfl
@[simp] theorem setMemTag_spareEcc (s : State) (a : Nat) (b : Bool) : (setMemTag s a b).spareEcc = s.spareEcc := rfl
@[simp] theorem setMemTag_waitAt (s : State) (a : Nat) (b : Bool) : (setMemTag s a b).waitAt = s.waitAt := rfl

/-! ### setEcc -/

@[simp] theorem setEcc_pending (s : State) (a : Nat) (u : Upset) : (setEcc s a u).pending = s.pending := rfl
@[simp] theorem setEcc_variant (s : State) (a : Nat) (u : Upset) : (setEcc s a u).variant = s.variant := rfl
@[simp] theorem setEcc_free (s : State) (a : Nat) (u : Upset) : (setEcc s a u).free = s.free := rfl
@[simp] theorem setEcc_seq (s : State) (a : Nat) (u : Upset) : (setEcc s a u).seq = s.seq := rfl
@[simp] theorem setEcc_tick (s : State) (a : Nat) (u : Upset) : (setEcc s a u).tick = s.tick := rfl
@[simp] theorem setEcc_regs (s : State) (a : Nat) (u : Upset) : (setEcc s a u).regs = s.regs := rfl
@[simp] theorem setEcc_rdShadow (s : State) (a : Nat) (u : Upset) : (setEcc s a u).rdShadow = s.rdShadow := rfl
@[simp] theorem setEcc_wrShadow (s : State) (a : Nat) (u : Upset) : (setEcc s a u).wrShadow = s.wrShadow := rfl
@[simp] theorem setEcc_answer (s : State) (a : Nat) (u : Upset) : (setEcc s a u).answer = s.answer := rfl
@[simp] theorem setEcc_mem (s : State) (a : Nat) (u : Upset) : (setEcc s a u).mem = s.mem := rfl
@[simp] theorem setEcc_tags (s : State) (a : Nat) (u : Upset) : (setEcc s a u).tags = s.tags := rfl
@[simp] theorem setEcc_done (s : State) (a : Nat) (u : Upset) : (setEcc s a u).done = s.done := rfl
@[simp] theorem setEcc_cores (s : State) (a : Nat) (u : Upset) : (setEcc s a u).cores = s.cores := rfl
@[simp] theorem setEcc_recs (s : State) (a : Nat) (u : Upset) : (setEcc s a u).recs = s.recs := rfl
@[simp] theorem setEcc_recEcc (s : State) (a : Nat) (u : Upset) : (setEcc s a u).recEcc = s.recEcc := rfl
@[simp] theorem setEcc_readyAt (s : State) (a : Nat) (u : Upset) : (setEcc s a u).readyAt = s.readyAt := rfl
@[simp] theorem setEcc_suspend (s : State) (a : Nat) (u : Upset) : (setEcc s a u).suspend = s.suspend := rfl
@[simp] theorem setEcc_quanta (s : State) (a : Nat) (u : Upset) : (setEcc s a u).quanta = s.quanta := rfl
@[simp] theorem setEcc_queues (s : State) (a : Nat) (u : Upset) : (setEcc s a u).queues = s.queues := rfl
@[simp] theorem setEcc_evtCount (s : State) (a : Nat) (u : Upset) : (setEcc s a u).evtCount = s.evtCount := rfl
@[simp] theorem setEcc_evtFirst (s : State) (a : Nat) (u : Upset) : (setEcc s a u).evtFirst = s.evtFirst := rfl
@[simp] theorem setEcc_evtWait (s : State) (a : Nat) (u : Upset) : (setEcc s a u).evtWait = s.evtWait := rfl
@[simp] theorem setEcc_wback (s : State) (a : Nat) (u : Upset) : (setEcc s a u).wback = s.wback := rfl
@[simp] theorem setEcc_phase (s : State) (a : Nat) (u : Upset) : (setEcc s a u).phase = s.phase := rfl
@[simp] theorem setEcc_loop (s : State) (a : Nat) (u : Upset) : (setEcc s a u).loop = s.loop := rfl
@[simp] theorem setEcc_meas (s : State) (a : Nat) (u : Upset) : (setEcc s a u).meas = s.meas := rfl
@[simp] theorem setEcc_key (s : State) (a : Nat) (u : Upset) : (setEcc s a u).key = s.key := rfl
@[simp] theorem setEcc_boot (s : State) (a : Nat) (u : Upset) : (setEcc s a u).boot = s.boot := rfl
@[simp] theorem setEcc_wdr (s : State) (a : Nat) (u : Upset) : (setEcc s a u).wdr = s.wdr := rfl
@[simp] theorem setEcc_flink (s : State) (a : Nat) (u : Upset) : (setEcc s a u).flink = s.flink := rfl
@[simp] theorem setEcc_net (s : State) (a : Nat) (u : Upset) : (setEcc s a u).net = s.net := rfl
@[simp] theorem setEcc_ser (s : State) (a : Nat) (u : Upset) : (setEcc s a u).ser = s.ser := rfl
@[simp] theorem setEcc_flashGen (s : State) (a : Nat) (u : Upset) : (setEcc s a u).flashGen = s.flashGen := rfl
@[simp] theorem setEcc_evicts (s : State) (a : Nat) (u : Upset) : (setEcc s a u).evicts = s.evicts := rfl
@[simp] theorem setEcc_moves (s : State) (a : Nat) (u : Upset) : (setEcc s a u).moves = s.moves := rfl
@[simp] theorem setEcc_movesNoted (s : State) (a : Nat) (u : Upset) : (setEcc s a u).movesNoted = s.movesNoted := rfl
@[simp] theorem setEcc_trace (s : State) (a : Nat) (u : Upset) : (setEcc s a u).trace = s.trace := rfl
@[simp] theorem setEcc_pwr (s : State) (a : Nat) (u : Upset) : (setEcc s a u).pwr = s.pwr := rfl
@[simp] theorem setEcc_test (s : State) (a : Nat) (u : Upset) : (setEcc s a u).test = s.test := rfl
@[simp] theorem setEcc_dbg (s : State) (a : Nat) (u : Upset) : (setEcc s a u).dbg = s.dbg := rfl
@[simp] theorem setEcc_softErr (s : State) (a : Nat) (u : Upset) : (setEcc s a u).softErr = s.softErr := rfl
@[simp] theorem setEcc_twin (s : State) (a : Nat) (u : Upset) : (setEcc s a u).twin = s.twin := rfl
@[simp] theorem setEcc_tiles (s : State) (a : Nat) (u : Upset) : (setEcc s a u).tiles = s.tiles := rfl
@[simp] theorem setEcc_spare (s : State) (a : Nat) (u : Upset) : (setEcc s a u).spare = s.spare := rfl
@[simp] theorem setEcc_spareEcc (s : State) (a : Nat) (u : Upset) : (setEcc s a u).spareEcc = s.spareEcc := rfl
@[simp] theorem setEcc_waitAt (s : State) (a : Nat) (u : Upset) : (setEcc s a u).waitAt = s.waitAt := rfl

/-! ### takeFree -/

@[simp] theorem takeFree_pending (s : State) : (takeFree s).pending = s.pending := rfl
@[simp] theorem takeFree_variant (s : State) : (takeFree s).variant = s.variant := rfl
@[simp] theorem takeFree_seq (s : State) : (takeFree s).seq = s.seq := rfl
@[simp] theorem takeFree_tick (s : State) : (takeFree s).tick = s.tick := rfl
@[simp] theorem takeFree_regs (s : State) : (takeFree s).regs = s.regs := rfl
@[simp] theorem takeFree_rdShadow (s : State) : (takeFree s).rdShadow = s.rdShadow := rfl
@[simp] theorem takeFree_wrShadow (s : State) : (takeFree s).wrShadow = s.wrShadow := rfl
@[simp] theorem takeFree_answer (s : State) : (takeFree s).answer = s.answer := rfl
@[simp] theorem takeFree_mem (s : State) : (takeFree s).mem = s.mem := rfl
@[simp] theorem takeFree_tags (s : State) : (takeFree s).tags = s.tags := rfl
@[simp] theorem takeFree_ecc (s : State) : (takeFree s).ecc = s.ecc := rfl
@[simp] theorem takeFree_done (s : State) : (takeFree s).done = s.done := rfl
@[simp] theorem takeFree_cores (s : State) : (takeFree s).cores = s.cores := rfl
@[simp] theorem takeFree_recs (s : State) : (takeFree s).recs = s.recs := rfl
@[simp] theorem takeFree_recEcc (s : State) : (takeFree s).recEcc = s.recEcc := rfl
@[simp] theorem takeFree_readyAt (s : State) : (takeFree s).readyAt = s.readyAt := rfl
@[simp] theorem takeFree_suspend (s : State) : (takeFree s).suspend = s.suspend := rfl
@[simp] theorem takeFree_quanta (s : State) : (takeFree s).quanta = s.quanta := rfl
@[simp] theorem takeFree_queues (s : State) : (takeFree s).queues = s.queues := rfl
@[simp] theorem takeFree_evtCount (s : State) : (takeFree s).evtCount = s.evtCount := rfl
@[simp] theorem takeFree_evtFirst (s : State) : (takeFree s).evtFirst = s.evtFirst := rfl
@[simp] theorem takeFree_evtWait (s : State) : (takeFree s).evtWait = s.evtWait := rfl
@[simp] theorem takeFree_wback (s : State) : (takeFree s).wback = s.wback := rfl
@[simp] theorem takeFree_phase (s : State) : (takeFree s).phase = s.phase := rfl
@[simp] theorem takeFree_loop (s : State) : (takeFree s).loop = s.loop := rfl
@[simp] theorem takeFree_meas (s : State) : (takeFree s).meas = s.meas := rfl
@[simp] theorem takeFree_key (s : State) : (takeFree s).key = s.key := rfl
@[simp] theorem takeFree_boot (s : State) : (takeFree s).boot = s.boot := rfl
@[simp] theorem takeFree_wdr (s : State) : (takeFree s).wdr = s.wdr := rfl
@[simp] theorem takeFree_flink (s : State) : (takeFree s).flink = s.flink := rfl
@[simp] theorem takeFree_net (s : State) : (takeFree s).net = s.net := rfl
@[simp] theorem takeFree_ser (s : State) : (takeFree s).ser = s.ser := rfl
@[simp] theorem takeFree_flashGen (s : State) : (takeFree s).flashGen = s.flashGen := rfl
@[simp] theorem takeFree_evicts (s : State) : (takeFree s).evicts = s.evicts := rfl
@[simp] theorem takeFree_moves (s : State) : (takeFree s).moves = s.moves := rfl
@[simp] theorem takeFree_movesNoted (s : State) : (takeFree s).movesNoted = s.movesNoted := rfl
@[simp] theorem takeFree_trace (s : State) : (takeFree s).trace = s.trace := rfl
@[simp] theorem takeFree_pwr (s : State) : (takeFree s).pwr = s.pwr := rfl
@[simp] theorem takeFree_test (s : State) : (takeFree s).test = s.test := rfl
@[simp] theorem takeFree_dbg (s : State) : (takeFree s).dbg = s.dbg := rfl
@[simp] theorem takeFree_softErr (s : State) : (takeFree s).softErr = s.softErr := rfl
@[simp] theorem takeFree_twin (s : State) : (takeFree s).twin = s.twin := rfl
@[simp] theorem takeFree_tiles (s : State) : (takeFree s).tiles = s.tiles := rfl
@[simp] theorem takeFree_spare (s : State) : (takeFree s).spare = s.spare := rfl
@[simp] theorem takeFree_spareEcc (s : State) : (takeFree s).spareEcc = s.spareEcc := rfl
@[simp] theorem takeFree_waitAt (s : State) : (takeFree s).waitAt = s.waitAt := rfl

/-! ### takeSeq -/

@[simp] theorem takeSeq_pending (s : State) : (takeSeq s).pending = s.pending := rfl
@[simp] theorem takeSeq_variant (s : State) : (takeSeq s).variant = s.variant := rfl
@[simp] theorem takeSeq_free (s : State) : (takeSeq s).free = s.free := rfl
@[simp] theorem takeSeq_tick (s : State) : (takeSeq s).tick = s.tick := rfl
@[simp] theorem takeSeq_regs (s : State) : (takeSeq s).regs = s.regs := rfl
@[simp] theorem takeSeq_rdShadow (s : State) : (takeSeq s).rdShadow = s.rdShadow := rfl
@[simp] theorem takeSeq_wrShadow (s : State) : (takeSeq s).wrShadow = s.wrShadow := rfl
@[simp] theorem takeSeq_answer (s : State) : (takeSeq s).answer = s.answer := rfl
@[simp] theorem takeSeq_mem (s : State) : (takeSeq s).mem = s.mem := rfl
@[simp] theorem takeSeq_tags (s : State) : (takeSeq s).tags = s.tags := rfl
@[simp] theorem takeSeq_ecc (s : State) : (takeSeq s).ecc = s.ecc := rfl
@[simp] theorem takeSeq_done (s : State) : (takeSeq s).done = s.done := rfl
@[simp] theorem takeSeq_cores (s : State) : (takeSeq s).cores = s.cores := rfl
@[simp] theorem takeSeq_recs (s : State) : (takeSeq s).recs = s.recs := rfl
@[simp] theorem takeSeq_recEcc (s : State) : (takeSeq s).recEcc = s.recEcc := rfl
@[simp] theorem takeSeq_readyAt (s : State) : (takeSeq s).readyAt = s.readyAt := rfl
@[simp] theorem takeSeq_suspend (s : State) : (takeSeq s).suspend = s.suspend := rfl
@[simp] theorem takeSeq_quanta (s : State) : (takeSeq s).quanta = s.quanta := rfl
@[simp] theorem takeSeq_queues (s : State) : (takeSeq s).queues = s.queues := rfl
@[simp] theorem takeSeq_evtCount (s : State) : (takeSeq s).evtCount = s.evtCount := rfl
@[simp] theorem takeSeq_evtFirst (s : State) : (takeSeq s).evtFirst = s.evtFirst := rfl
@[simp] theorem takeSeq_evtWait (s : State) : (takeSeq s).evtWait = s.evtWait := rfl
@[simp] theorem takeSeq_wback (s : State) : (takeSeq s).wback = s.wback := rfl
@[simp] theorem takeSeq_phase (s : State) : (takeSeq s).phase = s.phase := rfl
@[simp] theorem takeSeq_loop (s : State) : (takeSeq s).loop = s.loop := rfl
@[simp] theorem takeSeq_meas (s : State) : (takeSeq s).meas = s.meas := rfl
@[simp] theorem takeSeq_key (s : State) : (takeSeq s).key = s.key := rfl
@[simp] theorem takeSeq_boot (s : State) : (takeSeq s).boot = s.boot := rfl
@[simp] theorem takeSeq_wdr (s : State) : (takeSeq s).wdr = s.wdr := rfl
@[simp] theorem takeSeq_flink (s : State) : (takeSeq s).flink = s.flink := rfl
@[simp] theorem takeSeq_net (s : State) : (takeSeq s).net = s.net := rfl
@[simp] theorem takeSeq_ser (s : State) : (takeSeq s).ser = s.ser := rfl
@[simp] theorem takeSeq_flashGen (s : State) : (takeSeq s).flashGen = s.flashGen := rfl
@[simp] theorem takeSeq_evicts (s : State) : (takeSeq s).evicts = s.evicts := rfl
@[simp] theorem takeSeq_moves (s : State) : (takeSeq s).moves = s.moves := rfl
@[simp] theorem takeSeq_movesNoted (s : State) : (takeSeq s).movesNoted = s.movesNoted := rfl
@[simp] theorem takeSeq_trace (s : State) : (takeSeq s).trace = s.trace := rfl
@[simp] theorem takeSeq_pwr (s : State) : (takeSeq s).pwr = s.pwr := rfl
@[simp] theorem takeSeq_test (s : State) : (takeSeq s).test = s.test := rfl
@[simp] theorem takeSeq_dbg (s : State) : (takeSeq s).dbg = s.dbg := rfl
@[simp] theorem takeSeq_softErr (s : State) : (takeSeq s).softErr = s.softErr := rfl
@[simp] theorem takeSeq_twin (s : State) : (takeSeq s).twin = s.twin := rfl
@[simp] theorem takeSeq_tiles (s : State) : (takeSeq s).tiles = s.tiles := rfl
@[simp] theorem takeSeq_spare (s : State) : (takeSeq s).spare = s.spare := rfl
@[simp] theorem takeSeq_spareEcc (s : State) : (takeSeq s).spareEcc = s.spareEcc := rfl
@[simp] theorem takeSeq_waitAt (s : State) : (takeSeq s).waitAt = s.waitAt := rfl

/-! ### setSpare and updTilePort -/

@[simp] theorem setSpare_pending (s : State) (k : Nat) (w : CapW) (u : Upset) : (setSpare s k w u).pending = s.pending := rfl
@[simp] theorem setSpare_variant (s : State) (k : Nat) (w : CapW) (u : Upset) : (setSpare s k w u).variant = s.variant := rfl
@[simp] theorem setSpare_free (s : State) (k : Nat) (w : CapW) (u : Upset) : (setSpare s k w u).free = s.free := rfl
@[simp] theorem setSpare_seq (s : State) (k : Nat) (w : CapW) (u : Upset) : (setSpare s k w u).seq = s.seq := rfl
@[simp] theorem setSpare_tick (s : State) (k : Nat) (w : CapW) (u : Upset) : (setSpare s k w u).tick = s.tick := rfl
@[simp] theorem setSpare_regs (s : State) (k : Nat) (w : CapW) (u : Upset) : (setSpare s k w u).regs = s.regs := rfl
@[simp] theorem setSpare_rdShadow (s : State) (k : Nat) (w : CapW) (u : Upset) : (setSpare s k w u).rdShadow = s.rdShadow := rfl
@[simp] theorem setSpare_wrShadow (s : State) (k : Nat) (w : CapW) (u : Upset) : (setSpare s k w u).wrShadow = s.wrShadow := rfl
@[simp] theorem setSpare_answer (s : State) (k : Nat) (w : CapW) (u : Upset) : (setSpare s k w u).answer = s.answer := rfl
@[simp] theorem setSpare_mem (s : State) (k : Nat) (w : CapW) (u : Upset) : (setSpare s k w u).mem = s.mem := rfl
@[simp] theorem setSpare_tags (s : State) (k : Nat) (w : CapW) (u : Upset) : (setSpare s k w u).tags = s.tags := rfl
@[simp] theorem setSpare_ecc (s : State) (k : Nat) (w : CapW) (u : Upset) : (setSpare s k w u).ecc = s.ecc := rfl
@[simp] theorem setSpare_tiles (s : State) (k : Nat) (w : CapW) (u : Upset) : (setSpare s k w u).tiles = s.tiles := rfl
@[simp] theorem setSpare_done (s : State) (k : Nat) (w : CapW) (u : Upset) : (setSpare s k w u).done = s.done := rfl
@[simp] theorem setSpare_cores (s : State) (k : Nat) (w : CapW) (u : Upset) : (setSpare s k w u).cores = s.cores := rfl
@[simp] theorem setSpare_recs (s : State) (k : Nat) (w : CapW) (u : Upset) : (setSpare s k w u).recs = s.recs := rfl
@[simp] theorem setSpare_recEcc (s : State) (k : Nat) (w : CapW) (u : Upset) : (setSpare s k w u).recEcc = s.recEcc := rfl
@[simp] theorem setSpare_readyAt (s : State) (k : Nat) (w : CapW) (u : Upset) : (setSpare s k w u).readyAt = s.readyAt := rfl
@[simp] theorem setSpare_waitAt (s : State) (k : Nat) (w : CapW) (u : Upset) : (setSpare s k w u).waitAt = s.waitAt := rfl
@[simp] theorem setSpare_suspend (s : State) (k : Nat) (w : CapW) (u : Upset) : (setSpare s k w u).suspend = s.suspend := rfl
@[simp] theorem setSpare_quanta (s : State) (k : Nat) (w : CapW) (u : Upset) : (setSpare s k w u).quanta = s.quanta := rfl
@[simp] theorem setSpare_queues (s : State) (k : Nat) (w : CapW) (u : Upset) : (setSpare s k w u).queues = s.queues := rfl
@[simp] theorem setSpare_evtCount (s : State) (k : Nat) (w : CapW) (u : Upset) : (setSpare s k w u).evtCount = s.evtCount := rfl
@[simp] theorem setSpare_evtFirst (s : State) (k : Nat) (w : CapW) (u : Upset) : (setSpare s k w u).evtFirst = s.evtFirst := rfl
@[simp] theorem setSpare_evtWait (s : State) (k : Nat) (w : CapW) (u : Upset) : (setSpare s k w u).evtWait = s.evtWait := rfl
@[simp] theorem setSpare_wback (s : State) (k : Nat) (w : CapW) (u : Upset) : (setSpare s k w u).wback = s.wback := rfl
@[simp] theorem setSpare_phase (s : State) (k : Nat) (w : CapW) (u : Upset) : (setSpare s k w u).phase = s.phase := rfl
@[simp] theorem setSpare_loop (s : State) (k : Nat) (w : CapW) (u : Upset) : (setSpare s k w u).loop = s.loop := rfl
@[simp] theorem setSpare_meas (s : State) (k : Nat) (w : CapW) (u : Upset) : (setSpare s k w u).meas = s.meas := rfl
@[simp] theorem setSpare_key (s : State) (k : Nat) (w : CapW) (u : Upset) : (setSpare s k w u).key = s.key := rfl
@[simp] theorem setSpare_boot (s : State) (k : Nat) (w : CapW) (u : Upset) : (setSpare s k w u).boot = s.boot := rfl
@[simp] theorem setSpare_wdr (s : State) (k : Nat) (w : CapW) (u : Upset) : (setSpare s k w u).wdr = s.wdr := rfl
@[simp] theorem setSpare_flink (s : State) (k : Nat) (w : CapW) (u : Upset) : (setSpare s k w u).flink = s.flink := rfl
@[simp] theorem setSpare_net (s : State) (k : Nat) (w : CapW) (u : Upset) : (setSpare s k w u).net = s.net := rfl
@[simp] theorem setSpare_ser (s : State) (k : Nat) (w : CapW) (u : Upset) : (setSpare s k w u).ser = s.ser := rfl
@[simp] theorem setSpare_flashGen (s : State) (k : Nat) (w : CapW) (u : Upset) : (setSpare s k w u).flashGen = s.flashGen := rfl
@[simp] theorem setSpare_evicts (s : State) (k : Nat) (w : CapW) (u : Upset) : (setSpare s k w u).evicts = s.evicts := rfl
@[simp] theorem setSpare_moves (s : State) (k : Nat) (w : CapW) (u : Upset) : (setSpare s k w u).moves = s.moves := rfl
@[simp] theorem setSpare_movesNoted (s : State) (k : Nat) (w : CapW) (u : Upset) : (setSpare s k w u).movesNoted = s.movesNoted := rfl
@[simp] theorem setSpare_trace (s : State) (k : Nat) (w : CapW) (u : Upset) : (setSpare s k w u).trace = s.trace := rfl
@[simp] theorem setSpare_pwr (s : State) (k : Nat) (w : CapW) (u : Upset) : (setSpare s k w u).pwr = s.pwr := rfl
@[simp] theorem setSpare_test (s : State) (k : Nat) (w : CapW) (u : Upset) : (setSpare s k w u).test = s.test := rfl
@[simp] theorem setSpare_dbg (s : State) (k : Nat) (w : CapW) (u : Upset) : (setSpare s k w u).dbg = s.dbg := rfl
@[simp] theorem setSpare_softErr (s : State) (k : Nat) (w : CapW) (u : Upset) : (setSpare s k w u).softErr = s.softErr := rfl
@[simp] theorem setSpare_twin (s : State) (k : Nat) (w : CapW) (u : Upset) : (setSpare s k w u).twin = s.twin := rfl
@[simp] theorem updTilePort_pending (s : State) (k : Nat) (b : Bool) (f : TilePort → TilePort) : (updTilePort s k b f).pending = s.pending := rfl
@[simp] theorem updTilePort_variant (s : State) (k : Nat) (b : Bool) (f : TilePort → TilePort) : (updTilePort s k b f).variant = s.variant := rfl
@[simp] theorem updTilePort_free (s : State) (k : Nat) (b : Bool) (f : TilePort → TilePort) : (updTilePort s k b f).free = s.free := rfl
@[simp] theorem updTilePort_seq (s : State) (k : Nat) (b : Bool) (f : TilePort → TilePort) : (updTilePort s k b f).seq = s.seq := rfl
@[simp] theorem updTilePort_tick (s : State) (k : Nat) (b : Bool) (f : TilePort → TilePort) : (updTilePort s k b f).tick = s.tick := rfl
@[simp] theorem updTilePort_regs (s : State) (k : Nat) (b : Bool) (f : TilePort → TilePort) : (updTilePort s k b f).regs = s.regs := rfl
@[simp] theorem updTilePort_rdShadow (s : State) (k : Nat) (b : Bool) (f : TilePort → TilePort) : (updTilePort s k b f).rdShadow = s.rdShadow := rfl
@[simp] theorem updTilePort_wrShadow (s : State) (k : Nat) (b : Bool) (f : TilePort → TilePort) : (updTilePort s k b f).wrShadow = s.wrShadow := rfl
@[simp] theorem updTilePort_answer (s : State) (k : Nat) (b : Bool) (f : TilePort → TilePort) : (updTilePort s k b f).answer = s.answer := rfl
@[simp] theorem updTilePort_mem (s : State) (k : Nat) (b : Bool) (f : TilePort → TilePort) : (updTilePort s k b f).mem = s.mem := rfl
@[simp] theorem updTilePort_tags (s : State) (k : Nat) (b : Bool) (f : TilePort → TilePort) : (updTilePort s k b f).tags = s.tags := rfl
@[simp] theorem updTilePort_ecc (s : State) (k : Nat) (b : Bool) (f : TilePort → TilePort) : (updTilePort s k b f).ecc = s.ecc := rfl
@[simp] theorem updTilePort_spare (s : State) (k : Nat) (b : Bool) (f : TilePort → TilePort) : (updTilePort s k b f).spare = s.spare := rfl
@[simp] theorem updTilePort_spareEcc (s : State) (k : Nat) (b : Bool) (f : TilePort → TilePort) : (updTilePort s k b f).spareEcc = s.spareEcc := rfl
@[simp] theorem updTilePort_done (s : State) (k : Nat) (b : Bool) (f : TilePort → TilePort) : (updTilePort s k b f).done = s.done := rfl
@[simp] theorem updTilePort_cores (s : State) (k : Nat) (b : Bool) (f : TilePort → TilePort) : (updTilePort s k b f).cores = s.cores := rfl
@[simp] theorem updTilePort_recs (s : State) (k : Nat) (b : Bool) (f : TilePort → TilePort) : (updTilePort s k b f).recs = s.recs := rfl
@[simp] theorem updTilePort_recEcc (s : State) (k : Nat) (b : Bool) (f : TilePort → TilePort) : (updTilePort s k b f).recEcc = s.recEcc := rfl
@[simp] theorem updTilePort_readyAt (s : State) (k : Nat) (b : Bool) (f : TilePort → TilePort) : (updTilePort s k b f).readyAt = s.readyAt := rfl
@[simp] theorem updTilePort_waitAt (s : State) (k : Nat) (b : Bool) (f : TilePort → TilePort) : (updTilePort s k b f).waitAt = s.waitAt := rfl
@[simp] theorem updTilePort_suspend (s : State) (k : Nat) (b : Bool) (f : TilePort → TilePort) : (updTilePort s k b f).suspend = s.suspend := rfl
@[simp] theorem updTilePort_quanta (s : State) (k : Nat) (b : Bool) (f : TilePort → TilePort) : (updTilePort s k b f).quanta = s.quanta := rfl
@[simp] theorem updTilePort_queues (s : State) (k : Nat) (b : Bool) (f : TilePort → TilePort) : (updTilePort s k b f).queues = s.queues := rfl
@[simp] theorem updTilePort_evtCount (s : State) (k : Nat) (b : Bool) (f : TilePort → TilePort) : (updTilePort s k b f).evtCount = s.evtCount := rfl
@[simp] theorem updTilePort_evtFirst (s : State) (k : Nat) (b : Bool) (f : TilePort → TilePort) : (updTilePort s k b f).evtFirst = s.evtFirst := rfl
@[simp] theorem updTilePort_evtWait (s : State) (k : Nat) (b : Bool) (f : TilePort → TilePort) : (updTilePort s k b f).evtWait = s.evtWait := rfl
@[simp] theorem updTilePort_wback (s : State) (k : Nat) (b : Bool) (f : TilePort → TilePort) : (updTilePort s k b f).wback = s.wback := rfl
@[simp] theorem updTilePort_phase (s : State) (k : Nat) (b : Bool) (f : TilePort → TilePort) : (updTilePort s k b f).phase = s.phase := rfl
@[simp] theorem updTilePort_loop (s : State) (k : Nat) (b : Bool) (f : TilePort → TilePort) : (updTilePort s k b f).loop = s.loop := rfl
@[simp] theorem updTilePort_meas (s : State) (k : Nat) (b : Bool) (f : TilePort → TilePort) : (updTilePort s k b f).meas = s.meas := rfl
@[simp] theorem updTilePort_key (s : State) (k : Nat) (b : Bool) (f : TilePort → TilePort) : (updTilePort s k b f).key = s.key := rfl
@[simp] theorem updTilePort_boot (s : State) (k : Nat) (b : Bool) (f : TilePort → TilePort) : (updTilePort s k b f).boot = s.boot := rfl
@[simp] theorem updTilePort_wdr (s : State) (k : Nat) (b : Bool) (f : TilePort → TilePort) : (updTilePort s k b f).wdr = s.wdr := rfl
@[simp] theorem updTilePort_flink (s : State) (k : Nat) (b : Bool) (f : TilePort → TilePort) : (updTilePort s k b f).flink = s.flink := rfl
@[simp] theorem updTilePort_net (s : State) (k : Nat) (b : Bool) (f : TilePort → TilePort) : (updTilePort s k b f).net = s.net := rfl
@[simp] theorem updTilePort_ser (s : State) (k : Nat) (b : Bool) (f : TilePort → TilePort) : (updTilePort s k b f).ser = s.ser := rfl
@[simp] theorem updTilePort_flashGen (s : State) (k : Nat) (b : Bool) (f : TilePort → TilePort) : (updTilePort s k b f).flashGen = s.flashGen := rfl
@[simp] theorem updTilePort_evicts (s : State) (k : Nat) (b : Bool) (f : TilePort → TilePort) : (updTilePort s k b f).evicts = s.evicts := rfl
@[simp] theorem updTilePort_moves (s : State) (k : Nat) (b : Bool) (f : TilePort → TilePort) : (updTilePort s k b f).moves = s.moves := rfl
@[simp] theorem updTilePort_movesNoted (s : State) (k : Nat) (b : Bool) (f : TilePort → TilePort) : (updTilePort s k b f).movesNoted = s.movesNoted := rfl
@[simp] theorem updTilePort_trace (s : State) (k : Nat) (b : Bool) (f : TilePort → TilePort) : (updTilePort s k b f).trace = s.trace := rfl
@[simp] theorem updTilePort_pwr (s : State) (k : Nat) (b : Bool) (f : TilePort → TilePort) : (updTilePort s k b f).pwr = s.pwr := rfl
@[simp] theorem updTilePort_test (s : State) (k : Nat) (b : Bool) (f : TilePort → TilePort) : (updTilePort s k b f).test = s.test := rfl
@[simp] theorem updTilePort_dbg (s : State) (k : Nat) (b : Bool) (f : TilePort → TilePort) : (updTilePort s k b f).dbg = s.dbg := rfl
@[simp] theorem updTilePort_softErr (s : State) (k : Nat) (b : Bool) (f : TilePort → TilePort) : (updTilePort s k b f).softErr = s.softErr := rfl
@[simp] theorem updTilePort_twin (s : State) (k : Nat) (b : Bool) (f : TilePort → TilePort) : (updTilePort s k b f).twin = s.twin := rfl

end Sys2Proof.Machine
end

