-- ==== Sys2Proof/Laws/Pages.lean ====
section
/-! SUPPORT. Sparse maps, bit fields and the registers of the pages: reads after writes, and the canonical form (R8, R101). -/

namespace Sys2Proof.Machine

/-! ### Sparse maps -/

theorem mfind_mins_same {α : Type} (l : SMap α) (k : Nat) (v : α) : mfind (mins l k v) k = some v := by
  induction l with
  | nil => simp [mins, mfind]
  | cons p r ih =>
    obtain ⟨a, w⟩ := p
    simp only [mins]
    split
    · simp [mfind]
    · split
      · simp [mfind]
      · next h1 h2 => simp [mfind, h2, ih]

theorem mfind_mins_ne {α : Type} {l : SMap α} {k j : Nat} {v : α} (h : j ≠ k) : mfind (mins l k v) j = mfind l j := by
  have hk : ¬ k = j := fun e => h e.symm
  induction l with
  | nil => simp [mins, mfind, hk]
  | cons p r ih =>
    obtain ⟨a, w⟩ := p
    simp only [mins]
    split
    · simp [mfind, hk]
    · split
      · next h1 h2 => subst h2; simp [mfind, hk]
      · simp only [mfind, ih]

theorem mfind_mdel_same {α : Type} (l : SMap α) (k : Nat) : mfind (mdel l k) k = none := by
  induction l with
  | nil => rfl
  | cons p r ih =>
    obtain ⟨a, w⟩ := p
    simp only [mdel]
    split
    · exact ih
    · next h => simp [mfind, h, ih]

theorem mfind_mdel_ne {α : Type} {l : SMap α} {k j : Nat} (h : j ≠ k) : mfind (mdel l k) j = mfind l j := by
  have hk : ¬ k = j := fun e => h e.symm
  induction l with
  | nil => rfl
  | cons p r ih =>
    obtain ⟨a, w⟩ := p
    simp only [mdel]
    split
    · next e => subst e; simp [mfind, hk, ih]
    · simp only [mfind, ih]

@[simp] theorem mget_mput_same {α : Type} [DecidableEq α] (d : Nat → α) (l : SMap α) (k : Nat) (v : α) : mget d (mput d l k v) k = v := by
  unfold mput
  split
  · next h => simp [mget, mfind_mdel_same, h]
  · simp [mget, mfind_mins_same]

theorem mget_mput_ne {α : Type} [DecidableEq α] {d : Nat → α} {l : SMap α} {k j : Nat} {v : α} (h : j ≠ k) :
    mget d (mput d l k v) j = mget d l j := by
  unfold mput
  split
  · simp [mget, mfind_mdel_ne h]
  · simp [mget, mfind_mins_ne h]

theorem mget_mput {α : Type} [DecidableEq α] (d : Nat → α) (l : SMap α) (k j : Nat) (v : α) :
    mget d (mput d l k v) j = if j = k then v else mget d l j := by
  split
  · next h => subst h; simp
  · next h => exact mget_mput_ne h

theorem mem_mdel {α : Type} {l : SMap α} {k : Nat} {p : Nat × α} (h : p ∈ mdel l k) : p ∈ l := by
  induction l with
  | nil => exact h
  | cons q r ih =>
    obtain ⟨a, w⟩ := q
    simp only [mdel] at h
    split at h
    · exact List.mem_cons_of_mem _ (ih h)
    · rcases List.mem_cons.mp h with e | e
      · exact e ▸ List.mem_cons_self ..
      · exact List.mem_cons_of_mem _ (ih e)

theorem mem_mins {α : Type} {l : SMap α} {k : Nat} {v : α} {p : Nat × α} (h : p ∈ mins l k v) : p = (k, v) ∨ p ∈ l := by
  induction l with
  | nil => exact .inl (by simpa [mins] using h)
  | cons q r ih =>
    obtain ⟨a, w⟩ := q
    simp only [mins] at h
    split at h
    · rcases List.mem_cons.mp h with e | e
      · exact .inl e
      · exact .inr e
    · split at h
      · rcases List.mem_cons.mp h with e | e
        · exact .inl e
        · exact .inr (List.mem_cons_of_mem _ e)
      · rcases List.mem_cons.mp h with e | e
        · exact .inr (e ▸ List.mem_cons_self ..)
        · rcases ih e with e | e
          · exact .inl e
          · exact .inr (List.mem_cons_of_mem _ e)

theorem mrising_mdel {α : Type} {l : SMap α} {k : Nat} (h : mrising l = true) : mrising (mdel l k) = true := by
  induction l with
  | nil => rfl
  | cons q r ih =>
    obtain ⟨a, w⟩ := q
    simp only [mrising, Bool.and_eq_true, List.all_eq_true] at h
    simp only [mdel]
    split
    · exact ih h.2
    · simp only [mrising, Bool.and_eq_true, List.all_eq_true]
      exact ⟨fun p hp => h.1 p (mem_mdel hp), ih h.2⟩

theorem mrising_mins {α : Type} {l : SMap α} {k : Nat} {v : α} (h : mrising l = true) : mrising (mins l k v) = true := by
  induction l with
  | nil => rfl
  | cons q r ih =>
    obtain ⟨a, w⟩ := q
    have h' := h
    simp only [mrising, Bool.and_eq_true, List.all_eq_true, decide_eq_true_eq] at h
    simp only [mins]
    split
    · next hk =>
      rw [mrising, Bool.and_eq_true, List.all_eq_true]
      refine ⟨fun p hp => ?_, h'⟩
      rcases List.mem_cons.mp hp with e | e
      · subst e; simpa using hk
      · have := h.1 p e; simp; omega
    · split
      · next hk => subst hk; simpa [mrising] using h
      · rw [mrising, Bool.and_eq_true, List.all_eq_true]
        refine ⟨fun p hp => ?_, ih h.2⟩
        rcases mem_mins hp with e | e
        · subst e; simp; omega
        · simpa using h.1 p e

/-- A write keeps the canonical form. -/
theorem mwf_mput {α : Type} [DecidableEq α] {d : Nat → α} {l : SMap α} {k : Nat} {v : α} (h : mwf d l = true) :
    mwf d (mput d l k v) = true := by
  simp only [mwf, Bool.and_eq_true, List.all_eq_true] at h
  unfold mput
  split
  · simp only [mwf, Bool.and_eq_true, List.all_eq_true]
    exact ⟨mrising_mdel h.1, fun p hp => h.2 p (mem_mdel hp)⟩
  · next hv =>
    simp only [mwf, Bool.and_eq_true, List.all_eq_true]
    refine ⟨mrising_mins h.1, fun p hp => ?_⟩
    rcases mem_mins hp with e | e
    · subst e; simpa using hv
    · exact h.2 p e

/-- Equal readings make equal maps in canonical form: the form says each map in one way. -/
theorem mfind_none {α : Type} {l : SMap α} {k : Nat} (h : ∀ p ∈ l, p.1 ≠ k) : mfind l k = none := by
  induction l with
  | nil => rfl
  | cons q r ih =>
    obtain ⟨a, w⟩ := q
    have : a ≠ k := h _ (List.mem_cons_self ..)
    simp only [mfind, this, if_false]
    exact ih (fun p hp => h p (List.mem_cons_of_mem _ hp))

/-! ### Bit fields -/

theorem bits_lt (x hi lo : Nat) : bits x hi lo < 2 ^ (hi + 1 - lo) := Nat.mod_lt _ (Nat.two_pow_pos _)

theorem bits_eq_testBit {x hi lo i : Nat} : (bits x hi lo).testBit i = (decide (i < hi + 1 - lo) && x.testBit (lo + i)) := by
  unfold bits
  rw [Nat.testBit_mod_two_pow, Nat.testBit_div_two_pow, Nat.add_comm i lo]

theorem bit_eq_testBit (x k : Nat) : bit x k = x.testBit k := by
  unfold bit
  rw [Nat.testBit_eq_decide_div_mod_eq]
  by_cases h : x / 2 ^ k % 2 = 1 <;> simp [h]

/-- The bits of a word with a field replaced. -/
theorem withBits_testBit {x hi lo v i : Nat} (h : lo ≤ hi + 1) :
    (withBits x hi lo v).testBit i = if lo ≤ i ∧ i ≤ hi then v.testBit (i - lo) else x.testBit i := by
  unfold withBits
  have e1 : x / 2 ^ (hi + 1) * 2 ^ (hi + 1) = 2 ^ (hi + 1) * (x / 2 ^ (hi + 1)) := Nat.mul_comm _ _
  have e2 : v % 2 ^ (hi + 1 - lo) * 2 ^ lo = 2 ^ lo * (v % 2 ^ (hi + 1 - lo)) := Nat.mul_comm _ _
  have hlt : x % 2 ^ lo < 2 ^ lo := Nat.mod_lt _ (Nat.two_pow_pos _)
  have hlt2 : 2 ^ lo * (v % 2 ^ (hi + 1 - lo)) + x % 2 ^ lo < 2 ^ (hi + 1) := by
    have : v % 2 ^ (hi + 1 - lo) < 2 ^ (hi + 1 - lo) := Nat.mod_lt _ (Nat.two_pow_pos _)
    have e : 2 ^ (hi + 1) = 2 ^ lo * 2 ^ (hi + 1 - lo) := by rw [← Nat.pow_add]; congr 1; omega
    rw [e]
    calc _ < 2 ^ lo * (v % 2 ^ (hi + 1 - lo)) + 2 ^ lo := by omega
      _ = 2 ^ lo * (v % 2 ^ (hi + 1 - lo) + 1) := by rw [Nat.mul_add, Nat.mul_one]
      _ ≤ _ := Nat.mul_le_mul_left _ this
  rw [e1, e2, Nat.add_comm (x % 2 ^ lo), Nat.add_comm, Nat.testBit_two_pow_mul_add _ hlt2, Nat.testBit_two_pow_mul_add _ hlt]
  by_cases h1 : i < hi + 1
  · by_cases h2 : i < lo
    · rw [if_pos h1, if_pos h2, if_neg (by omega), Nat.testBit_mod_two_pow]; simp [h2]
    · rw [if_pos h1, if_neg h2, if_pos (by omega), Nat.testBit_mod_two_pow]
      have : i - lo < hi + 1 - lo := by omega
      simp [this]
  · rw [if_neg h1, if_neg (by omega), Nat.testBit_div_two_pow]
    congr 1; omega

/-- A field just replaced reads as the low bits of what was put there. -/
theorem bits_withBits_same {x hi lo v : Nat} (h : lo ≤ hi + 1) : bits (withBits x hi lo v) hi lo = v % 2 ^ (hi + 1 - lo) := by
  apply Nat.eq_of_testBit_eq
  intro i
  rw [bits_eq_testBit, withBits_testBit h, Nat.testBit_mod_two_pow]
  by_cases hi' : i < hi + 1 - lo
  · have : lo ≤ lo + i ∧ lo + i ≤ hi := by omega
    simp [hi', this]
  · simp [hi']

/-- A field that shares no bit with the replaced one is kept. -/
theorem bits_withBits_ne {x hi lo v h' l' : Nat} (h : lo ≤ hi + 1) (hd : h' < lo ∨ hi < l') :
    bits (withBits x hi lo v) h' l' = bits x h' l' := by
  apply Nat.eq_of_testBit_eq
  intro i
  rw [bits_eq_testBit, bits_eq_testBit, withBits_testBit h]
  by_cases hi' : i < h' + 1 - l'
  · have : ¬ (lo ≤ l' + i ∧ l' + i ≤ hi) := by omega
    rw [if_neg this]
  · simp [hi']

theorem withBits_lt {x hi lo v n : Nat} (h : lo ≤ hi + 1) (hx : x < 2 ^ n) (hn : hi < n) : withBits x hi lo v < 2 ^ n := by
  apply Nat.lt_pow_two_of_testBit
  intro i hi'
  rw [withBits_testBit h, if_neg (by omega)]
  exact Nat.testBit_lt_two_pow (Nat.lt_of_lt_of_le hx (Nat.pow_le_pow_right (by decide) hi'))

/-! ### Registers -/

@[simp] theorem reg_setReg_same (s : State) (a : Nat) (v : W32) : reg (setReg s a v) a = v := by simp [reg, setReg]

theorem reg_setReg_ne {s : State} {a b : Nat} {v : W32} (h : b ≠ a) : reg (setReg s a v) b = reg s b := by
  simp [reg, setReg, mget_mput_ne h]

/-- What a register holds after one is set. -/
theorem reg_setReg (s : State) (a b : Nat) (v : W32) : reg (setReg s a v) b = if b = a then v else reg s b := by
  simp [reg, setReg, mget_mput]

/-- A field just set reads as the low bits of its value. -/
theorem fget_fset_same {s : State} {f : Fld} {v : Nat} (h : f.lo ≤ f.hi + 1) (h2 : f.hi < 32) : fget (fset s f v) f = v % 2 ^ (f.hi + 1 - f.lo) := by
  have : withBits (reg s f.addr).toNat f.hi f.lo v < 2 ^ 32 := withBits_lt h (reg s f.addr).isLt h2
  simp only [fget, fset, reg_setReg_same, BitVec.toNat_ofNat, Nat.mod_eq_of_lt this, bits_withBits_same h]

/-- Setting a field leaves every field of another register alone. -/
theorem fget_fset_reg {s : State} {f g : Fld} {v : Nat} (h : g.addr ≠ f.addr) : fget (fset s f v) g = fget s g := by
  simp [fget, fset, reg_setReg_ne h]

/-- Setting a field leaves the other fields of its register alone. -/
theorem fget_fset_ne {s : State} {f g : Fld} {v : Nat} (h : f.lo ≤ f.hi + 1) (h2 : f.hi < 32) (hd : g.hi < f.lo ∨ f.hi < g.lo) :
    fget (fset s f v) g = fget s g := by
  by_cases e : g.addr = f.addr
  · have : withBits (reg s f.addr).toNat f.hi f.lo v < 2 ^ 32 := withBits_lt h (reg s f.addr).isLt h2
    simp only [fget, fset, e, reg_setReg_same, BitVec.toNat_ofNat, Nat.mod_eq_of_lt this, bits_withBits_ne h hd]
  · exact fget_fset_reg e

/-- Setting a field changes its register only. -/
theorem reg_fset_ne {s : State} {f : Fld} {v a : Nat} (h : a ≠ f.addr) : reg (fset s f v) a = reg s a := reg_setReg_ne h

/-- Setting a field of a register is setting that register. -/
theorem fset_eq (s : State) (f : Fld) (v : Nat) :
    fset s f v = setReg s f.addr (BitVec.ofNat 32 (withBits (reg s f.addr).toNat f.hi f.lo v)) := rfl

/-- The registers stay in canonical form. -/
theorem regs_setReg {s : State} {a : Nat} {v : W32} (h : mwf (regReset s.variant) s.regs = true) :
    mwf (regReset (setReg s a v).variant) (setReg s a v).regs = true := mwf_mput h

end Sys2Proof.Machine
end

