-- ==== Sys2Proof/Laws/Records.lean ====
section
/-! SUPPORT. Context records: fields read after a field is set (R245, R309). -/

namespace Sys2Proof.Machine

@[simp] theorem recWord_setRecWord_same (s : State) (n w : Nat) (v : CapW) : recWord (setRecWord s n w v) n w = v := by
  simp [recWord, setRecWord]

theorem recWord_setRecWord_ne {s : State} {n w m x : Nat} {v : CapW} (h : m * 64 + x ≠ n * 64 + w) :
    recWord (setRecWord s n w v) m x = recWord s m x := by
  simp [recWord, setRecWord, mget_mput_ne h]

/-- A field of a record just set. -/
theorem recBits_set_same {s : State} {n off hi lo v : Nat} (h : lo ≤ hi + 1) (h2 : hi + 8 * (off % 16) < 128) :
    recBits (setRecBits s n off hi lo v) n off hi lo = v % 2 ^ (hi + 1 - lo) := by
  have hlt : withBits (recWord s n (off / 16)).bits.toNat (hi + 8 * (off % 16)) (lo + 8 * (off % 16)) v < 2 ^ 128 :=
    withBits_lt (by omega) (recWord s n (off / 16)).bits.isLt h2
  have e : hi + 8 * (off % 16) + 1 - (lo + 8 * (off % 16)) = hi + 1 - lo := by omega
  simp only [recBits, setRecBits, recWord_setRecWord_same, BitVec.toNat_ofNat, Nat.mod_eq_of_lt hlt]
  rw [bits_withBits_same (by omega), e]

/-- A field of the same record word that shares no bit with it. -/
theorem recBits_set_ne {s : State} {n off hi lo v hi' lo' : Nat} (h : lo ≤ hi + 1) (h2 : hi + 8 * (off % 16) < 128)
    (hd : hi' < lo ∨ hi < lo') : recBits (setRecBits s n off hi lo v) n off hi' lo' = recBits s n off hi' lo' := by
  have hlt : withBits (recWord s n (off / 16)).bits.toNat (hi + 8 * (off % 16)) (lo + 8 * (off % 16)) v < 2 ^ 128 :=
    withBits_lt (by omega) (recWord s n (off / 16)).bits.isLt h2
  simp only [recBits, setRecBits, recWord_setRecWord_same, BitVec.toNat_ofNat, Nat.mod_eq_of_lt hlt]
  exact bits_withBits_ne (by omega) (by omega)

/-- A field of another half of the record word. -/
theorem recBits_set_half {s : State} {n off off' hi lo v hi' lo' : Nat} (h : lo ≤ hi + 1) (h2 : hi + 8 * (off % 16) < 128)
    (he : off / 16 = off' / 16)
    (hd : hi' + 8 * (off' % 16) < lo + 8 * (off % 16) ∨ hi + 8 * (off % 16) < lo' + 8 * (off' % 16)) :
    recBits (setRecBits s n off hi lo v) n off' hi' lo' = recBits s n off' hi' lo' := by
  have hlt : withBits (recWord s n (off / 16)).bits.toNat (hi + 8 * (off % 16)) (lo + 8 * (off % 16)) v < 2 ^ 128 :=
    withBits_lt (by omega) (recWord s n (off / 16)).bits.isLt h2
  simp only [recBits, setRecBits, ← he, recWord_setRecWord_same, BitVec.toNat_ofNat, Nat.mod_eq_of_lt hlt]
  exact bits_withBits_ne (by omega) hd

/-- A field of another record word, or of another record. -/
theorem recBits_set_word {s : State} {n m off off' hi lo v hi' lo' : Nat} (h : m * 64 + off' / 16 ≠ n * 64 + off / 16) :
    recBits (setRecBits s n off hi lo v) m off' hi' lo' = recBits s m off' hi' lo' := by
  simp only [recBits, setRecBits, recWord_setRecWord_ne h]

/-- The state of a context just set. -/
theorem ctxState_set {s : State} {n v : Nat} (h : v < 8) : ctxState (setCtxState s n v) n = v := by
  rw [ctxState, setCtxState, recBits_set_same (by decide) (by decide)]
  exact Nat.mod_eq_of_lt h

end Sys2Proof.Machine
end

