-- ==== Sys2Proof/Laws/Reports.lean ====
section
/-! SUPPORT. What reporting changes: events, errors, counters and trace records touch the pages' registers and the event controller's
counts alone (R108, R109, R345, R575). -/

namespace Sys2Proof.Machine

theorem pagesOnly_refl (s : State) : PagesOnly s s := rfl

theorem pagesOnly_trans {s t u : State} (h : PagesOnly s t) (k : PagesOnly t u) : PagesOnly s u := by
  unfold PagesOnly at *
  rw [k, h]

theorem setReg_only (s : State) (a : Nat) (v : W32) : PagesOnly s (setReg s a v) := rfl
theorem fset_only (s : State) (f : Fld) (v : Nat) : PagesOnly s (fset s f v) := rfl
theorem countUp_only (s : State) (a : Nat) : PagesOnly s (countUp s a) := rfl
theorem fcount_only (s : State) (f : Fld) (n : Nat) : PagesOnly s (fcount s f n) := rfl
theorem setRegBit_only (s : State) (a k : Nat) : PagesOnly s (setRegBit s a k) := rfl

theorem evtOccur_only (s : State) (n : Nat) : PagesOnly s (evtOccur s n) := by
  unfold evtOccur
  split <;> rfl

theorem raise_only (s : State) (b k : Nat) : PagesOnly s (raise s b k) := by
  unfold raise
  split
  · dsimp only
    split
    · exact pagesOnly_trans (pagesOnly_trans (setRegBit_only s _ _) (setRegBit_only _ _ _)) (evtOccur_only _ _)
    · exact setRegBit_only s _ _
  · rfl

theorem capture_only (s : State) (b code addr : Nat) (r : Requester) : PagesOnly s (capture s b code addr r) := by
  unfold capture
  split
  · exact pagesOnly_trans (pagesOnly_trans (pagesOnly_trans (setReg_only s _ _) (setReg_only _ _ _)) (setReg_only _ _ _)) (setReg_only _ _ _)
  · exact fset_only s _ _

theorem fabricError_only (s : State) (source kind addr : Nat) (r : Requester) : PagesOnly s (fabricError s source kind addr r) :=
  pagesOnly_trans (pagesOnly_trans (pagesOnly_trans (pagesOnly_trans (countUp_only s _) (setReg_only _ _ _)) (setReg_only _ _ _))
    (setReg_only _ _ _)) (evtOccur_only _ _)

theorem PagesOnly.cores {s t : State} (h : PagesOnly s t) : t.cores = s.cores := by rw [h]
theorem PagesOnly.mem {s t : State} (h : PagesOnly s t) : t.mem = s.mem := by rw [h]
theorem PagesOnly.variant {s t : State} (h : PagesOnly s t) : t.variant = s.variant := by rw [h]
theorem PagesOnly.trace {s t : State} (h : PagesOnly s t) : t.trace = s.trace := by rw [h]
theorem PagesOnly.core {s t : State} (h : PagesOnly s t) (n : Nat) : Machine.core t n = Machine.core s n := by simp [Machine.core, h.cores]

/-! ### Traces -/

/-- What a trace record changes: the trace buffer beside the pages. -/
theorem traceAppend_only (s : State) (r : W128) : PagesOnly { s with trace := (traceAppend s r).trace } (traceAppend s r) ∧
    (traceAppend s r).trace = mput (fun _ => 0) s.trace (fget s DBG_TRWR_NEXT) r := by
  unfold traceAppend
  dsimp only
  split
  · split
    · have h := pagesOnly_trans (pagesOnly_trans (pagesOnly_trans (fset_only { s with trace := mput (fun _ => 0) s.trace (fget s DBG_TRWR_NEXT) r }
        DBG_TRWR_NEXT 0) (fset_only _ DBG_TRWR_WRAP 1)) (fset_only _ DBG_TRCFG_EN 0)) (raise_only _ 0x13 1)
      have e := h.trace
      exact ⟨by rw [e]; exact h, e⟩
    · have h := pagesOnly_trans (fset_only { s with trace := mput (fun _ => 0) s.trace (fget s DBG_TRWR_NEXT) r }
        DBG_TRWR_NEXT 0) (fset_only _ DBG_TRWR_WRAP 1)
      have e := h.trace
      exact ⟨by rw [e]; exact h, e⟩
  · have h := fset_only { s with trace := mput (fun _ => 0) s.trace (fget s DBG_TRWR_NEXT) r } DBG_TRWR_NEXT (fget s DBG_TRWR_NEXT + 1)
    have e := h.trace
    exact ⟨by rw [e]; exact h, e⟩

theorem cores_traceRec (s : State) (n k p : Nat) : (traceRec s n k p).cores = s.cores := by
  unfold traceRec
  dsimp only
  split
  · exact (traceAppend_only s _).1.cores
  · rfl

@[simp] theorem core_traceRec (s : State) (n k p m : Nat) : core (traceRec s n k p) m = core s m := by simp [core, cores_traceRec]
@[simp] theorem curRegs_traceRec (s : State) (n k p m : Nat) : curRegs (traceRec s n k p) m = curRegs s m := by
  simp [curRegs]
@[simp] theorem curCtx_traceRec (s : State) (n k p m : Nat) : curCtx (traceRec s n k p) m = curCtx s m := by
  simp [curCtx]

theorem trace_traceRec {s : State} {n k p : Nat} (h : traced s n (curCtx s n) k = true) :
    mget (fun _ => 0) (traceRec s n k p).trace (fget s DBG_TRWR_NEXT) = traceWord s n ((curCtx s n).getD 0) k p := by
  unfold traceRec
  rw [if_pos h, (traceAppend_only s _).2, mget_mput_same]

theorem traceRec_off {s : State} {n k p : Nat} (h : traced s n (curCtx s n) k = false) : traceRec s n k p = s := by
  simp [traceRec, h]

end Sys2Proof.Machine
end

