-- ==== Sys2Proof/Laws/Effects.lean ====
section
/-! SUPPORT. What the syllables of a kind leave, once for all of them: those that write a register or a predicate, jumps, calls and returns,
gates, ERET, and the capability instructions whose checks pass. -/

namespace Sys2Proof.Machine
open Sys2Proof.Laws

/-- A syllable that only writes a register. -/
theorem wrote_of {s : State} {h : Syl} {i : Instr} {rd : CReg} {w : CapW} (hg : Encode.Good h (encodeSyl i) i) (ha : Alone s h i)
    (hp : Plain i) (hk : Passes s h.core i)
    (ht : ∀ s1, applyInstr (viewOf s h.core i) (freshHeld (encodeSyl i)) i s1 = putReg s1 h.core (regIdOf s h.core rd.toNat) w)
    (he : exec i s = act s (fun s => issue i s)) : ∃ t, exec i s = .next t ∧ Wrote s t h.core i rd w := by
  obtain ⟨b, hb⟩ := issues_live ha.ready.issues
  refine ⟨_, ?_, wrote_putReg hb⟩
  rw [he, act, ha.ready.free, exec_write hg ha hp hk ht]; rfl

/-- A plain syllable whose effect keeps to the registers, the fault bank and the fetch buffer of its core. -/
theorem exec_core {s t : State} {h : Syl} {i : Instr} (hg : Encode.Good h (encodeSyl i) i) (ha : Alone s h i) (hp : Plain i)
    (hk : Passes s h.core i) (ht : applyInstr (viewOf s h.core i) (freshHeld (encodeSyl i)) i (passed s h.core i) = t)
    (hl : h.core < t.cores.length)
    (hc : core t h.core = { core s h.core with banks := (core t h.core).banks, fbank := (core t h.core).fbank, fbuf := (core t h.core).fbuf }) :
    issue i s = t := by
  have hi := ha.ready.issues
  simp only [canIssue, Bool.and_eq_true] at hi
  refine exec_plain hg ha hp hk ht hl ?_ ?_ ?_ ?_
  · rw [congrArg Core.late hc]; exact ha.ready.noLate
  · rw [congrArg Core.held hc]; simpa using hi.1.1.2
  · rw [congrArg Core.yhalt hc]; exact ha.ready.awake
  · rw [congrArg Core.stepping hc]; exact ha.ready.noStep

/-- Passing the bundle keeps the fault bank. -/
theorem fbank_passed {s : State} {n b : Nat} {i : Instr} (h : Live s n b) : (core (passed s n i) n).fbank = (core s n).fbank :=
  by have e := core_passed (i := i) h; rw [congrArg Core.fbank e]

/-- Passing the bundle changes only the cursor of the PCC. -/
theorem left_passed {s : State} {n b : Nat} {i : Instr} (h : Live s n b) : Left s (passed s n i) n (after s n i) :=
  ⟨curRegs_passed h, fbank_passed h, regsOnly_passed h⟩

/-- A change of the context's registers other than c0–c31, after one of the same kind. -/
theorem left_updRegs {s t : State} {n b : Nat} {r : CtxRegs} {f : CtxRegs → CtxRegs} (hl : Left s t n r) (h : Live t n b)
    (hc : (core t n).cur = (core s n).cur) : Left s (updRegs t n f) n (f r) :=
  ⟨by rw [curRegs_updRegs h, hl.regs], by rw [core_updRegs h]; exact hl.fault, regsOnly_trans hl.frame (regsOnly_updRegs h) hc⟩

/-- A register-only change keeps the current bank. -/
theorem cur_of_inside {s t : State} {n : Nat} (h : RegsOnly s t n) : (core t n).cur = (core s n).cur := by rw [h.inside]

/-- A plain syllable that changes only the context's registers other than c0–c31. -/
theorem left_of {s : State} {h : Syl} {i : Instr} {f : CtxRegs → CtxRegs} (hg : Encode.Good h (encodeSyl i) i) (ha : Alone s h i)
    (hp : Plain i) (hk : Passes s h.core i)
    (ht : ∀ s1, applyInstr (viewOf s h.core i) (freshHeld (encodeSyl i)) i s1 = updRegs s1 h.core f)
    (he : exec i s = act s (fun s => issue i s)) : ∃ t, exec i s = .next t ∧ Left s t h.core (f (after s h.core i)) := by
  obtain ⟨b, hb⟩ := issues_live ha.ready.issues
  have h2 : Live (passed s h.core i) h.core b := live_passed hb
  have hl := left_updRegs (f := f) (left_passed (i := i) hb) h2 (cur_of_inside (regsOnly_passed hb))
  refine ⟨_, ?_, hl⟩
  rw [he, act, ha.ready.free, exec_core hg ha hp hk (ht _) (live_updRegs h2).here hl.frame.inside]; rfl

/-- A plain syllable with no effect. -/
theorem left_of_none {s : State} {h : Syl} {i : Instr} (hg : Encode.Good h (encodeSyl i) i) (ha : Alone s h i)
    (hp : Plain i) (hk : Passes s h.core i)
    (ht : ∀ s1, applyInstr (viewOf s h.core i) (freshHeld (encodeSyl i)) i s1 = s1)
    (he : exec i s = act s (fun s => issue i s)) : ∃ t, exec i s = .next t ∧ Left s t h.core (after s h.core i) := by
  obtain ⟨b, hb⟩ := issues_live ha.ready.issues
  have h2 : Live (passed s h.core i) h.core b := live_passed hb
  have hl := left_passed (i := i) hb
  refine ⟨_, ?_, hl⟩
  rw [he, act, ha.ready.free, exec_core hg ha hp hk (ht _) h2.here hl.frame.inside]; rfl

/-- Reading a predicate after another was written; p0 reads 1 (R135). -/
theorem predOf_set (k : PReg) (hk : k ≠ 0) (b : Bool) (r : CtxRegs) (j : PReg) :
    predOf { r with preds := BitVec.ofNat 8 (withBits r.preds.toNat (k.toNat % 8) (k.toNat % 8) (b2n b)) } j.toNat =
      if j = k ∧ j ≠ 0 then b else predOf r j.toNat := by
  have hk0 : k.toNat ≠ 0 := fun e => hk (BitVec.eq_of_toNat_eq (by simpa using e))
  have hj := j.isLt
  have hk8 := k.isLt
  have h0 : (j.toNat = 0) ↔ j = 0 := ⟨fun e => BitVec.eq_of_toNat_eq (by simpa using e), fun e => by rw [e]; rfl⟩
  have hjk : (j.toNat = k.toNat) ↔ j = k := ⟨fun e => BitVec.eq_of_toNat_eq e, fun e => by rw [e]⟩
  have hlt : withBits r.preds.toNat (k.toNat % 8) (k.toNat % 8) (b2n b) < 2 ^ 8 :=
    withBits_lt (by omega) r.preds.isLt (by omega)
  simp only [predOf, BitVec.toNat_ofNat, Nat.mod_eq_of_lt hlt, bit_eq_testBit]
  rw [withBits_testBit (by omega), Nat.mod_eq_of_lt hj, Nat.mod_eq_of_lt hk8]
  by_cases e : j = k
  · subst e
    have : (b2n b).testBit (j.toNat - j.toNat) = b := by cases b <;> simp [b2n]
    rw [if_pos ⟨Nat.le_refl _, Nat.le_refl _⟩, this, if_pos ⟨rfl, hk⟩]
    simp [hk0]
  · have : ¬ (k.toNat ≤ j.toNat ∧ j.toNat ≤ k.toNat) := fun c => e (hjk.1 (by omega))
    rw [if_neg this, if_neg (fun c => e c.1)]

theorem upd_pcc_glob (r : CtxRegs) (c : CapW) : ({ r with pcc := c } : CtxRegs).glob = r.glob := by cases r; rfl

@[simp] theorem after_glob (s : State) (n : Nat) (i : Instr) : (after s n i).glob = (curRegs s n).glob := upd_pcc_glob _ _

theorem upd_pcc_own (r : CtxRegs) (c : CapW) : ({ r with pcc := c } : CtxRegs).own = r.own := by cases r; rfl

@[simp] theorem after_own (s : State) (n : Nat) (i : Instr) : (after s n i).own = (curRegs s n).own := upd_pcc_own _ _

theorem upd_pcc_pas (r : CtxRegs) (c : CapW) : ({ r with pcc := c } : CtxRegs).pas = r.pas := by cases r; rfl

@[simp] theorem after_pas (s : State) (n : Nat) (i : Instr) : (after s n i).pas = (curRegs s n).pas := upd_pcc_pas _ _

theorem upd_pcc_preds (r : CtxRegs) (c : CapW) : ({ r with pcc := c } : CtxRegs).preds = r.preds := by cases r; rfl

@[simp] theorem after_preds (s : State) (n : Nat) (i : Instr) : (after s n i).preds = (curRegs s n).preds := upd_pcc_preds _ _

theorem upd_pcc_rcnt (r : CtxRegs) (c : CapW) : ({ r with pcc := c } : CtxRegs).rcnt = r.rcnt := by cases r; rfl

@[simp] theorem after_rcnt (s : State) (n : Nat) (i : Instr) : (after s n i).rcnt = (curRegs s n).rcnt := upd_pcc_rcnt _ _

theorem upd_pcc_prog (r : CtxRegs) (c : CapW) : ({ r with pcc := c } : CtxRegs).prog = r.prog := by cases r; rfl

@[simp] theorem after_prog (s : State) (n : Nat) (i : Instr) : (after s n i).prog = (curRegs s n).prog := upd_pcc_prog _ _

theorem upd_pcc_winctl (r : CtxRegs) (c : CapW) : ({ r with pcc := c } : CtxRegs).winctl = r.winctl := by cases r; rfl

@[simp] theorem after_winctl (s : State) (n : Nat) (i : Instr) : (after s n i).winctl = (curRegs s n).winctl := upd_pcc_winctl _ _

theorem upd_pcc_space (r : CtxRegs) (c : CapW) : ({ r with pcc := c } : CtxRegs).space = r.space := by cases r; rfl

@[simp] theorem after_space (s : State) (n : Nat) (i : Instr) : (after s n i).space = (curRegs s n).space := upd_pcc_space _ _

theorem upd_pcc_status (r : CtxRegs) (c : CapW) : ({ r with pcc := c } : CtxRegs).status = r.status := by cases r; rfl

@[simp] theorem after_status (s : State) (n : Nat) (i : Instr) : (after s n i).status = (curRegs s n).status := upd_pcc_status _ _

theorem upd_pcc_sig (r : CtxRegs) (c : CapW) : ({ r with pcc := c } : CtxRegs).sig = r.sig := by cases r; rfl

@[simp] theorem after_sig (s : State) (n : Nat) (i : Instr) : (after s n i).sig = (curRegs s n).sig := upd_pcc_sig _ _

theorem upd_pcc_late (r : CtxRegs) (c : CapW) : ({ r with pcc := c } : CtxRegs).late = r.late := by cases r; rfl

@[simp] theorem after_late (s : State) (n : Nat) (i : Instr) : (after s n i).late = (curRegs s n).late := upd_pcc_late _ _

/-- A predicate depends on the predicates alone. -/
theorem predOf_congr {r q : CtxRegs} (h : r.preds = q.preds) (k : Nat) : predOf r k = predOf q k := by unfold predOf; rw [h]

/-- A predicate written in a context's registers. -/
def predsSet (r : CtxRegs) (k : Nat) (v : Bool) : CtxRegs := { r with preds := BitVec.ofNat 8 (withBits r.preds.toNat (k % 8) (k % 8) (b2n v)) }

/-- Writing a predicate changes the predicates alone. -/
theorem predsSet_upd (r : CtxRegs) (k : Nat) (v : Bool) : predsSet r k v = { r with preds := (predsSet r k v).preds } := by cases r; rfl

/-- Registers with their own predicates put back. -/
theorem preds_self (r : CtxRegs) (p : BitVec 8) (h : p = r.preds) : r = { r with preds := p } := by subst h; cases r; rfl

/-- A plain syllable that only writes a predicate. -/
theorem pred_of {s : State} {h : Syl} {i : Instr} {pd : PReg} {v : Bool} (hg : Encode.Good h (encodeSyl i) i) (ha : Alone s h i)
    (hp : Plain i) (hk : Passes s h.core i)
    (ht : ∀ s1, applyInstr (viewOf s h.core i) (freshHeld (encodeSyl i)) i s1 = setPred s1 h.core pd.toNat v)
    (he : exec i s = act s (fun s => issue i s)) : ∃ t, exec i s = .next t ∧
        (∀ k : PReg, predOf (curRegs t h.core) k.toNat = if k = pd ∧ k ≠ 0 then v else predOf (curRegs s h.core) k.toNat) ∧
        Left s t h.core { after s h.core i with preds := (curRegs t h.core).preds } := by
  have h8 : (pd.toNat % 8 = 0) ↔ pd = 0 := by
    have := pd.isLt
    constructor
    · intro h; exact BitVec.eq_of_toNat_eq (by simp; omega)
    · rintro rfl; rfl
  by_cases e : pd = 0
  · have ht2 : ∀ s1, applyInstr (viewOf s h.core i) (freshHeld (encodeSyl i)) i s1 = s1 := by
      intro s1; rw [ht, setPred, if_pos (h8.2 e)]
    obtain ⟨t, h1, h2⟩ := left_of_none hg ha hp hk ht2 he
    generalize hq : after s h.core i = q at *
    have hpre : q.preds = (curRegs s h.core).preds := by rw [← hq]; exact after_preds _ _ _
    refine ⟨t, h1, ?_, ?_⟩
    · intro k
      rw [h2.regs, if_neg (by rintro ⟨rfl, h⟩; exact h e)]
      exact predOf_congr hpre _
    · exact ⟨h2.regs.trans (preds_self q _ (congrArg CtxRegs.preds h2.regs)), h2.fault, h2.frame⟩
  · have ht2 : ∀ s1, applyInstr (viewOf s h.core i) (freshHeld (encodeSyl i)) i s1 = updRegs s1 h.core (fun r => predsSet r pd.toNat v) := by
      intro s1; rw [ht, setPred, if_neg (fun c => e (h8.1 c))]; rfl
    obtain ⟨t, h1, h2⟩ := left_of hg ha hp hk ht2 he
    generalize hq : after s h.core i = q at *
    have hpre : q.preds = (curRegs s h.core).preds := by rw [← hq]; exact after_preds _ _ _
    have hr : curRegs t h.core = predsSet q pd.toNat v := h2.regs
    refine ⟨t, h1, ?_, ?_⟩
    · intro k
      rw [hr, show predOf (predsSet q pd.toNat v) k.toNat = _ from predOf_set pd e v q k]
      rw [predOf_congr hpre]
    · refine ⟨?_, h2.fault, h2.frame⟩
      rw [hr]; exact predsSet_upd _ _ _

/-- A trace record keeps the seat. -/
theorem live_trace {s : State} {n b k p : Nat} (h : Live s n b) : Live (traceRec s n k p) n b :=
  ⟨by rw [cores_traceRec]; exact h.here, by rw [core_traceRec]; exact h.cur, by rw [core_traceRec]; exact h.bank⟩

/-- Emptying the fetch buffer keeps the seat. -/
theorem live_flush {s : State} {n b : Nat} (h : Live s n b) : Live (flushFetch s n) n b := live_updCore h rfl rfl

/-- Written places gathered by `Changed`. -/
theorem getReg_congr {s t : State} {n : Nat} (h1 : curRegs t n = curRegs s n) (h2 : (core t n).fbank = (core s n).fbank) (id : RegId) :
    getReg t n id = getReg s n id := by
  cases id <;> simp only [getReg, h1, h2]

/-- Registers with their own c registers put back. -/
theorem regs_self (r : CtxRegs) : r = { r with glob := r.glob, own := r.own, pas := r.pas } := by cases r; rfl

/-- The debug unit is present in every variant (R576). -/
theorem dbg_present (v : Variant) : Config.present v 0x13 = true := by cases v <;> rfl

/-- What a state holds after some transfers' worth of changes: from the passed state on, only c0–c31 places of `w`, the other registers
of the context as `f` makes them. -/
theorem jump_state {s1 : State} {n b : Nat} {p : CapW} {kind : Nat} (h : Live s1 n b) :
    let t := jumpTo s1 n p kind
    Live t n b ∧ curRegs t n = { curRegs s1 n with pcc := p } ∧ (core t n).fbank = (core s1 n).fbank ∧ (core t n).fbuf = [] ∧
      core t n = { core s1 n with banks := (core t n).banks, fbuf := (core t n).fbuf } ∧
      (traced s1 n (curCtx s1 n) kind = false → RegsOnly s1 t n) ∧
      (traced s1 n (curCtx s1 n) kind = true →
        mget (fun _ => 0) t.trace (fget s1 DBG_TRWR_NEXT) = traceWord s1 n ((curCtx s1 n).getD 0) kind (capCursor p % 2 ^ 48)) := by
  have h2 : Live (setPcc s1 n p) n b := live_updRegs h
  have h3 : Live (flushFetch (setPcc s1 n p) n) n b := live_flush h2
  have c2 : core (setPcc s1 n p) n = _ := core_updRegs h
  have c3 : core (flushFetch (setPcc s1 n p) n) n = { core (setPcc s1 n p) n with fbuf := [] } := core_updCore_same h2.here
  have r3 : curRegs (flushFetch (setPcc s1 n p) n) n = { curRegs s1 n with pcc := p } := by
    unfold flushFetch
    rw [curRegs_updCore h2.here rfl rfl]; unfold setPcc; rw [curRegs_updRegs h]
  have hs : ∀ a, reg (flushFetch (setPcc s1 n p) n) a = reg s1 a := by
    intro a; unfold flushFetch setPcc; rw [updRegs_live h]; rfl
  have hx : curCtx (flushFetch (setPcc s1 n p) n) n = curCtx s1 n := by
    have := (regsOnly_updCore (f := fun c => { c with fbuf := [] }) h2 rfl).context
    exact this.trans (curCtx_updRegs h)
  have ht : traced (flushFetch (setPcc s1 n p) n) n (curCtx (flushFetch (setPcc s1 n p) n) n) kind = traced s1 n (curCtx s1 n) kind := by
    rw [hx]; simp only [traced, running, dbg_present, Bool.true_and, blkState, fon, fget, accepted, hs]
  have hw : ∀ q, traceWord (flushFetch (setPcc s1 n p) n) n ((curCtx (flushFetch (setPcc s1 n p) n) n).getD 0) kind q =
      traceWord s1 n ((curCtx s1 n).getD 0) kind q := by
    intro q; rw [hx]; simp only [traceWord, axisPos, pair, hs]
  refine ⟨live_trace h3, ?_, ?_, ?_, ?_, ?_, ?_⟩
  · rw [jumpTo, curRegs_traceRec, r3]
  · rw [jumpTo, core_traceRec, c3, c2]
  · rw [jumpTo, core_traceRec, c3]
  · rw [jumpTo, core_traceRec, c3, c2]
  · intro hf
    rw [jumpTo, traceRec_off (by rw [ht]; exact hf)]
    exact regsOnly_trans (regsOnly_updRegs h) (regsOnly_updCore h2 rfl) (cur_of_inside (regsOnly_updRegs h))
  · intro hf
    have e := trace_traceRec (s := flushFetch (setPcc s1 n p) n) (n := n) (k := kind) (p := capCursor p % 2 ^ 48) (by rw [ht]; exact hf)
    rw [hw] at e
    simpa only [fget, hs, jumpTo] using e

/-- What tracing looks at is not changed by register-only changes. -/
theorem traced_congr {s t : State} {n k : Nat} (h1 : ∀ a, reg t a = reg s a) (h2 : curCtx t n = curCtx s n) :
    traced t n (curCtx t n) k = traced s n (curCtx s n) k ∧ (∀ q, traceWord t n ((curCtx t n).getD 0) k q = traceWord s n ((curCtx s n).getD 0) k q) ∧
    (∀ f, fget t f = fget s f) := by
  refine ⟨?_, ?_, ?_⟩
  · rw [h2]; simp only [traced, running, dbg_present, Bool.true_and, blkState, fon, fget, accepted, h1]
  · intro q; rw [h2]; simp only [traceWord, axisPos, pair, h1]
  · intro f; simp only [fget, h1]

/-- A register-only change touches no page register. -/
theorem reg_of_only {s t : State} {n : Nat} (h : RegsOnly s t n) (a : Nat) : reg t a = reg s a := by
  rw [h.outside]; rfl

/-- A jump from `s1`, which differs from `s` in registers only. -/
theorem jumped_of {s s1 : State} {n b : Nat} {p : CapW} {kind : Nat} (ho : RegsOnly s s1 n) (h : Live s1 n b) :
    Jumped s (jumpTo s1 n p kind) n kind (capCursor p % 2 ^ 48) := by
  obtain ⟨h1, h2, h3, h4, h5, h6, h7⟩ := jump_state (p := p) (kind := kind) h
  obtain ⟨t1, t2, t3⟩ := traced_congr (k := kind) (reg_of_only ho) ho.context
  refine ⟨h4, ?_, ?_⟩
  · intro hf
    exact regsOnly_trans ho (h6 (by rw [t1]; exact hf)) (cur_of_inside ho)
  · intro hf
    have := h7 (by rw [t1]; exact hf)
    rw [t2, t3] at this
    exact this

/-- More register changes after a jump. -/
theorem jumped_regs {s t : State} {n b k x : Nat} {f : CtxRegs → CtxRegs} (h : Jumped s t n k x) (hl : Live t n b) :
    Jumped s (updRegs t n f) n k x := by
  refine ⟨?_, ?_, ?_⟩
  · rw [core_updRegs hl]; exact h.flushed
  · intro hf
    have ho := h.frame hf
    exact regsOnly_trans ho (regsOnly_updRegs hl) (cur_of_inside ho)
  · intro hf
    rw [updRegs_live hl]; exact h.record hf

/-- Its low 32 bits. -/
theorem xreg_low (x : W64) (r : CReg) (s : State) (h : Syl) (i : Instr) : (xreg s h.core r).setWidth 32 = (viewOf s h.core i).f r := by
  apply BitVec.eq_of_toNat_eq
  simp [xreg, View.f, View.x, View.c, viewOf]

/-- ≤ as not <, signed. -/
theorem sle_not (x y : W64) : y.sle x = !x.slt y := by
  rw [BitVec.sle_eq_not_slt]

/-- ≤ as not <, unsigned. -/
theorem ule_not (x y : W64) : y.ule x = !x.ult y := by
  rw [BitVec.ule_eq_not_ult]

/-- The target of a displacement, in the two ways it is computed. -/
theorem target_eq (a : Nat) (ha : a < 2 ^ 64) (d : BitVec 19) :
    (((a : Int) + signed 19 d.toNat * 4) % (2 ^ 64 : Nat)).toNat = (BitVec.ofNat 64 a + d.signExtend 64 * 4).toNat := by
  have e : d.signExtend 64 = BitVec.ofInt 64 (signed 19 d.toNat) := by
    rw [BitVec.signExtend, BitVec.toInt_eq_toNat_cond]
    congr 1
    unfold signed
    have := d.isLt
    split <;> split <;> omega
  rw [e]
  have e2 : (4 : BitVec 64) = BitVec.ofInt 64 4 := rfl
  have e3 : BitVec.ofNat 64 a = BitVec.ofInt 64 a := by simp
  rw [e2, e3, ← BitVec.ofInt_mul, ← BitVec.ofInt_add, BitVec.toNat_ofInt]

/-- The check of R158 passes for a target. -/
theorem targetChk_pass {s : State} {n : Nat} {i : Instr} {r : CReg} (h : Target (readC s n r.toNat)) : (viewOf s n i).targetChk r = .pass := by
  have e : (viewOf s n i).c r = readC s n r.toNat := rfl
  simp [View.targetChk, e, h.tag, h.plain, h.exec, h.aligned]

/-- A change that writes no c register. -/
theorem changed_nil {s t : State} {n : Nat} {r : CtxRegs} (hr : curRegs t n = r) (hf : (core t n).fbank = (core s n).fbank)
    (hg : r.glob = (curRegs s n).glob) (ho : r.own = (curRegs s n).own) (hp : r.pas = (curRegs s n).pas) : Changed s t n [] r := by
  refine ⟨by simp, ?_, ?_⟩
  · intro id _
    cases id <;> simp only [getReg, hr, hf, hg, ho, hp]
  · rw [hr]

/-- The PCC written twice. -/
theorem upd_pcc_self (r : CtxRegs) (c d : CapW) : ({ ({ r with pcc := c } : CtxRegs) with pcc := d } : CtxRegs) = { r with pcc := d } := by
  cases r; rfl

/-- An address is below 2^64. -/
theorem pcAddr_lt (s : State) (n : Nat) : pcAddr s n < 2 ^ 64 := Nat.mod_lt _ (by decide)

/-- The fields of a WINCTL put together. -/
theorem mkWin_fields (d g o c : Nat) (hg : g < 8) (ho : o < 8) (hc : c < 8) (hd : d < 65536) :
    winSdepth (mkWin d g o c) = d ∧ winGuard (mkWin d g o c) = g ∧ winOcc (mkWin d g o c) = o ∧ winCur (mkWin d g o c) = c := by
  simp only [winSdepth, winGuard, winOcc, winCur, mkWin, bits, BitVec.toNat_ofNat]
  refine ⟨?_, ?_, ?_, ?_⟩ <;> omega

/-- The fields of WINCTL are within their widths. -/
theorem win_lt (w : W32) : winCur w < 8 ∧ winOcc w < 8 ∧ winGuard w < 8 ∧ winSdepth w < 65536 :=
  ⟨bits_lt _ _ _, bits_lt _ _ _, bits_lt _ _ _, bits_lt _ _ _⟩

/-- A call moves the window up. -/
theorem rotated_up (w : W32) (h : winOcc w ≠ 7) : Rotated w (moveCur w ((winCur w + 1) % 8) (winOcc w + 1) false) true := by
  have hl := win_lt w
  obtain ⟨e1, e2, e3, e4⟩ := mkWin_fields (winSdepth w) (((winCur w + 1) % 8 + 1) % 8) (winOcc w + 1) ((winCur w + 1) % 8)
    (Nat.mod_lt _ (by decide)) (by omega) (Nat.mod_lt _ (by decide)) hl.2.2.2
  exact ⟨e4, e3, e2.trans (by rw [show winCur (moveCur w ((winCur w + 1) % 8) (winOcc w + 1) false) = _ from e4]), e1⟩

/-- A return moves it down. -/
theorem rotated_down (w : W32) (h : 1 < winOcc w) : Rotated w (moveCur w ((winCur w + 7) % 8) (winOcc w - 1) false) false := by
  have hl := win_lt w
  obtain ⟨e1, e2, e3, e4⟩ := mkWin_fields (winSdepth w) (((winCur w + 7) % 8 + 1) % 8) (winOcc w - 1) ((winCur w + 7) % 8)
    (Nat.mod_lt _ (by decide)) (by omega) (Nat.mod_lt _ (by decide)) hl.2.2.2
  exact ⟨e4, e3, e2.trans (by rw [show winCur (moveCur w ((winCur w + 7) % 8) (winOcc w - 1) false) = _ from e4]), e1⟩

/-- the window check of a lone call or return that does not trap -/
theorem window_up {s : State} {h : Syl} {i : Instr} (hg : Encode.Good h (encodeSyl i) i) (hc : condOn s h = true)
    (hk : windowKind i = some true) (he : stEXL (status s h.core) = false) (ho : winOcc (curRegs s h.core).winctl ≠ 7) :
    windowChk s (soleBundle s h.core i) = .pass := by
  obtain ⟨x, hx, hxi, hv⟩ := alone_slot hg hc
  have hn : (soleBundle s h.core i).n = h.core := rfl
  simp [windowChk, hx, hn, hxi, hk, he, ho]

/-- The window check of a lone return that does not trap. -/
theorem window_down {s : State} {h : Syl} {i : Instr} (hg : Encode.Good h (encodeSyl i) i) (hc : condOn s h = true)
    (hk : windowKind i = some false) (he : stEXL (status s h.core) = false) (ho : 1 < winOcc (curRegs s h.core).winctl) :
    windowChk s (soleBundle s h.core i) = .pass := by
  obtain ⟨x, hx, hxi, hv⟩ := alone_slot hg hc
  have hn : (soleBundle s h.core i).n = h.core := rfl
  simp [windowChk, hx, hn, hxi, hk, he]; omega

/-- The registers after a call, put together. -/
theorem upd_call (r : CtxRegs) (c p : CapW) (g o q : List CapW) (w : W32) :
    ({ ({ ({ ({ r with pcc := c } : CtxRegs) with glob := g, own := o, pas := q } : CtxRegs) with pcc := p } : CtxRegs) with winctl := w } : CtxRegs) =
      { ({ r with pcc := p, winctl := w } : CtxRegs) with glob := g, own := o, pas := q } := by cases r; rfl

/-- CALL and CALLR: link written, jump, window up. -/
theorem call_core {s : State} {n b : Nat} {i : Instr} {dst lk : CapW} (hb : Live s n b) (he : stEXL (status s n) = false)
    (ho : winOcc (curRegs s n).winctl ≠ 7) :
    let t := rotate (jumpTo (putReg (passed s n i) n (regIdOf s n 31) lk) n dst 1) n true
    Live t n b ∧ Changed s t n [(regIdOf s n 31, lk)] { curRegs s n with pcc := dst, winctl := (curRegs t n).winctl } ∧
      Rotated (curRegs s n).winctl (curRegs t n).winctl true ∧ Jumped s t n 1 (capCursor dst % 2 ^ 48) ∧
      core t n = { core s n with banks := (core t n).banks, fbank := (core t n).fbank, fbuf := (core t n).fbuf } := by
  have h2 : Live (passed s n i) n b := live_passed hb
  have h3 : Live (putReg (passed s n i) n (regIdOf s n 31) lk) n b := live_putReg h2
  have ho3 : RegsOnly s (putReg (passed s n i) n (regIdOf s n 31) lk) n :=
    regsOnly_trans (regsOnly_passed hb) (regsOnly_putReg h2) (cur_of_inside (regsOnly_passed hb))
  have hj := jumped_of (p := dst) (kind := 1) ho3 h3
  obtain ⟨j1, j2, j3, j4, j5, j6, j7⟩ := jump_state (p := dst) (kind := 1) h3
  generalize hu : jumpTo (putReg (passed s n i) n (regIdOf s n 31) lk) n dst 1 = u at *
  have hr3 := curRegs_putReg (id := regIdOf s n 31) (w := lk) h2
  have hw : (curRegs u n).winctl = (curRegs s n).winctl ∧ (curRegs u n).status = (curRegs s n).status := by
    rw [j2, hr3, curRegs_passed hb]; exact ⟨rfl, rfl⟩
  have ht : curRegs (rotate u n true) n = { curRegs u n with winctl := moveCur (curRegs s n).winctl ((winCur (curRegs s n).winctl + 1) % 8) (winOcc (curRegs s n).winctl + 1) false } := by
    unfold rotate
    rw [curRegs_updRegs j1]
    have e2 : stEXL (curRegs u n).status = false := by rw [hw.2]; exact he
    rw [hw.1, e2]; rfl
  have hfb : (core (rotate u n true) n).fbank = (core u n).fbank := by unfold rotate; rw [core_updRegs j1]
  have eg : ∀ id, getReg (rotate u n true) n id = getReg (putReg (passed s n i) n (regIdOf s n 31) lk) n id := by
    intro id
    cases id <;> simp only [getReg, ht, hfb, j3, j2]
  refine ⟨live_updRegs j1, ⟨?_, ?_, ?_⟩, ?_, jumped_regs hj j1, ?_⟩
  · intro p hp
    simp only [List.mem_singleton] at hp
    subst hp
    rw [eg]
    by_cases hnl : regIdOf s n 31 = .null
    · rw [if_pos hnl, hnl]; rfl
    · rw [if_neg hnl, getReg_putReg_same h2 hnl]
  · intro id hid
    have hne : regIdOf s n 31 ≠ id := hid _ (List.mem_singleton.2 rfl)
    rw [eg, getReg_putReg_ne h2 hne, getReg_passed hb]
  · rw [ht, j2, hr3, curRegs_passed hb]
  · rw [ht]; exact rotated_up _ ho
  · unfold rotate
    rw [core_updRegs j1, j5, core_putReg h2, core_passed hb]

/-- The privilege check of a syllable that may run. -/
theorem priv_ok {s : State} {h : Syl} {i : Instr} (hg : Encode.Good h (encodeSyl i) i) (hc : condOn s h = true)
    (hi : mayPrivileged s h.core) : privChk s (soleBundle s h.core i) = .pass := by
  obtain ⟨x, hx, hxi, hv⟩ := alone_slot hg hc
  have hn : (soleBundle s h.core i).n = h.core := rfl
  unfold privChk
  split
  · rfl
  · rw [hn, hi.1, hi.2]; simp

/-- c30 and c31 are two places. -/
theorem regId_30_31 (s : State) (n : Nat) : regIdOf s n 30 ≠ regIdOf s n 31 := by
  intro h
  have := regPlace_inj (by decide) (by decide) h
  exact absurd this (by decide)

/-- Only c0 has no place. -/
theorem regId_ne_null (s : State) (n r : Nat) (h : r ≠ 0) : regIdOf s n r ≠ .null := by
  intro k; exact h (regPlace_null.1 k)

/-- What CALLG and RETG leave. -/
theorem gate_core {s s2 : State} {n b : Nat} {r : Nat} {dst : CapW} {up : Bool} {w : List (RegId × CapW)} (hb : Live s n b)
    (h2 : Live s2 n b) (ho : RegsOnly s s2 n)
    (hr2 : curRegs s2 n = { curRegs s n with pcc := (curRegs s2 n).pcc, glob := (curRegs s2 n).glob, own := (curRegs s2 n).own, pas := (curRegs s2 n).pas })
    (hd : ∀ p ∈ w, getReg s2 n p.1 = if p.1 = .null then nullW else p.2)
    (hk : ∀ id, (∀ p ∈ w, p.1 ≠ id) → getReg s2 n id = getReg s n id)
    (he : stEXL (status s n) = false) :
    let t := rotate (setRing (jumpTo s2 n dst 3) n r) n up
    let st := status s n
    Live t n b ∧ Changed s t n w { curRegs s n with pcc := dst, winctl := (curRegs t n).winctl, status := mkStatus (stLAZYP st) (stPRECLONG st) (stSYNCST st) (stDFL st) false r (stIE st) } ∧
      (curRegs t n).winctl = (if up then moveCur (curRegs s n).winctl ((winCur (curRegs s n).winctl + 1) % 8) (winOcc (curRegs s n).winctl + 1) false
        else moveCur (curRegs s n).winctl ((winCur (curRegs s n).winctl + 7) % 8) (winOcc (curRegs s n).winctl - 1) false) ∧
      Jumped s t n 3 (capCursor dst % 2 ^ 48) ∧
      core t n = { core s n with banks := (core t n).banks, fbank := (core t n).fbank, fbuf := (core t n).fbuf } := by
  have hj := jumped_of (p := dst) (kind := 3) ho h2
  obtain ⟨j1, j2, j3, j4, j5, j6, j7⟩ := jump_state (p := dst) (kind := 3) h2
  generalize hu : jumpTo s2 n dst 3 = u at *
  have hst : status u n = status s n := by unfold status; rw [j2, hr2]
  let v := setRing u n r
  obtain ⟨f, hf⟩ : ∃ f, v = updRegs u n f := by
    show ∃ f, setRing u n r = updRegs u n f
    unfold setRing setStatus; exact ⟨_, rfl⟩
  have jv : Live v n b := by rw [hf]; exact live_updRegs j1
  have hv : curRegs v n = { curRegs u n with status := mkStatus (stLAZYP (status s n)) (stPRECLONG (status s n)) (stSYNCST (status s n)) (stDFL (status s n)) false r (stIE (status s n)) } := by
    show curRegs (setRing u n r) n = _
    unfold setRing setStatus
    rw [curRegs_updRegs j1, hst, he]
  have hmk : ∀ a b c d e f, stEXL (mkStatus a b c d false e f) = false := by
    intro a b c d e f
    simp only [stEXL, mkStatus, bit, BitVec.toNat_ofNat]
    have : e % 4 < 4 := Nat.mod_lt _ (by decide)
    cases a <;> cases b <;> cases c <;> cases d <;> cases f <;> simp [b2n] <;> omega
  have hwin : (curRegs v n).winctl = (curRegs s n).winctl := by rw [hv, j2, hr2]
  have ht : curRegs (rotate v n up) n = { curRegs v n with winctl := (if up then moveCur (curRegs s n).winctl ((winCur (curRegs s n).winctl + 1) % 8) (winOcc (curRegs s n).winctl + 1) false
        else moveCur (curRegs s n).winctl ((winCur (curRegs s n).winctl + 7) % 8) (winOcc (curRegs s n).winctl - 1) false) } := by
    unfold rotate
    rw [curRegs_updRegs jv, hwin]
    have e2 : stEXL (curRegs v n).status = false := by rw [hv]; exact hmk _ _ _ _ _ _
    rw [e2]
  have hfb : (core (rotate v n up) n).fbank = (core s2 n).fbank := by
    unfold rotate; rw [core_updRegs jv]; show (core v n).fbank = _; rw [hf, core_updRegs j1]; exact j3
  have eg : ∀ id, getReg (rotate v n up) n id = getReg s2 n id := by
    intro id
    cases id <;> simp only [getReg, ht, hv, hfb, j2]
  refine ⟨live_updRegs jv, ⟨?_, ?_, ?_⟩, ?_, jumped_regs (by show Jumped s v n 3 _; rw [hf]; exact jumped_regs hj j1) jv, ?_⟩
  · intro p hp; rw [eg]; exact hd p hp
  · intro id hid; rw [eg]; exact hk id hid
  · have hq : curRegs (rotate (setRing u n r) n up) n = _ := ht
    rw [hq, hv, j2, hr2]
  · show (curRegs (rotate v n up) n).winctl = _
    rw [ht]
  · show core (rotate v n up) n = _
    unfold rotate
    rw [core_updRegs jv, hf, core_updRegs j1, j5, ho.inside]

/-- What ERET leaves. -/
theorem eret_core {s : State} {n b : Nat} {i : Instr} {dst : CapW} {f : CtxRegs → CtxRegs} (hb : Live s n b)
    (hf1 : ∀ r, (f r).glob = r.glob ∧ (f r).own = r.own ∧ (f r).pas = r.pas) :
    let t := jumpTo (updRegs (passed s n i) n f) n dst 3
    Live t n b ∧ curRegs t n = { f (after s n i) with pcc := dst } ∧
      Changed s t n [] { f (after s n i) with pcc := dst } ∧ Jumped s t n 3 (capCursor dst % 2 ^ 48) ∧
      core t n = { core s n with banks := (core t n).banks, fbank := (core t n).fbank, fbuf := (core t n).fbuf } := by
  have hp := live_passed (i := i) hb
  have hp2 : Live (updRegs (passed s n i) n f) n b := live_updRegs hp
  have hl := left_updRegs (f := f) (left_passed (i := i) hb) hp (cur_of_inside (regsOnly_passed hb))
  obtain ⟨j1, j2, j3, j4, j5, j6, j7⟩ := jump_state (p := dst) (kind := 3) hp2
  have hr : curRegs (jumpTo (updRegs (passed s n i) n f) n dst 3) n = { f (after s n i) with pcc := dst } := by rw [j2, hl.regs]
  refine ⟨j1, hr, ?_, jumped_of hl.frame hp2, by rw [j5, hl.frame.inside]⟩
  refine changed_nil hr (by rw [j3, hl.fault]) ?_ ?_ ?_
  · rw [upd_pcc_glob, (hf1 _).1, after_glob]
  · rw [upd_pcc_own, (hf1 _).2.1, after_own]
  · rw [upd_pcc_pas, (hf1 _).2.2, after_pas]

/-- The check of ERET passes. -/
theorem eretChk_pass {s : State} {n : Nat} {i : Instr} (h : Target (eretTarget s n)) (hr : eretReloads (status s n) = false) (hd : Held) :
    eretChk (viewOf s n i) hd = .pass := by
  have e : (viewOf s n i).pre = s := rfl
  have e1 : (viewOf s n i).n = n := rfl
  have e2 : (viewOf s n i).st = status s n := rfl
  have : returnable (eretTarget s n) = true := by simp [returnable, h.tag, h.plain, h.exec, h.aligned]
  simp [eretChk, e, e1, e2, this, hr]

/-- retf -/
def eretF (e : BitVec 11) (r : CtxRegs) : CtxRegs :=
  { r with
    status := mkStatus false (stPRECLONG e) (stSYNCST e) false false (stRING e) (stIE e)
    winctl := mkWin (winSdepth r.winctl) (((winGuard r.winctl + 7) % 8 + 1) % 8) (winOcc r.winctl) ((winGuard r.winctl + 7) % 8) }

/-- The PCC over ERET's registers. -/
theorem eretF_upd (e : BitVec 11) (r : CtxRegs) (c p : CapW) : ({ eretF e { r with pcc := c } with pcc := p } : CtxRegs) =
    { r with
      pcc := p, winctl := mkWin (winSdepth r.winctl) (((winGuard r.winctl + 7) % 8 + 1) % 8) (winOcc r.winctl) ((winGuard r.winctl + 7) % 8)
      status := mkStatus false (stPRECLONG e) (stSYNCST e) false false (stRING e) (stIE e) } := by cases r; rfl

/-- Two changes of the context's registers are one. -/
theorem updRegs_updRegs {s : State} {n b : Nat} {f g : CtxRegs → CtxRegs} (h : Live s n b) :
    updRegs (updRegs s n f) n g = updRegs s n (fun r => g (f r)) := by
  rw [updRegs_live (live_updRegs h), updRegs_live h, updRegs_live h, updCore_updCore h.here]
  unfold updCore
  congr 1
  simp only [modAt, List.modify_modify_eq, Function.comp_def]

/-- Changes that agree on the registers at hand agree. -/
theorem updRegs_congr {s : State} {n b : Nat} {g1 g2 : CtxRegs → CtxRegs} (h : Live s n b) (e : g1 (curRegs s n) = g2 (curRegs s n)) :
    updRegs s n g1 = updRegs s n g2 := by
  rw [curRegs_live h] at e
  have key : modAt (core s n).banks b (fun r => { r with regs := g1 r.regs }) = modAt (core s n).banks b (fun r => { r with regs := g2 r.regs }) := by
    have hb := h.bank
    generalize hl : (core s n).banks = l at hb
    have e2 : g1 (l.getD b ResBank.empty).regs = g2 (l.getD b ResBank.empty).regs := by rw [← hl]; exact e
    unfold modAt
    apply List.ext_getElem?
    intro j
    rw [List.getElem?_modify, List.getElem?_modify]
    by_cases hj : b = j
    · subst hj
      rw [List.getD_eq_getElem?_getD, List.getElem?_eq_getElem hb] at e2
      rw [List.getElem?_eq_getElem hb]
      simp only [Option.getD_some] at e2
      simp [e2]
    · simp [hj]
  rw [updRegs_live h, updRegs_live h]
  unfold updCore
  dsimp only
  rw [key]

/-- The PCC set as a change of the registers. -/
theorem setPcc_eq (s : State) (n : Nat) (c : CapW) : setPcc s n c = updRegs s n (fun r => { r with pcc := c }) := rfl

/-- The address after the PCC was set. -/
theorem pcAddr_setPcc {s : State} {n b : Nat} {c : CapW} (h : Live s n b) : pcAddr (setPcc s n c) n = capCursor c := by
  simp only [pcAddr, pcc, setPcc]
  rw [curRegs_updRegs h]

/-- The registers after ERET, put together. -/
theorem eret_upd (r : CtxRegs) (c p : CapW) (g o q : List CapW) (st : BitVec 11) (w : W32) :
  ({ ({ ({ r with pcc := c } : CtxRegs) with status := st, winctl := w } : CtxRegs) with pcc := p } : CtxRegs) = { r with pcc := p, winctl := w, status := st } := by
  cases r; rfl

/-- The check of a capability instruction whose result exists. -/
theorem kchk_ok (v : View) (r : Chk CapW) (w : CapW) (h : r = .ok w) (cs : CReg) (k : Nat) : v.kChk r cs k = .pass := by
  subst h; rfl

/-- Its effect. -/
theorem kdo_ok (v : View) (r : Chk CapW) (w : CapW) (h : r = .ok w) (rd : CReg) (s : State) : v.kDo r rd s = v.wr s rd w := by
  subst h; rfl

/-- KWRAP under its conditions. -/
theorem kwrap_ok {s : State} {c a : CapW} (h1 : c.tag = true → capOtype c = 0) (h2 : a.tag = true ∧ capOtype a = 0 ∧ capBase a ≤ capCursor a ∧ (capCursor a : Int) < capTop a)
   (h3 : hasPerm a pSEAL = true) (h4 : ((1 ≤ capCursor a ∧ capCursor a ≤ 4031 ∧ typeRevoked s (capCursor a) = false) ∨
            (0xFC0 ≤ capCursor a ∧ capCursor a ≤ 0xFC3 ∧ (c.tag = true → hasPerm c pEXEC = true) ∧ hasPerm a pGATE = true))) :
   kWrap s c a = .ok (setOtype c (capCursor a)) := by
  obtain ⟨a1, a2, a3, a4⟩ := h2
  have hs : sealedSrc c = false := by
    unfold sealedSrc; cases hc : c.tag <;> simp_all
  have hc : cursorIn a = true := by simp [cursorIn, a3, a4]
  rcases h4 with ⟨b1, b2, b3⟩ | ⟨b1, b2, b3, b4⟩
  · have n1 : ¬ (0xFC0 ≤ capCursor a) := by omega
    simp [kWrap, hs, a1, a2, h3, hc, b1, b2, b3, n1]
  · have n1 : ¬ (capCursor a ≤ 4031) := by omega
    have : (c.tag && !hasPerm c pEXEC) = false := by cases hc : c.tag <;> simp_all
    simp only [kWrap, hs, a1, a2, h3, hc, b1, b2, b4, n1]
    simp [this]

/-- KUNWRAP under its conditions. -/
theorem kunwrap_ok {s : State} {c a : CapW} (h2 : a.tag = true ∧ capOtype a = 0 ∧ capBase a ≤ capCursor a ∧ (capCursor a : Int) < capTop a)
   (h3 : hasPerm a pUNSEAL = true) (h4 : typeRevoked s (capCursor a) = false) 
   (h5 : c.tag = true → 1 ≤ capOtype c ∧ capOtype c ≤ 4031 ∧ capCursor a = capOtype c) :
   kUnwrap s c a = .ok (if hasPerm c pGLOBAL && hasPerm a pGLOBAL then setOtype c 0 else clearGlobal (setOtype c 0)) := by
  obtain ⟨a1, a2, a3, a4⟩ := h2
  have hc : cursorIn a = true := by simp [cursorIn, a3, a4]
  cases ht : c.tag
  · simp [kUnwrap, a1, a2, h3, hc, ht, h4]
  · obtain ⟨b1, b2, b3⟩ := h5 ht
    have b4 : 1 ≤ capCursor a := by omega
    simp [kUnwrap, a1, a2, h3, hc, ht, h4, b1, b2, b3]
    simp [← b3, h4]

/-- A source that is not sealed. -/
theorem sealed_plain {c : CapW} (h1 : c.tag = true → capOtype c = 0) : sealedSrc c = false := by
    unfold sealedSrc; cases hc : c.tag <;> simp_all

/-- A cursor moved. -/
theorem kCursor_ok {c : CapW} {v : Nat} (h : c.tag = true → capOtype c = 0) : kCursor c v = .ok (setCursor c v) := by
  simp [kCursor, sealed_plain h]

/-- Rights taken away. -/
theorem kTrim_ok {c : CapW} {v : Nat} (h : c.tag = true → capOtype c = 0) : kTrim c v = .ok (setPerm c (capPerm c &&& (v &&& 0x3FFF))) := by
  simp only [kTrim, sealed_plain h]; rfl

/-- An operand in the two ways it is read. -/
theorem view_x (s : State) (h : Syl) (i : Instr) (r : CReg) : (viewOf s h.core i).x r = (xreg s h.core r).toNat := by
  simp [xreg, View.x, View.c, viewOf, Nat.mod_eq_of_lt, capCursor]

/-- The low 32 bits as a signed number. -/
theorem sgn32 (x : W64) : signed 32 x.toNat = (x.setWidth 32).toInt := by
  rw [BitVec.toInt_eq_toNat_cond]; unfold signed
  have e : (BitVec.setWidth 32 x).toNat = x.toNat % 2 ^ 32 := by simp
  rw [e]; split <;> split <;> omega

/-- 64 bits as a signed number. -/
theorem sgn64 (x : W64) : signed 64 x.toNat = x.toInt := by
  rw [BitVec.toInt_eq_toNat_cond]; unfold signed
  have := x.isLt
  split <;> split <;> omega

/-- Sign extension in the two ways it is computed. -/
theorem sext_eq (n : Nat) (hn : n ≤ 64) (h0 : 0 < n) (x : W64) : BitVec.ofNat 64 (sext n x.toNat) = (x.setWidth n).signExtend 64 := by
  unfold sext signed
  rw [BitVec.signExtend, BitVec.toInt_eq_toNat_cond]
  have e : (BitVec.setWidth n x).toNat = x.toNat % 2 ^ n := by simp
  rw [e]
  have e2 : (x.toNat % 2 ^ n < 2 ^ (n - 1)) ↔ (2 * (x.toNat % 2 ^ n) < 2 ^ n) := by
    have : 2 ^ n = 2 * 2 ^ (n - 1) := by rw [← Nat.pow_succ']; congr 1; omega
    omega
  simp only [e2]
  apply BitVec.eq_of_toNat_eq
  simp only [BitVec.toNat_ofNat, BitVec.toNat_ofInt]
  congr 1
  generalize (if 2 * (x.toNat % 2 ^ n) < 2 ^ n then _ else _ : Int) = i
  omega

/-- A mask as a remainder. -/
theorem mask_eq (n : Nat) (x : W64) (m : W64) (hm : m.toNat = 2 ^ n - 1) : (x &&& m).toNat = x.toNat % 2 ^ n := by
  rw [BitVec.toNat_and, hm, Nat.and_two_pow_sub_one_eq_mod]

/-- An integer result is taken modulo 2^64. -/
theorem intW_mod (x : Nat) : intW (BitVec.ofNat 64 x).toNat = intW x := by simp [intW]

end Sys2Proof.Machine
end

