-- ==== Sys2Proof/Laws/Window.lean ====
section
/-! SUPPORT. What a command answers, and how an access that reaches its register gets there (R8, R101–R104, R109, R121, R122, R540). -/

namespace Sys2Proof.Machine

/-- Outside a chip reset a command has its effect. -/
theorem act_free {s : State} (h : s.wdr.held = none) (f : State → State) : act s f = .next (f s) := by simp [act, h]

/-- During a chip reset it has none. -/
theorem act_held {s : State} (h : s.wdr.held.isSome = true) (f : State → State) : act s f = .next s := by simp [act, h]

/-- Every command of this kind answers a next state. -/
theorem act_next (s : State) (f : State → State) : ∃ t, act s f = .next t := ⟨_, rfl⟩

theorem given_true {c : Bool} (h : c = true) (s : State) (f : State → State) : given c s f = f s := by simp [given, h]
theorem given_false {c : Bool} (h : c = false) (s : State) (f : State → State) : given c s f = s := by simp [given, h]

/-- A write that reaches a register is a write of its row. -/
theorem accWrite_open {s : State} {src : Src} {a : Nat} (h : Open s src a) (v : Nat) :
    ∃ t is, rowOf a = some (t, is) ∧ accWrite s src a v = writeRow s a t is (BitVec.ofNat 32 v) src := by
  obtain ⟨t, is, hr, ha⟩ := h.row
  refine ⟨t, is, hr, ?_⟩
  have hl : (blkOf a == 0x13 && debugOnly a && src != .debug) = false := h.level
  simp [accWrite, regWrite32, h.window, h.reach, h.word, h.present, hr, ha, h.field, hl]

/-- The same when the row is known. -/
theorem accWrite_row {s : State} {src : Src} {a : Nat} (h : Open s src a) {t : RegRow} {is : List Nat} (hr : rowOf a = some (t, is)) (v : Nat) :
    accWrite s src a v = writeRow s a t is (BitVec.ofNat 32 v) src := by
  obtain ⟨t', is', hr', e⟩ := accWrite_open h v
  cases hr.symm.trans hr'
  exact e

theorem readWindow_open {s : State} {src : Src} {a : Nat} (h : Open s src a) {t : RegRow} {is : List Nat} (hr : rowOf a = some (t, is)) :
    readWindow s a src = readRow s a t is src := by
  obtain ⟨t', is', hr', ha⟩ := h.row
  cases hr.symm.trans hr'
  unfold readWindow
  rw [if_neg (by rw [h.present]; decide), hr]
  dsimp only
  rw [if_neg (by rw [ha]; decide), if_neg (by rw [h.field]; decide), if_neg (by rw [h.level]; decide)]

/-- A read that gets through is a 32-bit read of the window. -/
theorem accRead_go {s : State} {src : Src} {a : Nat} (h : Open s src a) : accRead s src a = (regRead32 s a src).1 := by
  simp only [accRead, h.window, h.reach, h.word, Bool.not_true, Bool.or_self, Bool.false_eq_true, if_false, if_true]

/-- What a 32-bit read leaves. -/
theorem regRead32_fst (s : State) (a : Nat) (src : Src) :
    (regRead32 s a src).1 = { (readWindow s a src).1 with
      answer := mput (fun _ => 0#32) (readWindow s a src).1.answer (reqKey src) (readWindow s a src).2 } := by
  unfold regRead32
  generalize readWindow s a src = q
  cases q
  rfl

/-- A read that reaches a register is a read of its row, and leaves its word in `answer`. -/
theorem accRead_row {s : State} {src : Src} {a : Nat} (h : Open s src a) {t : RegRow} {is : List Nat} (hr : rowOf a = some (t, is)) :
    accRead s src a = { (readRow s a t is src).1 with
      answer := mput (fun _ => 0#32) (readRow s a t is src).1.answer (reqKey src) (readRow s a t is src).2 } :=
  by simp only [accRead_go h, regRead32_fst, readWindow_open h hr]

/-- A register that is no part of a pair is written at once. -/
theorem writeRow_single {s : State} {a : Nat} {t : RegRow} {is : List Nat} {v : W32} {src : Src} (h : t.pair = .none) :
    writeRow s a t is v src = blockWrite s { a := a, t := t, is := is, v := v, lo := none, src := src } := by simp [writeRow, h]

end Sys2Proof.Machine
end

