-- ==== Sys2Proof/Laws/Header.lean ====
section
/-! SUPPORT. The rows of the registers that every block's page begins with (R102, R108–R112), and a write of one of them. -/

namespace Sys2Proof.Machine

theorem row_ctrl : ∀ b < 20, rowOf (CTRL b) = some ({ off := 0x18, fields := [⟨31, 3, .rsv, 0⟩, ⟨2, 2, .w1s, 0⟩, ⟨1, 1, .rw, 0⟩, ⟨0, 0, .rw, 0⟩] }, []) := by decide
theorem row_feat : ∀ b < 20, rowOf (FEAT_ACCEPT b) = some ({ off := 0x10, fields := [⟨31, 1, .rw, 0⟩, ⟨0, 0, .ro, 1⟩] }, []) := by decide
theorem row_feath : ∀ b < 20, rowOf (FEAT_ACCEPT_HI b) = some ({ off := 0x14, fields := [⟨31, 0, .rw, 0⟩] }, []) := by decide
theorem row_ev : ∀ b < 20, rowOf (EV_ENABLE b) = some ({ off := 0x24, fields := [⟨31, 0, .rw, 0⟩] }, []) := by decide
theorem row_pend : ∀ b < 20, rowOf (EV_PENDING b) = some ({ off := 0x28, fields := [⟨31, 0, .w1c, 0⟩] }, []) := by decide
theorem blk_ctrl : ∀ b < 20, blkOf (CTRL b) = b ∧ offOf (CTRL b) = 0x18 := by decide
theorem blk_feat : ∀ b < 20, blkOf (FEAT_ACCEPT b) = b ∧ offOf (FEAT_ACCEPT b) = 0x10 ∧ FEAT_ACCEPT b - 8 = FEAT_OFFER b := by decide
theorem blk_feath : ∀ b < 20, blkOf (FEAT_ACCEPT_HI b) = b ∧ offOf (FEAT_ACCEPT_HI b) = 0x14 ∧ FEAT_ACCEPT_HI b - 8 = FEAT_OFFER_HI b ∧ FEAT_ACCEPT_HI b ≠ FEAT_ACCEPT b := by decide
theorem blk_ev : ∀ b < 20, blkOf (EV_ENABLE b) = b ∧ offOf (EV_ENABLE b) = 0x24 := by decide
theorem blk_pend : ∀ b < 20, blkOf (EV_PENDING b) = b ∧ offOf (EV_PENDING b) = 0x28 := by decide

/-- A write of a header register, at its block. -/
theorem accWriteAt_row {s : State} {i n : Nat} {src : Src} {a v : Nat} (hi : i < n) (h : Open s src a) {t : RegRow} {is : List Nat} (hr : rowOf a = some (t, is)) :
    accWriteAt s i n src a v = writeRow s a t is (BitVec.ofNat 32 v) src := by
  rw [accWriteAt, given_true (by simpa using hi), accWrite_row h hr]
end Sys2Proof.Machine
end

