-- ==== Sys2Proof/Laws/Lane.lean ====
section
/-! SUPPORT. The line of a field-link lane: what is coded is read back, and a receiver whose taps and threshold are zero decides every
half-bit by the sign of its sample. -/

namespace Sys2Proof.Machine

@[simp] theorem halfBits_cons (b : Bool) (l : List Bool) : halfBits (b :: l) = b :: (!b) :: halfBits l := rfl

/-- Manchester coding is read back (R451). -/
theorem bitsOfHalves_halfBits (l : List Bool) : bitsOfHalves (halfBits l) = some l := by
  induction l with
  | nil => rfl
  | cons b l ih => cases b <;> simp [bitsOfHalves, ih]

theorem byte_of_bits : ∀ k < 256, let x := BitVec.ofNat 8 k
    BitVec.ofNat 8 (b2n (x.getLsbD 0) + 2 * b2n (x.getLsbD 1) + 4 * b2n (x.getLsbD 2) + 8 * b2n (x.getLsbD 3) + 16 * b2n (x.getLsbD 4) +
      32 * b2n (x.getLsbD 5) + 64 * b2n (x.getLsbD 6) + 128 * b2n (x.getLsbD 7)) = x := by decide +kernel

/-- Bytes sent least significant bit first are read back (R451). -/
theorem bytesOfBits_lineBits (l : List Byte) : bytesOfBits (lineBits l) = some l := by
  induction l with
  | nil => rfl
  | cons x l ih =>
    have h := byte_of_bits x.toNat x.isLt
    simp only [BitVec.ofNat_toNat, BitVec.setWidth_eq] at h
    show (bytesOfBits (lineBits l)).map _ = _
    rw [ih]
    simp only [Option.map_some, h]

/-- The bytes after the delimiter come back from the half-bits that carry them (R455). -/
theorem lineFrame_sent (f : List Byte) : lineFrame (halfBits (lineBits (linePreamble ++ f))) = some f := by
  simp only [lineFrame, bitsOfHalves_halfBits, Option.bind_some, bytesOfBits_lineBits]
  rfl

/-- A receiver whose five taps and threshold are 8-bit values: the taps and the threshold can take at most 195,840 from a sample. -/
structure EqS.small (q : EqS) : Prop where
  taps : q.taps.length ≤ 5 ∧ ∀ t ∈ q.taps, -128 ≤ t ∧ t ≤ 127
  thr : -128 ≤ q.thr ∧ q.thr ≤ 127

theorem eqMove_small (v e : Int) : -128 ≤ eqMove v e ∧ eqMove v e ≤ 127 := by unfold eqMove; omega

theorem eqTaps_small (e : Int) (ts : List Int) (ds : List Bool) (h : ∀ t ∈ ts, -128 ≤ t ∧ t ≤ 127) :
    (eqTaps e ts ds).length = ts.length ∧ ∀ t ∈ eqTaps e ts ds, -128 ≤ t ∧ t ≤ 127 := by
  induction ts generalizing ds with
  | nil => cases ds <;> exact ⟨rfl, h⟩
  | cons t ts ih =>
    cases ds with
    | nil => exact ⟨rfl, h⟩
    | cons d ds =>
      have k := ih ds (fun x hx => h x (List.mem_cons_of_mem t hx))
      refine ⟨by simp [eqTaps, k.1], fun x hx => ?_⟩
      simp only [eqTaps, List.mem_cons] at hx
      rcases hx with rfl | hx
      · exact eqMove_small _ _
      · exact k.2 x hx

theorem foldl_small (ds : List Bool) (ts : List Int) (a : Int) (h : ∀ t ∈ ts, -128 ≤ t ∧ t ≤ 127) :
    ((List.zipWith (fun d t => bySign d t) ds ts).foldl (fun x y => x + y) a - a).natAbs ≤ 128 * ts.length := by
  induction ts generalizing ds a with
  | nil => simp
  | cons t ts ih =>
    cases ds with
    | nil => simp
    | cons d ds =>
      have k := ih ds (a + bySign d t) (fun x hx => h x (List.mem_cons_of_mem t hx))
      have b := h t (List.mem_cons_self ..)
      simp only [List.zipWith_cons_cons, List.foldl_cons, List.length_cons]
      cases d <;> simp only [bySign, Bool.false_eq_true, if_true, if_false] at k ⊢ <;> omega

theorem eqStep_small (adapt : Bool) (q : EqS) (x : Int) (h : q.small) : (eqStep adapt q x).small := by
  refine ⟨?_, ?_⟩
  · have k := fun e => eqTaps_small e q.taps q.out h.taps.2
    simp only [eqStep]
    split
    · exact ⟨by rw [(k _).1]; exact h.taps.1, (k _).2⟩
    · exact h.taps
  · simp only [eqStep]
    split
    · exact eqMove_small _ _
    · exact h.thr

/-- Samples far enough from zero are decided by their sign, whatever the receiver has adapted to (R458). -/
theorem eqRun_decides (adapt : Bool) (a : Int) (ha : 200000 ≤ a) (l : List Bool) (q : EqS) (hq : q.small) :
    (eqRun adapt q (l.map (fun b => bySign b a))).out = l.reverse ++ q.out := by
  induction l generalizing q with
  | nil => simp [eqRun]
  | cons b l ih =>
    have hs : (eqSum q - 0).natAbs ≤ 128 * q.taps.length := foldl_small q.out q.taps 0 hq.taps.2
    have ht := hq.taps.1
    have hz := hq.thr
    have hd : decide (255 * q.thr ≤ bySign b a - 255 * eqSum q) = b := by
      cases b <;> simp only [bySign, Bool.false_eq_true, if_true, if_false, decide_eq_true_eq, decide_eq_false_iff_not] <;> omega
    have h := ih (eqStep adapt q (bySign b a)) (eqStep_small adapt q _ hq)
    simp only [eqRun, List.map_cons, List.foldl_cons] at h ⊢
    rw [h]
    simp [eqStep, hd]

/-- A receiver that does not adapt keeps its taps and threshold, and strong samples leave the eye as it was (R458, R459). -/
theorem eqRun_plain (a : Int) (ha : 32640 ≤ a) (l : List Bool) (q : EqS) (ht : q.taps = [0, 0, 0, 0, 0]) (hz : q.thr = 0) (he : q.eye ≤ 255) :
    let r := eqRun false q (l.map (fun b => bySign b a))
    r.taps = q.taps ∧ r.thr = q.thr ∧ r.eye = q.eye := by
  have sum (o : List Bool) : (List.zipWith (fun d t => bySign d t) o [0, 0, 0, 0, 0]).foldl (fun x y => x + y) 0 = 0 := by
    have z (d : Bool) : bySign d 0 = 0 := by cases d <;> rfl
    rcases o with _ | ⟨o1, _ | ⟨o2, _ | ⟨o3, _ | ⟨o4, _ | ⟨o5, o⟩⟩⟩⟩⟩ <;> simp [z]
  induction l generalizing q with
  | nil => exact ⟨rfl, rfl, rfl⟩
  | cons b l ih =>
    have hs : eqSum q = 0 := by rw [eqSum, ht]; exact sum q.out
    have hb : 32640 ≤ (bySign b a).natAbs := by cases b <;> simp only [bySign, Bool.false_eq_true, if_true, if_false] <;> omega
    have hy : (eqStep false q (bySign b a)).eye = q.eye := by simp only [eqStep, hs, hz]; omega
    have k := ih (eqStep false q (bySign b a)) (by simp [eqStep, ht]) (by simp [eqStep, hz]) (by rw [hy]; exact he)
    simp only [eqRun, List.map_cons, List.foldl_cons] at k ⊢
    exact ⟨by rw [k.1]; simp [eqStep], by rw [k.2.1]; simp [eqStep], by rw [k.2.2, hy]⟩

theorem length_halfBits (l : List Bool) : (halfBits l).length = 2 * l.length := by
  induction l with
  | nil => rfl
  | cons b l ih => simp [ih]; omega

theorem length_lineBits (l : List Byte) : (lineBits l).length = 8 * l.length := by
  induction l with
  | nil => rfl
  | cons x l ih => simp only [lineBits, List.flatMap_cons, List.length_append, List.length_cons] at ih ⊢; rw [ih]; simp [upTo]; omega

/-- The receiver at the start of a frame, whatever values are loaded. -/
theorem eqLoad_small (taps : W32) (t4 thr : Nat) (h4 : t4 < 256) (ht : thr < 256) : (eqLoad taps t4 thr).small := by
  have b (k : Nat) (hk : k < 256) : -128 ≤ signed 8 k ∧ signed 8 k ≤ 127 := by simp only [signed]; split <;> omega
  have c (i : Nat) : bits taps.toNat (8 * i + 7) (8 * i) < 256 := by
    have e : 8 * i + 7 + 1 - 8 * i = 8 := by omega
    simp only [bits, e]
    exact Nat.mod_lt _ (by decide)
  refine ⟨⟨by simp [eqLoad, upTo], fun t h => ?_⟩, b thr ht⟩
  simp only [eqLoad, List.mem_append, List.mem_map, List.mem_singleton] at h
  rcases h with ⟨i, -, rfl⟩ | rfl
  · exact b _ (c i)
  · exact b t4 h4

end Sys2Proof.Machine
end

