-- ==== Sys2Proof/Laws/Memory.lean ====
section
/-! SUPPORT. General memory: writing a byte, and the canonical form, which every operation that writes memory keeps (R62). All writes of
memory go through `setMemByte`, and a reset leaves memory or empties it. -/

namespace Sys2Proof.Machine

/-- A byte read after a byte was written. -/
theorem memByte_setMemByte (s : State) (a x : Nat) (v : Byte) : memByte (setMemByte s a v) x = if x = a then v else memByte s x :=
  mget_mput _ _ _ _ _

/-- Writing a byte keeps the canonical form. -/
theorem wf_setMemByte {s : State} (h : Memory.wf s.mem = true) (a : Nat) (v : Byte) : Memory.wf (setMemByte s a v).mem = true := mwf_mput h

/-- Writing a run of bytes keeps the canonical form. -/
theorem wf_setMemBytes {s : State} (h : Memory.wf s.mem = true) (a : Nat) (l : List Byte) : Memory.wf (setMemBytes s a l).mem = true := by
  induction l generalizing s a with
  | nil => exact h
  | cons b r ih => exact ih (wf_setMemByte h a b) (a + 1)

/-- A run of bytes written changes nothing but memory. -/
theorem setMemBytes_eq (s : State) (a : Nat) (l : List Byte) : setMemBytes s a l = { s with mem := (setMemBytes s a l).mem } := by
  induction l generalizing s a with
  | nil => rfl
  | cons b r ih => rw [setMemBytes, ih]; rfl

/-- The memory of reset has the canonical form. -/
theorem wf_reset : Memory.wf State.reset.mem = true := rfl

end Sys2Proof.Machine
end

