-- ==== Sys2Proof/Tests/Slice0.lean ====
section
/-! SUPPORT. The model's own tests: ill-formed syllables refused, words written out from the spec's layout decoded, small results worked out
from the spec, and for the statements of Obligations.lean states and operands that meet the hypotheses of each clause. -/

namespace Sys2Proof.Tests
open Sys2Proof Sys2Proof.Machine

set_option Elab.async false

/-! ### Ill-formed syllables, one for each check -/

/-- A syllable of core 0 that ends its bundle, always executed. -/
def hy (unit : BitVec 2) : Syl := { core := 0, stop := true, unit := unit, cond := 0 }
/-- One that goes on. -/
def hg (unit : BitVec 2) : Syl := { hy unit with stop := false }

/-- R141–R144: U2 has no ADD, U0 no MUL, U1 no BR, U3 no load, U0 no KMOV, U2 no FADD. -/
theorem test_wf_unit : [Instr.add (hy 2) 1 2 3, .mul (hy 0) 1 2 3, .br (hy 1) 1, .ldd (hy 3) 1 2 (.off 0), .kmov (hy 0) 1 2,
    .fadd (hy 2) 1 2 3].all (fun i => !wellFormed i) = true := by decide
/-- R125: COND 0b1000 is reserved. -/
theorem test_wf_cond : wellFormed (.add { hy 0 with cond := 8 } 1 2 3) = false := by decide
/-- A core beyond the sixteen of the largest variant. -/
theorem test_wf_core : wellFormed (.add { hy 0 with core := 16 } 1 2 3) = false := by decide
/-- R129, R147: the owner of a long immediate has STOP = 0. -/
theorem test_wf_long : [Instr.addi (hy 0) 1 2 (.long true 5), .cmpi (hy 0) 1 2 (.long true 5), .ldd (hy 2) 1 2 (.long true 5)].all
    (fun i => !wellFormed i) = true := by decide
/-- R141: the undefined values of FN of CMP and PLOG and of CC. -/
theorem test_wf_fn : [Instr.cmp (hy 0) 6 1 2 3, .plog (hy 0) 4 1 2 3, .cmpi (hy 0) 1 2 (.short 6 0)].all (fun i => !wellFormed i) = true := by decide
/-- R137: user-state numbers not listed, and a write of CFEAT0. -/
theorem test_wf_user : [Instr.mfu (hy 0) 1 2, .mfu (hy 0) 1 17, .mfu (hy 0) 1 36, .mtu (hy 0) 1 32].all (fun i => !wellFormed i) = true := by decide
/-- R171: system registers not listed. -/
theorem test_wf_system : [Instr.mfs (hy 0) 1 0x0A, .mts (hy 0) 1 0x12, .mfs (hy 0) 1 0x1C].all (fun i => !wellFormed i) = true := by decide
/-- R190: a post-increment load into its own capability register. -/
theorem test_wf_post : [Instr.ldd (hy 2) 5 5 (.modulo 0 1), .ldc (hy 2) 5 5 (.rev 0)].all (fun i => !wellFormed i) = true := by decide
/-- R167, R169, R183, R201, R202: register groups that the block and queue instructions may not name. -/
theorem test_wf_groups : [Instr.qput (hy 2) 1 2 4, .qput (hy 2) 1 2 10, .qget (hy 2) 9 2 8, .qputm (hy 2) 1 2 0, .crcblk (hy 2) 5 5 6,
    .mcopy (hy 2) 5 7 8, .mcopy (hy 2) 9 8 6, .crcp (hy 3) 1 2 5].all (fun i => !wellFormed i) = true := by decide
/-- And well-formed ones beside them. -/
theorem test_wf_good : [Instr.add (hy 1) 1 2 3, .addi (hg 0) 1 2 (.long true 5), .cmp (hy 0) 5 1 2 3, .mfu (hy 0) 1 35, .mts (hy 0) 1 0x1B,
    .ldd (hy 2) 5 6 (.modulo 0 1), .qget (hy 2) 12 2 8, .mcopy (hy 2) 5 8 6, .crcp (hy 3) 1 2 4].all wellFormed = true := by decide

/-! ### Words, bit by bit: STOP, UNIT, COND, OP and the operand fields of R124 and R140, one or more for each row of R141–R144 -/

/-- Every word decodes to its instruction and passes the encoding checks. -/
def reads (l : List (W32 × Instr)) : Bool := l.all (fun p => decide (decodeSyl 0 p.1 0 = p.2) && (sylFault p.1).isNone)

theorem test_word_alu : reads [(0b1_00_0000_000000_00000_00000_00000_0000, .nop (hy 0)), (0b1_00_0000_000001_00101_00110_00111_0001, .sub (hy 0) 5 6 7),
    (0b1_01_0000_000001_11111_00001_10000_1110, .pack (hy 1) 31 1 16), (0b1_00_0000_000001_00101_00110_00111_1000, .sra (hy 0) 5 6 7)] = true := by decide
theorem test_word_imm : reads [(0b1_00_0000_000010_00101_00110_0_11111111, .addi (hy 0) 5 6 (.short 255)),
    (0b1_00_0000_000110_00101_00110_0_10_000111, .shi (hy 0) 5 6 2 7)] = true := by decide
theorem test_word_pred : reads [(0b1_00_0000_001000_00_011_00110_00111_0100, .cmp (hy 0) 4 3 6 7),
    (0b1_00_0000_001001_00_011_00110_0_010_10001, .cmpi (hy 0) 3 6 (.short 2 17)),
    (0b1_01_0000_001010_00_011_00_101_00_110_0011, .plog (hy 1) 3 3 5 6)] = true := by decide
theorem test_word_jump : reads [(0b1_00_0000_010001_1111111111111111110, .call (hy 0) (-2)), (0b1_00_0000_010010_00000_00110_00000_0000, .jmp (hy 0) 6),
    (0b1_00_0000_010010_00000_00110_00000_0001, .callr (hy 0) 6), (0b1_00_0000_010010_00000_00000_00000_0010, .ret (hy 0)),
    (0b1_00_0000_010011_00000_00110_00000_0000, .callg (hy 0) 6), (0b1_00_0000_010011_00000_00110_00000_0001, .retg (hy 0) 6),
    (0b1_00_0000_010011_00000_00000_00000_0010, .eret (hy 0))] = true := by decide
theorem test_word_prefix : reads [(0b1_00_0000_011000_00000_00000_0_00_000000, .rep (hy 0)), (0b1_00_0000_011000_00000_00000_0_01_000101, .repn (hy 0) 5),
    (0b1_00_0000_011001_00000_00000_0_0_1010101, .trap (hy 0) 0x55), (0b1_00_0000_011001_00000_00000_0_1_0000001, .brk (hy 0) 1)] = true := by decide
theorem test_word_state : reads [(0b1_00_0000_011010_00101_00000_0_00_100011, .mfu (hy 0) 5 35), (0b1_00_0000_011010_00000_00110_1_00_000001, .mtu (hy 0) 6 1),
    (0b1_00_0000_011100_00101_00000_00011_0100, .mfs (hy 0) 5 0x1A), (0b1_00_0000_011100_00000_00110_00010_0011, .mts (hy 0) 6 0x11),
    (0b1_00_0000_011110_00101_00000_00000_0000, .wait (hy 0) 5), (0b1_00_0000_011110_00000_00000_00000_0001, .yield (hy 0)),
    (0b1_00_0000_011110_00101_00110_00111_0010, .waitt (hy 0) 5 6 7)] = true := by decide
theorem test_word_mul : reads [(0b1_01_0000_010000_00101_00110_00111_0010, .mulhu (hy 1) 5 6 7), (0b1_01_0000_010010_00101_00110_00000_0011, .bswap (hy 1) 5 6),
    (0b1_01_0000_010010_00101_00110_00000_1001, .zextw (hy 1) 5 6)] = true := by decide
theorem test_word_memory : reads [(0b1_10_0000_000001_00101_00110_00_1111111, .ldb (hy 2) 5 6 (.off 127)),
    (0b1_10_0000_000111_00101_00110_01_10_11111, .ldd (hy 2) 5 6 (.modulo 2 31)), (0b1_10_0000_001000_00101_00110_10_11_00000, .ldc (hy 2) 5 6 (.rev 3)),
    (0b1_10_0000_001011_00101_00110_00_0000001, .stw (hy 2) 5 6 (.off 1))] = true := by decide
theorem test_word_block : reads [(0b1_10_0000_001110_00000_00110_00111_0000, .stm (hy 2) 6 7), (0b1_10_0000_001111_00000_00110_00111_0000, .ldm (hy 2) 6 7),
    (0b1_10_0000_010000_00101_00110_00111_0000, .crcblk (hy 2) 5 6 7), (0b1_10_0000_010001_00101_01000_00111_0000, .mcopy (hy 2) 5 8 7)] = true := by decide
theorem test_word_cap : reads [(0b1_10_0000_010100_00101_00110_00000_0000, .kmov (hy 2) 5 6), (0b1_10_0000_010100_00101_00110_00111_0101, .kclip (hy 2) 5 6 7),
    (0b1_10_0000_010101_00101_00110_0_10000000, .kstepi (hy 2) 5 6 (.short 128)), (0b1_10_0000_010110_00101_00110_00000_0101, .krtag (hy 2) 5 6)] = true := by decide
theorem test_word_queue : reads [(0b1_10_0000_011001_00101_00110_01000_0000, .qget (hy 2) 5 6 8), (0b1_10_0000_011010_00101_00110_01000_0000, .qputm (hy 2) 5 6 8),
    (0b1_10_0000_011100_00000_00000_00000_0001, .sbar (hy 2)), (0b1_10_0000_011101_00000_00110_00000_0000, .icinv (hy 2) 6),
    (0b1_10_0000_011101_00000_00000_00000_0010, .tlbsync (hy 2))] = true := by decide
theorem test_word_signal : reads [(0b1_11_0000_000001_000_11_00110_00111_0000, .macs (hy 3) 3 6 7), (0b1_11_0000_000010_000_10_00101_00111_0001, .rdacc (hy 3) 5 2 7),
    (0b1_11_0000_000010_000_10_00110_00000_0010, .wracc (hy 3) 2 6), (0b1_11_0000_000011_00101_00110_00111_0010, .crcstep (hy 3) 2 5 6 7),
    (0b1_11_0000_000100_00101_00110_00111_0001, .bitrev (hy 3) 5 6 7), (0b1_11_0000_000101_00101_00110_00000_0110, .fabs (hy 3) 5 6),
    (0b1_11_0000_000110_00_011_00110_00111_0001, .flt (hy 3) 3 6 7), (0b1_11_0000_001000_00101_00110_00111_0001, .divu (hy 3) 5 6 7)] = true := by decide
/-- R132's worked example, its long immediate taken by its owner. -/
theorem test_word_example : decodeSyl 0 0x00141100 0x000186A0 = .addi (hg 0) 16 8 (.long false 100000) ∧
    decodeSyl 0 0xD63C5201 0 = .ldd { hy 2 with cond := 11 } 17 9 (.off 1) ∧ encodeSyl (.addi (hg 0) 16 8 (.long false 100000)) = [0x00141100, 0x000186A0] := by decide
/-- R145, R146: an undefined OP, an undefined FN, a user-state number, a system register, a reserved field, and the reserved condition. -/
theorem test_word_refused : ([0b1_00_0000_000111_00000_00000_00000_0000, 0b1_00_0000_000001_00000_00000_00000_1111, 0b1_00_0000_011010_00101_00000_0_00_000010,
    0b1_00_0000_011100_00101_00000_00001_0100, 0b1_00_0000_010010_00000_00110_00001_0000, 0b1_00_1000_000001_00000_00000_00000_0000] : List W32).map sylFault =
    [some (1, 1), some (1, 2), some (1, 4), some (1, 4), some (2, 1), some (2, 2)] := by decide

/-! ### The hypotheses of the statements, as checks that can be run -/

/-- `Ready`, `Whole`, `Alone`, `Open`, `Target` and `Enterable` of Safety.lean as Bools. -/
def readyB (s : State) (n : Nat) (ws : List W32) : Bool :=
  s.wdr.held.isNone && canIssue s n && !(Machine.core s n).yhalt && (Machine.core s n).opened.isEmpty && decide (requestGrant s n = s) && (boundary s n false).isNone &&
  (Machine.core s n).late.isEmpty && (Machine.core s n).longs.isEmpty && !(Machine.core s n).stepping && decide (fetchCause s n (freshHeld ws) = .pass)
def wholeB (h : Syl) (i : Instr) : Bool := decide (sylOf i = some h) && wellFormed i && wStop ((encodeSyl i).getLastD 0)
def aloneB (s : State) (h : Syl) (i : Instr) : Bool := wholeB h i && readyB s h.core (encodeSyl i) && condOn s h
def openB (s : State) (src : Src) (a : Nat) : Bool :=
  s.wdr.held.isNone && inWindows a && reaches s src a && decide (a % 4 = 0) && Config.present s.variant (blkOf a) &&
  (match rowOf a with
   | some (t, is) => !absentInst s t is
   | none => false) && !fieldDown s a && !(blkOf a == 0x13 && debugOnly a && src != .debug)
def targetB (c : CapW) : Bool := c.tag && decide (capOtype c = 0) && hasPerm c pEXEC && decide (capCursor c % 4 = 0)
def enterB (s : State) (n : Nat) : Bool :=
  s.wdr.held.isNone && corePresent s n && !clockStopped s n && decide (n < s.cores.length) && (runningCtx s n).isSome && !(Machine.core s n).halted && (Machine.core s n).held.isNone &&
  (Machine.core s n).longs.isEmpty && (Machine.core s n).late.isEmpty && !(Machine.core s n).stepping && !stEXL (status s n) && !stDFL (status s n) &&
  decide (sspFault (ssp s n) = 0) && !inRom (capCursor (Machine.core s n).kentry)

theorem ready_of {s : State} {n : Nat} {ws : List W32} (h : readyB s n ws = true) : Ready s n ws := by
  simp only [readyB, Bool.and_eq_true, Bool.not_eq_true', decide_eq_true_eq, List.isEmpty_iff, Option.isNone_iff_eq_none] at h
  obtain ⟨⟨⟨⟨⟨⟨⟨⟨⟨a, b⟩, c⟩, d⟩, e⟩, f⟩, g⟩, k⟩, l⟩, m⟩ := h
  exact ⟨a, b, c, d, e, f, g, k, l, m⟩
theorem whole_of {h : Syl} {i : Instr} (k : wholeB h i = true) : Whole h i := by
  simp only [wholeB, Bool.and_eq_true, decide_eq_true_eq] at k
  exact ⟨k.1.1, k.1.2, k.2⟩
theorem alone_of {s : State} {h : Syl} {i : Instr} (k : aloneB s h i = true) : Alone s h i := by
  simp only [aloneB, Bool.and_eq_true] at k
  exact ⟨whole_of k.1.1, ready_of k.1.2, k.2⟩
theorem open_of {s : State} {src : Src} {a : Nat} (h : openB s src a = true) : Open s src a := by
  simp only [openB, Bool.and_eq_true, Bool.not_eq_true', decide_eq_true_eq, Option.isNone_iff_eq_none] at h
  obtain ⟨⟨⟨⟨⟨⟨⟨a1, b⟩, c⟩, d⟩, e⟩, f⟩, g⟩, k⟩ := h
  refine ⟨a1, b, c, d, e, ?_, g, k⟩
  split at f
  · rename_i t is hr; exact ⟨t, is, hr, by simpa using f⟩
  · simp at f
theorem target_of {c : CapW} (h : targetB c = true) : Target c := by
  simp only [targetB, Bool.and_eq_true, decide_eq_true_eq] at h
  exact ⟨h.1.1.1, h.1.1.2, h.1.2, h.2⟩
theorem enter_of {s : State} {n : Nat} (h : enterB s n = true) : Enterable s n := by
  simp only [enterB, Bool.and_eq_true, Bool.not_eq_true', decide_eq_true_eq, List.isEmpty_iff, Option.isNone_iff_eq_none] at h
  obtain ⟨⟨⟨⟨⟨⟨⟨⟨⟨⟨⟨⟨⟨a, b⟩, b1⟩, c⟩, d⟩, e⟩, f⟩, g⟩, k⟩, l⟩, m⟩, n⟩, o⟩, p⟩ := h
  exact ⟨a, b, b1, c, d, e, f, g, k, l, ⟨m, n⟩, o, p⟩

/-! ### States for the witnesses, built from reset -/

def S : State := State.reset
/-- Fields of registers set; a register of core 0's context set. -/
def flds (l : List (Fld × Nat)) (s : State) : State := l.foldl (fun s p => fset s p.1 p.2) s
def cr (r : Nat) (w : CapW) (s : State) : State := writeC s 0 r w
/-- Registers and STATUS of the running context changed, core 0 changed. -/
def rg (f : CtxRegs → CtxRegs) (s : State) : State := updRegs s 0 f
def co (f : Core → Core) (s : State) : State := updCore s 0 f
/-- Block `b` RUNNING with every offered feature. -/
def up (b : Nat) (s : State) : State :=
  fset (fset (setReg (setReg s (FEAT_ACCEPT b) (reg s (FEAT_OFFER b))) (FEAT_ACCEPT_HI b) (reg s (FEAT_OFFER_HI b))) (CTRL_ENABLE b) 1) (STATE_STATE b) 1
def C0 : Src := .core 0

/-! ### The cores -/

/-- IntegerArithmetic: each instruction, c0 and c31 among the destinations. -/
theorem test_hyp_integer : ([Instr.add (hy 0) 0 6 7, .sub (hy 1) 31 6 7, .and (hy 0) 5 6 7, .or (hy 0) 5 5 5, .xor (hy 0) 5 6 7, .andn (hy 0) 5 6 7,
    .sll (hy 0) 5 6 7, .srl (hy 0) 5 6 7, .sra (hy 0) 5 6 7, .rol (hy 0) 5 6 7, .min (hy 0) 5 6 7, .max (hy 0) 5 6 7, .minu (hy 0) 5 6 7,
    .maxu (hy 0) 5 6 7, .pack (hy 0) 5 6 7, .addi (hy 0) 5 6 (.short 255), .andi (hy 0) 5 6 (.short 0), .ori (hy 0) 5 6 (.short 1),
    .xori (hy 0) 5 6 (.short 1), .shi (hy 0) 5 6 3 63, .cmp (hy 0) 0 0 6 7, .cmp (hy 0) 1 7 6 7, .cmp (hy 0) 2 1 6 7, .cmp (hy 0) 3 1 6 7,
    .cmp (hy 0) 4 1 6 7, .cmp (hy 0) 5 1 6 7, .cmpi (hy 0) 1 6 (.short 5 31), .plog (hy 0) 0 1 2 3, .plog (hy 0) 1 1 2 3, .plog (hy 0) 2 1 2 3,
    .plog (hy 0) 3 0 2 3].all (fun i => aloneB S (((sylOf i).getD (hy 0))) i)) = true := by decide +kernel
theorem test_hyp_multiply : ([Instr.mul (hy 1) 5 6 7, .mulh (hy 1) 5 6 7, .mulhu (hy 1) 5 6 7, .mulhsu (hy 1) 5 6 7, .clz (hy 1) 5 6, .ctz (hy 1) 5 6,
    .popc (hy 1) 5 6, .bswap (hy 1) 5 6, .sextb (hy 1) 5 6, .sexth (hy 1) 5 6, .sextw (hy 1) 5 6, .zextb (hy 1) 5 6, .zexth (hy 1) 5 6,
    .zextw (hy 1) 5 6].all (aloneB S (hy 1))) = true := by decide +kernel
/-- A long immediate and a true condition. -/
theorem test_hyp_integer_long : Alone S (hg 0) (.addi (hg 0) 5 6 (.long true 100000)) ∧
    Alone (rg (fun r => { r with preds := 9 }) S) { hy 0 with cond := 3 } (.add { hy 0 with cond := 3 } 5 6 7) :=
  ⟨alone_of (by decide +kernel), alone_of (by decide +kernel)⟩
theorem test_hyp_float : ([Instr.feq (hy 3) 1 6 7, .flt (hy 3) 1 6 7, .fle (hy 3) 1 6 7, .funord (hy 3) 1 6 7, .fadd (hy 3) 5 6 7, .fsub (hy 3) 5 6 7,
    .fmul (hy 3) 5 6 7, .fmadd (hy 3) 5 6 7, .fmin (hy 3) 5 6 7, .fmax (hy 3) 5 6 7, .fabs (hy 3) 5 6, .fneg (hy 3) 5 6, .fcvtws (hy 3) 5 6,
    .fcvtsw (hy 3) 5 6].all (aloneB S (hy 3))) = true ∧ usesSig (.feq (hy 3) 1 6 7) = false := by decide +kernel

/-- One window in use below the current one; c15 a capability to code. -/
def called : State := cr 15 (setCursor (readC S 0 1) 64) (rg (fun r => { r with winctl := mkWin 0 2 2 1 }) S)
theorem test_hyp_jumps : Alone S (hy 0) (.br (hy 0) 0x40000) ∧ Alone S (hy 0) (.jmp (hy 0) 1) ∧ Target (readC S 0 1) :=
  ⟨alone_of (by decide +kernel), alone_of (by decide +kernel), target_of (by decide +kernel)⟩
theorem test_hyp_calls : stEXL (status S 0) = false ∧ Alone S (hy 0) (.call (hy 0) 1) ∧ Alone S (hy 0) (.callr (hy 0) 1) ∧
    winOcc (curRegs S 0).winctl ≠ 7 ∧ Alone (rg (fun r => { r with winctl := mkWin 0 1 6 0 }) S) (hy 0) (.call (hy 0) 1) :=
  ⟨by decide +kernel, alone_of (by decide +kernel), alone_of (by decide +kernel), by decide +kernel, alone_of (by decide +kernel)⟩
theorem test_hyp_ret : stEXL (status called 0) = false ∧ Alone called (hy 0) (.ret (hy 0)) ∧ winOcc (curRegs called 0).winctl = 2 ∧ Target (readC called 0 15) :=
  ⟨by decide +kernel, alone_of (by decide +kernel), by decide +kernel, target_of (by decide +kernel)⟩

/-- A gate of ring 0 opened from ring 0, at the first byte of its region, and a return into ring 1. -/
def gated1 : State := cr 5 (setOtype (readC S 0 1) 0xFC0) S
def gated2 : State := cr 5 (setOtype (setCursor (readC S 0 1) 65) 0xFC4) called
theorem test_hyp_callg : let g := readC gated1 0 5
    Alone gated1 (hy 0) (.callg (hy 0) 5) ∧ stEXL (status gated1 0) = false ∧ g.tag = true ∧ winOcc (curRegs gated1 0).winctl ≠ 7 ∧ 0xFC0 ≤ capOtype g ∧
    capOtype g ≤ 0xFC3 ∧ capOtype g - 0xFC0 = stRING (status gated1 0) ∧ capCursor g % 4 = 0 ∧ capBase g = capCursor g ∧ (capCursor g : Int) < capTop g :=
  ⟨alone_of (by decide +kernel), by decide +kernel⟩
theorem test_hyp_retg : let g := readC gated2 0 5
    Alone gated2 (hy 0) (.retg (hy 0) 5) ∧ stEXL (status gated2 0) = false ∧ g.tag = true ∧ 1 < winOcc (curRegs gated2 0).winctl ∧ capOtype g = 0xFC4 ∧
    stRING (status gated2 0) ≤ capCursor g % 4 ∧ capBase g ≤ (capCursor g : Int) - capCursor g % 4 ∧ (capCursor g : Int) - capCursor g % 4 < capTop g :=
  ⟨alone_of (by decide +kernel), by decide +kernel⟩

/-- Core 0 in a handler: at the first level, and in a double fault. -/
def inFirst : State := co (fun c => { c with epc := setCursor (readC S 0 1) 128 }) (rg (fun r => { r with status := mkStatus true false false false true 0 false }) S)
def inDouble : State := co (fun c => { c with dfepc := setCursor (readC S 0 1) 128 }) (rg (fun r => { r with status := mkStatus true false false true true 0 false }) S)
theorem test_hyp_eret : Alone inFirst (hy 0) (.eret (hy 0)) ∧ mayPrivileged inFirst 0 ∧ stDFL (status inFirst 0) = false ∧ stLAZYP (status inFirst 0) = true ∧
    Target (Machine.core inFirst 0).epc :=
  ⟨alone_of (by decide +kernel), ⟨by decide +kernel, by decide +kernel⟩, by decide +kernel, by decide +kernel, target_of (by decide +kernel)⟩
theorem test_hyp_eret_double : Alone inDouble (hy 0) (.eret (hy 0)) ∧ mayPrivileged inDouble 0 ∧ stDFL (status inDouble 0) = true ∧ Target (Machine.core inDouble 0).dfepc :=
  ⟨alone_of (by decide +kernel), ⟨by decide +kernel, by decide +kernel⟩, by decide +kernel, target_of (by decide +kernel)⟩

/-- UserAndSystemRegisters: the lowest and the highest number, and those said out. -/
theorem test_hyp_state : (([0, 1, 8, 16, 35] : List (BitVec 6)).all (fun u => aloneB S (hy 0) (.mfu (hy 0) 5 u)) &&
    ([0, 1, 8, 16] : List (BitVec 6)).all (fun u => aloneB S (hy 0) (.mtu (hy 0) 5 u)) &&
    ([0, 9, 0x10, 0x11, 0x18, 0x19, 0x1B] : List (BitVec 8)).all (fun k => aloneB S (hy 0) (.mfs (hy 0) 5 k) && aloneB S (hy 0) (.mts (hy 0) 5 k))) = true ∧
    noLazySave S 0 ∧ mayPrivileged S 0 := ⟨by decide +kernel, .inl (by decide +kernel), ⟨by decide +kernel, by decide +kernel⟩⟩

/-- WaitsAndYields: IE = 0; a wake recorded; IE = 1 and none. -/
def ie1 : State := rg (fun r => { r with status := mkStatus false false false false false 0 true }) S
theorem test_hyp_wait : curCtx S 0 = some 0 ∧ Alone S (hy 0) (.wait (hy 0) 5) ∧ Alone S (hy 0) (.waitt (hy 0) 5 6 7) ∧ stIE (status S 0) = false ∧
    Alone (setRecBits ie1 0 0x300 3 3 1) (hy 0) (.wait (hy 0) 5) ∧ ctxWake (setRecBits ie1 0 0x300 3 3 1) 0 = true ∧
    Alone ie1 (hy 0) (.wait (hy 0) 5) ∧ ctxWake ie1 0 = false ∧ stIE (status ie1 0) = true ∧ accepted ie1 1 1 = false ∧ curCtx ie1 0 = some 0 :=
  ⟨by decide +kernel, alone_of (by decide +kernel), alone_of (by decide +kernel), by decide +kernel, alone_of (by decide +kernel), by decide +kernel,
    alone_of (by decide +kernel), by decide +kernel⟩
theorem test_hyp_yield : Alone S (hy 0) (.yield (hy 0)) ∧ stIE (status S 0) = false ∧ Alone ie1 (hy 0) (.yield (hy 0)) ∧ stIE (status ie1 0) = true ∧
    accepted ie1 1 1 = false ∧ (runnableBanks ie1 0).all (fun p => decide ((Machine.core ie1 0).cur = some p.1)) = true :=
  ⟨alone_of (by decide +kernel), by decide +kernel, alone_of (by decide +kernel), by decide +kernel⟩

/-- Capabilities: plain and untagged sources; sealing at both ends of the software types and with a gate type; unsealing. -/
def sealing (y : Nat) : State := cr 5 (setCursor (readC S 0 3) y) S
def isOk {α : Type} (r : Chk α) : Bool :=
  match r with
  | .ok _ => true
  | .fault _ _ => false
theorem test_hyp_derive : ([Instr.kmov (hy 2) 5 1, .kdrop (hy 2) 5 1, .kpoint (hy 2) 5 1 6, .kstep (hy 2) 5 1 6, .kstepi (hy 2) 5 1 (.short 255),
    .ktrim (hy 2) 5 1 6, .kclip (hy 2) 5 1 6, .kclips (hy 2) 5 1 6, .krcur (hy 2) 5 1, .krbase (hy 2) 5 1, .krlen (hy 2) 0 1, .krperm (hy 2) 5 1,
    .krtype (hy 2) 5 1, .krtag (hy 2) 5 6].all (aloneB S (hy 2)) && isOk (kClip (readC S 0 1) 0 false) && isOk (kClip (readC S 0 1) 0 true) &&
    isOk (kClip (readC S 0 1) 4096 true) && isOk (kClip (readC S 0 6) 4096 false)) = true ∧ (readC S 0 1).tag = true ∧ capOtype (readC S 0 1) = 0 := by decide +kernel
theorem test_hyp_wrap : ([1, 4031, 0xFC0, 0xFC3].all (fun y => let s := sealing y; let a := readC s 0 5
    aloneB s (hy 2) (.kwrap (hy 2) 8 1 5) && a.tag && decide (capOtype a = 0) && decide (capBase a ≤ capCursor a) && decide ((capCursor a : Int) < capTop a) &&
    hasPerm a pSEAL && hasPerm a pGATE && hasPerm (readC s 0 1) pEXEC && !typeRevoked s y)) = true := by decide +kernel
theorem test_hyp_unwrap : ([1, 4031].all (fun y => let s := cr 8 (setOtype (readC S 0 1) y) (sealing y); let a := readC s 0 5
    aloneB s (hy 2) (.kunwrap (hy 2) 9 8 5) && a.tag && decide (capOtype a = 0) && decide (capBase a ≤ capCursor a) && decide ((capCursor a : Int) < capTop a) &&
    hasPerm a pUNSEAL && !typeRevoked s y && (readC s 0 8).tag && decide (y = capOtype (readC s 0 8)))) = true := by decide +kernel
/-- ClipNeverWidens: a tagged result. -/
theorem test_hyp_clip : ∃ w, kClip (setCursor (readC S 0 1) 0x1000) 100 false = .ok w ∧ w.tag = true ∧ capCursor w = 0x1000 := by
  refine ⟨match kClip (setCursor (readC S 0 1) 0x1000) 100 false with | .ok w => w | .fault _ _ => nullW, ?_⟩; decide +kernel

theorem test_hyp_signal : ([Instr.macs (hy 3) 0 6 7, .macu (hy 3) 3 6 7, .msus (hy 3) 0 6 7, .msuu (hy 3) 0 6 7, .muls (hy 3) 0 6 7, .mulu (hy 3) 0 6 7,
    .aclr (hy 3) 0, .wracc (hy 3) 0 6, .ashr (hy 3) 0 7, .rdacc (hy 3) 5 0 7, .crcstep (hy 3) 0 5 6 7, .crcstep (hy 3) 3 5 6 7, .parity (hy 3) 5 6,
    .bitrev (hy 3) 5 6 7].all (aloneB S (hy 3))) = true ∧ noLazySave S 0 := ⟨by decide +kernel, .inl (by decide +kernel)⟩

/-- SkipsAndBarriers: a false condition; barriers with nothing, and with something, to wait for. -/
def entry (word : Nat) : StoreEntry :=
  { id := 1, word := word, mask := 0xFF, data := 7, tag := false, cap := false, pa := word * 16, va := 0, ctx := 0, se := false, tw := false
    sent := false, answer := none, sync := none, orphan := false }
theorem test_hyp_skip : let h : Syl := { hy 0 with cond := 1 }
    Whole h (.trap h 5) ∧ Ready S 0 (encodeSyl (.trap h 5)) ∧ condOn S h = false :=
  ⟨whole_of (by decide +kernel), ready_of (by decide +kernel), by decide +kernel⟩
theorem test_hyp_barriers : (aloneB S (hy 0) (.nop (hy 0)) && [Instr.mbar (hy 2), .sbar (hy 2), .lbar (hy 2), .ibar (hy 2), .tlbsync (hy 2)].all (aloneB S (hy 2))) = true ∧
    (Machine.core S 0).sb = [] ∧ (curRegs S 0).late = none ∧ (Machine.core S 0).icinvWait = 0 ∧ (Machine.core S 0).tlbWait = 0 ∧ mayPrivileged S 0 :=
  ⟨by decide +kernel, by decide +kernel, by decide +kernel, by decide +kernel, by decide +kernel, ⟨by decide +kernel, by decide +kernel⟩⟩
theorem test_hyp_barriers_wait : let s := co (fun c => { c with sb := [entry 9], icinvWait := 1, tlbWait := 1 }) S
    ([Instr.mbar (hy 2), .sbar (hy 2), .ibar (hy 2), .tlbsync (hy 2)].all (aloneB s (hy 2))) = true ∧ (Machine.core s 0).sb ≠ [] ∧ (Machine.core s 0).icinvWait ≠ 0 ∧
    (Machine.core s 0).tlbWait ≠ 0 := by decide +kernel

/-- Repeats: a repeat at 0x1000 in a line that the instruction cache holds, with its target after it. -/
def repeated (r : Nat) (i : Instr) : State :=
  let words := encodeSyl i ++ encodeSyl (.addi (hy 0) 5 5 (.short 255))
  let line : List Byte := (words.map (fun w => leBytes 4 w.toNat)).flatten ++ List.replicate 56 0
  rg (fun x => { x with pcc := setCursor (readC S 0 1) 0x1000, rcnt := BitVec.ofNat 32 r }) (co (fun c => { c with l1i := [{ line := 0x40, bytes := line }] }) S)
theorem test_hyp_repeat : ([(0, Instr.rep (hy 0)), (3, .rep (hy 0)), (0, .repn (hy 0) 0), (0, .repn (hy 0) 63)].all (fun p => let s := repeated p.1 p.2
    aloneB s (hy 0) p.2 && wholeB (hy 0) (.addi (hy 0) 5 5 (.short 255)) && condOn s (hy 0) && !bit (curRegs s 0).prog.toNat 63 &&
    decide (targetRead s 0 [] ((pcAddr s 0 + 4) % 2 ^ 64) = (s, .words (encodeSyl (.addi (hy 0) 5 5 (.short 255))))))) = true := by decide +kernel

/-- ExceptionEntry: a handler outside the boot ROM, and each event due. -/
def ready1 : State := cr 6 (setCursor (readC S 0 1) 0x8000) (co (fun c => { c with kentry := setCursor (readC S 0 1) 0x4000 }) ie1)
def lateRep : LateReport := { sub := 3, fadr := 0, finfo := 0 }
def alert0 : Cause := { code := 0x60, sub := 0, fadr := 0, finfo := 0, inRep := false, progress := false, async := true, imprecise := false, lopc := 0 }
def failed : LongOp := { dest := .glob 4, rd := 5, fn := 0, result := none, lopc := 0, lvl := 0 }
theorem test_hyp_trap : Enterable ready1 0 ∧ Alone ready1 (hy 0) (.trap (hy 0) 127) ∧ Alone ready1 (hy 0) (.brk (hy 0) 0) :=
  ⟨enter_of (by decide +kernel), alone_of (by decide +kernel), alone_of (by decide +kernel)⟩
theorem test_hyp_events : Enterable (co (fun c => { c with longErrs := [failed] }) ready1) 0 ∧ dueError (co (fun c => { c with longErrs := [failed] }) ready1) 0 = some failed ∧
    Enterable (co (fun c => { c with alerts := [alert0] }) ready1) 0 ∧ dueError ready1 0 = none ∧ stIE (status ready1 0) = true ∧ (Machine.core ready1 0).alerts = [] ∧
    Enterable (rg (fun r => { r with late := some lateRep }) ready1) 0 ∧ Enterable (co (fun c => { c with grant := some { line := 3, source := 64 } }) ready1) 0 :=
  ⟨enter_of (by decide +kernel), by decide +kernel, enter_of (by decide +kernel), by decide +kernel, by decide +kernel, by decide +kernel,
    enter_of (by decide +kernel), enter_of (by decide +kernel)⟩

/-- Memory instructions: c5 points into general memory at `a`, and the data cache holds the line at 0x2000. -/
def data (a : Nat) : State := co (fun c => { c with l1d := [0x80] }) (cr 5 (setCursor (readC S 0 1) a) S)
def acc (s : State) (r : Nat) (k : Kind) (v : Option CapW) (a len : Nat) : Access :=
  checkAccess s 0 [] (curRegs s 0).space.toNat (stRING (status s 0)) (readC s 0 r) k v a len
def half (s : State) (r : Nat) (k : Kind) (v : Option CapW) (a len : Nat) : Access :=
  checkHalf s 0 [] (curRegs s 0).space.toNat (stRING (status s 0)) (readC s 0 r) k v false false a len
def got (x : Access) : List Piece :=
  match x with
  | .go ps => ps
  | _ => []
/-- An access passes its checks in so many pieces, all of which the cache answers if `hit` says so. -/
def goes (s : State) (x : Access) (k : Nat) (hit : Bool) : Bool :=
  decide (x = .go (got x)) && decide ((got x).length = k) &&
  (got x).all (fun p => !p.leaf.se && inMem s p.pa && decide (p.pa % 16 = p.va % 16) && (Machine.core s 0).l1d.contains (p.pa / 64) == hit)

/-- Loads: aligned, across two words, at the end of a line, and in the post-increment modes. -/
theorem test_hyp_loads : ([(Instr.ldb (hy 2) 8 5 (.off 0), 1), (.ldbu (hy 2) 0 5 (.off 0), 1), (.ldh (hy 2) 8 5 (.off 0), 2), (.ldhu (hy 2) 8 5 (.off 0), 2),
    (.ldw (hy 2) 8 5 (.off 0), 4), (.ldwu (hy 2) 8 5 (.off 0), 4), (.ldd (hy 2) 8 5 (.off 0), 8), (.ldd (hy 2) 8 5 (.modulo 0 1), 8), (.ldd (hy 2) 8 5 (.rev 3), 8)].all
    (fun p => let s := data 0x2000; aloneB s (hy 2) p.1 && goes s (acc s 5 .load none 0x2000 p.2) 1 true)) = true ∧ noLazySave (data 0x2000) 0 ∧
    (Machine.core (data 0x2000) 0).sb = [] ∧ aloneB (data 0x2030) (hy 2) (.ldc (hy 2) 8 5 (.off 0)) = true ∧
    goes (data 0x2030) (acc (data 0x2030) 5 .capload none 0x2030 16) 1 true = true ∧ goes (data 0x200C) (acc (data 0x200C) 5 .load none 0x200C 8) 2 true = true :=
  ⟨by decide +kernel, .inl (by decide +kernel), by decide +kernel⟩
theorem test_hyp_loads_wait : let s := data 0x2040; let t := co (fun c => { c with sb := [entry 0x204] }) s
    (aloneB s (hy 2) (.ldd (hy 2) 8 5 (.off 0)) && goes s (acc s 5 .load none 0x2040 8) 1 false && (Machine.core s 0).sb.isEmpty &&
      aloneB t (hy 2) (.ldd (hy 2) 8 5 (.off 1)) && decide (forward (Machine.core t 0).sb 0x2044 8 = .wait)) = true := by decide +kernel

/-- Stores: each width, in one part and in two. -/
theorem test_hyp_stores : ([(Instr.stb (hy 2) 6 5 (.off 0), 1), (.sth (hy 2) 6 5 (.off 0), 2), (.stw (hy 2) 6 5 (.off 0), 4), (.std (hy 2) 6 5 (.off 0), 8),
    (.std (hy 2) 6 5 (.modulo 0 31), 8)].all (fun p => let s := data 0x2008; aloneB s (hy 2) p.1 && goes s (acc s 5 .store none 0x2008 p.2) 1 true)) = true ∧
    stSYNCST (status (data 0x2000) 0) = false ∧ (Machine.core (data 0x2000) 0).sb = [] ∧ aloneB (data 0x2000) (hy 2) (.stc (hy 2) 1 5 (.off 0)) = true ∧
    goes (data 0x2000) (acc (data 0x2000) 5 .capstore (some (readC (data 0x2000) 0 1)) 0x2000 16) 1 true = true := by decide +kernel
theorem test_hyp_stores_split : ([(Instr.sth (hy 2) 6 5 (.off 0), 2, 0x200F), (.stw (hy 2) 6 5 (.off 0), 4, 0x200D), (.std (hy 2) 6 5 (.off 0), 8, 0x2009)].all
    (fun p => let s := data p.2.2; aloneB s (hy 2) p.1 && goes s (acc s 5 .store none p.2.2 p.2.1) 2 true &&
      ((got (acc s 5 .store none p.2.2 p.2.1)).map (fun q => q.pa / 16) == [0x200, 0x201]))) = true := by decide +kernel

/-- QueueInstructions: c4 is the root of queues. -/
theorem test_hyp_queue : let s := S; let q := readC s 0 4
    ([Instr.qput (hy 2) 5 4 8, .qget (hy 2) 5 4 8, .qputm (hy 2) 6 4 8].all (aloneB s (hy 2))) = true ∧ (Machine.core s 0).sb = [] ∧ queueCapChk q pSTORE 2 = none ∧
    queueCapChk q pLOAD 1 = none ∧ queueBounds q [0] = none ∧ queueBounds q (maskBits (capCursor (readC s 0 6) % 2 ^ 16)) = none ∧
    payloadChk q 48 [(1, readC s 0 9), (2, readC s 0 10), (3, readC s 0 11)] = none := by decide +kernel

/-- LongOperations: a divisor of zero among the operands, and operations in flight that succeed and fail. -/
theorem test_hyp_long : ([Instr.div (hy 3) 5 6 7, .divu (hy 3) 5 6 7, .rem (hy 3) 5 6 7, .remu (hy 3) 5 6 7, .fdiv (hy 3) 5 6 7, .fsqrt (hy 3) 5 6,
    .crcp (hy 3) 5 6 8].all (aloneB S (hy 3))) = true ∧ noLazySave S 0 ∧ stPRECLONG (status S 0) = false := ⟨by decide +kernel, .inl (by decide +kernel), by decide +kernel⟩
theorem test_hyp_long_finish : let s := co (fun c => { c with longs := [failed, { failed with result := some 7 }] }) S
    s.wdr.held = none ∧ Seated s 0 ∧ (Machine.core s 0).held = none ∧ (Machine.core s 0).longs[0]? = some failed ∧ (Machine.core s 0).longs[1]? = some { failed with result := some 7 } :=
  ⟨by decide +kernel, ⟨by decide +kernel, 0, by decide +kernel, by decide +kernel⟩, by decide +kernel⟩

/-- Invalidations sent and received. -/
theorem test_hyp_invalidate : let s := data 0x2000; let c := readC s 0 5
    aloneB s (hy 2) (.icinv (hy 2) 5) = true ∧ aloneB s (hy 2) (.tlbinv (hy 2) 6) = true ∧ mayPrivileged s 0 ∧ 15 < Config.cores s.variant ∧
    Config.cores s.variant ≤ s.cores.length ∧ c.tag = true ∧ capOtype c = 0 ∧ hasPerm c pSTORE = true ∧ canonical (capCursor c) = true ∧ cursorIn c = true ∧
    (match translate s 0 [] (curRegs s 0).space.toNat (capCursor c % 2 ^ 48) with
     | .page l _ => decide (stRING (status s 0) ≤ l.minring) && l.r
     | _ => false) = true := ⟨by decide +kernel, by decide +kernel, ⟨by decide +kernel, by decide +kernel⟩, by decide +kernel⟩
theorem test_hyp_receipts : let s := co (fun c => { c with icinvRx := [(15, 9)], tlbRx := [(0, 0)] }) S; let t := co (fun c => { c with sb := [entry 9] }) s
    s.wdr.held = none ∧ 15 < s.cores.length ∧ (Machine.core s 0).icinvRx = [(15, 9)] ∧ (Machine.core s 0).tlbRx = [(0, 0)] ∧ (Machine.core s 0).sb = [] ∧ (Machine.core t 0).sb ≠ [] ∧
    (Machine.core t 0).tlbRx = [(0, 0)] ∧ (Machine.core t 0).halted = false := by decide +kernel

/-- BlockInstructions: two registers, none; one word, nothing; one granule that ends its line. -/
def masked (m : Nat) : State := cr 8 (intW m) (data 0x2000)
theorem test_hyp_registers : ([0, 0x80000001, 0xFF].all (fun m => let s := masked m; let l := maskRegs m
    aloneB s (hy 2) (.ldm (hy 2) 5 8) && aloneB s (hy 2) (.stm (hy 2) 5 8) && (Machine.core s 0).sb.isEmpty && (Machine.core s 0).granules.isEmpty &&
    !bit (curRegs s 0).prog.toNat 63 && !stSYNCST (status s 0) && decide (l.length ≤ 8) && (capCheck (readC s 0 5) .capload none 0x2000 (16 * l.length)).isNone &&
    (capCheck (readC s 0 5) .capstore none 0x2000 (16 * l.length)).isNone &&
    (List.range l.length).all (fun j => (storeCapFault (readC s 0 5) (readC s 0 (l.getD j 0))).isNone &&
      (decide (4 ≤ j) || goes s (half s 5 .capload none (0x2000 + 16 * j) 16) 1 true) &&
      goes s (half s 5 .capstore (some (readC s 0 (l.getD j 0))) (0x2000 + 16 * j) 16) 1 (decide (j < 4))))) = true := by decide +kernel
def copying (y : Nat) : State := cr 8 (setCursor (readC S 0 1) 0x1030) (cr 9 (setCursor (readC S 0 1) 0x2000) (cr 10 (intW y) (data 0x2000)))
theorem test_hyp_blocks : ([0, 1, 16].all (fun y => let s := copying y
    aloneB s (hy 2) (.crcblk (hy 2) 11 5 10) && aloneB s (hy 2) (.mcopy (hy 2) 11 8 10) && (capCheck (readC s 0 5) .load none 0x2000 y).isNone &&
    goes s (half s 5 .load none 0x2000 y) 1 true && (capCheck (readC s 0 9) .load none 0x2000 y).isNone && (capCheck (readC s 0 8) .store none 0x1030 y).isNone &&
    goes s (half s 9 .load none 0x2000 y) 1 true && goes s (half s 8 .store none 0x1030 y) 1 false && decide (0x1030 % 64 + y ≤ 64))) = true := by decide +kernel
def gran (len : Nat) : Granule := { srcs := [{ pa := 0x2000, len := len, cl := true }], dst := 0x2040, len := len, tags := true, local_ := true, desc := false, tw := false }
theorem test_hyp_granule : ([1, 64].all (fun len => let s := up 5 (co (fun c => { c with granules := [gran len] }) S)
    s.wdr.held.isNone && decide ((Machine.core s 0).granules = [gran len]) && running s 5 && decide (0x2000 + len ≤ 0x2040) && (List.range len).all (fun k =>
      inMem s (0x2000 + k) && inMem s (0x2040 + k) && decide (eccAt s (0x2000 + k) = .none) && decide (eccAt s (0x2040 + k) = .none) &&
      decide (fget s (MEM_BOWN_DOM (bankNo (0x2040 + k))) = 0)))) = true := by decide +kernel

/-- StoreBuffer: an entry that may be sent, one that has been, and one that is late with and without a report pending. -/
def buffered (e : StoreEntry) : State := co (fun c => { c with sb := [e] }) S
theorem test_hyp_buffer : let s := buffered (entry 0x200); let e := { entry 0x200 with sent := true }; let t := buffered e
    s.wdr.held = none ∧ (Machine.core s 0).sb[0]? = some (entry 0x200) ∧ sendable (Machine.core s 0).sb 0 = true ∧ (Machine.core t 0).sb[0]? = some e ∧ (Machine.core t 0).held = none ∧
    (Machine.core t 0).tlbAcks = [] ∧ inMem t (e.word * 16) = true ∧ fget t (MEM_BOWN_DOM (bankNo (e.word * 16))) = 0 ∧ eccAt t (e.word * 16) = .none ∧
    bankHolding (Machine.core t 0) e.ctx = some 0 ∧ (bankOf (Machine.core t 0) 0).regs.late = none ∧
    (bankOf (Machine.core (rg (fun r => { r with late := some lateRep }) t) 0) 0).regs.late = some lateRep := by decide +kernel

/-- HeldBundlesAndFetch. -/
def waiting (w : Hold) : State := co (fun c => { c with held := some { freshHeld [0x80000000] with why := w } }) S
theorem test_hyp_held : (waiting (.miss 0x80)).wdr.held = none ∧ ((Machine.core (waiting (.miss 0x80)) 0).held.map (fun h => h.why)) = some (.miss 0x80) ∧
    ((Machine.core (waiting (.walk 0x5000 false)) 0).held.map (fun h => h.why)) = some (.walk 0x5000 false) := by decide +kernel
theorem test_hyp_fetch : let s := repeated 0 (.nop (hy 0)); let w := encodeSyl (.nop (hy 0))
    s.wdr.held = none ∧ corePresent s 0 = true ∧ issues s 0 = true ∧ (Machine.core s 0).fbuf = [] ∧ readWalking 0 (pcAddr s 0) false 5 [] s = (s, .words w) ∧
    encodingFault (pcAddr s 0) w (parse 0 w) = none := by decide +kernel

/-! ### Blocks, contexts, queues and events -/

/-- STATE of block `b` set. -/
def stt (b k : Nat) (s : State) : State := fset s (STATE_STATE b) k
/-- BlockControl: every block disabled and enabled, draining, and a fault that is gone. -/
theorem test_hyp_control : ((List.range 20).all (fun b => openB S C0 (CTRL b) && !fon S (CTRL_SOFT_RESET b) && !fon S (CTRL_ENABLE b) &&
    decide (blkState S b = 0) && !inconsistent S b && openB (up b S) C0 (CTRL b) && fon (up b S) (CTRL_ENABLE b) && decide (blkState (up b S) b = 1) &&
    decide (blkState (stt b 2 S) b = 2) && openB (stt b 2 S) C0 (CTRL b) && openB (stt b 4 S) C0 (CTRL b) && decide (blkState (stt b 4 S) b = 4) &&
    (!faultPersists (stt b 4 S) b || b == 0x09 || b == 0x0D))) = true ∧ direct 4 = true ∧ direct 5 = false := by decide +kernel
theorem test_hyp_control_refused : openB (setReg S (FEAT_ACCEPT 0x0B) 5) C0 (CTRL 0x0B) = true ∧ inconsistent (setReg S (FEAT_ACCEPT 0x0B) 5) 0x0B = true ∧
    blkState (setReg S (FEAT_ACCEPT 0x0B) 5) 0x0B ≠ 2 ∧ faultPersists (stt 9 4 S) 9 = true ∧ inconsistent (stt 9 4 S) 9 = false := by decide +kernel
theorem test_hyp_states : ((List.range 20).all (fun b => Config.present S.variant b)) = true ∧ S.wdr.held = none ∧ S.softErr = [] ∧
    (([0x01, 0x02, 0x03, 0x04, 0x05, 0x06, 0x0C].all (fun b => fon (fset S (CTRL_SOFT_RESET b) 1) (CTRL_SOFT_RESET b))) = true) ∧
    blkState (up 0x09 S) 0x09 = 1 ∧ blkState (stt 0x0E 2 S) 0x0E = 2 ∧ blkState (up 0x0D S) 0x0D = 1 ∧ twRole (up 0x0D S) = 0 := by decide +kernel
theorem test_hyp_features : ((List.range 20).all (fun b => openB S C0 (FEAT_ACCEPT b) && openB S C0 (FEAT_ACCEPT_HI b) && !fon S (CTRL_ENABLE b) &&
    decide (blkState S b = 0) && fon (up b S) (CTRL_ENABLE b))) = true ∧ (2 : W32) &&& ~~~reg S (FEAT_OFFER 5) = 0 ∧ (0x20 : W32) &&& ~~~reg S (FEAT_OFFER 5) ≠ 0 ∧
    blkState (stt 5 3 S) 5 = 3 ∧ blkState (stt 5 2 S) 5 = 2 := by decide +kernel
theorem test_hyp_block_events : let s := setReg (up 5 S) (EV_ENABLE 5) 0xF
    S.wdr.held = none ∧ eventKnown S 5 3 = true ∧ delivers s 5 = true ∧ bit (reg s (evRegs 5 3).2.1).toNat (evRegs 5 3).2.2.2 = true ∧
    bit (reg s (evRegs 5 3).2.2.1).toNat (evRegs 5 3).2.2.2 = false ∧ delivers S 5 = false ∧
    ((List.range 20).all (fun b => openB S C0 (EV_ENABLE b) && openB S C0 (EV_PENDING b) &&
      (!hasEv2 b || (openB S C0 (blkBase b + 0x104) && openB S C0 (blkBase b + 0x108))))) = true := by decide +kernel
theorem test_hyp_owners : (([0, 127].all (fun i => openB S C0 (CAP_TYPEREV i))) && [0, 15].all (fun i => openB S C0 (MEM_BOWN i))) = true ∧
    (2 : W32) &&& typerevReserved 0 = 0 ∧ fget S (MEM_BOWN_DOM 15) = 0 ∧ fget (fset S (MEM_BOWN_DOM 15) 7) (MEM_BOWN_DOM 15) = 7 ∧ bankPresent S 15 = true := by decide +kernel

/-- ContextCommands and SuspendAndAbort: contexts in each state, the last of the variant, a suspension under way. -/
def ctx (c st : Nat) (s : State) : State := setCtxState s c st
def susp (b : Bool) : State := { up 1 S with suspend := some { ctx := 5, ev := false, started := b } }
theorem test_hyp_context : let s := up 1 S
    openB s C0 SCHED_CTXCMD = true ∧ running s 1 = true ∧ s.suspend = none ∧ 4095 < Config.contexts s.variant ∧ ctxState s 4095 = 0 ∧
    ctxState (ctx 5 4 s) 5 = 4 ∧ ctxState (ctx 5 5 s) 5 = 5 ∧ ctxState (ctx 5 1 s) 5 = 1 ∧ heldAt (ctx 5 1 s) 5 = none ∧ permitted 1 3 = false ∧ permitted 9 3 = false ∧
    (bits (reg (setReg s SCHED_CTXARG 0x8000) SCHED_CTXARG).toNat 15 0) % 2 ^ Config.cores s.variant ≠ 0 ∧ openB S C0 SCHED_CTXCMD = true ∧ running S 1 = false ∧
    openB (susp true) C0 SCHED_CTXCMD = true ∧ (susp true).suspend.isSome = true := by decide +kernel
/-- Context 5 in bank 1 of core 0. -/
def twoBanks : State := ctx 5 3 (co (fun c => { c with banks := c.banks.set 1 { ctx := some 5, regs := CtxRegs.zero, lastCur := 0 } }) (up 1 S))
theorem test_hyp_suspend : openB twoBanks C0 SCHED_CTXCMD = true ∧ running twoBanks 1 = true ∧ twoBanks.suspend = none ∧ ctxState twoBanks 5 = 3 ∧
    heldAt twoBanks 5 = some (0, 1) ∧ (susp false).suspend = some { ctx := 5, ev := false, started := false } ∧ running (susp false) 1 = true ∧
    (([0, 15].all (fun n => openB S C0 (SCHED_CORECTL n) && corePresent S n)) = true) := by decide +kernel

/-- RecordsAndScheduling. -/
def transfer (arg : W32) : State := ctx 5 4 (up 4 (up 1 (setReg S SCHED_CTXARG arg)))
theorem test_hyp_transfer : ([(0x00000000, 0), (0x0000002F, 47), (0x0000003F, 63)] : List (W32 × Nat)).all (fun p => let s := transfer p.1
    let a := alignDown (pair s SCHED_RECX_ADDR_LO SCHED_RECX_ADDR_HI) 16
    openB s C0 SCHED_CTXCMD && running s 1 && running s 4 && s.suspend.isNone && decide (ctxState s 5 = 4) && decide (bits (reg s SCHED_CTXARG).toNat 5 0 = p.2) &&
    decide (bits (reg s SCHED_CTXARG).toNat 21 16 = 0) && inMem s a && decide (fget s (MEM_BOWN_DOM (bankNo a)) = 0) && decide (eccAt s a = .none) &&
    decide (recUpset s 5 p.2 = .none)) = true ∧ 48 < 48 + bits (0x00000030 : W32).toNat 21 16 + 1 ∧ 64 < 63 + bits (0x0001003F : W32).toNat 21 16 + 1 := by decide +kernel
def admitted (s : State) : State := flds [(SCHED_CORECTL_ADMIT 0, 1)] s
def placed : State := setRecBits (setRecBits (setRecBits (ctx 5 2 (up 1 (admitted S))) 5 0x300 31 16 1) 5 0x300 11 8 15) 0 0x300 11 8 0
theorem test_hyp_placement : S.wdr.held = none ∧ running placed 1 = true ∧ readyOrder placed = [5] ∧ coreOrder placed 5 = [0] ∧
    (placed.cores.any (fun k => k.loading.any (fun p => p.1 == 5))) = false ∧
    (upTo 4).find? (fun b => (bankOf (Machine.core placed 0) b).ctx.isNone) = some 1 := by decide +kernel
theorem test_hyp_record_load : let s := co (fun c => { c with loading := [(5, 1)] }) placed
    let t := co (fun c => { c with cur := none }) s
    corePresent t 0 = true ∧ 1 < (Machine.core t 0).banks.length ∧ (Machine.core t 0).loading = [(5, 1)] ∧ maySwitch t 0 = true ∧ maySwitch s 0 = false ∧
    eligible t 5 0 = true ∧ ctxState t 5 = 2 ∧
    ((List.range 48).all (fun w => decide (recUpset t 5 w = .none))) = true := by decide +kernel
theorem test_hyp_switch : let s := co (fun c => { c with cur := none }) twoBanks
    maySwitch s 0 = true ∧ (Machine.core s 0).cur = none ∧ (Machine.core s 0).halted = false ∧ (wantedBank s 0).isSome = true ∧ (Machine.core s 0).longs = [] ∧ (Machine.core s 0).longErrs = [] ∧ (Machine.core s 0).late = [] ∧
    (([none, some 0, some 5].all (fun k => !traced s 0 k 4)) = true) := by decide +kernel
theorem test_hyp_evict : let s := rg (fun r => { r with status := mkStatus false false false false false 0 true }) { twoBanks with evicts := [5] }
    leaving s 5 = true ∧ maySwitch s 0 = true ∧ heldAt s 5 = some (0, 1) ∧ 5 ∈ s.evicts ∧ (Machine.core s 0).cur = some 0 ∧ (entriesOf (Machine.core s 0) 5).isEmpty = true ∧ (Machine.core s 0).halted = false ∧
    replicates s 1 = false := by decide +kernel
theorem test_hyp_quantum : let s := setReg (flds [(SCHED_SCHED_CFG_QUANTUM, 1)] (setRecBits (admitted twoBanks) 5 0x300 11 8 15)) (FEAT_ACCEPT 1) 5
    runningCtx s 0 = some 0 ∧ accepted s 1 2 = true ∧ fget s SCHED_SCHED_CFG_QUANTUM ≠ 0 ∧ accepted s 1 1 = false ∧
    ((runnableBanks s 0).any (fun p => decide (p.2 ≠ 0) && decide (ctxPrio s p.2 = ctxPrio s 0))) = true ∧ accepted (up 1 S) 1 1 = true := by decide +kernel

/-- QueueMessages: queue 16, enabled and bound, at the foot of memory. -/
def desc : QDesc := { QDesc.none with base := 0x1000, ctx := 5, bound := true, en := true, size := 1, classmask := 1 }
def queued (d : QDesc) : State := ctx 5 4 (up 5 (setQdesc S 16 d))
def putR : PutReq := { queue := 16, sender := 5, ring := none, cls := 0, axis := 0, flags := 0, plen := 48, payload := [nullW, nullW, nullW], fromEvt := false }
theorem test_hyp_put : putRefusal (queued desc) putR = 0 ∧ putRefusal (queued desc) { putR with cls := 1 } ≠ 0 ∧ qfill desc ≠ qslots desc ∧
    qfill { desc with put := 4 } = qslots { desc with put := 4 } ∧ putRefusal (queued { desc with put := 4 }) putR = 0 ∧ desc.base % 64 = 0 ∧
    ((List.range (64 + 64 * qslots desc)).all (fun k => inMem (queued desc) (0x1000 + k) && ownerAdmits (queued desc) (bankNo (0x1000 + k)) (domOf desc.dom))) = true ∧
    ctxState (queued desc) 5 ≠ 0 := by decide +kernel
def staged (q : Nat) (l : List (Fld × Nat)) : State := flds ((QUE_QSEL_Q, q) :: l) (queued desc)
theorem test_hyp_descriptor : (([0, 16, 17, 16383].all (fun q => openB (staged q []) C0 QUE_QCMD && running (staged q []) 5 && decide (q < Config.queues .a16) &&
    decide (fget (staged q []) QUE_QSEL_Q = q))) = true) ∧ (qdesc (staged 16 []) 16).en = true ∧ (stagedDesc (staged 16 [])).base ≠ (qdesc (staged 16 []) 16).base ∧
    (qdesc (staged 17 []) 17).en = false ∧ ringOk (staged 17 []) (stagedDesc (staged 17 [])) = true ∧ (stagedDesc (staged 17 [])).dom = 0 ∧
    (stagedDesc (staged 17 [])).en = false ∧ (stagedDesc (staged 17 [(QUE_QD1_EN, 1)])).en = true ∧ (stagedDesc (staged 17 [(QUE_QD1_DOM, 6)])).dom = 6 := by decide +kernel

/-- Events: a fresh source and one pending; software-set sources at both ends; lawful and unlawful targets. -/
theorem test_hyp_sources : sourceKnown S 0 = true ∧ sourceKnown S 447 = true ∧ evtPending S 64 = false ∧ evtPending (evtOccur S 64) 64 = true ∧
    openB (up 6 S) C0 EVT_SWSET = true ∧ accepted (up 6 S) 6 2 = true ∧ (([0, 31].all (fun w => openB S C0 (EVT_PEND w))) = true) ∧
    (([0, 1023].all (fun n => openB S C0 (EVT_SRCCFG n))) = true) ∧ (0x40003FFF : W32) &&& 0x03FFC000 = 0 ∧ bits (0x40003FFF : W32).toNat 13 0 < Config.queues .a16 ∧
    Config.queues .b8 ≤ bits (0x40003FFF : W32).toNat 13 0 ∧ openB (State.resetOf .b8) C0 (EVT_SRCCFG 0) = true ∧
    (bits (bits (0x0000007F : W32).toNat 13 0) 6 3 < Config.cores .a16) := by decide +kernel
/-- Source 386 enabled on line 3 of core 0; the same routed to queue 16, put and refused. -/
def evented (v : W32) : State := evtOccur (setReg (admitted (up 6 (rg (fun r => { r with status := mkStatus false false false false false 0 true }) (queued { desc with classmask := 0x8000 }))))
  (EVT_SRCCFG 386) v) 386
theorem test_hyp_grant : let s := evented 0x80000003
    issues s 0 = true ∧ stIE (status s 0) = true ∧ (Machine.core s 0).grant = none ∧ (Machine.core s 0).grantReq = none ∧ topLine s 0 = some (3, 386) ∧
    lineSource s 0 3 = some 386 ∧ topLine ie1 0 = none := by decide +kernel
theorem test_hyp_message : let s := evented 0xC0000010
    ((pendingSources s).filter (fun n => queueRouted s n && !s.evtWait.contains n)).foldl (betterSrc s) none = some 386 ∧ (queuePut s (eventPut s 386)).2 = 0 ∧
    queueRouted s 386 = true ∧ (queuePut (evented 0xC0000011) (eventPut (evented 0xC0000011) 386)).2 ≠ 0 := by decide +kernel

/-! ### Axes, marks, cells and the field die -/

def P : State := up 7 S
/-- PhaseAxes: software's axis, RUN and HOLDOVER axes with a waiting context, the control word of an axis. -/
theorem test_hyp_axes : let sw := flds [(PHASE_AXCTL_SRC 3, 6), (PHASE_AXSTAT_STATE 3, 1)] P
    let run := flds [(PHASE_AXSTAT_STATE 15, 2), (PHASE_AXLOSSTIME_TIME 15, 1)] P
    let hold := setRecBits (setRecBits (ctx 9 3 (flds [(PHASE_AXSTAT_STATE 1, 3), (PHASE_AXHOLDMAX_MAX 1, 1)] P)) 9 0x300 36 36 1) 9 0x300 35 32 1
    openB sw C0 (PHASE_AXMEAS_HI 3) = true ∧ fget sw (PHASE_AXCTL_SRC 3) = 6 ∧ axisState sw 3 ≠ 0 ∧ 15 < sw.phase.axes.length ∧
    openB sw C0 (PHASE_AXMEAS_HI 15) = true ∧ axisState run 15 = 2 ∧ fget run (PHASE_AXLOSSTIME_TIME 15) ≠ 0 ∧ axisState hold 1 = 3 ∧
    fget hold (PHASE_AXHOLDMAX_MAX 1) ≠ 0 ∧ recBits hold 9 0x300 36 36 = 1 ∧ recBits hold 9 0x300 35 32 = 1 ∧ ctxState hold 9 ≠ 0 ∧ P.wdr.held = none := by
  decide +kernel
theorem test_hyp_axctl : openB P C0 (PHASE_AXCTL 15) = true ∧ openB P C0 (PHASE_AXCTL 1) = true ∧ axctlCode S 1 0x80000000 ≠ 0 ∧
    axctlCode P 1 0x80000000 = 0 ∧ axisState P 1 = 0 ∧ running P 7 = true ∧ axctlCode P 15 0x60000000 = 0 ∧ axctlCode P 15 0xE0000000 = 0 := by decide +kernel

/-- PhaseMarks: marks at both ends, refused, armed again; commands and actions waiting. -/
def pinned (t : Nat) : State := { P with tick := 5, phase := { P.phase with pins := [{ out := 3, action := 0, target := t, mark := 7 }] } }
def actOf (act arg : Nat) : MarkAct := { mark := 7, action := act, arg := arg, axis := 0, tick := 0, coord := 0, flags := 0 }
def acting (act arg : Nat) : State := ctx 5 3 { P with phase := { P.phase with acts := [actOf act arg] } }
theorem test_hyp_marks : (([0, 4095].all (fun m => openB P C0 (PHASE_MARKCTL m) && !markArmed P m && decide (armCode P m 0x80000000 = 0) &&
      decide (armCode (setReg P (PHASE_MINC_HI m) 0x80000000) m 0x80000000 = 0x13))) = true) ∧ (0x80000000 : W32) &&& 0x00700000 = 0 ∧
    (let s := flds [(PHASE_MARKCTL_ARM 9, 1)] P
     markArmed s 9 = true ∧ openB s C0 (PHASE_MARKCTL 9) = true) ∧
    P.wdr.held = none ∧ (pinned 6).phase.pins ≠ [] ∧ (pinned 6).tick < 6 ∧ 5 ≤ (pinned 5).tick ∧ (acting 7 5).phase.acts ≠ [] ∧
    ctxState (acting 7 5) (5 % 4096) ≠ 0 ∧ (performAct { acting 7 5 with phase := { (acting 7 5).phase with acts := [] } } (actOf 7 5)).2 = 0 ∧
    (performAct { acting 6 0 with phase := { (acting 6 0).phase with acts := [] } } (actOf 6 0)).2 ≠ 0 := by decide +kernel

/-- StepRequestsAndTuning and CellStep: cell 0, and the last cell of the variant. -/
def L (c : Nat) (s : State) : State := flds [(LOOP_CCTL_EN c, 1)] (up 8 s)
def want (c : Nat) (s : State) : State := { s with loop := { s.loop with reqs := [{ cell := c, late := false, pred := false, depth := 1 }] } }
theorem test_hyp_steps : (([0, 511].all (fun c => decide (c < Config.cells S.variant) && running (L c S) 8 && fon (L c S) (LOOP_CCTL_EN c) &&
      !(L c S).loop.reqs.any (fun q => q.cell == c) && (want c (L c S)).loop.reqs.any (fun q => q.cell == c) && openB (L c S) C0 LOOP_STEPREQ &&
      !fon (up 8 S) (LOOP_CCTL_EN c))) = true) ∧ running (up 8 S) 8 = true ∧ S.wdr.held = none := by decide +kernel
theorem test_hyp_cell : (([0, 511].all (fun c => let s := want c (flds [(LOOP_INB_KIND c 0, 5), (LOOP_INB_KIND c 3, 5)] (L c S))
      s.wdr.held.isNone && running s 8 && stepDue s c && fon s (LOOP_CCTL_EN c) && decide (cellType s c = 0) &&
      (upTo 4).all (fun n => fget s (LOOP_INB_KIND c n) == 0 || fget s (LOOP_INB_KIND c n) == 5) && s.loop.tune.isNone && !fon s (LOOP_SCHD_EN c) &&
      decide (fget s (LOOP_OUTB_KIND c) = 0) && !fon s (LOOP_NEXT_EN c) && !fon s (LOOP_CCTL_AGATE c) && !fon s (LOOP_CCTL_FBLATCH c) &&
      f32Finite (f32Max (cw s c 0x68) (f32Min 0 (cw s c 0x6C))))) = true) ∧
    (let s := want 3 (flds [(LOOP_CCTL_AGATE 3, 1), (LOOP_CCTL_AMODE 3, 2)] (L 3 S))
     fon s (LOOP_CCTL_AGATE 3) = true ∧ authority s = false ∧ fget s (LOOP_CCTL_AMODE 3) = 2 ∧ stepDue s 3 = true ∧ cellType s 3 = 0) := by decide +kernel
def tuning (c : Nat) : TuneS := { cell := c, u0 := 0, high := none, steps := 0, cycles := 0, inCycle := false, len := 0, ymin := 0, ymax := 0, lenSum := 0, ampSum := 0 }
theorem test_hyp_tune : openB (L 0 S) C0 LOOP_TUNE_CTL = true ∧ tuneRefused S 0 = true ∧ openB S C0 LOOP_TUNE_CTL = true ∧ tuneRefused (L 0 S) 0 = false ∧
    tuneRefused (L 511 S) 511 = false ∧ (let s := { L 0 S with loop := { (L 0 S).loop with tune := some (tuning 0) } }
     openB s C0 LOOP_TUNE_CTL = true ∧ s.loop.tune = some (tuning 0)) ∧
    openB S C0 LOOP_GCMD = true ∧ fon S LOOP_GCMD_BUSY = false ∧ Config.cells (State.resetOf .b8).variant ≤ 511 ∧ openB (State.resetOf .b8) C0 LOOP_GCMD = true ∧ 511 < Config.cells S.variant ∧
    openB (flds [(LOOP_GCMD_BUSY, 1)] S) C0 LOOP_GCMD = true ∧ fon (flds [(LOOP_GCMD_BUSY, 1)] S) LOOP_GCMD_BUSY = true ∧
    ({ S with loop := { S.loop with commit := some 511 } } : State).loop.commit = some 511 ∧
    (let s := { L 0 S with loop := { S.loop with latch := [(0, 1)] } }
     openB s C0 (LOOP_CCTL 0) = true ∧ fon s (LOOP_CCTL_EN 0) = true ∧ mget (fun _ => 0) s.loop.latch 0 = 1) := by decide +kernel

/-- FieldDie: the bridge up and the supplies good; a field register read that waits, a field register write that was sent. -/
def field (s : State) : State := flds [(MEAS_BRSTAT_UP, 1), (MEAS_BRSTAT_FSUP, 1)] (up 9 s)
theorem test_hyp_die : S.wdr.held = none ∧ Config.fieldDie S.variant = true ∧ bridgeUp (field S) = true ∧ fieldGood (field S) = true ∧ fieldGood S = false ∧
    blkState (field S) 9 = 1 ∧ blkState (stt 9 2 (field S)) 9 = 2 := by decide +kernel
/-- Core 0 holding a load of CHCFG of channel 0, and a store to it sent. -/
def ldF : Instr := .ldw (hy 2) 8 5 (.off 0)
def fieldLoad : State := co (fun c => { c with held := some { freshHeld (encodeSyl ldF) with why := .field } }) (cr 5 (setCursor (readC S 0 1) (MEAS_CHCFG 0)) (field S))
def fieldStore : StoreEntry := { entry (MEAS_CHCFG 0 / 16) with sent := true, mask := byteMask 0 4 }
theorem test_hyp_field_register : wholeB (hy 2) ldF = true ∧ condOn fieldLoad (hy 2) = true ∧
    (Machine.core fieldLoad 0).held = some { freshHeld (encodeSyl ldF) with why := .field } ∧
    (got (acc fieldLoad 5 .load none (MEAS_CHCFG 0) 4)).length = 1 ∧ goes fieldLoad (acc fieldLoad 5 .load none (MEAS_CHCFG 0) 4) 1 false = false ∧
    acc fieldLoad 5 .load none (MEAS_CHCFG 0) 4 = .go (got (acc fieldLoad 5 .load none (MEAS_CHCFG 0) 4)) ∧
    (let s := co (fun c => { c with sb := [fieldStore] }) (field S)
     (Machine.core s 0).sb.find? (fun e => e.sent && fieldEntry s e) = some fieldStore ∧ fieldStore.cap = false ∧ fieldStore.sync = none ∧ (Machine.core s 0).held = none ∧
     (Machine.core s 0).tlbAcks = []) := by decide +kernel

/-- FieldOutputs and the authority pins. -/
def outCmd (k : Nat) : OutCmd := { kind := k, idx := 3, code := 65535 }
theorem test_hyp_outputs : ([MEAS_DOCMD, MEAS_DOSET, MEAS_DOCLR, MEAS_OUTEN0, MEAS_OUTEN1].all (openB (field S) C0)) = true ∧ running (field S) 9 = true ∧
    bridgeUp S = false ∧ (([0, 31].all (fun j => decide (doLevel S j = .hiZ) && decide (doLevel (field S) j ≠ .hiZ) &&
      (decide (doLevel (field S) j ≠ boolLevel true) && decide (doLevel (field S) j = boolLevel false)))) = true) ∧
    pwmLocked (field S) 3 = false ∧ 3 < S.meas.pwms.length := by decide +kernel
theorem test_hyp_pins : (let s := flds [(MEAS_AUTHSTAT_CLAIM, 1), (MEAS_AUTHSTAT_DRIVE, 1)] (field S)
     fon s MEAS_AUTHSTAT_CLAIM = true ∧ fon s MEAS_AUTHSTAT_DRIVE = true) ∧ authority S = fon S MEAS_AUTHSTAT_LINE ∧
    (let s := flds [(TWIN_ROLE_LINE, 1)] S; authority s = true ∧ fon s MEAS_AUTHSTAT_LINE = false) ∧
    (let s := flds [(MEAS_AUTHSTAT_LINE, 1), (MEAS_AUTHSTAT_DRIVE, 1)] S
     authority s = false ∧ fon s MEAS_AUTHSTAT_LINE = true ∧ fon s MEAS_AUTHSTAT_DRIVE = true) ∧
    (let s := flds [(MEAS_AUTHSTAT_CLAIM, 1)] (field S)
     fon s MEAS_AUTHSTAT_CLAIM = true ∧ fon s MEAS_AUTHSTAT_TWINCL = false ∧ fon s MEAS_AUTHSTAT_DRIVE = false ∧ bridgeUp s = true ∧ fieldGood s = true) := by
  decide +kernel

/-- MeasurementsAndEncoders: the first and the last channel, a trigger taken, lost and late; encoders of both modes; an input. -/
def chan (n : Nat) (s : State) : State := flds [(MEAS_CHCFG_EN n, 1), (MEAS_CHCFG_CONT n, 1)] s
theorem test_hyp_results : (([0, 15].all (fun n => let s := chan n (field S)
      decide (blkState s 9 = 1) && bridgeUp s && fon s (MEAS_CHCFG_EN n) && fon s (MEAS_CHCFG_CONT n) && !fon s (MEAS_CHCFG_RATE n) &&
      openB s C0 MEAS_TRIGSW && openB s C0 (MEAS_MRES n) && decide (trigStatus s n 1000 = 0) && decide (trigStatus S n 0 = 1) &&
      decide (trigStatus (updChan s n (fun c => { c with trigs := [0, 25] })) n 1000 = 9) && decide (trigStatus { s with tick := 2 ^ 40 } n 0 = 10) &&
      decide (n < s.meas.chans.length))) = true) ∧
    ((List.range 16).all (fun j => bit (0x8000 : BitVec 16).toNat j == (j == 15)) && (List.range 16).all (fun j => bit (1 : BitVec 16).toNat j == (j == 0))) = true := by
  decide +kernel
theorem test_hyp_encoders : (([0, 7].all (fun e => let s := flds [(MEAS_ENCCFG_EN e, 1)] (field S)
      encOn s e 0 && encOn (flds [(MEAS_ENCCFG_MODE e, 1)] s) e 1 && decide (e < s.meas.encs.length) && !fon s (MEAS_SSICFG_PAR e) && !fon s (MEAS_SSICFG_GRAY e))) = true) ∧
    fon (field S) (MEAS_DICFG_ADAPT 0) = false := by decide +kernel

/-! ### Links, network and serial ports -/

/-- Banks 1 and 2 belong to the field and the network; queue 16 holds a message of context 5 with payload `w`. -/
def banks (s : State) : State := flds [(MEM_BOWN_DOM 1, 2), (MEM_BOWN_DOM 2, 1)] s
def msg (w : Nat) : State := (queuePut (queued desc) { putR with plen := 16, payload := [⟨BitVec.ofNat 128 w, false⟩, nullW, nullW] }).1
/-- A frame with its checksum. -/
def summed (f : List Byte) : List Byte := f ++ leBytes 4 (crc32 f).toNat
def lane (l p : Nat) (s : State) : State :=
  setPart (flds [(FLINK_LCFG_EN l, 1), (FLINK_LCFG_LADDR l, 1), (FLINK_PCFG_EN l p, 1), (FLINK_PCFG_ADDR l p, 2), (FLINK_PCFG_UNSOL l p, 1),
    (FLINK_PCFG_SEQSYNC l p, 1), (FLINK_PLIMIT_BURST l p, 1), (FLINK_PRXQ_QUEUE l p, 16), (FLINK_PRXQ_CTX l p, 5), (FLINK_LTXQ_QUEUE l, 16),
    (FLINK_PRXBASE_ADDR l p, 0x8000), (FLINK_PTXBASE_ADDR l p, 0x8000)] (banks (up 0x0A s))) l p { tokens := 200000000, at_ := 0, rxcnt := 0 }
def link (dst src len : Byte) (data : List Byte) : List Byte :=
  summed (dst :: src :: leBytes 4 0 ++ leBytes 2 0 ++ leBytes 4 9 ++ leBytes 8 0 ++ [len] ++ [0] ++ leBytes 2 0 ++ data)
/-- The half-bits of a frame, well away from zero; every receiver decides them. -/
def samples (f : List Byte) : List Int := (halfBits (lineBits (linePreamble ++ f))).map (fun b => bySign b 200000)
theorem test_hyp_link_line (s : State) (l : Nat) (f : List Byte) : lineFrame (eqRun (laneAdapts s l) (eqStart s l) (samples f)).out.reverse = some f := by
  have h : (eqStart s l).small ∧ (eqStart s l).out = [] := by
    simp only [eqStart]
    split
    · exact ⟨eqLoad_small _ _ _ (Nat.mod_lt _ (Nat.two_pow_pos 8)) (Nat.mod_lt _ (Nat.two_pow_pos 8)), rfl⟩
    · exact ⟨eqLoad_small 0 0 0 (by decide) (by decide), rfl⟩
  rw [samples, eqRun_decides _ _ (by decide) _ _ h.1, h.2, List.append_nil, List.reverse_reverse, lineFrame_sent]
theorem test_hyp_link_noise (s : State) (l : Nat) : lineFrame (eqRun (laneAdapts s l) (eqStart s l) []).out.reverse = none := by
  have h : (eqStart s l).out = [] := by simp only [eqStart]; split <;> rfl
  simp only [eqRun, List.foldl_nil, h]; rfl
/-- Half-bits of a frame; what a lane that does not adapt notes of them. -/
theorem length_samples (f : List Byte) : (samples f).length = 128 + 16 * f.length := by
  rw [samples, List.length_map, length_halfBits, length_lineBits, List.length_append, show linePreamble.length = 8 from rfl]; omega
theorem noteEye_samples (s : State) (l : Nat) (f : List Byte) : noteEye s l (eqRun false (eqLoad 0 0 0) (samples f)) = noteEye s l (eqLoad 0 0 0) := by
  have h := eqRun_plain 200000 (by decide) (halfBits (lineBits (linePreamble ++ f))) (eqLoad 0 0 0) (by decide) (by decide) (by decide)
  simp only [samples, noteEye, EqS.word, EqS.tap, h.1, h.2.1, h.2.2]
/-- Slot 1 holds the partner's key; the partner's reply is awaited; the lane adapts. -/
def keyed (l p : Nat) (s : State) : State :=
  let s := flds [(KEY_SLOTATTR_VALID 1, 1), (KEY_SLOTATTR_USE 1, 2), (FLINK_PCFG_KSLOT l p, 1), (FLINK_PCFG_MACREQ l p, 1)] (up 0x11 s)
  { s with key := { s.key with slots := [(1, List.replicate 16 7)] } }
def sent (r : Bool) : FlinkReq := { entry := 31, slot := 0, cookie := 0, len := 0, flags := 0, qtag := 0, reply := r, stamp := 0 }
def txOf (r : Bool) : LaneTx := { req := sent r, at_ := 0, seq := 7, body := [], key := none, frame := none }
def linkTo (l : Nat) (x : LaneS) (s : State) : State := { s with flink := { s.flink with lanes := s.flink.lanes.set l x } }
def quiet : LaneS := { tx := none, win := none, errs := 0, idle := none, ready := 0, stopped := none }
/-- A good frame of a partner: its header, and what its delivery needs. -/
def headOk (s : State) (l p : Nat) (f : List Byte) : Bool :=
  let len := frameField f 20 1; let mac := bit (frameField f 1 1) 6
  decide (4 ≤ f.length) && decide (f.length ≤ 276) && decide (crc32 (f.take (f.length - 4)) = BitVec.ofNat 32 (leVal (f.drop (f.length - 4)))) &&
  decide (frameField f 0 1 % 64 = fget s (FLINK_LCFG_LADDR l)) && decide (frameField f 0 1 < 128) && decide (frameField f 1 1 < 128) &&
  decide (partnerAt s l (frameField f 1 1 % 64) = some p) && decide (frameField f 22 2 = 0) && decide (len ≤ 240) &&
  decide (f.length = 28 + len + 8 * b2n mac) && decide (frameField f 2 4 = (reg s (FLINK_PID l p)).toNat) && decide (fget s (FLINK_PSTAT_STATE l p) ≠ 3) &&
  (!mac || (accepted s 0x0A 1 && decide (frameTag s l p (f.take (24 + len)) = some ((f.drop (24 + len)).take 8)))) && (!fon s (FLINK_PCFG_MACREQ l p) || mac) &&
  laneHears s l (128 + 16 * f.length)
def takeOk (s : State) (l p : Nat) (f : List Byte) : Bool :=
  let len := frameField f 20 1; let m := 128 + 16 * f.length; let delim := frameStart s l m + 64 * bitTime s l
  let s1 := noteEye (updLane s l (fun x => { x with idle := some (s.tick - 2 * bitTime s l) })) l (eqLoad 0 0 0)
  let s2 := setPart s1 l p { partS s1 l p with tokens := tokensNow s l p - 200000000, at_ := s.tick }
  !laneAdapts s l && (laneS s l).win.isNone && fon s (FLINK_PCFG_UNSOL l p) && fon s (FLINK_PCFG_SEQSYNC l p) && decide (200000000 ≤ tokensNow s l p) &&
  decide (qfill (qdesc s (fget s (FLINK_PRXQ_QUEUE l p))) ≤ partnerNrx s l p - 2) &&
  (match portBWrite s2 (fget s (FLINK_PRXBASE_ADDR l p) * 256 + 256 * ((partS s l p).rxcnt % partnerNrx s l p)) (pad16 ((f.drop 24).take len)) (blkReq 0x0A (some 5)) .field with
   | (u, st) => decide (st = .ok) && decide ((partnerPut u l p (flinkWord false 0 p 0 0 0 0 len 0 0) (9 * 2 ^ 64 + (laneStampAt u l delim).toNat)).2 = 0))
/-- A frame with a tag. -/
def tagged : List Byte :=
  let b := (link 1 66 0 []).take 24
  summed (b ++ (aesCmac (List.replicate 16 7) b).take 8)
theorem test_hyp_link_receive : headOk (lane 0 0 (queued desc)) 0 0 (link 1 2 0 []) = true ∧ headOk (lane 15 31 (queued desc)) 15 31 (link 1 2 0 []) = true ∧
    takeOk (lane 0 0 (queued desc)) 0 0 (link 1 2 0 []) = true ∧ takeOk (lane 15 31 (queued desc)) 15 31 (link 1 2 0 []) = true ∧
    headOk (lane 15 31 (queued desc)) 15 31 (link 1 2 48 (List.replicate 48 0xA5)) = true ∧ headOk (lane 15 31 (queued desc)) 15 31 (link 1 2 64 (List.replicate 64 1)) = true ∧ takeOk (lane 15 31 (queued desc)) 15 31 (List.replicate 268 0xF0) = true ∧
    (let f := link 3 2 0 []; crc32 (f.take (f.length - 4)) = BitVec.ofNat 32 (leVal (f.drop (f.length - 4))) ∧ frameField f 0 1 % 64 ≠ 1) ∧
    (let s := lane 0 0 (queued desc); partnerAt s 0 (frameField (link 1 9 0 []) 1 1 % 64) = none) ∧
    crc32 (([1, 0, 0, 0] : List Byte).take 0) ≠ BitVec.ofNat 32 (leVal [1, 0, 0, 0]) ∧ 276 < (List.replicate 277 (0 : Byte)).length ∧ 15 < Config.lanes S.variant ∧
    15 < S.flink.lanes.length ∧ (let s := lane 0 0 S; laneHears (linkTo 0 { quiet with tx := some (txOf true) } s) 0 576 = false) := by decide +kernel
theorem test_hyp_link_mac : headOk (keyed 15 31 (lane 15 31 (queued desc))) 15 31 tagged = true ∧
    (let s := flds [(FLINK_PCFG_UNSOL 15 31, 0)] (linkTo 15 { quiet with win := some (sent true) } (lane 15 31 (queued desc)))
     ((laneS s 15).win.map (fun r => r.entry)) = some 31 ∧ headOk s 15 31 (link 1 2 0 []) = true) ∧
    (let s := setReg (flds [(FLINK_LCFG_ADAPT 15, 1)] (lane 15 31 S)) (FEAT_ACCEPT 0x0A) 7
     laneAdapts s 15 = true) := by decide +kernel
theorem test_hyp_link_request : (([(0, 0), (15, 31)] : List (Nat × Nat)).all (fun x => let s := lane x.1 x.2 (msg (x.2 + 240 * 256)); let l := x.1; let p := x.2
    match queueGet s (fget s (FLINK_LTXQ_QUEUE l)) (some 0) with
    | (u, st, ws) => let head := (ws.getD 0 nullW).bits.toNat; let word := (ws.getD 1 nullW).bits.toNat
      decide (st = 0) && (laneS s l).tx.isNone && (laneS s l).win.isNone && decide (bits word 4 0 = p) && fon s (FLINK_PCFG_EN l p) &&
      decide (bits head 29 18 = fget s (FLINK_PRXQ_CTX l p)) && decide (16 ≤ bits head 53 48) && decide (bits word 127 96 = 0) && decide (bits word 63 52 = 0) &&
      decide (bits word 31 18 = 0) && decide (bits word 15 8 = 240) && decide (fget s (FLINK_PSTAT_STATE l p) ≠ 3) && !fon s (FLINK_LCFG_AGATE l) &&
      !fon s (FLINK_PCFG_MACREQ l p) && decide ((portBRead u (fget s (FLINK_PTXBASE_ADDR l p) * 256) 240 (blkReq 0x0A (some 5))).2.2 = .ok)) = true) ∧
    (match queueGet (lane 0 0 (msg 1)) 16 (some 0) with | (_, st, _) => st = 0 ∧ fon (lane 0 0 (msg 1)) (FLINK_PCFG_EN 0 1) = false) ∧
    15 < S.flink.lanes.length := by decide +kernel
/-- Requests in bad form, refused, and failing at the read; a transmission that ends with the link stopped. -/
theorem test_hyp_link_refused : (let q := flds [(FLINK_PSTAT_STATE 15 31, 3)] (lane 15 31 (msg 31)); (queueGet q 16 (some 0)).2.1 = 0 ∧ fget q (FLINK_PSTAT_STATE 15 31) = 3) ∧
    (let s := flds [(FLINK_LCFG_AGATE 15, 1)] (lane 15 31 (msg 31))
     lineIdle s 15 = true ∧ fon s (FLINK_LCFG_AGATE 15) = true ∧ accepted s 0x0A 3 = true ∧ authority (queueGet s 16 (some 0)).1 = false) ∧
    (let s := keyed 15 31 (lane 15 31 (msg 31)); fon s (FLINK_PCFG_MACREQ 15 31) = true ∧ useSlot s (fget s (FLINK_PCFG_KSLOT 15 31)) 1 = some (List.replicate 16 7) ∧
      useSlot (lane 15 31 (msg 31)) 1 1 = none) ∧
    (let s := setEcc (lane 15 31 (msg 31)) 0x800000 .double; let u := (queueGet s 16 (some 0)).1
     (portBRead u (fget s (FLINK_PTXBASE_ADDR 15 31) * 256) 0 (blkReq 0x0A (some 5))).2.2 = .ok ∧
      (portBRead u (fget s (FLINK_PTXBASE_ADDR 15 31) * 256) 16 (blkReq 0x0A (some 5))).2.2 ≠ .ok) ∧
    (let s := flds [(CTRL_QMODE 0x0A, 1)] (linkTo 15 { quiet with tx := some (txOf true) } S)
     (laneS s 15).tx = some (txOf true) ∧ (txOf true).req.reply = true ∧ (running s 0x0A && fon s (FLINK_LCFG_EN 15)) = false ∧ fon s (CTRL_QMODE 0x0A) = true ∧
      (laneS s 15).win = none) := by decide +kernel
theorem test_hyp_link_window : (([true, false].all (fun b => decide ((laneS (linkTo 15 { quiet with tx := some (txOf b) } S) 15).tx = some (txOf b)))) = true) ∧
    fon (lane 15 31 S) (FLINK_PCFG_EN 15 31) = true ∧ running (lane 15 31 S) 0x0A = true ∧ fon (lane 15 31 S) (FLINK_LCFG_EN 15) = true ∧
    (laneS (linkTo 15 { quiet with win := some (sent true) } S) 15).win = some (sent true) ∧
    fget (flds [(FLINK_PTIME_MISSN 15 31, 15), (FLINK_PSTAT_MISS 15 31, 14)] S) (FLINK_PTIME_MISSN 15 31) ≤
      min (fget (flds [(FLINK_PTIME_MISSN 15 31, 15), (FLINK_PSTAT_MISS 15 31, 14)] S) (FLINK_PSTAT_MISS 15 31) + 1) 15 ∧
    fget S (FLINK_PTIME_QTIME 0 0) = 0 ∧ (let s := flds [(FLINK_PTIME_QTIME 15 31, 1), (FLINK_PSTAT_STATE 15 31, 3)] S
      fget s (FLINK_PTIME_QTIME 15 31) ≠ 0 ∧ fget s (FLINK_PSTAT_STATE 15 31) = 3 ∧ openB s C0 (FLINK_PSTAT 15 31) = true) := by decide +kernel
theorem test_hyp_partner : (([(0, 0), (15, 31)] : List (Nat × Nat)).all (fun x => let s := flds [(FLINK_LCFG_LADDR x.1, 1)] S
    openB s C0 (FLINK_PCFG x.1 x.2) && openB s C0 (FLINK_PSTAT x.1 x.2) && !fon s (FLINK_PCFG_EN x.1 x.2) && pcfgRefused s x.1 x.2 0x80100000 && !pcfgRefused s x.1 x.2 0x80200000)) = true ∧
    (0x80200000 : W32) &&& 0x0C0CE0FF = 0 ∧ (0x80100000 : W32) &&& 0x0C0CE0FF = 0 := by decide +kernel

/-- NetworkFrames: ports 0 and 3; a frame without a rule, under a rule, and against a storm limit. -/
def port (p : Nat) (s : State) : State :=
  flds [(NET_PCFG_EN p, 1), (NET_PSTAT_LINK p, 1), (NET_RCFG_EN 0, 1), (NET_RCFG_QUEUE 0, 16), (NET_RBASE_CTX 0, 5), (NET_RBASE_ADDR 0, 0x2000), (NET_PTXQ_QUEUE p, 16),
    (NET_TCFG_EN 63, 1), (NET_TCFG_PORTS 63, 15), (NET_TBASE_CTX 63, 5), (NET_TBASE_ADDR 63, 0x2000)] (banks (up 0x0B s))
def anyRule : List W32 := [0, 0, 0, 0, 0xF000, 0, 0xC0000000, 0]
def ruled (s : State) : State := { s with net := { s.net with rules := [(255, anyRule)] } }
def ether : List Byte := summed (List.replicate 6 0xFF ++ List.replicate 54 0)
theorem test_hyp_net_receive : (([0, 3].all (fun p => let s := port p (queued desc); let f := ether.take 60; let v := frameView s p f
      running s 0x0B && fon s (NET_PCFG_EN p) && fon s (NET_PSTAT_LINK p) && decide (ether.length = 64) && decide (crc32 f = BitVec.ofNat 32 (leVal (ether.drop 60))) &&
      !(stormCheck (countUp s (NET_PCNT0 p)) p f).2 && (stormCheck (countUp (updPort (flds [(NET_PSTORM_BC p, 1)] s) p (fun x => { x with bc := 1 })) (NET_PCNT0 p)) p f).2 && !macsecOn s p &&
      (firstRule s p v false).isNone && decide (p < Config.ports s.variant) && decide (p < s.net.ports.length) &&
      (let t := ruled s; let s1 := (stormCheck (countUp t (NET_PCNT0 p)) p f).1
       decide (firstRule t p v false = some (255, anyRule)) && decide (bits (ruleW anyRule 6) 27 24 = 0) && bit (ruleW anyRule 6) 30 && !bit (ruleW anyRule 6) 29 &&
       fon t (NET_RCFG_EN 0) && decide (qfill (qdesc t (fget t (NET_RCFG_QUEUE 0))) ≤ rxSlots t 0 - 2) &&
       (match portBWrite { s1 with net := { s1.net with rules := mput (fun _ => []) s1.net.rules 255 (anyRule.set 7 1) } } (fget t (NET_RBASE_ADDR 0) * 2048) f
            (blkReq 0x0B (some 5)) .network with
        | (u, st) => decide (st = .ok) && decide ((queuePut u { queue := 16, sender := 5, ring := none, cls := 0, axis := 0, flags := 0, plen := 32
                                                                payload := [nullW, ⟨255, false⟩, nullW], fromEvt := false }).2 = 0))))) = true) := by decide +kernel
/-- A request of channel `c` for `len` bytes. -/
def netMsg (c len : Nat) : Nat := c + len * 2 ^ 16
theorem test_hyp_net_send : (([(0, 14), (3, 2000)] : List (Nat × Nat)).all (fun x => let p := x.1; let s := port p (msg (netMsg 63 x.2))
    match queueGet s (fget s (NET_PTXQ_QUEUE p)) (some 0) with
    | (u, st, ws) => let word := (ws.getD 1 nullW).bits.toNat
      decide (st = 0) && decide (word % 64 = 63) && fon s (NET_TCFG_EN 63) && decide (bits (ws.getD 0 nullW).bits.toNat 29 18 = fget s (NET_TBASE_CTX 63)) &&
      decide (16 ≤ bits (ws.getD 0 nullW).bits.toNat 53 48) && bit (fget s (NET_TCFG_PORTS 63)) p && decide (bits word 127 96 = 0) && decide (bits word 63 40 = 0) &&
      decide (bits word 31 27 = 0) && decide (bits word 15 12 = 0) && decide (bits word 10 9 = 0) && decide (bits word 26 16 = x.2) && !fon s (NET_TCFG_VIDEN 63) &&
      !macsecOn s p && !gated s p && decide (egressBytes (portS s p) + 2000 ≤ 65536) &&
      decide ((portBRead u (fget s (NET_TBASE_ADDR 63) * 2048) x.2 (blkReq 0x0B (some 5))).2.2 = .ok))) = true ∧
    (let s := port 0 (msg (netMsg 0 14)); (queueGet s 16 (some 0)).2.1 = 0 ∧ fon s (NET_TCFG_EN 0) = false) ∧
    (let fr : NetFrame := { bytes := ether, tc := 7, req := none }
     egressPick (updPort S 3 (fun x => { x with egress := [fr] })) 3 = some fr ∧ macsecOn S 3 = false) := by decide +kernel

/-- NetworkTables: the last rule, rules in bad form, each SA; a list that is due. -/
theorem test_hyp_net_tables : openB S C0 NET_ICMD = true ∧ openB (flds [(NET_RSEL_RULE, 255)] S) C0 NET_ICMD = true ∧
    (let w := (upTo 7).map (fun i => reg S (NET_RULEW i)); bits (ruleW w 5) 15 12 = 0 ∧ bits (ruleW w 6) 23 6 = 0 ∧ bit (ruleW w 6) 30 = false) ∧
    (let s := setReg S (NET_RULEW 6) 0x40000000
     bit (ruleW ((upTo 7).map (fun i => reg s (NET_RULEW i))) 6) 30 = true ∧ fon s (NET_RCFG_EN 0) = false ∧ openB s C0 NET_ICMD = true) ∧
    openB S C0 NET_PTPSTEP_HI = true ∧ (([0, 3].all (fun p => let s := flds [(NET_QBVCTL_EN p, 1)] (up 0x0B S)
      fon s (NET_QBVCTL_EN p) && accepted s 0x0B 3 && (portS s p).swap.isNone && (portS s p).egress.isEmpty && decide ((portS (updPort s p (fun x => { x with swap := some (0, 1000) })) p).swap = some (0, 1000)) &&
      decide (0 ≤ ptpNs s) && decide (p < s.net.ports.length))) = true) := by decide +kernel

/-- SerialPorts: ports 0 and 7. -/
def uart (u : Nat) (s : State) : State :=
  flds [(SER_UCFG_EN u, 1), (SER_URXQ_QUEUE u, 16), (SER_URXQ_CTX u, 5), (SER_URXBASE_ADDR u, 0x8000), (SER_UTXBASE_ADDR u, 0x8000), (SER_UTXQ_QUEUE u, 16)] (banks (up 0x0C s))
def serReq : SerReq := { slot := 7, cookie := 1, len := 256, bytes := [], de := 0 }
def chars (l : List Byte) : List SerChar := l.map (fun b => { start := 0, data := b, ferr := false, perr := false })
def serPut (s : State) (u w : Nat) : Nat :=
  (queuePut s { queue := fget s (SER_URXQ_QUEUE u), sender := fget s (SER_URXQ_CTX u), ring := none, cls := fget s (SER_URXQ_CLASS u), axis := 0
                flags := 0, plen := 16, payload := [⟨BitVec.ofNat 128 w, false⟩, nullW, nullW], fromEvt := false }).2
theorem test_hyp_uart : (([0, 7].all (fun u => let s := uart u (queued desc); let s1 := updUart (uartIdle s u 0) u (fun x => { x with brk := false })
      uartOn s u && (uartS s u).tx.isNone && decide (u < s.ser.length) && uartHears s u 0 && !uartDeaf s u s.tick &&
      decide (qfill (qdesc s1 (fget s (SER_URXQ_QUEUE u))) ≤ 2 ^ (fget s (SER_URXBASE_RXSZ u) + 2) - 2) &&
      ([[0xFF], List.replicate 256 0xFF].all (fun data => decide ((chars data).filter (fun c => !uartDeaf s u c.start) = chars data) &&
        (match portBWrite s1 (fget s (SER_URXBASE_ADDR u) * 256) data (blkReq 0x0C (some 5)) .field with
         | (x, st) => decide (st = .ok) && decide (serPut x u 1 = 0)))) &&
      (let t := { s with ser := modAt s.ser u (fun x => { x with tx := some serReq }) }
       decide ((uartS t u).tx = some serReq) && decide (serPut (uartRelease t u serReq) u (2 ^ 86) = 0)))) = true) ∧
    (([1, 256].all (fun n => let s := uart 7 (msg n)
      match queueGet s (fget s (SER_UTXQ_QUEUE 7)) (some 0) with
      | (x, st, ws) => let word := (ws.getD 1 nullW).bits.toNat
        decide (st = 0) && decide (bits (ws.getD 0 nullW).bits.toNat 29 18 = fget s (SER_URXQ_CTX 7)) && decide (bits word 127 96 = 0) && decide (bits word 63 12 = 0) &&
        decide (word % 512 = n) && !fon s (SER_UCFG_AGATE 7) && decide ((portBRead x (fget s (SER_UTXBASE_ADDR 7) * 256) n (blkReq 0x0C (some 5))).2.2 = .ok))) = true) ∧
    (let s := flds [(SER_URXQ_CTX 0, 6)] (uart 0 (msg 1)); bits ((queueGet s 16 (some 0)).2.2.getD 0 nullW).bits.toNat 29 18 ≠ fget s (SER_URXQ_CTX 0)) := by decide +kernel
/-- A deaf receiver; a port that does not hear; a full queue; a request held back by authority; one whose read fails. -/
theorem test_hyp_uart_refused : (let s := { flds [(SER_UCFG_RS485 0, 1)] (uart 0 S) with ser := modAt S.ser 0 (fun x => { x with tx := some serReq }) }
      uartDeaf s 0 0 = true ∧ (chars [1]).filter (fun c => !uartDeaf s 0 c.start) = []) ∧ uartHears S 0 0 = false ∧
    (let s := uart 0 (queued { desc with put := 4 }); 2 ^ (fget s (SER_URXBASE_RXSZ 0) + 2) - 2 < qfill (qdesc s (fget s (SER_URXQ_QUEUE 0)))) ∧
    (let s := flds [(SER_UCFG_AGATE 0, 1)] (uart 0 (msg 1)); (fon s (SER_UCFG_AGATE 0) && accepted s 0x0C 2 && !authority (queueGet s 16 (some 0)).1) = true) ∧
    (let s := setEcc (uart 0 (msg 1)) 0x800000 .double
     (portBRead (queueGet s 16 (some 0)).1 (fget s (SER_UTXBASE_ADDR 0) * 256) 1 (blkReq 0x0C (some 5))).2.2 ≠ .ok) := by decide +kernel

/-! ### The twin -/

/-- TWIN and the key store RUNNING, slot 1 holding the pair's key, the role `r`; the link up. -/
def tw (r : Nat) : State :=
  let s := flds [(KEY_SLOTATTR_VALID 1, 1), (KEY_SLOTATTR_USE 1, 6), (TWIN_TWCFG_KSLOT, 1), (TWIN_ROLE_ROLE, r), (TWIN_LINKSTAT_LANES, 15)] (up 0x11 (up 0x0D S))
  { s with key := { s.key with slots := [(1, List.replicate 16 7)] } }
def tl (r : Nat) : State := flds [(TWIN_LINKSTAT_UP, 1)] (tw r)
def frame (b : TwBody) (s : State) : State := { s with twin := { s.twin with rxq := [(0, { seq := 1, last := true, body := b })] } }
theorem test_hyp_twin_link : S.wdr.held = none ∧ (let s := flds [(TWIN_LINKSTAT_LANES, 1)] (tw 0)
      bit (fget s TWIN_LINKSTAT_LANES) 0 = true ∧ ∀ k < 4, k ≠ 0 → bit (fget s TWIN_LINKSTAT_LANES) k = false) ∧
    bit (fget (tw 0) TWIN_LINKSTAT_LANES) 3 = true ∧ fget (tw 0) TWIN_LINKSTAT_LANES ≠ 0 ∧ twinKey (tw 0) = some (List.replicate 16 7) ∧ linkUp (tw 0) = false ∧
    (let s := up 0x0D S; twinKey s = none ∧ blkState s 0x0D = 1 ∧ fget (flds [(TWIN_LINKSTAT_LANES, 1)] s) TWIN_LINKSTAT_LANES ≠ 0) ∧
    twRole (tw 1) = 1 ∧ fon (tw 1) TWIN_TWCFG_PRIO = false ∧ fon (flds [(TWIN_TWCFG_PRIO, 1)] (tw 1)) TWIN_TWCFG_PRIO = true ∧ linkUp (tl 0) = true ∧
    (tl 0).twin.rxSeq = 0 ∧ (tl 0).twin.closed = false ∧ ((frame (.ack 5) (tl 0)).twin.rxq ≠ []) := by decide +kernel
theorem test_hyp_twin_messages : (let s := frame (.heartbeat 0 false true true true true 0) (tl 2)
      Config.fieldDie s.variant = true ∧ true ≠ fon s MEAS_AUTHSTAT_TWINCL ∧ s.twin.disagree < 2 ∧ twRole s = 2) ∧
    fon (flds [(TWIN_ROLE_PEERVALID, 1)] (tl 2)) TWIN_ROLE_PEERVALID = true ∧ twRole (tl 1) < 2 ∧ (let s := flds [(TWIN_ROLE_READY, 1), (TWIN_TWCFG_AUTOTAKE, 1)] (tl 3)
      twRole s = 3 ∧ fon s TWIN_ROLE_READY = true ∧ autoTake s = true) ∧ fon (tl 3) TWIN_ROLE_READY = false ∧ running (tl 1) 0x0D = true ∧
    mayPair (tl 1) = false ∧ (let s := updTwin (tl 1) (fun w => { w with peerAccept := BitVec.ofNat 64 (reg (tl 1) (FEAT_ACCEPT 0x0D)).toNat, peerUnitmap := reg (tl 1) BOOT_UNITMAP }); mayPair s = true ∧ twRole s = 1) ∧
    (let s := frame .peerFence (flds [(TWIN_TWCFG_PEERCMD, 1)] (tl 1)); fon s TWIN_TWCFG_PEERCMD = true ∧ accepted s 0x0D 6 = true ∧ twRole s ≠ 0) ∧
    fon (frame .peerReset (tl 1)) TWIN_TWCFG_PEERCMD = false ∧
    (let s := setQdesc (tl 2) 16 { desc with twin := true }
     replicates s 2 = true ∧ (qdesc s 16).en = true ∧ (qdesc s 16).twin = true) := by decide +kernel

/-- TwinStandby: a store refused and taken, counts that follow and do not, a record whose context is free. -/
def standby : State := flds [(MEM_BOWN_DOM 3, 4)] (setQdesc (up 5 (tl 3)) 16 { desc with base := 0x1800000, twin := true })
theorem test_hyp_standby : ([1, 2, 3, 4].all (standsBy standby)) = true ∧ 0x1800000 % 16 = 0 ∧ inMem standby 0x1800000 = true ∧
    fget standby (MEM_BOWN_DOM (bankNo 0x1800000)) = 4 ∧ (portBWord standby 0x1800000 ⟨5, true⟩ twinWho .twin).2 = .ok ∧ (portBWord standby 0 ⟨5, true⟩ twinWho .twin).2 ≠ .ok ∧
    (qdesc standby 16).desync = false ∧ ((qdesc standby 16).en && (qdesc standby 16).twin && countsFollow (qdesc standby 16) 2 0 0 true) = false ∧
    countsFollow (qdesc standby 16) 1 0 0 true = true ∧
    (match putWords (blkReq 5 none) .twin (slotAddr (qdesc standby 16) 0) [nullW, nullW, nullW, nullW] standby with
     | (u, st) => decide (st = .ok) && decide ((twinHeader u { qdesc standby 16 with put := 1 }).2 = .ok)) = true ∧
    (qdesc (setQdesc standby 16 { qdesc standby 16 with desync := true }) 16).desync = true ∧ standby.twin.qsPart = [] ∧ standby.twin.recPart = [] ∧ standby.twin.ckPart = [] ∧
    (match writeSlots (qdesc standby 16) 0 [[nullW, nullW, nullW, nullW]] standby with
     | (u, st) => decide (st = .ok) && decide ((twinHeader u { qdesc standby 16 with put := 1 }).2 = .ok)) = true ∧
    4095 < Config.contexts standby.variant ∧ ctxState (ctx 4095 4 standby) 4095 = 4 ∧ ctxState standby 5 ≠ 4 ∧ 511 < Config.cells standby.variant := by decide +kernel

/-- TwinPrimary. -/
def primary : State := setQdesc (tl 2) 16 { desc with twin := true }
def lastCap : CapS := { tag := 255, tick := 0, axes := [], marks := [] }
theorem test_hyp_primary : ([TWIN_CKREQ, TWIN_RFENCE, TWIN_RECPUSH, TWIN_SYNCCMD, TWIN_QSYNC].all (openB primary C0)) = true ∧ twRole primary = 2 ∧
    accepted primary 0x0D 4 = true ∧ running primary 0x0D = true ∧ primary.twin.capture = none ∧ twRole (tl 1) ≠ 2 ∧ twRoom primary 2048 = true ∧ linkUp primary = true ∧
    ckCells primary 255 = [] ∧ replHeld primary = false ∧
    (let big : TwFrame := { seq := 1, last := true, body := .store (List.replicate 10923 (0, nullW)) }
     let s := updTwin primary (fun t => { t with tx := [big] }); replHeld s = true ∧ twRoom s 56 = false) ∧
    (let e := { entry 5 with tw := true }; (Machine.core (co (fun c => { c with sb := [e] }) primary) 0).sb[0]? = some e ∧ e.tw = true) := by decide +kernel
theorem test_hyp_primary_more : ((∃ f ∈ (updTwin primary (fun t => { t with tx := [{ seq := 5, last := true, body := .store [] }] })).twin.tx, inStream f.body = true ∧ f.seq ≤ 5) ∧
      ∀ f ∈ (updTwin primary (fun t => { t with tx := [{ seq := 5, last := true, body := .store [] }] })).twin.tx, inStream f.body = true → 4 < f.seq) ∧
    replicates primary 1 = true ∧ replicates primary 2 = true ∧ replicates primary 3 = true ∧ replicates (tl 1) 1 = false ∧ replicates (tl 1) 2 = false ∧ replicates (tl 1) 3 = false ∧
    running (tl 1) 0x0D = true ∧ heldAt primary 4095 = none ∧ heldAt primary 0 = some (0, 0) ∧ 4095 < Config.contexts primary.variant ∧
    (let s := flds [(TWIN_SYNCADDR_HI_ADDR, 1), (TWIN_SYNCLEN_WORDS, 1)] primary
     Config.memBytes s.variant < fget s TWIN_SYNCADDR_LO_ADDR * 16 + fget s TWIN_SYNCADDR_HI_ADDR * 2 ^ 32 + 16 * fget s TWIN_SYNCLEN_WORDS ∧ openB s C0 TWIN_SYNCCMD = true) ∧
    (portBReadWord primary 0 twinWho).2.2 = .ok ∧ 16383 < Config.queues primary.variant ∧ (qdesc primary 16).en = true ∧ (qdesc primary 16).twin = true ∧
    (qdesc primary 17).en = false := by decide +kernel

/-- TwinRoles: each command allowed and denied; the ends of a takeover and of a split link. -/
theorem test_hyp_roles : (([0, 1, 2, 3].all (fun r => openB (tl r) C0 TWIN_ROLECMD && running (tl r) 0x0D && decide (twRole (tl r) = r))) = true) ∧
    (let s := updTwin (flds [(TWIN_ROLE_PEERVALID, 1), (TWIN_ROLE_PEERROLE, 1)] (tl 0)) (fun w => { w with peerAccept := BitVec.ofNat 64 (reg (tl 0) (FEAT_ACCEPT 0x0D)).toNat, peerUnitmap := reg (tl 0) BOOT_UNITMAP })
     linkUp s = true ∧ fon s TWIN_ROLE_PEERVALID = true ∧ fget s TWIN_ROLE_PEERROLE = 1 ∧ mayPair s = true ∧ twRole s = 0 ∧ openB s C0 TWIN_ROLECMD = true) ∧
    mayPair (tl 0) = false ∧ lineMay (updTwin (field (tl 0)) (fun w => { w with clear := 400 })) = true ∧
    (updTwin (tl 2) (fun w => { w with peerReady := true })).twin.peerReady = true ∧ (tl 2).twin.peerReady = false ∧ (tl 2).twin.capture = none ∧
    (let s := flds [(TWIN_ROLE_READY, 1)] (tl 3); fon s TWIN_ROLE_READY = true ∧ fon s TWIN_ROLE_PEERVALID = false ∧ twRole s = 3) ∧ accepted (tl 0) 0x0D 6 = true ∧
    accepted S 0x0D 6 = false ∧ accepted (setReg (tl 0) (FEAT_ACCEPT 0x0D) 0) 0x0D 6 = false ∧ running (setReg (tl 0) (FEAT_ACCEPT 0x0D) 0) 0x0D = true ∧
    openB (setReg (tl 0) (FEAT_ACCEPT 0x0D) 0) C0 TWIN_ROLECMD = true := by decide +kernel
theorem test_hyp_takeover : (let s := flds [(TWIN_ROLE_READY, 1), (MEM_BOWN_DOM 15, 4), (TWIN_ROLE_PEERVALID, 1)] (updTwin (setReg (field (tl 3)) (TWIN_TKDOM 1) 0) (fun w => { w with clear := 400, take := some 4 }))
      s.twin.take = some 4 ∧ fon s TWIN_ROLE_READY = true ∧ lineMay s = true ∧ running s 0x0D = true ∧ fon s TWIN_ROLE_PEERVALID = true ∧ 15 < Config.memBanks s.variant ∧
      tkdom s 15 < 6 ∧ fget s (MEM_BOWN_DOM 15) = 4 ∧ twRole s = 3) ∧
    (let s := flds [(MEAS_AUTHSTAT_TWINCL, 1)] (updTwin (tl 3) (fun w => { w with lost := true, take := some 3 }))
     s.twin.lost = true ∧ fon s MEAS_AUTHSTAT_TWINCL = true ∧ fon s TWIN_ROLE_SPLIT = false ∧ fon s TWIN_TWCFG_SPLITFENCE = false ∧ s.twin.take.isSome = true ∧
     fon (flds [(TWIN_TWCFG_SPLITFENCE, 1)] s) TWIN_TWCFG_SPLITFENCE = true) := by decide +kernel

/-! ### Resets, boot, keys, power, test and debug -/

/-- ChipReset: a held package, with a cold cause and with a warm one. -/
theorem test_hyp_reset : S.wdr.held = none ∧ openB S C0 WDR_SWRST = true ∧ fon (flds [(WDR_CWDCTL_EN, 1)] S) WDR_CWDCTL_EN = true ∧
    bit (withBits ((S.wdr.held).getD 0) 0 0 1) 0 = true ∧ bit (withBits ((S.wdr.held).getD 0) 5 5 1) 0 = false ∧ bit (withBits ((S.wdr.held).getD 0) 5 5 1) 1 = false ∧
    (chipReset S 5).wdr.held = some 32 ∧ (chipReset (chipReset S 1) 0).wdr.held = some 3 := by decide +kernel
theorem test_hyp_core_resets : (([0, 15].all (fun n => let s := flds [(WDR_CORWD_EN n, 1), (WDR_CORWD_IELIM n, 1), (SCHED_CORECTL_ADMIT n, 1)] (up 0x12 S)
      corePresent s n && decide (n < s.cores.length) && corewdCounts s n && decide (fget s (WDR_CORWD_IELIM n) ≠ 0) && !corewdCounts S n && openB s C0 (WDR_CORKICK n))) = true) ∧
    openB (State.resetOf .b8) C0 WDR_SWRST = true ∧ corePresent (State.resetOf .b8) 15 = false ∧ 15 < (State.resetOf .b8).cores.length ∧
    (flds [(WDR_CWDCTL_EN, 1)] S).wdr.half = false ∧ openB S C0 WDR_CWDKICK = true ∧ openB S C0 WDR_CWDCTL = true ∧ fon S WDR_CWDCTL_EN = false ∧
    openB (flds [(WDR_CWDCTL_EN, 1)] S) C0 WDR_CWDCTL = true ∧ openB { S with wdr := { S.wdr with kick := true } } C0 WDR_CWDKICK = true := by decide +kernel
/-- BootController. -/
theorem test_hyp_boot : let s := up 0x10 S
    openB s C0 BOOT_FLCMD = true ∧ openB S C0 BOOT_FLCMD = true ∧ S.boot.flash = false ∧ running S 0x10 = false ∧ running s 0x10 = true ∧ accepted s 0x10 1 = true ∧
    accepted (setReg S (FEAT_ACCEPT 0x10) 6) 0x10 1 = true ∧ bits (0x81000003 : W32).toNat 29 28 < 3 ∧ bits (0x81000003 : W32).toNat 24 16 = 256 ∧ (0x81000003 : W32) &&& 0x0E000000 = 0 ∧
    bits (0xB0000000 : W32).toNat 29 28 = 3 ∧ 256 < bits (0x81010000 : W32).toNat 24 16 ∧ bits (0x91000003 : W32).toNat 29 28 ≠ 0 ∧
    2 ^ fget s BOOT_FLSIZE_LOG2 ≤ (reg (setReg s BOOT_FLADDR 0xFFFFFFFF) BOOT_FLADDR).toNat ∧ (reg s BOOT_FLADDR).toNat < 2 ^ fget s BOOT_FLSIZE_LOG2 ∧
    openB { s with boot := { s.boot with flash := true } } C0 BOOT_FLCMD = true := by decide +kernel
theorem test_hyp_flash : let s := { flds [(BOOT_FLCMD_LEN, 256)] (up 0x10 S) with boot := { S.boot with flash := true } }
    s.boot.flash = true ∧ fon s BOOT_FLCMD_WRITE = false ∧ (List.replicate 256 (7 : Byte)).length = fget s BOOT_FLCMD_LEN ∧
    fon (flds [(BOOT_FLCMD_WRITE, 1)] s) BOOT_FLCMD_WRITE = true ∧ openB S C0 BOOT_BMRCTL = true ∧ openB S C0 BOOT_ROLLMIN = true ∧
    fon (flds [(BOOT_BOOTSTAT_DONE, 1)] S) BOOT_BOOTSTAT_DONE = true ∧ fon S BOOT_BOOTSTAT_DONE = false ∧ accepted s 0x10 2 = true ∧ openB (up 0x10 S) C0 BOOT_BMRCTL = true ∧
    3 < s.boot.bmr.length ∧ pair s BOOT_EXTADDR_LO BOOT_EXTADDR_HI % 2 ^ 40 = 0 ∧ ((List.range 48).all (fun y => inMem s y && decide (eccAt s y = .none))) = true ∧
    0 < fget (flds [(BOOT_ROLLMIN_MIN, 65535)] S) BOOT_ROLLMIN_MIN := by decide +kernel

/-- KeyCommands: a descriptor at 0x2000 with its data at 0x3000 and 0x4000 and its result in the crypto bank 4; slot 1 holds 00 01 … 0F. -/
def dstK : Nat := 4 * 0x800000
def keyWords (op slot dslot flags len aad : Nat) : List Byte :=
  [BitVec.ofNat 8 op, BitVec.ofNat 8 slot, BitVec.ofNat 8 dslot, BitVec.ofNat 8 flags] ++ leBytes 4 len ++ leBytes 4 aad ++ leBytes 4 0 ++ leBytes 8 0x3000 ++ leBytes 8 dstK ++
    leBytes 8 0x4000 ++ List.replicate 24 0
def key1 : List Byte := (upTo 16).map (BitVec.ofNat 8)
def job (use : Nat) (d src aux : List Byte) : State :=
  let s := flds [(KEY_SLOTATTR_VALID 1, 1), (KEY_SLOTATTR_USE 1, use), (MEM_BOWN_DOM 4, 5)] (up 0x11 S)
  setMemBytes (setMemBytes (setMemBytes { s with key := { s.key with slots := [(1, key1)], job := some { desc := 0x2000, status := none } } } 0x2000 d) 0x3000 src) 0x4000 aux
/-- The bytes read, whether the reads went well, and whether `k` bytes can be written. -/
def jobReads (s : State) (n : Nat) : List Byte × Bool :=
  let r := portBRead s 0x3000 n keyWho
  (r.2.1, decide (r.2.2 = .ok))
def jobOk (s : State) (op len k : Nat) : Bool :=
  let r := portBRead s 0x2000 64 keyWho
  let d := keyDesc r.2.1
  decide (r.2.2 = .ok) && decide (s.key.job = some { desc := 0x2000, status := none }) && decide (d.op = op) && decide (d.len = len) && decide (d.aad ≤ 65536) &&
    decide (d.src = 0x3000) && decide (d.aux = 0x4000) && (jobReads s (d.aad + len)).2 && decide ((portBRead s 0x4000 128 keyWho).2.2 = .ok) &&
    decide ((portBWrite s d.dst (List.replicate k 0) keyWho .crypto).2 = .ok)
theorem test_hyp_keys : jobOk (job 1 (keyWords 1 1 0 0 16 4) (List.replicate 20 1) (List.replicate 12 2)) 1 16 32 = true ∧
    slotFor (job 1 [] [] []) 1 0 = true ∧ slotFor (job 2 [] [] []) 1 0 = false ∧ slotFor (job 2 [] [] []) 1 1 = true ∧ slotFor (job 4 [] [] []) 1 2 = true ∧ slotFor (job 8 [] [] []) 1 3 = true ∧
    jobOk (job 2 (keyWords 3 1 0 0 0 0) [] []) 3 0 16 = true ∧ jobOk (job 2 (keyWords 4 1 0 0 3 0) [0x61, 0x62, 0x63] []) 4 3 32 = true ∧
    jobOk (job 2 (keyWords 5 1 0 0 3 0) [0x61, 0x62, 0x63] []) 5 3 48 = true ∧ jobOk (job 2 (keyWords 6 1 0 0 48 0) [] []) 6 48 0 = true ∧
    jobOk (job 2 (keyWords 7 0 31 0 32 0) [] []) 7 32 0 = true ∧ jobOk (job 8 (keyWords 8 1 31 0 24 0) [] []) 8 24 0 = true ∧ jobOk (job 4 (keyWords 9 1 31 0 9 0) [] []) 9 9 0 = true ∧
    jobOk (job 4 (keyWords 10 0 31 0 0 0) [] []) 10 0 0 = true ∧ jobOk (job 4 (keyWords 11 0 0 0 16 0) [] []) 11 16 16 = true ∧
    slotWritable (job 0 [] [] []) 31 = 0 ∧ fon (flds [(KEY_SLOTATTR_LOCK 31, 1)] (job 0 [] [] [])) (KEY_SLOTATTR_LOCK 31) = true ∧
    (keyDesc (keyWords 7 0 0 0 16 0)).dslot = 0 ∧ accepted (job 0 [] [] []) 0x11 2 = true ∧ accepted (setReg (job 0 [] [] []) (FEAT_ACCEPT 0x11) 0) 0x11 2 = false := by decide +kernel
/-- A sealed message whose tag is right, and one whose tag is wrong. -/
theorem test_hyp_gcm : let x : List Byte := List.replicate 12 2
    let c : List Byte := List.replicate 16 3
    gcmTag key1 x [] c = (x ++ gcmTag key1 x [] c).drop 12 ∧ gcmTag key1 x [] c ≠ List.replicate 16 0 ∧
    jobOk (job 1 (keyWords 2 1 0 0 16 0) c (x ++ gcmTag key1 x [] c)) 2 16 16 = true := by decide +kernel
/-- An UNWRAP of no data fails its check. (That of RFC 3394's worked example gives its key, too long a computation to repeat here.) -/
theorem test_hyp_key_unwrap : aesUnwrap key1 [] = none := by decide +kernel
/-- KeyStatusAndUnlock. -/
theorem test_hyp_unlock : let s := up 0x11 S
    ([KEY_KCMD, KEY_TRNG, KEY_DUCHAL 0, KEY_DUCTL].all (openB s C0)) = true ∧ running s 0x11 = true ∧ s.key.job = none ∧ (job 0 [] [] []).key.job ≠ none ∧ openB (job 0 [] [] []) C0 KEY_KCMD = true ∧
    accepted s 0x11 1 = true ∧ s.key.challenge = false ∧ fon s KEY_TRNGSTAT_OK = false ∧ fon (flds [(KEY_TRNGSTAT_OK, 1)] s) KEY_TRNGSTAT_OK = true ∧
    fget (flds [(KEY_DUCTL_TRIES, 3)] s) KEY_DUCTL_TRIES = 3 ∧ unlockOk (fset (fset s KEY_DUCTL_LEVEL 0) KEY_DUCTL_REQ 2) = false := by decide +kernel

/-- Power: operating points, the regulator, adaptive voltage, droop and heat. -/
theorem test_hyp_op : (([0, 15].all (fun n => let s := flds [(PWR_REGCFG_MODE, 1), (PWR_THERMSTAT_CAP, 7), (PWR_AVSCTL_AVSCAP, 7)] (up 0x0E S)
      decide (n < 16) && corePresent s n && openB s C0 (PWR_COREOP n) && running s 0x0E && regulated s && decide (fget s (PWR_COREOP_CUR n) < min 7 (min (fget s PWR_THERMSTAT_CAP) (fget s PWR_AVSCTL_AVSCAP))) &&
      decide (fget (flds [(PWR_VTARGET_TARGET, 600)] s) PWR_VTARGET_TARGET = 600) && fon (flds [(PWR_COREOP_BUSY n, 1)] s) (PWR_COREOP_BUSY n) &&
      (let t := flds [(PWR_COREOP_BUSY n, 1), (PWR_COREOP_CUR n, 7)] s; decide (effOp t n < fget t (PWR_COREOP_CUR n))))) = true) ∧
    (0x40000007 : W32) &&& 0xBFFFFFF8 = 0 ∧ fon S PWR_REGSTAT_FAULT = false := by decide +kernel
/-- A target below the least voltage of any operating point (R526). -/
theorem test_hyp_op_low (j : Nat) : 599 < opVolt j := by unfold opVolt; omega
theorem test_hyp_regulator : let s := updPwr (flds [(PWR_REGCFG_MODE, 2)] (up 0x0E S)) (fun p => { p with cmd := some 700 })
    s.pwr.cmd = some 700 ∧ ¬30 < (((700 : BitVec 10).toNat : Int) - 700).natAbs ∧ 30 < (((731 : BitVec 10).toNat : Int) - 700).natAbs ∧ fget s PWR_REGCFG_MODE = 2 ∧
    (0x40 : BitVec 16) &&& 0xC070 ≠ 0 ∧ blkState s 0x0E = 1 ∧ S.pwr.cmd = none := by decide +kernel
def avs (v : Nat) : State := flds [(PWR_AVSCTL_EN, 1), (PWR_AVSCTL_MARGIN, 10), (PWR_REGCFG_MODE, 1), (PWR_VTARGET_TARGET, v), (PWR_VTARGET_VMAX, 900)] (up 0x0E S)
theorem test_hyp_avs : running (avs 800) 0x0E = true ∧ accepted (avs 800) 0x0E 1 = true ∧ fon (avs 800) PWR_AVSCTL_EN = true ∧ regulated (avs 800) = true ∧
    (∀ n < 16, effOp (avs 800) n ≤ fget (avs 800) (PWR_COREOP_CUR n)) ∧ (9 : BitVec 8).toNat < fget (avs 800) PWR_AVSCTL_MARGIN ∧
    fget (avs 800) PWR_VTARGET_TARGET ≠ fget (avs 800) PWR_VTARGET_VMAX ∧ fget (avs 900) PWR_VTARGET_TARGET = fget (avs 900) PWR_VTARGET_VMAX ∧
    fget (avs 800) PWR_AVSCTL_MARGIN + 4 < (15 : BitVec 8).toNat ∧ stretched (avs 800) = false ∧ (avs 800).pwr.ampleSince = none ∧ fon S PWR_AVSCTL_EN = false ∧
    quadPresent S 3 = true ∧ S.pwr.levels = [0, 0, 0, 0] := by decide +kernel
theorem test_hyp_heat : sensorTemp S [some 500] 0 = some 500 ∧ (∀ j < 12, ∀ u, sensorTemp S [some 499] j = some u → u < 500) ∧ hottest S [some 499] = some (499, 0) ∧
    (let s := flds [(PWR_THERMCFG_TCRIT, 110), (PWR_THERMCFG_TTHR, 95), (PWR_THERMSTAT_CAP, 7)] (up 0x0E S)
     accepted s 0x0E 4 = true ∧ (4 * fget s PWR_THERMCFG_TCRIT : Nat) ≤ (499 : Int) ∧ (400 : Int) < (4 * fget s PWR_THERMCFG_TCRIT : Nat) ∧
     (4 * fget s PWR_THERMCFG_TTHR : Nat) ≤ (400 : Int) ∧ hottest s [some 400] = some (400, 0)) ∧ accepted S 0x0E 4 = false := by
  refine ⟨by decide +kernel, ?_, by decide +kernel⟩
  intro j hj u hu
  match j, hj with
  | 0, _ => have h : sensorTemp S [some 499] 0 = some 499 := by decide +kernel
            rw [h] at hu; cases hu; decide
  | k + 1, _ => simp [sensorTemp] at hu

/-- TestAndScrub. -/
def te (p : Nat) : State := flds [(TEST_TESTCFG_BGEN, 1), (TEST_TESTCFG_TESTINT, 1), (TEST_TESTSTAT_BANK, 15), (TEST_TESTSTAT_PHASE, p)] (up 0x0F S)
def failedBank (s : State) : State := updTest s (fun t => { t with failed := [15] })
theorem test_hyp_test : openB (te 0) C0 TEST_TESTCMD = true ∧ openB (te 0) C0 TEST_URGENT = true ∧ (te 0).test.cmd = none ∧ testRefusal S 1 0 ≠ 0 ∧ openB S C0 TEST_TESTCMD = true ∧
    testRefusal (te 0) 1 0 = 0 ∧ testRefusal (te 0) 2 15 = 0 ∧ testRefusal (failedBank (te 0)) 3 15 = 0 ∧ testRefusal (failedBank (te 0)) 4 15 = 0 ∧
    testRefusal (flds [(TEST_REPAIR_VALID 15, 1)] (te 0)) 5 15 = 0 ∧ testRefusal (te 0) 2 0 ≠ 0 ∧ testRefusal (te 0) 3 0 ≠ 0 ∧ testRefusal (te 0) 4 0 ≠ 0 ∧ testRefusal (te 0) 5 0 ≠ 0 ∧
    (let s := (upTo 15).foldl (fun s n => flds [(TEST_REPAIR_VALID n, 1)] s) (te 0); spareBanks s = [15]) ∧ bit (0x8000 : BitVec 16).toNat 15 = true ∧
    urgent (te 0) 15 = false ∧ urgent (flds [(TEST_URGENT_BANKS, 0x8000)] (te 0)) 15 = true := by decide +kernel
theorem test_hyp_tile : running (te 0) 0x0F = true ∧ fon (te 0) TEST_TESTCFG_BGEN = true ∧ fget (te 0) TEST_TESTCFG_TESTINT ≠ 0 ∧ accepted (te 0) 0x0F 1 = true ∧
    (te 0).test.waiting = [] ∧ (nextBank (te 0)).isSome = true ∧ (([0, 1, 2, 3, 4, 5].all (fun p => fget (te p) TEST_TESTSTAT_PHASE == p && fget (te p) TEST_TESTSTAT_BANK == 15)) = true) ∧
    fon (flds [(TEST_TESTCFG_AUTOREP, 1)] (te 3)) TEST_TESTCFG_AUTOREP = true ∧ accepted (te 3) 0x0F 2 = true ∧ fon (te 3) TEST_TESTCFG_AUTOREP = false ∧
    mget (fun _ => 0) (te 0).test.nextTile 15 < 8 ∧
    (let s := flds [(TEST_SCRUBCFG_EN, 1)] (updTest (te 0) (fun t => { t with scrub := 524286 }))
     running s 0x0F = true ∧ fon s TEST_SCRUBCFG_EN = true ∧ fon s TEST_SCRUBCFG_CSEN = false ∧ s.test.scrub < 524287 ∧ bankPresent s 15 = true) ∧ running S 0x0F = false ∧
    eccAt { S with ecc := mput (fun _ => .none) S.ecc 1 .single } 16 = .single ∧ eccAt { S with ecc := mput (fun _ => .none) S.ecc 1 .double } 16 = .double := by decide +kernel

/-- DebugUnit: each level, halted cores, memory, trace and the JTAG port. -/
def db (level : Nat) : State := flds [(KEY_DUCTL_LEVEL, level)] (up 0x13 (up 0x11 S))
def CD : Src := .debug
theorem test_hyp_debug : ([0, 1, 2].all (fun l => openB (db l) CD DBG_HALTCTL && openB (db l) CD DBG_DHCMD && openB (db l) CD DBG_DMCMD &&
      decide (fget (db l) KEY_DUCTL_LEVEL = l))) = true ∧ accepted (db 0) 0x13 2 = true ∧ corePresent S 15 = true ∧ 15 < S.cores.length ∧ bit (0x8000 : BitVec 16).toNat 15 = true ∧
    (Machine.core (co (fun c => { c with haltReq := true }) S) 0).haltReq = true ∧ (Machine.core S 0).halted = false ∧ (Machine.core S 0).held = none ∧
    (let s := co (fun c => { c with halted := true }) (db 2)
     dhSelected s = true ∧ (dhGet s 0 (bankOf (Machine.core s 0) 0).regs 0).isSome = true ∧ (dhPut (Machine.core s 0) 0 0 (dataWord s DBG_DHDATA DBG_DHTAG_TAG)).isSome = true) ∧
    (([0, 1, 2].all (fun l => running (db l) 0x13)) = true) ∧
    (let s := stt 0x13 3 (db 1)
     running s 0x13 = false ∧ accepted s 0x13 2 = true ∧ openB s CD DBG_DHCMD = true ∧ openB s CD DBG_DMCMD = true ∧ fget s KEY_DUCTL_LEVEL = 1) ∧
    dhSelected (db 2) = false ∧ inMem (db 1) (dmAddr (db 1)) = true ∧ eccAt (db 1) (dmAddr (db 1)) = .none ∧ fget (db 2) (MEM_BOWN_DOM (bankNo (dmAddr (db 2)))) = 0 := by
  decide +kernel
theorem test_hyp_debug_port : openB S C0 (DBG_TRDATA 3) = true ∧ openB S C0 DBG_TRSW = true ∧ traced S 0 (curCtx S 0) 8 = false ∧
    (let s := flds [(DBG_TRCFG_EN, 1), (DBG_TRCFG_CORES, 1), (DBG_TRFILT_KINDS, 0x1FF)] (up 0x13 S)
     traced s 0 (curCtx s 0) 8 = true ∧ fget s DBG_TRWR_NEXT < 65535 ∧ openB s C0 DBG_TRSW = true) ∧ S.dbg.ir ≠ 0x10 ∧
    (let w := 0x100000000 * 0x104; bits w 54 53 = 0 ∧ bits w 51 32 = 0x104 ∧ ¬(0x104 = 0x100 ∨ (0x180 ≤ 0x104 ∧ 0x104 < 0x190))) ∧
    bits (0x20012000000000 : Nat) 54 53 = 1 ∧ bits (0x20012000000000 : Nat) 51 32 = 0x120 ∧ bit 0x20012000000000 52 = false ∧
    bits (0x200000000 * 2 ^ 20 + 0x1000000000 * 0x100 : Nat) 54 53 = 1 ∧ bit (2 ^ 52) 52 = true ∧ bits (2 ^ 54) 54 53 = 2 := by decide +kernel

/-- RegisterAccess: a register of each kind, on each page. -/
def plainRegs : List Nat := [SCHED_SCHED_CFG, CAP_CAP_CFG, MEM_MEM_CFG, QUE_QSEL, TEST_TESTCFG, BOOT_FLADDR, TWIN_SYNCLEN, DBG_TRFILT]
def pairRegs : List Nat := [SCHED_RECX_ADDR_HI, TWIN_SYNCADDR_HI, KEY_KDESC_HI, BOOT_FLBUF_HI, BOOT_EXTADDR_HI]
def pairOf (a : Nat) : PairHalf :=
  match rowOf a with
  | some (t, _) => t.pair
  | none => .hi
theorem test_hyp_register_access : ((List.range 20).all (fun b => openB S C0 (ERR_CODE b))) = true ∧ (plainRegs.all (fun a => openB S C0 a && decide (pairOf a = .none) && !isMres a && !isMtick a)) = true ∧
    (pairRegs.all (fun a => openB S C0 a && openB S C0 (a - 4) && decide (pairOf (a - 4) = .lo) && decide (a - 4 + 4 = a) && (rowOf a).isSome)) = true ∧
    (let s := { S with wrShadow := mput (fun _ => (none : Option W32)) S.wrShadow (shadowKey (SCHED_RECX_ADDR_HI - 4) C0) (some 16) }
     mget (fun _ => (none : Option W32)) s.wrShadow (shadowKey (SCHED_RECX_ADDR_HI - 4) C0) = some 16) ∧
    (match rowOf BOOT_FLBUF_HI, rowOf BOOT_FLBUF_LO with
     | some (t, _), some (u, _) => decide ((0xFF : W32) &&& accBits t .rsv = 0) && decide ((0xFFFFFFF0 : W32) &&& accBits u .rsv = 0) && decide ((0x100 : W32) &&& accBits t .rsv ≠ 0)
     | _, _ => false) = true ∧ (match rowOf TWIN_SYNCLEN with | some (t, _) => decide (accBits t .rsv ≠ 0) | none => false) = true := by decide +kernel
/-- A register that is not computed: its read takes nothing from `liveRead`, in any state. -/
theorem test_hyp_not_computed (u : State) (i : List Nat) : (liveRead u BOOT_FLADDR i).isSome = false := by
  have h : blkOf BOOT_FLADDR = 0x10 := by decide
  have g : BOOT_FLADDR ≠ INFLIGHT 0x10 := by decide
  simp only [liveRead, h, if_neg g]
  rfl
/-- Registers of absent instances of SCHED, MEM, PWR, LOOP and FLINK, and addresses of no register. -/
theorem test_hyp_absent : ([(State.resetOf .b8, SCHED_CORECTL 8), (State.resetOf .b8, MEM_BOWN 15), (State.resetOf .b8, LOOP_CCTL 256), (State.resetOf .b8, PWR_COREOP 15),
      (State.resetOf .c8, FLINK_LCFG 8)].all (fun q => let b := q.1; let a := q.2
      inWindows a && reaches b C0 a && decide (a % 4 = 0) && Config.present b.variant (blkOf a) &&
      (match rowOf a with
       | some (t, is) => absentInst b t is
       | none => false) && ([(0x01, 0x11), (0x04, 0x12), (0x08, 0x14), (0x0A, 0x12), (0x0E, 0x12)].any (fun p => p.1 == blkOf a)))) = true ∧
    inWindows 0xE0F00FFC = true ∧ reaches S C0 0xE0F00FFC = true ∧ Config.present S.variant (blkOf 0xE0F00FFC) = true ∧ rowOf 0xE0F00FFC = none := by decide +kernel
/-- FabricAccess: a read and a write at each port, owned and not, colliding; reserved space and a unit that C8 lacks. -/
def portReq (op : PortOp) (d : Dom) : PortReq := { op := op, addr := 16, who := blkReq 5 none, dom := d }
def word16 : List Byte := List.replicate 16 9
theorem test_hyp_fabric : inMem S 16 = true ∧ eccAt S 16 = .none ∧ word16.length = 16 ∧ fget S (MEM_BOWN_DOM (bankNo 16)) = domCode .compute ∧
    fget S (MEM_BOWN_DOM (bankNo 16)) ≠ domCode .network ∧ (Dom.network ≠ .exempt) ∧ fget S (MEM_BOWN_DOM (bankNo 16)) ≠ 7 ∧ inMem S 0x8000000 = false ∧
    running (up 4 S) 4 = true ∧ 1 ∈ ({ up 4 S with wback := [1] } : State).wback ∧ reservedSpace S 0xD0000000 = true ∧ corePresent S 15 = true ∧ reservedSpace S 0 = false ∧
    (let s := State.resetOf .c8; inWindows 0xE0800000 = true ∧ reaches s C0 0xE0800000 = true ∧ Config.present s.variant (blkOf 0xE0800000) = false) := by decide +kernel
/-- HeldPackage, ResetContexts, MemoryStaysCanonical and EncodeDecode. -/
theorem test_hyp_rest : (chipReset S 2).wdr.held.isSome = true ∧ (∃ u, exec (.chipResetRelease false ⟨false, none⟩) (chipReset S 2) = .next u) ∧
    Memory.wf S.mem = true ∧ (∃ t, step { S with pending := [.phaseTick] } = .next t) ∧
    sylOf (.add (hy 0) 1 2 3) = some (hy 0) ∧ wellFormed (.add (hy 0) 1 2 3) = true :=
  ⟨by decide +kernel, ⟨_, rfl⟩, by decide +kernel, ⟨_, rfl⟩, by decide +kernel, by decide +kernel⟩

/-! ### Results that the spec works out, and by hand -/

/-- The checksum of the nine bytes "123456789" (chapter 07, under R158). -/
theorem test_crc_check : crc32 [0x31, 0x32, 0x33, 0x34, 0x35, 0x36, 0x37, 0x38, 0x39] = 0xCBF43926 := by decide +kernel
/-- The receive buffer and the straddling table of chapter 02. -/
def bufferCap : CapW := ⟨0x005B00000D0000FF0000000000123458, true⟩
def tableCap : CapW := ⟨0x004900007E001FFF0000000004010000, true⟩
theorem test_cap_decode : capPerm bufferCap = 0x5B ∧ capOtype bufferCap = 0 ∧ capBase bufferCap = 0x123400 ∧ capTop bufferCap = 0x123500 ∧
    inRegion bufferCap 0x1273FF = true ∧ inRegion bufferCap 0x127400 = false ∧ inRegion bufferCap 0x1233FF = false ∧
    capCheck (setCursor bufferCap 0x1234FC) .load none 0x1234FC 8 = some (0x11, 1) ∧ capBase tableCap = 0x3FC0000 ∧ capTop tableCap = 0x40C0000 ∧
    inRegion tableCap 0x40C0000 = true := by decide +kernel
/-- A bank and its quadrant (chapter 03, under R61). -/
theorem test_bank : bankNo 0x04A35678 = 9 ∧ quadOf 9 = 2 := by decide
def after (i : Instr) (s : State) : State :=
  match exec i s with
  | .next t => t
  | _ => S
/-- ADD wraps; SUB of a register from itself; a byte loaded with its sign; MULH of the most negative number with itself. -/
theorem test_add_wraps : capCursor (readC (after (.add (hy 0) 5 6 7) (cr 6 ⟨0xFFFFFFFFFFFFFFFF, false⟩ (cr 7 ⟨2, false⟩ S))) 0 5) = 1 := by decide +kernel
theorem test_sub_same : capCursor (readC (after (.sub (hy 0) 6 6 6) (cr 6 ⟨77, true⟩ S)) 0 6) = 0 := by decide +kernel
theorem test_mulh : capCursor (readC (after (.mulh (hy 1) 5 6 6) (cr 6 ⟨0x8000000000000000, false⟩ S)) 0 5) = 0x4000000000000000 := by decide +kernel
theorem test_ldb_sign : ((Machine.core (after (.ldb (hy 2) 8 5 (.off 0)) (setMemBytes (data 0x2000) 0x2000 [0x80])) 0).late.map (fun l => l.2.bits.toNat % 2 ^ 64)) =
    [0xFFFFFFFFFFFFFF80] := by decide +kernel

/-! ### More witnesses: what waits, what is held, what is refused -/

/-- Waits: IE = 1 and a time limit that has not passed, and one that has. -/
theorem test_hyp_wait_timed : let s := cr 7 (intW 1000000) ie1
    Alone s (hy 0) (.waitt (hy 0) 5 6 7) ∧ curCtx s 0 = some 0 ∧ stIE (status s 0) = true ∧ accepted s 1 1 = false ∧
    ctxWake (armTimeout s 0 (xreg s 0 6).toNat (xreg s 0 7).toNat) 0 = false ∧ Alone ie1 (hy 0) (.waitt (hy 0) 5 6 7) ∧
    ctxWake (armTimeout ie1 0 (xreg ie1 0 6).toNat (xreg ie1 0 7).toNat) 0 = true :=
  ⟨alone_of (by decide +kernel), by decide +kernel, by decide +kernel, by decide +kernel, by decide +kernel, alone_of (by decide +kernel), by decide +kernel⟩
/-- ExceptionReturn with no exception level entered. -/
theorem test_hyp_eret_plain : let s := co (fun c => { c with epc := setCursor (readC S 0 1) 128 }) S
    Alone s (hy 0) (.eret (hy 0)) ∧ mayPrivileged s 0 ∧ stDFL (status s 0) = false ∧ stEXL (status s 0) = false ∧ Target (Machine.core s 0).epc :=
  ⟨alone_of (by decide +kernel), ⟨by decide +kernel, by decide +kernel⟩, by decide +kernel, by decide +kernel, target_of (by decide +kernel)⟩
/-- LoadsWait: a register of a block and the flash window, on pages with side effects. -/
def sePage (a : Nat) : State := cr 5 (setCursor (readC S 0 1) a) S
def leafAt (a : Nat) (se : Bool) : TlbEntry :=
  { space := 1, vbase := a, used := true
    leaf := { frame := a, size := 12, minring := 0, g := false, tw := false, se := se, d := true, a := true, cs := true, cl := true, x := true, w := true, r := true } }
def flashPage : State :=
  let s := co (fun c => { c with utlb := [leafAt 0xF0000000 false, leafAt 0x80000000 true], itlb := [leafAt 0xF0000000 false] }) (rg (fun r => { r with space := 1 }) (sePage 0x80000000))
  { s with boot := { S.boot with flash := true } }
theorem test_hyp_loads_se : let s := co (fun c => { c with sb := [entry 9] }) (sePage SCHED_SCHED_CFG); let t := flashPage
    (aloneB s (hy 2) (.ldw (hy 2) 8 5 (.off 0)) && decide ((got (acc s 5 .load none SCHED_SCHED_CFG 4)).map (fun q => q.leaf.se) = [true]) &&
      !(Machine.core s 0).sb.isEmpty && aloneB t (hy 2) (.ldw (hy 2) 8 5 (.off 0)) && (Machine.core t 0).sb.isEmpty && t.boot.flash &&
      decide ((got (acc t 5 .load none 0x80000000 4)).map (fun q => (q.leaf.se, inFlash q.pa)) = [(true, true)])) = true := by decide +kernel
/-- Stores beside which the fetch goes on, in a buffer with room. -/
theorem test_hyp_stores_room : let s := data 0x2008
    bufferFull s 0 (storeReqs false false false 0 (got (acc s 5 .store none 0x2008 8)) (leBytes 8 7)) = false := by decide +kernel
/-- LongFinish under PRECLONG: a bundle that waits for its own operation. -/
theorem test_hyp_long_held : let h := { freshHeld [0x80000000] with why := .longs }; let s := co (fun c => { c with held := some h }) S
    s.wdr.held = none ∧ Seated s 0 ∧ (Machine.core s 0).longs = [] ∧ (Machine.core s 0).held = some h ∧ h.why = .longs :=
  ⟨by decide +kernel, ⟨by decide +kernel, 0, by decide +kernel, by decide +kernel⟩, by decide +kernel⟩
/-- StoreBuffer: a tile with nothing at its ports; the entry in flight, performed, and waited for by a bundle under SYNCST; one outside memory. -/
def atTile (e : StoreEntry) (r : Option (Status × CapW)) : State :=
  updTilePort (buffered e) (tileKey (e.word * 16)) false (fun p => { p with busy := [{ job := .store 0 e, fin := r }] })
theorem test_hyp_store_tile : let s := buffered (entry 0x200); let w := 0x2000; let e := { entry 0x200 with sent := true, sync := some 0 }
    let t := co (fun c => { c with held := some (freshHeld [0x80000000]) }) (atTile e (some (.ok, nullW)))
    inMem s w = true ∧ (tilePort s (tileKey w) false).wait = [] ∧ (tilePort s (tileKey w) false).busy = [] ∧ (tilePort s (tileKey w) true).wait = [] ∧
    (tilePort s (tileKey w) true).busy = [] ∧ stalled s w = false ∧ fget s (MEM_BOWN_DOM (bankNo w)) = 0 ∧ eccAt s w = .none ∧
    (Machine.core t 0).sb[0]? = some e ∧ entryStatus t 0 e = some .ok ∧ entryStatus (atTile e none) 0 e = none ∧ e.sync = some 0 ∧ (Machine.core t 0).held.isSome = true ∧
    (let f := { entry (SCHED_SCHED_CFG / 16) with sent := true }
     (Machine.core (buffered f) 0).sb[0]? = some f ∧ inMem (buffered f) (f.word * 16) = false ∧ fieldEntry (buffered f) f = false) ∧
    (let f := { entry 0x200 with sent := true }
     f.sync = none ∧ entryStatus (atTile f (some (.notOwner, nullW))) 0 f = some .notOwner ∧ bankHolding (Machine.core (atTile f (some (.notOwner, nullW))) 0) f.ctx = some 0) := by
  decide +kernel
/-- HeldBundles: a line of the flash window while a flash command runs, and after it. -/
theorem test_hyp_held_flash : let line := 0x80000000 / 64; let s := waiting (.miss line)
    flashWaits { s with boot := { s.boot with flash := true } } (line * 64) = true ∧ flashWaits s (line * 64) = false ∧ inMem s (line * 64) = false ∧ inMem s 0x2000 = true ∧
    (((List.range 4).all (fun k => decide (eccAt (setEcc s 0x2000 .single) (0x2000 + 16 * k) ≠ .double))) = true) ∧ eccAt (setEcc s 0x2010 .double) 0x2010 = .double := by
  decide +kernel
/-- InvalidationReceipts: a bundle in progress, and a core that another has asked. -/
theorem test_hyp_receipt_held : let s := co (fun c => { c with tlbRx := [(15, 0)], held := some { freshHeld [0x80000000] with begun := true } }) S
    (!(Machine.core s 0).halted && (Machine.core s 0).held.any (heldBegun 0)) = true ∧ 15 < s.cores.length ∧ (Machine.core s 15).held = none ∧ (Machine.core s 15).tlbAcks = [] := by
  decide +kernel
/-- NetworkFrames: a switch that hears nothing, a full queue, a closed channel, a gate that never opens, and a port under MACsec. -/
def secure (s : State) : State :=
  let s := flds [(NET_PCFG_SEC 3, 1), (KEY_SLOTATTR_VALID 1, 1), (KEY_SLOTATTR_USE 1, 16)] (up 0x11 s)
  let sa : SaS := { en := true, xpn := false, an := 0, kslot := 1, sci := 5, pn := 1 }
  { s with key := { s.key with slots := [(1, List.replicate 16 7)] }, net := { s.net with sas := [(saKey 3 0 0 0, sa), (saKey 3 1 0 0, sa)] } }
def shut (s : State) : State := updPort (flds [(NET_QBVCTL_EN 3, 1)] s) 3 (fun x => { x with inUse := some (0, 1000), gates := [1000, 0x00000000] })
theorem test_hyp_net_refused : netHears S 3 64 = false ∧ netHears (port 3 S) 3 64 = true ∧
    (let s := port 3 (queued { desc with put := 4 }); rxSlots s 0 - 2 < qfill (qdesc s (fget s (NET_RCFG_QUEUE 0)))) ∧
    fon (flds [(NET_RCFG_EN 0, 0)] (port 3 S)) (NET_RCFG_EN 0) = false ∧ egressPick S 3 = none ∧
    (let fr : NetFrame := { bytes := ether, tc := 7, req := none }; let s := shut (port 3 S)
     neverStarts s 3 fr = true ∧ neverStarts (port 3 S) 3 fr = false ∧ egressPick (updPort s 3 (fun x => { x with egress := [fr] })) 3 = none) := by decide +kernel
theorem test_hyp_net_secured : (let s := secure (port 3 S)
     macsecOn s 3 = true ∧ ((txSa s 3).map (fun x => x.1)) = some (saKey 3 0 0 0) ∧ txSa (port 3 S) 3 = none ∧
      (let q : NetReq := { chan := 63, slot := 0, cookie := 0, ts := true, onestep := false, ofs := 0 }
       let fr : NetFrame := { bytes := ether, tc := 0, req := some q }
       egressPick (updPort s 3 (fun x => { x with egress := [fr] })) 3 = some fr) ∧
      (match txSa s 3 with
       | some (_, sa, key) => let f := protect s sa key (List.replicate 40 1)
         decide (netField f 12 2 = 0x88E5) && decide (64 ≤ (summed f).length) && decide ((validate s 3 f).2 = some (List.replicate 40 1)) &&
           decide ((validate s 3 (f.take 60 ++ [0, 0, 0, 0])).2 = none)
       | none => false) = true) := by decide +kernel
/-- NetworkTables: a cycle that begins, one that has begun, none; a list swapped in. -/
theorem test_hyp_net_cycle : (let s := updPort (flds [(NET_QBVCTL_EN 3, 1)] (up 0x0B S)) 3 (fun x => { x with inUse := some (0, 1000) })
     fon s (NET_QBVCTL_EN 3) = true ∧ accepted s 0x0B 3 = true ∧ (portS s 3).swap = none ∧ (portS s 3).inUse = some (0, 1000) ∧ cycleStart (0, 1000) (ptpNs s) = some 0 ∧
      (portS s 3).cycle ≠ some 0 ∧ (portS (updPort s 3 (fun x => { x with cycle := some 0 })) 3).cycle = some 0 ∧
      (portS (updPort s 3 (fun x => { x with inUse := none })) 3).inUse.bind (fun u => cycleStart u (ptpNs s)) = none ∧
      (portS (updPort s 3 (fun x => { x with swap := some (0, 1000) })) 3).swap = some (0, 1000)) ∧ openB S C0 NET_RULEW7 = true := by decide +kernel
/-- TwinLink: a tag that is right and one that is not; an acknowledgement that finds frames waiting, with room for them and without; the roles
of two solo halves. -/
theorem test_hyp_twin_tags (x : W128) : (∃ tag, tag = x) ∧ ∃ tag, tag ≠ x :=
  ⟨⟨x, rfl⟩, ⟨x + 1, by bv_omega⟩⟩
def big : TwFrame := { seq := 9, last := true, body := .store (List.replicate 10923 (0, nullW)) }
theorem test_hyp_twin_waiting : (let s := updTwin (frame (.ack 5) (tl 2)) (fun w => { w with waiting := [(0, true, .store [(0, nullW)])] })
      s.twin.waiting = [(0, true, .store [(0, nullW)])] ∧ s.twin.fenceLeft = 0 ∧ s.twin.rxSeq = 0 ∧
      ((s.twin.tx.filter (fun g => decide (5 < g.seq))).foldl (fun k g => k + frameBytes g) 0) + (32 + bodyBytes (.store [(0, nullW)])) ≤ 262144) ∧
    (let s := updTwin (frame (.ack 5) (tl 2)) (fun w => { w with tx := [big] });
      262144 < ((s.twin.tx.filter (fun g => decide (5 < g.seq))).foldl (fun k g => k + frameBytes g) 0) + (32 + bodyBytes (.store [(0, nullW)]))) ∧
    (frame (.ack 5) (tl 2)).twin.waiting = [] ∧ twRole (if linkUp (tl 1) then linkDown (tl 1) else tl 1) = 1 ∧
    fon (tl 1) TWIN_TWCFG_PRIO = false ∧ fget (tl 1) TWIN_LINKSTAT_LANES ≠ 0 := by decide +kernel
/-- TwinPrimary: a replicated write at its tile, admitted and held back; a role switch in each of its stages; a fence met and not; pushes and
copies that cannot be made. -/
def replicated : StoreEntry := { entry 0x200 with tw := true, sent := true }
def atTwin (s : State) : State := updTilePort (co (fun c => { c with sb := [replicated] }) s) (tileKey 0x2000) false (fun p => { p with wait := [.store 0 replicated] })
theorem test_hyp_twin_admit : (let s := atTwin primary
      (Machine.core s 0).sb[0]? = some replicated ∧ inMem s 0x2000 = true ∧ (tilePort s (tileKey 0x2000) false).wait = [.store 0 replicated] ∧
      (tilePort s (tileKey 0x2000) false).busy = [] ∧ (tilePort s (tileKey 0x2000) true).wait = [] ∧ (tilePort s (tileKey 0x2000) true).busy = [] ∧
      replHeld s = false ∧ replicates s 1 = true ∧ stalled s 0x2000 = false ∧ fget s (MEM_BOWN_DOM (bankNo 0x2000)) = 0 ∧ eccAt s 0x2000 = .none) ∧
    replHeld (atTwin (updTwin primary (fun t => { t with tx := [big] }))) = true := by decide +kernel
theorem test_hyp_twin_stages : ([none, some (7, 0), some (7, 1)].all (fun k =>
      let s := updTwin primary (fun t => { t with capture := some lastCap, switching := k })
      decide (s.twin.capture = some lastCap) && decide (s.twin.switching = k) && linkUp s && lastCap.marks.isEmpty && (ckCells s lastCap.tag).isEmpty &&
        twFree s (32 + bodyBytes (.checkpoint 255 s.tick [] [] [])))) = true ∧
    twFree (updTwin primary (fun t => { t with waiting := [(0, true, .store [])] })) 40 = false ∧
    (let s := updTwin primary (fun t => { t with fence := some 4, switching := some (7, 2) })
     s.twin.fence = some 4 ∧ s.twin.fenceLeft = 0 ∧ s.twin.tx = [] ∧ linkUp s = true ∧ twRole s = 2) ∧
    (let s := updTwin primary (fun t => { t with fence := some 4, fenceLeft := 1 }); s.twin.fence = some 4 ∧ s.twin.fenceLeft ≠ 0) := by decide +kernel
theorem test_hyp_twin_refused : (updTwin primary (fun t => { t with push := some 0 })).twin.push = some 0 ∧ primary.twin.push = none ∧ primary.twin.sync = none ∧
    (updTwin primary (fun t => { t with sync := some (0, 1) })).twin.sync = some (0, 1) ∧ running S 0x0D = false ∧ ([TWIN_RECPUSH, TWIN_SYNCCMD, TWIN_QSYNC].all (openB S C0)) = true ∧
    (recCheck 9 (upTo 48) primary).2 = false ∧ (recCheck 9 (upTo 48) { primary with recEcc := [(64 * 9, .double)] }).2 = true ∧
    fon (flds [(TWIN_QSYNC_BUSY, 1)] primary) TWIN_QSYNC_BUSY = true ∧ fon primary TWIN_QSYNC_BUSY = false ∧
    (portBReadWord (setEcc primary 0 .double) 0 twinWho).2.2 ≠ .ok ∧ twFree primary 56 = true ∧ twFree (updTwin primary (fun t => { t with tx := [big] })) 56 = false ∧
    (let s := updTwin (tl 2) (fun w => { w with peerReady := true, capture := some lastCap })
     s.twin.peerReady = true ∧ s.twin.capture.isSome = true ∧ twRole s = 2) := by decide +kernel
/-- CoreResets: a core that has issued with IE = 0 for its limit, and a watchdog that has run out. -/
theorem test_hyp_watchdog : (([0, 15].all (fun n =>
      let s := flds [(WDR_CORWD_EN n, 1), (WDR_CORWD_IELIM n, 1), (SCHED_CORECTL_ADMIT n, 1)] (up 0x12 S); let t := { s with wdr := { s.wdr with mute := setAt s.wdr.mute n 200 } }
      corewdCounts t n && decide (fget t (WDR_CORWD_IELIM n) ≠ 0) && decide (200 * fget t (WDR_CORWD_IELIM n) ≤ t.wdr.mute.getD n 0) && decide (s.wdr.left.getD n 0 = 0) &&
      !corewdDue s n true && !corewdDue S n false))) = true := by decide +kernel
/-- OperatingPoints: a voltage commanded, settled at, on its way, and none. -/
def wants (mv : Nat) : State := updPwr (flds [(PWR_REGCFG_MODE, 2)] (up 0x0E S)) (fun p => { p with cmd := some mv, want := some (mv, 0) })
theorem test_hyp_voltage : (let s := { wants 700 with tick := 1000000 }
      s.pwr.want = some (700, 0) ∧ 0 + 200 * fget s PWR_REGCFG_VSETTLE ≤ s.tick ∧ (((700 : BitVec 10).toNat : Int) - 700).natAbs ≤ 10 ∧ 30 < (((731 : BitVec 10).toNat : Int) - 700).natAbs) ∧
    ¬0 + 200 * fget (flds [(PWR_REGCFG_VSETTLE, 5)] (wants 700)) PWR_REGCFG_VSETTLE ≤ (wants 700).tick ∧ S.pwr.want = none ∧
    (let s := flds [(PWR_COREOP_BUSY 0, 1)] (wants 700); fon s (PWR_COREOP_BUSY 0) = true ∧ s.pwr.want ≠ none ∧ fget s (PWR_COREOP_CUR 0) ≤ effOp s 0) := by decide +kernel
theorem test_hyp_droop : ([0, 1, 2].all (fun k => let s := updPwr S (fun p => { p with levels := p.levels.set 3 k })
    quadPresent s 3 && decide (s.pwr.levels.length = 4) && decide (s.pwr.levels.getD 3 0 = k))) = true := by decide +kernel
/-- TestEngine: repairs and releases that begin at once, that wait, and that are under way. -/
def testing (l w : List Nat) (c : Option (Nat × Nat)) (s : State) : State := updTest s (fun t => { t with repairing := l, waiting := w, cmd := c })
theorem test_hyp_repair : (let s := testing [15] [] (some (3, 15)) (te 2); repairGoes s 15 = true ∧ s.test.cmd = some (3, 15) ∧ 15 ∈ s.test.repairing) ∧
    (let s := testing [] [] (some (3, 15)) (te 0); repairGoes s 15 = false ∧ repaired s 15 = false) ∧
    (let s := testing [] [] (some (4, 15)) (te 5); backGoes s 15 = true ∧ fget s TEST_TESTSTAT_PHASE = 5) ∧
    (let s := testing [] [] (some (4, 15)) (flds [(MEM_BMAP_MODE 15, 2)] (te 4))
     backGoes s 15 = true ∧ urgent s 15 = false ∧ fget s (MEM_BMAP_MODE 15) ≠ 0 ∧ urgent (flds [(TEST_URGENT_BANKS, 0x8000)] s) 15 = true) ∧
    (let s := testing [] [] (some (4, 15)) (flds [(MEM_BMAP_MODE 15, 2)] (te 0)); backGoes s 15 = false ∧ fget s (MEM_BMAP_MODE 15) ≠ 0) ∧
    (let s := testing [15] [] none (te 0); s.test.repairing.find? (fun k => !urgent s k) = some 15) ∧
    (let s := testing [] [15] none (te 0); s.test.repairing.find? (fun k => !urgent s k) = none ∧ s.test.waiting.find? (fun k => !urgent s k) = some 15) ∧
    testAborts (te 1) = false ∧ testAborts (flds [(CTRL_QMODE 0x0F, 1)] (stt 0x0F 2 (te 1))) = true := by decide +kernel
/-- Scrub: the context store, and the end of a pass. -/
theorem test_hyp_scrub : (let s := flds [(TEST_SCRUBCFG_EN, 1), (TEST_SCRUBCFG_CSEN, 1)] (updTest (te 0) (fun t => { t with scrub := 524287 }))
      running s 0x0F = true ∧ fon s TEST_SCRUBCFG_EN = true ∧ fon s TEST_SCRUBCFG_CSEN = true ∧ s.test.scrub = 524287) ∧
    ([Upset.single, .double].all (fun u => mget (fun _ => Upset.none) ({ S with recEcc := [(S.test.store, u)] } : State).recEcc S.test.store == u)) = true := by decide +kernel
/-- DebugUnit: a halt asked of a core with a bundle in progress. -/
theorem test_hyp_halt_held : let s := co (fun c => { c with haltReq := true }) (waiting .stores)
    (Machine.core s 0).haltReq = true ∧ (Machine.core s 0).halted = false ∧ (Machine.core s 0).held.isSome = true := by decide +kernel
/-- FabricAccess: requests of a core and of a block, idle and full ports, a tile in its swap, the new owner of a bank, and both ports at one word. -/
def coreReq0 (op : PortOp) : PortReq := { op := op, addr := 16, who := coreReq S 0, dom := .compute }
def blkReq5 (op : PortOp) (d : Dom) : PortReq := { op := op, addr := 16, who := blkReq 5 none, dom := d }
def swapping (s : State) : State := flds [(MEM_BMAP_SWAP 0, 1), (MEM_BMAP_TILE 0, tileNo 16)] s
def giving (s : State) : State := flds [(MEM_BOWN_DOM 0, 7), (MEM_BOWN_PREV 0, 0), (MEM_BOWN_TARGET 0, 1)] s
theorem test_hyp_tile_port : (tilePort S (tileKey 16) false).wait = [] ∧ (tilePort S (tileKey 16) false).busy = [] ∧ (tilePort S (tileKey 16) true).wait = [] ∧
    (tilePort S (tileKey 16) true).busy = [] ∧ mrising S.tiles = true ∧ stalled S 16 = false ∧ stalled (swapping S) 16 = true ∧ reqNo (coreReq0 .read).who < 64 ∧
    reqNo (coreReq0 .read).who = ((tilePort S (tileKey 16) false).last + 1 + 63) % 64 ∧ reqNo (blkReq5 .read .compute).who = ((tilePort S (tileKey 16) false).last + 1 + 36) % 64 ∧
    fget S (MEM_BOWN_DOM (bankNo 16)) = domCode (blkReq5 (.write 0 word16 true) .compute).dom ∧ mayTag 5 = true ∧ mayTag 0x0B = false ∧
    Dom.network ≠ .exempt ∧ fget S (MEM_BOWN_DOM (bankNo 16)) ≠ domCode .network ∧ newOwner (giving S) (bankNo 16) .network = true ∧
    (let e : PortEntry := { job := .req (coreReq0 .read), fin := none }
     64 ≤ (tilePort (updTilePort S (tileKey 16) false (fun p => { p with busy := List.replicate 64 e })) (tileKey 16) false).busy.length) ∧
    inFlash 0x80000000 = true ∧ inMem S 0x80000000 = false ∧ flashHas S 1 = false ∧ inRom 0xF0000000 = true ∧ inFlash 0xF0000000 = false ∧ inMem S 0xF0000000 = false ∧
    inRom 0xE0000000 = false ∧ inFlash 0xE0000000 = false ∧ reservedSpace S 0xE0000000 = false := by decide +kernel
/-- TagsAndOwners: a handover with a write of the old owner in flight, and without. -/
theorem test_hyp_handover : (giving S).wdr.held = none ∧ fget (giving S) (MEM_BOWN_DOM 0) = 7 ∧ bankPresent (giving S) 0 = true ∧ oldWrites (giving S) 0 = false ∧
    oldWrites (updTilePort (giving S) (tileKey 16) false (fun p => { p with busy := [{ job := .req (coreReq0 (.write 0 word16 false)), fin := none }] })) 0 = true := by decide +kernel
/-- SuspendAndAbort and Scheduling: commands given back, and a bank to be made free. -/
theorem test_hyp_abort : (susp true).suspend = some { ctx := 5, ev := false, started := true } ∧ running { S with suspend := some { ctx := 5, ev := false, started := false } } 1 = false ∧
    openB { S with suspend := some { ctx := 5, ev := false, started := false } } C0 SCHED_CTXCMD = true ∧ S.suspend = none := by decide +kernel
def crowded : State :=
  co (fun c => { c with cur := none, banks := (List.range 4).map (fun b => { ctx := some (10 + b), regs := CtxRegs.zero, lastCur := b }) })
    ([10, 11, 12, 13].foldl (fun s k => ctx k 3 (setRecBits s k 0x300 31 16 1)) placed)
theorem test_hyp_victim : running crowded 1 = true ∧ readyOrder crowded = [5] ∧ coreOrder crowded 5 = [0] ∧ freeBank crowded 0 = none ∧
    ((heldCtxs (Machine.core crowded 0)).any (fun p => leaving crowded p.2)) = false ∧ (victimOn crowded 0 5).isSome = true := by decide +kernel
theorem test_hyp_quantum_ready : let s := setReg (flds [(SCHED_SCHED_CFG_QUANTUM, 1)] (setRecBits placed 5 0x300 11 8 (ctxPrio placed 0))) (FEAT_ACCEPT 1) 5
    runningCtx s 0 = some 0 ∧ accepted s 1 2 = true ∧ accepted s 1 1 = false ∧ ((readyCtxs s).any (fun k => decide (ctxPrio s k = ctxPrio s 0) && eligible s k 0)) = true := by decide +kernel
/-- EventDelivery: a core that holds a bundle; TwinLink and the field link's queue aside, a source put again. -/
theorem test_hyp_grant_held : (Machine.core (waiting .stores) 0).held.isSome = true ∧ (Machine.core (waiting .stores) 0).grantReq = none ∧
    (386 ∈ ({ evented 0xC0000010 with evtWait := [386] } : State).evtWait) := by decide +kernel
/-- EncodersAndInputs, Measurements and FieldOutputs: pins that have settled, with a filter and without; an input that adapts; a result at the
channel's period; a level that has landed this tick. -/
theorem test_hyp_pins_settled : (([0, 7].all (fun e => let s := flds [(MEAS_ENCCFG_EN e, 1)] (field S); let q := encS s e
      encOn s e 0 && [q.a, q.b, q.z].all (fun p => p.level == p.accepted && decide (p.since ≤ s.tick)) && decide (fget s (MEAS_ENCCFG_FILT e) = 0) &&
      decide (fget (flds [(MEAS_ENCCFG_FILT e, 1)] s) (MEAS_ENCCFG_FILT e) ≠ 0) && decide (q.z.level = false))) = true) ∧
    (let s := flds [(MEAS_DICFG_ADAPT 0, 1)] (field S)
     fon s (MEAS_DICFG_ADAPT 0) = true ∧ accepted s 9 5 = true ∧ bridgeUp s = true ∧ fieldGood s = true) ∧
    (([0, 15].all (fun n => decide (1000 * (25 * sdRatio (chan n (field S)) n) % (25 * sdRatio (chan n (field S)) n) = 0) &&
      decide ((chanS (updChan (chan n (field S)) n (fun c => { c with trigs := [50] })) n).trigs = [50]))) = true) ∧ S.meas.landed = [] := by decide +kernel

end Sys2Proof.Tests
end

section
/-! SUPPORT. General memory read after a run of bytes or a word is written: byte order, the bytes of a word and its tag (R7, R46, R62). -/

namespace Sys2Proof.Machine

/-! ### Byte order -/

@[simp] theorem length_leBytes (n x : Nat) : (leBytes n x).length = n := by
  induction n generalizing x with
  | zero => rfl
  | succ n ih => simp [leBytes, ih]

/-- The value of the `n` low bytes is the number modulo `256 ^ n` (R7). -/
theorem leVal_leBytes (n x : Nat) : leVal (leBytes n x) = x % 256 ^ n := by
  induction n generalizing x with
  | zero => simp [leBytes, leVal, Nat.mod_one]
  | succ n ih => rw [Nat.pow_succ', Nat.mod_mul, leBytes, leVal, ih, BitVec.toNat_ofNat]

/-- Bytes read one after the other are the list they are read from. -/
theorem map_getD_upTo (l : List Byte) : (upTo l.length).map (fun i => l.getD i 0) = l := by
  apply List.ext_getElem
  · simp [upTo]
  · intro i h1 h2
    simp [upTo, List.getElem?_eq_getElem h2]

/-! ### Runs of bytes -/

/-- A byte read after a run of bytes was written. -/
theorem memByte_setMemBytes (s : State) (a x : Nat) (l : List Byte) :
    memByte (setMemBytes s a l) x = if a ≤ x ∧ x < a + l.length then l.getD (x - a) 0 else memByte s x := by
  induction l generalizing s a with
  | nil => rw [setMemBytes, if_neg (by simp only [List.length_nil]; omega)]
  | cons b r ih =>
    rw [setMemBytes, ih, memByte_setMemByte, List.length_cons]
    by_cases hin : a + 1 ≤ x ∧ x < a + 1 + r.length
    · have hx : x - a = x - (a + 1) + 1 := by omega
      rw [if_pos hin, if_pos (by omega), hx, List.getD_cons_succ]
    · rw [if_neg hin]
      by_cases hx : x = a
      · subst hx
        rw [if_pos rfl, if_pos (by omega), Nat.sub_self, List.getD_cons_zero]
      · rw [if_neg hx, if_neg (by omega)]

/-- The run just written reads back. -/
theorem memBytes_setMemBytes_same (s : State) (a : Nat) (l : List Byte) : memBytes (setMemBytes s a l) a l.length = l := by
  have hbyte : ∀ i ∈ upTo l.length, memByte (setMemBytes s a l) (a + i) = l.getD i 0 := by
    intro i hi
    have hlt : i < l.length := List.mem_range.mp hi
    rw [memByte_setMemBytes, if_pos (by omega), Nat.add_sub_cancel_left]
  rw [memBytes, List.map_congr_left hbyte, map_getD_upTo]

/-- A run that shares no byte with the one written reads as before. -/
theorem memBytes_setMemBytes_ne {s : State} {a b n : Nat} {l : List Byte} (h : b + n ≤ a ∨ a + l.length ≤ b) :
    memBytes (setMemBytes s a l) b n = memBytes s b n := by
  refine List.map_congr_left fun i hi => ?_
  have hlt : i < n := List.mem_range.mp hi
  rw [memByte_setMemBytes, if_neg (by omega)]

/-! ### Words and tags -/

@[simp] theorem memByte_setMemTag (s : State) (a x : Nat) (b : Bool) : memByte (setMemTag s a b) x = memByte s x := rfl

@[simp] theorem memBytes_setMemTag (s : State) (a x n : Nat) (b : Bool) : memBytes (setMemTag s a b) x n = memBytes s x n := rfl

/-- The tag of a word read after one was set (R46). -/
theorem memTag_setMemTag (s : State) (a x : Nat) (b : Bool) :
    memTag (setMemTag s a b) x = if x / 16 = a / 16 then b else memTag s x := mget_mput _ _ _ _ _

/-- Writing bytes leaves every tag as it was. -/
@[simp] theorem memTag_setMemBytes (s : State) (a x : Nat) (l : List Byte) : memTag (setMemBytes s a l) x = memTag s x := by
  rw [setMemBytes_eq]; rfl

/-- An aligned word written with its tag, low byte first. -/
def putMemWord (s : State) (a : Nat) (w : CapW) : State :=
  setMemTag (setMemBytes s (a / 16 * 16) (leBytes 16 w.bits.toNat)) a w.tag

/-- A word read after a word was written with its tag. -/
theorem memWord_putMemWord (s : State) (a x : Nat) (w : CapW) :
    memWord (putMemWord s a w) x = if x / 16 = a / 16 then w else memWord s x := by
  unfold memWord putMemWord
  rw [memTag_setMemTag, memTag_setMemBytes, memBytes_setMemTag]
  by_cases h : x / 16 = a / 16
  · have hlt : w.bits.toNat < 256 ^ 16 := w.bits.isLt
    have hrun : memBytes (setMemBytes s (a / 16 * 16) (leBytes 16 w.bits.toNat)) (a / 16 * 16) 16 = leBytes 16 w.bits.toNat := by
      simpa using memBytes_setMemBytes_same s (a / 16 * 16) (leBytes 16 w.bits.toNat)
    have hval : BitVec.ofNat 128 (w.bits.toNat % 256 ^ 16) = w.bits := by
      rw [Nat.mod_eq_of_lt hlt, BitVec.ofNat_toNat, BitVec.setWidth_eq]
    rw [if_pos h, if_pos h, h, hrun, leVal_leBytes, hval]
  · rw [if_neg h, if_neg h, memBytes_setMemBytes_ne (by rw [length_leBytes]; omega)]

/-- Settles O57: a byte written by induction on the run, a word by its sixteen bytes and its tag. -/
theorem memoryBytes : Obligations.MemoryBytes := by
  unfold Obligations.MemoryBytes
  exact fun s a x l w => ⟨memByte_setMemBytes s a x l, memWord_putMemWord s a x w⟩

end Sys2Proof.Machine
end

section
/-! SUPPORT. Reads and writes of registers: what a read answers and clears, pairs and their shadows, reserved bits, absent instances and
reserved offsets (R8, R102–R104, R109, R122). -/

namespace Sys2Proof.Machine

/-! ### The commands -/

theorem exec_rcRead {s : State} (h : s.wdr.held = none) (src : Src) (a : Nat) : exec (.rcRead src a) s = .next (accRead s src a) := by
  have e : exec (.rcRead src a) s = act s (fun s => accRead s src a) := rfl
  rw [e, act_free h]

theorem exec_registerWrite {s : State} (h : s.wdr.held = none) (src : Src) (a : Nat) (v : W32) :
    exec (.registerWrite src a v) s = .next (accWrite s src a v.toNat) := by
  have e : exec (.registerWrite src a v) s = act s (fun s => accWrite s src a v.toNat) := rfl
  rw [e, act_free h]

theorem exec_errCodeRead {s : State} (h : s.wdr.held = none) (src : Src) {b : Nat} (hb : b < 20) :
    exec (.errCodeRead src b) s = .next (accRead s src (ERR_CODE b)) := by
  have e : exec (.errCodeRead src b) s = act s (fun s => given (decide (b < 20)) s (fun s => accRead s src (ERR_CODE b))) := rfl
  rw [e, act_free h, given_true (decide_eq_true hb)]

theorem halfAt_row {a : Nat} {t : RegRow} {is : List Nat} (hr : rowOf a = some (t, is)) : halfAt a = t.pair := by simp [halfAt, hr]

theorem exec_pairLowRead {s : State} (h : s.wdr.held = none) (src : Src) {a : Nat} (hp : halfAt a = .lo) :
    exec (.pairLowRead src a) s = .next (accRead s src a) := by
  have e : exec (.pairLowRead src a) s = act s (fun s => given (halfAt a == .lo) s (fun s => accRead s src a)) := rfl
  rw [e, act_free h, given_true (beq_iff_eq.mpr hp)]

theorem exec_pairLowWrite {s : State} (h : s.wdr.held = none) (src : Src) {a : Nat} (v : W32) (hp : halfAt a = .lo) :
    exec (.pairLowWrite src a v) s = .next (accWrite s src a v.toNat) := by
  have e : exec (.pairLowWrite src a v) s = act s (fun s => given (halfAt a == .lo) s (fun s => accWrite s src a v.toNat)) := rfl
  rw [e, act_free h, given_true (beq_iff_eq.mpr hp)]

theorem exec_pairHighWrite {s : State} (h : s.wdr.held = none) (src : Src) {a : Nat} (v : W32) (hp : halfAt a = .hi) :
    exec (.pairHighWrite src a v) s = .next (accWrite s src a v.toNat) := by
  have e : exec (.pairHighWrite src a v) s = act s (fun s => given (halfAt a == .hi) s (fun s => accWrite s src a v.toNat)) := rfl
  rw [e, act_free h, given_true (beq_iff_eq.mpr hp)]

/-! ### Reads -/

/-- The word last answered to a requester. -/
def lastAnswer (u : State) (src : Src) : W32 := mget (fun _ => 0#32) u.answer (reqKey src)

theorem lastAnswer_noted (u : State) (src : Src) (v : W32) :
    lastAnswer { u with answer := mput (fun _ => 0#32) u.answer (reqKey src) v } src = v := mget_mput_same _ _ _ _

/-- What an RC read leaves in a register (R8). -/
def rcLeft (t : RegRow) (x : W32) : W32 := (x &&& ~~~accBits t .rc) ||| (BitVec.ofNat 32 (rowReset t) &&& accBits t .rc)

theorem plainRead_fst (s : State) (a : Nat) (t : RegRow) : (plainRead s a t).1 = setReg s a (rcLeft t (reg s a)) := rfl
theorem plainRead_snd (s : State) (a : Nat) (t : RegRow) : (plainRead s a t).2 = reg s a &&& ~~~accBits t .wo := rfl

/-- A register that is not computed is read as it is stored. -/
theorem pageRead_stored {s : State} {a : Nat} {is : List Nat} (h : liveRead s a is = none) (t : RegRow) : pageRead s a t is = plainRead s a t := by
  simp only [pageRead, h]

/-- A register that is no part of a pair and not computed is read as it is stored. -/
theorem readRow_single {s : State} {a : Nat} {t : RegRow} {is : List Nat} (hp : t.pair = .none) (hm : isMres a = false) (hk : isMtick a = false)
    (hl : liveRead s a is = none) (src : Src) : readRow s a t is src = plainRead s a t := by
  simp [readRow, hm, hk, hp, pageRead_stored hl]

/-- A read of the low half reads both registers, and the high word goes to the requester's shadow (R104). -/
theorem readRow_low {s : State} {a : Nat} {t t' : RegRow} {is is' : List Nat} (hp : t.pair = .lo) (hm : isMres a = false)
    (hk : isMtick a = false) (hr : rowOf (a + 4) = some (t', is')) (hl : ∀ u, liveRead u a is = none ∧ liveRead u (a + 4) is' = none)
    (src : Src) : readRow s a t is src =
      (putShadow (plainRead (plainRead s a t).1 (a + 4) t').1 (a + 4) src (reg s (a + 4) &&& ~~~accBits t' .wo), (plainRead s a t).2) := by
  have hhi : (plainRead (plainRead s a t).1 (a + 4) t').2 = reg s (a + 4) &&& ~~~accBits t' .wo := by
    rw [plainRead_snd, plainRead_fst, reg_setReg_ne (by omega)]
  simp [readRow, hm, hk, hp, pageRead_stored (hl _).1, highHalf, hr, pageRead_stored (hl _).2, hhi]

/-- The word that a read of a register answers. -/
theorem lastAnswer_accRead {s : State} {src : Src} {a : Nat} (h : Open s src a) {t : RegRow} {is : List Nat} (hr : rowOf a = some (t, is)) :
    lastAnswer (accRead s src a) src = (readRow s a t is src).2 := by
  rw [accRead_row h hr, lastAnswer_noted]

/-- Noting the answer changes no register. -/
theorem reg_accRead {s : State} {src : Src} {a : Nat} (h : Open s src a) {t : RegRow} {is : List Nat} (hr : rowOf a = some (t, is)) (x : Nat) :
    reg (accRead s src a) x = reg (readRow s a t is src).1 x := by rw [accRead_row h hr]; rfl

/-- A read of a register that is stored answers it but for its WO bits, leaves its RC bits at their reset values, and touches no other
register (R8). -/
theorem accRead_single {s : State} {src : Src} {a : Nat} {t : RegRow} {is : List Nat} (h : Open s src a) (hr : rowOf a = some (t, is))
    (hp : t.pair = .none) (hm : isMres a = false) (hk : isMtick a = false) (hl : liveRead s a is = none) :
    lastAnswer (accRead s src a) src = reg s a &&& ~~~accBits t .wo ∧ reg (accRead s src a) a = rcLeft t (reg s a) ∧
      ∀ x, x ≠ a → reg (accRead s src a) x = reg s x := by
  have hrow := readRow_single hp hm hk hl src
  refine ⟨?_, ?_, fun x hx => ?_⟩
  · rw [lastAnswer_accRead h hr, hrow, plainRead_snd]
  · rw [reg_accRead h hr, hrow, plainRead_fst, reg_setReg_same]
  · rw [reg_accRead h hr, hrow, plainRead_fst, reg_setReg_ne hx]

/-- A read of the low half of a pair answers it and keeps the high half for its requester (R104). -/
theorem accRead_low {s : State} {src : Src} {a : Nat} {t t' : RegRow} {is is' : List Nat} (h : Open s src a) (hr : rowOf a = some (t, is))
    (hp : t.pair = .lo) (hr' : rowOf (a + 4) = some (t', is')) (hm : isMres a = false) (hk : isMtick a = false)
    (hl : ∀ u, liveRead u a is = none ∧ liveRead u (a + 4) is' = none) :
    lastAnswer (accRead s src a) src = reg s a &&& ~~~accBits t .wo ∧
      readShadow (accRead s src a) (a + 4) src = reg s (a + 4) &&& ~~~accBits t' .wo := by
  have hrow := readRow_low (s := s) hp hm hk hr' hl src
  refine ⟨?_, ?_⟩
  · rw [lastAnswer_accRead h hr, hrow, plainRead_snd]
  · rw [accRead_row h hr, hrow]; exact mget_mput_same _ _ _ _

/-! ### ERR_CODE -/

/-- The row of ERR_CODE (R105): CODE and COUNT, both RC. -/
def errRow : RegRow := { off := 0x30, fields := [⟨31, 16, .rsv, 0⟩, ⟨15, 8, .rc, 0⟩, ⟨7, 0, .rc, 0⟩] }

theorem row_errCode : ∀ b < 20, rowOf (ERR_CODE b) = some (errRow, []) := by decide
/-- It is no register of the measurement results, whose reads are paired otherwise (R427). -/
theorem errCode_noTimer : ∀ b < 20, isMres (ERR_CODE b) = false ∧ isMtick (ERR_CODE b) = false := by decide
/-- No block computes its ERR_CODE. -/
theorem liveRead_errCode {b : Nat} (hb : b < 20) (u : State) : liveRead u (ERR_CODE b) [] = none :=
  match b, hb with
  | 0, _ | 1, _ | 2, _ | 3, _ | 4, _ | 5, _ | 6, _ | 7, _ | 8, _ | 9, _
  | 10, _ | 11, _ | 12, _ | 13, _ | 14, _ | 15, _ | 16, _ | 17, _ | 18, _ | 19, _ => rfl
  | k + 20, h => absurd h (by omega)

theorem bits_and (x y hi lo : Nat) : bits (x &&& y) hi lo = bits x hi lo &&& bits y hi lo := by
  simp only [bits, Nat.and_div_two_pow, Nat.and_mod_two_pow]

/-- An RC read of ERR_CODE keeps the upper half of the word alone. -/
theorem rcLeft_errRow (x : W32) : rcLeft errRow x = x &&& 0xFFFF0000#32 := by
  have hrc : accBits errRow .rc = 0xFFFF#32 := by decide
  have hreset : rowReset errRow = 0 := by decide
  rw [rcLeft, hrc, hreset, BitVec.zero_and, BitVec.or_zero]
  rfl

theorem errRow_wo (x : W32) : x &&& ~~~accBits errRow .wo = x := by
  have hwo : accBits errRow .wo = 0#32 := by decide
  rw [hwo, BitVec.not_zero, BitVec.and_allOnes]

/-! ### Writes -/

@[simp] theorem srcReq_setReg (s : State) (a : Nat) (v : W32) (src : Src) : srcReq (setReg s a v) src = srcReq s src := by
  cases src <;> rfl

/-- Registers whose fields alone say what a write of them does: single ones, and high halves of pairs. -/
def plainSingles : List Nat := [SCHED_SCHED_CFG, CAP_CAP_CFG, MEM_MEM_CFG, QUE_QSEL, TEST_TESTCFG, BOOT_FLADDR, TWIN_SYNCLEN, DBG_TRFILT]
def plainHighs : List Nat := [SCHED_RECX_ADDR_HI, TWIN_SYNCADDR_HI, KEY_KDESC_HI, BOOT_FLBUF_HI, BOOT_EXTADDR_HI]

theorem half_plainSingles : ∀ a ∈ plainSingles, halfAt a = .none := by decide
theorem half_plainHighs : ∀ a ∈ plainHighs, halfAt a = .hi := by decide

/-- A write above the header goes to the page. -/
theorem blockWrite_page {s : State} {q : RegWrite} (h : 0x100 ≤ offOf q.a) : blockWrite s q = pageWrite s q := if_neg (Nat.not_lt.mpr h)

theorem pageWrite_sched {s : State} {q : RegWrite} (h : blkOf q.a = 0x01) : pageWrite s q = schedWrite s q := by simp [pageWrite, h, hasEv2]
theorem pageWrite_cap {s : State} {q : RegWrite} (h : blkOf q.a = 0x02) : pageWrite s q = capWrite s q := by simp [pageWrite, h, hasEv2]
theorem pageWrite_mem {s : State} {q : RegWrite} (h : blkOf q.a = 0x04) (h1 : offOf q.a ≠ 0x104) (h2 : offOf q.a ≠ 0x108) :
    pageWrite s q = memPageWrite s q := by simp [pageWrite, h, h1, h2]
theorem pageWrite_que {s : State} {q : RegWrite} (h : blkOf q.a = 0x05) : pageWrite s q = quePageWrite s q := by simp [pageWrite, h, hasEv2]
theorem pageWrite_twin {s : State} {q : RegWrite} (h : blkOf q.a = 0x0D) : pageWrite s q = twinWrite s q := by simp [pageWrite, h, hasEv2]
theorem pageWrite_test {s : State} {q : RegWrite} (h : blkOf q.a = 0x0F) : pageWrite s q = testWrite s q := by simp [pageWrite, h, hasEv2]
theorem pageWrite_boot {s : State} {q : RegWrite} (h : blkOf q.a = 0x10) : pageWrite s q = bootWrite s q := by simp [pageWrite, h, hasEv2]
theorem pageWrite_key {s : State} {q : RegWrite} (h : blkOf q.a = 0x11) : pageWrite s q = keyWrite s q := by simp [pageWrite, h, hasEv2]
theorem pageWrite_dbg {s : State} {q : RegWrite} (h : blkOf q.a = 0x13) : pageWrite s q = dbgWrite s q := by simp [pageWrite, h, hasEv2]

theorem off_plain : ∀ a ∈ plainSingles ++ plainHighs, 0x100 ≤ offOf a := by decide

/-- Their pages give them no meaning but that of their fields' access codes (R8, R103). -/
theorem blockWrite_plain (s : State) {q : RegWrite} (h : q.a ∈ plainSingles ++ plainHighs) : blockWrite s q = plainWrite s q := by
  rw [blockWrite_page (off_plain _ h)]
  obtain ⟨a, t, is, v, lo, src⟩ := q
  simp only [plainSingles, plainHighs, List.cons_append, List.nil_append, List.mem_cons, List.not_mem_nil, or_false] at h
  rcases h with rfl | rfl | rfl | rfl | rfl | rfl | rfl | rfl | rfl | rfl | rfl | rfl | rfl
  · exact pageWrite_sched (by decide : blkOf SCHED_SCHED_CFG = 0x01)
  · exact pageWrite_cap (by decide : blkOf CAP_CAP_CFG = 0x02)
  · exact pageWrite_mem (by decide : blkOf MEM_MEM_CFG = 0x04) (by decide : offOf MEM_MEM_CFG ≠ 0x104) (by decide : offOf MEM_MEM_CFG ≠ 0x108)
  · exact pageWrite_que (by decide : blkOf QUE_QSEL = 0x05)
  · exact pageWrite_test (by decide : blkOf TEST_TESTCFG = 0x0F)
  · exact pageWrite_boot (by decide : blkOf BOOT_FLADDR = 0x10)
  · exact pageWrite_twin (by decide : blkOf TWIN_SYNCLEN = 0x0D)
  · exact pageWrite_dbg (by decide : blkOf DBG_TRFILT = 0x13)
  · exact pageWrite_sched (by decide : blkOf SCHED_RECX_ADDR_HI = 0x01)
  · exact pageWrite_twin (by decide : blkOf TWIN_SYNCADDR_HI = 0x0D)
  · exact pageWrite_key (by decide : blkOf KEY_KDESC_HI = 0x11)
  · exact pageWrite_boot (by decide : blkOf BOOT_FLBUF_HI = 0x10)
  · exact pageWrite_boot (by decide : blkOf BOOT_EXTADDR_HI = 0x10)

/-- A write of a register with plain fields is stored; a reserved bit is reported besides (R103). -/
theorem plainWrite_single (s : State) (a : Nat) (t : RegRow) (is : List Nat) (v : W32) (src : Src) :
    plainWrite s { a := a, t := t, is := is, v := v, lo := none, src := src } =
      if v &&& accBits t .rsv = 0 then setReg s a (stored t (reg s a) v)
      else capture (setReg s a (stored t (reg s a) v)) (blkOf a) 2 a (srcReq s src) := by
  by_cases h : v &&& accBits t .rsv = 0 <;> simp [plainWrite, noteReserved, storeWrite, setsReserved, h]

/-- A write of a pair without reserved bits stores both halves (R104). -/
theorem plainWrite_pair (s : State) {a : Nat} {t t' : RegRow} {is is' : List Nat} {v lo : W32} (src : Src) (hr : rowOf (a - 4) = some (t', is'))
    (hv : v &&& accBits t .rsv = 0) (hlo : lo &&& accBits t' .rsv = 0) (ha : a ≠ a - 4) :
    plainWrite s { a := a, t := t, is := is, v := v, lo := some lo, src := src } =
      setReg (setReg s (a - 4) (stored t' (reg s (a - 4)) lo)) a (stored t (reg s a) v) := by
  simp [plainWrite, noteReserved, storeWrite, setsReserved, loRow, loOf, hr, hv, hlo, reg_setReg_ne ha]

theorem wrShadow_putWrShadow (s : State) (a : Nat) (src : Src) (v : Option W32) :
    mget (fun _ => (none : Option W32)) (putWrShadow s a src v).wrShadow (shadowKey a src) = v := mget_mput_same _ _ _ _

theorem writeRow_low (s : State) {a : Nat} {t : RegRow} (h : t.pair = .lo) (is : List Nat) (v : W32) (src : Src) :
    writeRow s a t is v src = putWrShadow s a src (some v) := by simp [writeRow, h]

theorem writeRow_high (s : State) {a : Nat} {t : RegRow} (h : t.pair = .hi) (is : List Nat) (v : W32) (src : Src) :
    writeRow s a t is v src = blockWrite (putWrShadow s (a - 4) src none)
      { a := a, t := t, is := is, v := v, lo := mget (fun _ => (none : Option W32)) s.wrShadow (shadowKey (a - 4) src), src := src } := by
  simp [writeRow, h]

/-- A write of a word, with its row. -/
theorem accWrite_word {s : State} {src : Src} {a : Nat} (h : Open s src a) {t : RegRow} {is : List Nat} (hr : rowOf a = some (t, is)) (v : W32) :
    accWrite s src a v.toNat = writeRow s a t is v src := by
  rw [accWrite_row h hr, BitVec.ofNat_toNat, BitVec.setWidth_eq]

/-! ### Accesses that reach no register -/

/-- An aligned access of the windows that its requester can make. -/
structure Reached (s : State) (src : Src) (a : Nat) : Prop where
  window : inWindows a = true
  reach : reaches s src a = true
  word : a % 4 = 0

theorem accWrite_reached {s : State} {src : Src} {a : Nat} (h : Reached s src a) (v : W32) : accWrite s src a v.toNat = regWrite32 s a v src := by
  simp [accWrite, h.window, h.reach, h.word]

/-- A read that changes nothing and answers 0 leaves its answer alone. -/
theorem accRead_zero {s : State} {src : Src} {a : Nat} (h : Reached s src a) (hz : readWindow s a src = (s, 0)) :
    lastAnswer (accRead s src a) src = 0 ∧ (accRead s src a).regs = s.regs := by
  have e : accRead s src a = { s with answer := mput (fun _ => 0#32) s.answer (reqKey src) 0 } := by
    simp [accRead, h.window, h.reach, h.word, regRead32, hz]
  rw [e]
  exact ⟨lastAnswer_noted s src 0, rfl⟩

/-- Registers of absent instances read 0 (R122). -/
theorem readWindow_absent {s : State} {a : Nat} {t : RegRow} {is : List Nat} (hp : Config.present s.variant (blkOf a) = true)
    (hr : rowOf a = some (t, is)) (ha : absentInst s t is = true) (src : Src) : readWindow s a src = (s, 0) := by
  simp [readWindow, hp, hr, ha]

/-- A reserved offset reads 0 (R102). -/
theorem readWindow_reserved {s : State} {a : Nat} (hp : Config.present s.variant (blkOf a) = true) (hr : rowOf a = none) (src : Src) :
    readWindow s a src = (s, 0) := by simp [readWindow, hp, hr]

/-- And ignores writes. -/
theorem regWrite32_reserved {s : State} {a : Nat} (hp : Config.present s.variant (blkOf a) = true) (hr : rowOf a = none) (v : W32) (src : Src) :
    regWrite32 s a v src = s := by simp [regWrite32, hp, hr]

/-- The codes that the chapters give to writes of absent instances (R122). -/
def absentCodes : List (Nat × Nat) := [(0x01, 0x11), (0x04, 0x12), (0x08, 0x14), (0x0A, 0x12), (0x0E, 0x12)]

theorem absentCode_stated (s : State) {b n : Nat} (h : (b, n) ∈ absentCodes) : absentCode s b = (s, n) := by
  simp only [absentCodes, List.mem_cons, Prod.mk.injEq, List.not_mem_nil, or_false] at h
  rcases h with ⟨rfl, rfl⟩ | ⟨rfl, rfl⟩ | ⟨rfl, rfl⟩ | ⟨rfl, rfl⟩ | ⟨rfl, rfl⟩ <;> rfl

/-- Writes of absent instances are refused with their block's code (R122). -/
theorem regWrite32_absent {s : State} {a n : Nat} {t : RegRow} {is : List Nat} (hp : Config.present s.variant (blkOf a) = true)
    (hr : rowOf a = some (t, is)) (ha : absentInst s t is = true) (hn : (blkOf a, n) ∈ absentCodes) (v : W32) (src : Src) :
    regWrite32 s a v src = capture s (blkOf a) n a (srcReq s src) := by
  simp [regWrite32, hp, hr, ha, absentCode_stated s hn]

/-! ### The statement, clause by clause -/

/-- A read of ERR_CODE answers it and clears it, and no other register (R109). -/
theorem errCodeRead_clears {s : State} {src : Src} {b : Nat} (hb : b < 20) (h : Open s src (ERR_CODE b)) :
    ∃ u, exec (.errCodeRead src b) s = .next u ∧ lastAnswer u src = reg s (ERR_CODE b) ∧ fget u (ERR_CODE_CODE b) = 0 ∧
      fget u (ERR_CODE_COUNT b) = 0 ∧ ∀ x, x ≠ ERR_CODE b → reg u x = reg s x := by
  obtain ⟨hm, hk⟩ := errCode_noTimer b hb
  obtain ⟨hans, hreg, hrest⟩ := accRead_single h (row_errCode b hb) rfl hm hk (liveRead_errCode hb s)
  rw [rcLeft_errRow] at hreg
  refine ⟨_, exec_errCodeRead h.free src hb, hans.trans (errRow_wo _), ?_, ?_, hrest⟩
  · have hlow : bits (0xFFFF0000#32).toNat 7 0 = 0 := by decide
    simp only [fget, ERR_CODE_CODE, hreg, BitVec.toNat_and, bits_and, hlow, Nat.and_zero]
  · have hmid : bits (0xFFFF0000#32).toNat 15 8 = 0 := by decide
    simp only [fget, ERR_CODE_COUNT, hreg, BitVec.toNat_and, bits_and, hmid, Nat.and_zero]

/-- A write of the low half of a pair waits in its requester's shadow (R104). -/
theorem pairLowWrite_waits {s : State} {src : Src} {a : Nat} {t : RegRow} {is : List Nat} (h : Open s src a) (hr : rowOf a = some (t, is))
    (hp : t.pair = .lo) (v : W32) :
    ∃ u, exec (.pairLowWrite src a v) s = .next u ∧
      mget (fun _ => (none : Option W32)) u.wrShadow (shadowKey a src) = some v ∧ u.regs = s.regs := by
  refine ⟨_, exec_pairLowWrite h.free src v ((halfAt_row hr).trans hp), ?_⟩
  rw [accWrite_word h hr, writeRow_low s hp]
  exact ⟨wrShadow_putWrShadow s a src (some v), rfl⟩

/-- A write of the high half stores both halves and empties the shadow (R104). -/
theorem pairHighWrite_stores {s : State} {src : Src} {a : Nat} {t t' : RegRow} {is is' : List Nat} {v lo : W32} (hm : a ∈ plainHighs)
    (h : Open s src a) (hr : rowOf a = some (t, is)) (hr' : rowOf (a - 4) = some (t', is'))
    (hw : mget (fun _ => (none : Option W32)) s.wrShadow (shadowKey (a - 4) src) = some lo) (hv : v &&& accBits t .rsv = 0)
    (hlo : lo &&& accBits t' .rsv = 0) :
    ∃ u, exec (.pairHighWrite src a v) s = .next u ∧ reg u a = stored t (reg s a) v ∧ reg u (a - 4) = stored t' (reg s (a - 4)) lo ∧
      mget (fun _ => (none : Option W32)) u.wrShadow (shadowKey (a - 4) src) = none ∧ ∀ x, x ≠ a → x ≠ a - 4 → reg u x = reg s x := by
  have hhi : halfAt a = .hi := half_plainHighs a hm
  have hne : a ≠ a - 4 := by
    have := h.window
    simp only [inWindows, Bool.and_eq_true, decide_eq_true_eq] at this
    omega
  have hreg (x : Nat) : reg (putWrShadow s (a - 4) src none) x = reg s x := rfl
  refine ⟨_, exec_pairHighWrite h.free src v hhi, ?_⟩
  rw [accWrite_word h hr, writeRow_high s ((halfAt_row hr).symm.trans hhi), hw, blockWrite_plain _ (List.mem_append_right _ hm),
    plainWrite_pair _ src hr' hv hlo hne, hreg, hreg]
  refine ⟨reg_setReg_same _ _ _, ?_, wrShadow_putWrShadow s (a - 4) src none, fun x hx hx' => ?_⟩
  · rw [reg_setReg_ne hne.symm, reg_setReg_same]
  · rw [reg_setReg_ne hx, reg_setReg_ne hx', hreg]

/-- A write of a register with plain fields (R8, R103). -/
theorem registerWrite_plain {s : State} {src : Src} {a : Nat} {t : RegRow} {is : List Nat} (hm : a ∈ plainSingles) (h : Open s src a)
    (hr : rowOf a = some (t, is)) (v : W32) :
    exec (.registerWrite src a v) s = .next (if v &&& accBits t .rsv = 0 then setReg s a (stored t (reg s a) v)
      else capture (setReg s a (stored t (reg s a) v)) (blkOf a) 2 a (srcReq s src)) := by
  have hp : t.pair = .none := (halfAt_row hr).symm.trans (half_plainSingles a hm)
  rw [exec_registerWrite h.free, accWrite_word h hr, writeRow_single hp, blockWrite_plain s (List.mem_append_left _ hm), plainWrite_single]

/-- A read that reaches no register answers 0 and changes no register. -/
theorem rcRead_zero {s : State} {src : Src} {a : Nat} (hf : s.wdr.held = none) (h : Reached s src a) (hz : readWindow s a src = (s, 0)) :
    ∃ u, exec (.rcRead src a) s = .next u ∧ lastAnswer u src = 0 ∧ u.regs = s.regs :=
  ⟨_, exec_rcRead hf src a, accRead_zero h hz⟩

/-- Settles O51: each clause is the read or the write of the one row that the access reaches. -/
theorem registerAccess : Obligations.RegisterAccess := by
  unfold Obligations.RegisterAccess
  intro s src a b n v lo t t' is is' answer plain pairs computed
  have stored_of {u : State} {x : Nat} {i : List Nat} (h : ¬computed u x i) : liveRead u x i = none := Option.not_isSome_iff_eq_none.mp h
  refine ⟨errCodeRead_clears, ?_, ?_, fun h hr hp => pairLowWrite_waits h hr hp v, fun hm h hr hr' hw hv hlo =>
    pairHighWrite_stores hm h hr hr' hw hv hlo, ?_, ?_, ?_⟩
  · intro h hr hp hm hk hl
    exact ⟨_, exec_rcRead h.free src a, accRead_single h hr hp hm hk (stored_of (hl s))⟩
  · intro h hr hp hr' hm hk hl
    exact ⟨_, exec_pairLowRead h.free src ((halfAt_row hr).trans hp),
      accRead_low h hr hp hr' hm hk fun u => ⟨stored_of (hl u).1, stored_of (hl u).2⟩⟩
  · intro hm h hr
    exact ⟨fun hv => ⟨_, registerWrite_plain hm h hr v, if_pos hv⟩, fun hv => ⟨_, registerWrite_plain hm h hr v, if_neg hv⟩⟩
  · intro hf hw hs ha hp hr hi hn
    have h : Reached s src a := ⟨hw, hs, ha⟩
    exact ⟨⟨_, exec_registerWrite hf src a v, (accWrite_reached h v).trans (regWrite32_absent hp hr hi hn v src)⟩,
      rcRead_zero hf h (readWindow_absent hp hr hi src)⟩
  · intro hf hw hs ha hp hr
    have h : Reached s src a := ⟨hw, hs, ha⟩
    exact ⟨⟨_, exec_registerWrite hf src a v, (accWrite_reached h v).trans (regWrite32_reserved hp hr v src)⟩,
      rcRead_zero hf h (readWindow_reserved hp hr src)⟩

end Sys2Proof.Machine
end

section
/-! SUPPORT. Fields of the pages, and which registers an operation may change: what it leaves of every other one (R8, R108). -/

namespace Sys2Proof.Machine

/-! ### Fields -/

/-- Whether setting field `f` leaves field `g` alone: they stand in different registers or share no bit. -/
def fieldsApart (f g : Fld) : Bool :=
  decide (f.lo ≤ f.hi + 1) && decide (f.hi < 32) && (decide (g.addr ≠ f.addr) || decide (g.hi < f.lo) || decide (f.hi < g.lo))

theorem fget_fset_apart {s : State} {f g : Fld} {v : Nat} (h : fieldsApart f g = true) : fget (fset s f v) g = fget s g := by
  simp only [fieldsApart, Bool.and_eq_true, Bool.or_eq_true, decide_eq_true_eq] at h
  obtain ⟨⟨hlo, hhi⟩, (ha | hd) | hd⟩ := h
  · exact fget_fset_reg ha
  · exact fget_fset_ne hlo hhi (.inl hd)
  · exact fget_fset_ne hlo hhi (.inr hd)

theorem fon_fset_apart {s : State} {f g : Fld} {v : Nat} (h : fieldsApart f g = true) : fon (fset s f v) g = fon s g := by
  rw [fon, fget_fset_apart h, fon]

/-- Whether a field is one bit of a register. -/
def oneBit (f : Fld) : Bool := decide (f.hi = f.lo) && decide (f.hi < 32)

/-- A one-bit field just set. -/
theorem fon_fset_bit {s : State} {f : Fld} {b : Bool} (h : oneBit f = true) : fon (fset s f (b2n b)) f = b := by
  simp only [oneBit, Bool.and_eq_true, decide_eq_true_eq] at h
  obtain ⟨hw, hhi⟩ := h
  rw [fon, fget_fset_same (by omega) hhi, show f.hi + 1 - f.lo = 1 by omega]
  cases b <;> rfl

theorem fon_fset_zero {s : State} {f : Fld} (h : oneBit f = true) : fon (fset s f 0) f = false := fon_fset_bit (b := false) h
theorem fon_fset_one {s : State} {f : Fld} (h : oneBit f = true) : fon (fset s f 1) f = true := fon_fset_bit (b := true) h

/-! ### Frames -/

/-- Every register but those listed holds in `t` what it holds in `s`. -/
def KeepsBut (l : List Nat) (s t : State) : Prop := ∀ a, a ∉ l → reg t a = reg s a

theorem keepsBut_refl (l : List Nat) (s : State) : KeepsBut l s s := fun _ _ => rfl

theorem KeepsBut.trans {l m : List Nat} {s t u : State} (h : KeepsBut l s t) (k : KeepsBut m t u) : KeepsBut (l ++ m) s u := fun a ha =>
  (k a fun hm => ha (List.mem_append_right l hm)).trans (h a fun hl => ha (List.mem_append_left m hl))

theorem KeepsBut.mono {l m : List Nat} {s t : State} (h : KeepsBut l s t) (hs : ∀ a ∈ l, a ∈ m) : KeepsBut m s t := fun a ha =>
  h a fun hl => ha (hs a hl)

theorem KeepsBut.fget {l : List Nat} {s t : State} (h : KeepsBut l s t) {f : Fld} (hf : f.addr ∉ l) : fget t f = Machine.fget s f := by
  rw [Machine.fget, h f.addr hf, Machine.fget]

theorem KeepsBut.fon {l : List Nat} {s t : State} (h : KeepsBut l s t) {f : Fld} (hf : f.addr ∉ l) : fon t f = Machine.fon s f := by
  rw [Machine.fon, h.fget hf, Machine.fon]

theorem setReg_keeps (s : State) (a : Nat) (v : W32) : KeepsBut [a] s (setReg s a v) := fun _ hx =>
  reg_setReg_ne fun e => hx (e ▸ List.mem_singleton_self a)

theorem fset_keeps (s : State) (f : Fld) (v : Nat) : KeepsBut [f.addr] s (fset s f v) := setReg_keeps s _ _

/-- Fields set in turn: the list of their registers. -/
theorem foldl_fset_keeps (f : Nat → Fld) (v : Nat) (l : List Nat) (s : State) :
    KeepsBut (l.map fun n => (f n).addr) s (l.foldl (fun st n => fset st (f n) v) s) := by
  induction l generalizing s with
  | nil => exact keepsBut_refl _ s
  | cons n r ih => exact (fset_keeps s (f n) v).trans (ih _)

theorem foldl_fset_only (f : Nat → Fld) (v : Nat) (l : List Nat) (s : State) :
    PagesOnly s (l.foldl (fun st n => fset st (f n) v) s) := by
  induction l generalizing s with
  | nil => exact pagesOnly_refl s
  | cons n r ih => exact pagesOnly_trans (fset_only s (f n) v) (ih _)

/-- One-bit fields of different registers cleared in turn are clear. -/
theorem fon_foldl_fset_zero {f : Nat → Fld} {k : Nat} (hf : oneBit (f k) = true) (hinj : ∀ n, (f n).addr = (f k).addr → n = k)
    (l : List Nat) (s : State) (h : k ∈ l ∨ fon s (f k) = false) : fon (l.foldl (fun st n => fset st (f n) 0) s) (f k) = false := by
  induction l generalizing s with
  | nil => exact h.resolve_left List.not_mem_nil
  | cons n r ih =>
    refine ih (fset s (f n) 0) ?_
    by_cases e : n = k
    · rw [e]; exact .inr (fon_fset_zero hf)
    · refine h.imp (fun hk => ?_) (fun hs => ?_)
      · exact (List.mem_cons.mp hk).resolve_left (Ne.symm e)
      · rw [fon, fget_fset_reg fun ha => e (hinj n ha.symm)]; exact hs

end Sys2Proof.Machine
end

section
/-! SUPPORT. The bridge to the field die, the field supplies and the authority pins: what each operation leaves of the registers, and what
it gives those it is for (R118, R421, R422, R427, R438–R440, R443). -/

namespace Sys2Proof.Machine

/-! ### The front end's operations -/

/-- The registers that report an event below 32 of the front end (R108, R345). -/
def measReports : List Nat := [EV_RAW 9, EV_PENDING 9, EVT_PEND 20]

theorem evtOccur_keeps (s : State) (n : Nat) : KeepsBut [EVT_PEND (n / 32)] s (evtOccur s n) := by
  unfold evtOccur
  split
  · exact keepsBut_refl _ s
  · exact setReg_keeps s _ _

theorem raise_meas_keeps {k : Nat} (hk : k < 32) (s : State) : KeepsBut measReports s (raise s 9 k) := by
  have hraw : KeepsBut [EV_RAW 9] s (setRegBit s (EV_RAW 9) k) := setReg_keeps s _ _
  have hocc (u : State) : KeepsBut [EVT_PEND 20] u (evtOccur u (firstSource 9 + k)) := by
    have hsrc : (firstSource 9 + k) / 32 = 20 := by
      have : firstSource 9 = 640 := rfl
      omega
    exact hsrc ▸ evtOccur_keeps u _
  unfold raise evRegs
  rw [if_pos hk]
  dsimp only
  split
  · split
    · exact (hraw.trans (setReg_keeps _ (EV_PENDING 9) _)).trans (hocc _)
    · exact hraw.mono (by decide)
  · exact keepsBut_refl _ s

theorem clearOuten_keeps (s : State) : KeepsBut [MEAS_OUTEN0, MEAS_OUTEN1] s (clearOuten s) :=
  (setReg_keeps s MEAS_OUTEN0 0).trans (setReg_keeps _ MEAS_OUTEN1 0)

theorem clearOuten_outputs (s : State) : reg (clearOuten s) MEAS_OUTEN0 = 0 ∧ reg (clearOuten s) MEAS_OUTEN1 = 0 := by
  refine ⟨?_, reg_setReg_same _ _ _⟩
  rw [clearOuten, reg_setReg_ne (by decide), reg_setReg_same]

/-- The registers that the fall of DRIVE may change. -/
def dropRegs : List Nat := [MEAS_AUTHSTAT, MEAS_OUTEN0, MEAS_OUTEN1] ++ measReports

theorem driveFall_keeps (s : State) : KeepsBut dropRegs s (driveFall s) := by
  unfold driveFall
  split
  · have hpins := (fset_keeps s MEAS_AUTHSTAT_DRIVE 0).trans (fset_keeps _ MEAS_AUTHSTAT_DROP 1)
    exact ((hpins.trans (clearOuten_keeps _)).trans (raise_meas_keeps (by decide) _)).mono (by decide)
  · exact keepsBut_refl _ s

/-- A field of AUTHSTAT beside DRIVE and DROP. -/
theorem fon_driveFall {f : Fld} (hr : f.addr ∉ [MEAS_OUTEN0, MEAS_OUTEN1] ++ measReports) (hd : fieldsApart MEAS_AUTHSTAT_DRIVE f = true)
    (hp : fieldsApart MEAS_AUTHSTAT_DROP f = true) (s : State) : fon (driveFall s) f = fon s f := by
  unfold driveFall
  split
  · rw [((clearOuten_keeps _).trans (raise_meas_keeps (by decide) _)).fon hr, fon_fset_apart hp, fon_fset_apart hd]
  · rfl

theorem driveFall_drive (s : State) : fon (driveFall s) MEAS_AUTHSTAT_DRIVE = false := by
  unfold driveFall
  split
  · rw [((clearOuten_keeps _).trans (raise_meas_keeps (by decide) _)).fon (by decide), fon_fset_apart (by decide), fon_fset_zero (by decide)]
  · next h => exact eq_false_of_ne_true h

theorem endClaim_keeps (s : State) : KeepsBut dropRegs s (endClaim s) :=
  ((fset_keeps s MEAS_AUTHSTAT_CLAIM 0).trans (driveFall_keeps _)).mono (by decide)

theorem endClaim_pins (s : State) : fon (endClaim s) MEAS_AUTHSTAT_CLAIM = false ∧ fon (endClaim s) MEAS_AUTHSTAT_DRIVE = false := by
  refine ⟨?_, driveFall_drive _⟩
  rw [endClaim, fon_driveFall (by decide) (by decide) (by decide), fon_fset_zero (by decide)]

theorem startClaim_keeps (s : State) : KeepsBut [MEAS_AUTHSTAT] s (startClaim s) := by
  unfold startClaim
  split
  · exact fset_keeps s MEAS_AUTHSTAT_CLAIM 1
  · exact keepsBut_refl _ s

/-- A claim begins when LINE = 1, the twin does not claim, and bridge and supplies are good (R443). -/
theorem startClaim_claim (s : State) : fon (startClaim s) MEAS_AUTHSTAT_CLAIM =
    (fon s MEAS_AUTHSTAT_CLAIM || (fon s MEAS_AUTHSTAT_LINE && !fon s MEAS_AUTHSTAT_TWINCL && bridgeUp s && fieldGood s)) := by
  unfold startClaim
  split
  · next h => rw [fon_fset_one (by decide), h, Bool.or_true]
  · next h => rw [eq_false_of_ne_true h, Bool.or_false]

theorem fon_startClaim {f : Fld} (h : fieldsApart MEAS_AUTHSTAT_CLAIM f = true) (s : State) : fon (startClaim s) f = fon s f := by
  unfold startClaim
  split
  · exact fon_fset_apart h
  · rfl

theorem startClaim_regs (s : State) : startClaim s = { s with regs := (startClaim s).regs } := by
  unfold startClaim
  split <;> rfl

theorem measFault_keeps (s : State) : KeepsBut [STATE 9] s (measFault s) := by
  unfold measFault
  split
  · exact fset_keeps s (STATE_STATE 9) 4
  · exact keepsBut_refl _ s

/-- RUNNING and DRAINING end in FAULT (R118). -/
theorem blkState_measFault {s : State} (h : blkState s 9 = 1 ∨ blkState s 9 = 2) : blkState (measFault s) 9 = 4 := by
  unfold measFault
  rw [if_pos h]
  change fget (fset s (STATE_STATE 9) 4) (STATE_STATE 9) = 4
  rw [fget_fset_same (by decide) (by decide)]
  rfl

/-- Its accepted triggers are discarded (R448). -/
theorem trigs_measFault (s : State) : ∀ x ∈ (measFault s).meas.chans, x.trigs = [] := by
  intro x hx
  obtain ⟨y, -, rfl⟩ := List.mem_map.mp hx
  rfl

/-- The registers of the measurement results. -/
def resultRegs : List Nat := (upTo 16).map MEAS_MRES

theorem invalidResults_keeps (s : State) : KeepsBut resultRegs s (invalidResults s) := foldl_fset_keeps MEAS_MRES_VALID 0 _ s

theorem invalidResults_meas (s : State) : (invalidResults s).meas = s.meas := by
  have h : PagesOnly s (invalidResults s) := foldl_fset_only MEAS_MRES_VALID 0 _ s
  rw [h]

theorem invalidResults_valid {j : Nat} (hj : j < 16) (s : State) : fon (invalidResults s) (MEAS_MRES_VALID j) = false := by
  have hinj : ∀ n, MEAS_MRES n = MEAS_MRES j → n = j := by intro n; unfold MEAS_MRES; omega
  exact fon_foldl_fset_zero rfl hinj _ s (.inl (List.mem_range.mpr hj))

/-! ### The field-die part -/

theorem mfind_filter {α : Type} (p : Nat → Bool) (l : SMap α) (k : Nat) :
    mfind (l.filter fun q => p q.1) k = if p k then mfind l k else none := by
  induction l with
  | nil => simp [mfind]
  | cons q r ih =>
    obtain ⟨a, w⟩ := q
    by_cases hp : p a = true <;> by_cases ha : a = k
    · subst ha; simp [mfind, hp]
    · simp [mfind, hp, ha, ih]
    · subst ha; simp [hp, ih]
    · simp [mfind, hp, ha, ih]

/-- Whether an address lies in the field-die part of the page. -/
def onFieldDie (a : Nat) : Bool := decide (0xE0901000 ≤ a) && decide (a < 0xE0902000)

/-- A reset of the field die gives its registers their reset values and leaves every other register alone (R422). -/
theorem reg_resetFieldPart (s : State) (a : Nat) : reg (resetFieldPart s) a = if onFieldDie a then regReset s.variant a else reg s a := by
  have h : mfind (resetFieldPart s).regs a = if !onFieldDie a then mfind s.regs a else none :=
    mfind_filter (fun x => !onFieldDie x) s.regs a
  unfold reg mget
  rw [h]
  cases onFieldDie a <;> rfl

theorem regReset_outen (v : Variant) : regReset v MEAS_OUTEN0 = 0 ∧ regReset v MEAS_OUTEN1 = 0 := by
  cases v <;> decide

/-! ### The commands -/

theorem exec_bridgeFrame {s : State} (h : s.wdr.held = none) (hd : Config.fieldDie s.variant = true) (ok : Bool) :
    exec (.bridgeFrame ok) s = .next (bridgeFrame s ok) := by
  have e : exec (.bridgeFrame ok) s = act s (fun s => given (Config.fieldDie s.variant) s (fun s => bridgeFrame s ok)) := rfl
  rw [e, act_free h, given_true hd]

theorem exec_bridgeLoss {s : State} (h : s.wdr.held = none) (hd : Config.fieldDie s.variant = true) :
    exec .bridgeLoss s = .next (bridgeLoss s) := by
  have e : exec .bridgeLoss s = act s (fun s => given (Config.fieldDie s.variant) s (fun s => bridgeLoss s)) := rfl
  rw [e, act_free h, given_true hd]

theorem exec_fieldSupplyFault {s : State} (h : s.wdr.held = none) (hd : Config.fieldDie s.variant = true) :
    exec .fieldSupplyFault s = .next (supplyFault s) := by
  have e : exec .fieldSupplyFault s = act s (fun s => given (Config.fieldDie s.variant) s (fun s => supplyFault s)) := rfl
  rw [e, act_free h, given_true hd]

theorem exec_fieldSupplyRecovery {s : State} (h : s.wdr.held = none) (hd : Config.fieldDie s.variant = true) (pri : Bool) :
    exec (.fieldSupplyRecovery pri) s = .next (supplyRecovery s pri) := by
  have e : exec (.fieldSupplyRecovery pri) s = act s (fun s => given (Config.fieldDie s.variant) s (fun s => supplyRecovery s pri)) := rfl
  rw [e, act_free h, given_true hd]

theorem exec_fieldRegisterAccess {s : State} (h : s.wdr.held = none) (hd : Config.fieldDie s.variant = true) (n : Nat) (store : Bool) :
    exec (.fieldRegisterAccess n store) s = .next (if store then fieldStore s n else fieldAnswer s n) := by
  have e : exec (.fieldRegisterAccess n store) s =
      act s (fun s => given (Config.fieldDie s.variant) s (fun s => if store then fieldStore s n else fieldAnswer s n)) := rfl
  rw [e, act_free h, given_true hd]

/-! ### Bridge frames -/

theorem bridgeFrame_good {s : State} (hd : Config.fieldDie s.variant = true) :
    bridgeFrame s true = startClaim (fset s MEAS_BRSTAT_UP 1) := by simp [bridgeFrame, hd]

theorem bridgeFrame_bad {s : State} (hd : Config.fieldDie s.variant = true) : bridgeFrame s false = countUp s MEAS_BRERR_CNT := by
  simp [bridgeFrame, hd]

/-- A good frame brings the bridge up, and a claim that waited for it begins (R421, R443). -/
theorem bridgeUp_goodFrame (s : State) : bridgeUp (startClaim (fset s MEAS_BRSTAT_UP 1)) = true := by
  rw [bridgeUp, fon_startClaim (by decide), fon_fset_one (by decide)]

theorem claim_goodFrame (s : State) : fon (startClaim (fset s MEAS_BRSTAT_UP 1)) MEAS_AUTHSTAT_CLAIM =
    (fon s MEAS_AUTHSTAT_CLAIM || (fon s MEAS_AUTHSTAT_LINE && !fon s MEAS_AUTHSTAT_TWINCL && fieldGood s)) := by
  have hup : bridgeUp (fset s MEAS_BRSTAT_UP 1) = true := fon_fset_one (by decide)
  have hgood : fieldGood (fset s MEAS_BRSTAT_UP 1) = fieldGood s := fon_fset_apart (by decide)
  rw [startClaim_claim, hup, hgood, Bool.and_true, fon_fset_apart (by decide), fon_fset_apart (by decide), fon_fset_apart (by decide)]

theorem goodFrame_keeps (s : State) : KeepsBut [MEAS_BRSTAT, MEAS_AUTHSTAT] s (startClaim (fset s MEAS_BRSTAT_UP 1)) :=
  (fset_keeps s MEAS_BRSTAT_UP 1).trans (startClaim_keeps _)

/-- A field set before the registers are replaced does not show. -/
theorem fset_withRegs (s : State) (f : Fld) (v : Nat) (m : SMap W32) : ({ fset s f v with regs := m } : State) = { s with regs := m } := rfl

theorem goodFrame_regs (s : State) :
    startClaim (fset s MEAS_BRSTAT_UP 1) = { s with regs := (startClaim (fset s MEAS_BRSTAT_UP 1)).regs } :=
  (startClaim_regs _).trans (fset_withRegs s _ _ _)

/-! ### Loss of the bridge -/

/-- The bridge noted as down and its loss counted (R421). -/
def bridgeDown (s : State) : State := fcount (raise (fset s MEAS_BRSTAT_UP 0) 9 0) MEAS_BRSTAT_DOWNN 1

theorem bridgeLoss_up {s : State} (h : bridgeUp s = true) :
    bridgeLoss s = invalidResults (measFault (clearOuten (endClaim (bridgeDown s)))) := if_pos h

theorem bridgeDown_keeps (s : State) : KeepsBut ([MEAS_BRSTAT] ++ measReports ++ [MEAS_BRSTAT]) s (bridgeDown s) :=
  ((fset_keeps s MEAS_BRSTAT_UP 0).trans (raise_meas_keeps (by decide) _)).trans (fset_keeps _ MEAS_BRSTAT_DOWNN _)

theorem bridgeUp_bridgeDown (s : State) : bridgeUp (bridgeDown s) = false := by
  rw [bridgeUp, bridgeDown, fcount, fon_fset_apart (by decide), (raise_meas_keeps (by decide) _).fon (by decide), fon_fset_zero (by decide)]

theorem downn_bridgeDown (s : State) : fget (bridgeDown s) MEAS_BRSTAT_DOWNN = min (fget s MEAS_BRSTAT_DOWNN + 1) 65535 := by
  have hold : fget (raise (fset s MEAS_BRSTAT_UP 0) 9 0) MEAS_BRSTAT_DOWNN = fget s MEAS_BRSTAT_DOWNN := by
    rw [(raise_meas_keeps (by decide) _).fget (by decide), fget_fset_apart (by decide)]
  rw [bridgeDown, fcount, fget_fset_same (by decide) (by decide), hold]
  change min (fget s MEAS_BRSTAT_DOWNN + 1) 65535 % 65536 = _
  omega

/-- What the loss does after the bridge is noted as down leaves BRSTAT alone. -/
theorem bridgeLoss_tail_keeps (u : State) : KeepsBut (dropRegs ++ [MEAS_OUTEN0, MEAS_OUTEN1] ++ [STATE 9] ++ resultRegs) u
    (invalidResults (measFault (clearOuten (endClaim u)))) :=
  (((endClaim_keeps u).trans (clearOuten_keeps _)).trans (measFault_keeps _)).trans (invalidResults_keeps _)

/-- Marking the results and faulting the block leave the outputs and the pins alone. -/
theorem faultResults_keeps (u : State) : KeepsBut ([STATE 9] ++ resultRegs) u (invalidResults (measFault u)) :=
  (measFault_keeps u).trans (invalidResults_keeps _)

theorem bridgeLoss_brstat {s : State} (h : bridgeUp s = true) : bridgeUp (bridgeLoss s) = false ∧
    fget (bridgeLoss s) MEAS_BRSTAT_DOWNN = min (fget s MEAS_BRSTAT_DOWNN + 1) 65535 := by
  rw [bridgeLoss_up h]
  refine ⟨?_, ?_⟩
  · rw [bridgeUp, (bridgeLoss_tail_keeps _).fon (by decide)]; exact bridgeUp_bridgeDown s
  · rw [(bridgeLoss_tail_keeps _).fget (by decide), downn_bridgeDown]

theorem bridgeLoss_outputs {s : State} (h : bridgeUp s = true) :
    reg (bridgeLoss s) MEAS_OUTEN0 = 0 ∧ reg (bridgeLoss s) MEAS_OUTEN1 = 0 := by
  rw [bridgeLoss_up h, faultResults_keeps _ _ (by decide), faultResults_keeps _ _ (by decide)]
  exact clearOuten_outputs _

theorem bridgeLoss_pins {s : State} (h : bridgeUp s = true) :
    fon (bridgeLoss s) MEAS_AUTHSTAT_CLAIM = false ∧ fon (bridgeLoss s) MEAS_AUTHSTAT_DRIVE = false := by
  have hk (u : State) := (clearOuten_keeps u).trans (faultResults_keeps (clearOuten u))
  rw [bridgeLoss_up h, (hk _).fon (by decide), (hk _).fon (by decide)]
  exact endClaim_pins _

theorem bridgeLoss_state {s : State} (h : bridgeUp s = true) (hs : blkState s 9 = 1 ∨ blkState s 9 = 2) : blkState (bridgeLoss s) 9 = 4 := by
  have hst : blkState (clearOuten (endClaim (bridgeDown s))) 9 = blkState s 9 :=
    (((bridgeDown_keeps s).trans (endClaim_keeps _)).trans (clearOuten_keeps _)).fget (by decide)
  rw [bridgeLoss_up h, blkState, (invalidResults_keeps _).fget (by decide)]
  refine blkState_measFault ?_
  rw [hst]
  exact hs

theorem bridgeLoss_measurements {s : State} (h : bridgeUp s = true) :
    (∀ j < 16, fon (bridgeLoss s) (MEAS_MRES_VALID j) = false) ∧ ∀ x ∈ (bridgeLoss s).meas.chans, x.trigs = [] := by
  rw [bridgeLoss_up h]
  refine ⟨fun j hj => invalidResults_valid hj _, ?_⟩
  rw [invalidResults_meas]
  exact trigs_measFault _

/-! ### The field supplies -/

theorem supplyFault_good {s : State} (h : fieldGood s = true) :
    supplyFault s = measFault (raise (resetFieldPart (endClaim (fset s MEAS_BRSTAT_FSUP 0))) 9 1) := if_pos h

/-- What a supply fault does after the reset of the field die. -/
theorem supplyFault_tail_keeps (u : State) : KeepsBut (measReports ++ [STATE 9]) u (measFault (raise u 9 1)) :=
  (raise_meas_keeps (by decide) u).trans (measFault_keeps _)

/-- A register outside the field-die part is not reset with it. -/
theorem fon_resetFieldPart {f : Fld} (h : onFieldDie f.addr = false) (s : State) : fon (resetFieldPart s) f = fon s f := by
  simp [fon, fget, reg_resetFieldPart, h]

theorem supplyFault_supply {s : State} (h : fieldGood s = true) : fieldGood (supplyFault s) = false := by
  rw [supplyFault_good h, fieldGood, (supplyFault_tail_keeps _).fon (by decide), fon_resetFieldPart (by decide),
    (endClaim_keeps _).fon (by decide), fon_fset_zero (by decide)]

theorem supplyFault_pins {s : State} (h : fieldGood s = true) :
    fon (supplyFault s) MEAS_AUTHSTAT_DRIVE = false ∧ fon (supplyFault s) MEAS_AUTHSTAT_CLAIM = false := by
  rw [supplyFault_good h, (supplyFault_tail_keeps _).fon (by decide), (supplyFault_tail_keeps _).fon (by decide),
    fon_resetFieldPart (by decide), fon_resetFieldPart (by decide)]
  exact (endClaim_pins _).symm

theorem supplyFault_outputs {s : State} (h : fieldGood s = true) :
    reg (supplyFault s) MEAS_OUTEN0 = 0 ∧ reg (supplyFault s) MEAS_OUTEN1 = 0 := by
  rw [supplyFault_good h, supplyFault_tail_keeps _ _ (by decide), supplyFault_tail_keeps _ _ (by decide), reg_resetFieldPart,
    reg_resetFieldPart, if_pos (by decide), if_pos (by decide)]
  exact regReset_outen _

theorem supplyFault_state {s : State} (h : fieldGood s = true) (hs : blkState s 9 = 1 ∨ blkState s 9 = 2) :
    blkState (supplyFault s) 9 = 4 := by
  have hdie : blkState (resetFieldPart (endClaim (fset s MEAS_BRSTAT_FSUP 0))) 9 = blkState s 9 := by
    rw [blkState, fget, reg_resetFieldPart, if_neg (by decide), ← fget,
      ((fset_keeps s MEAS_BRSTAT_FSUP 0).trans (endClaim_keeps _)).fget (by decide), blkState]
  have hst : blkState (raise (resetFieldPart (endClaim (fset s MEAS_BRSTAT_FSUP 0))) 9 1) 9 = blkState s 9 :=
    ((raise_meas_keeps (by decide) _).fget (by decide)).trans hdie
  rw [supplyFault_good h]
  refine blkState_measFault ?_
  rw [hst]
  exact hs

/-- Without the field supplies every output is in high impedance (R422). -/
theorem outputs_unpowered {s : State} (h : fieldGood s = false) (j : Nat) : doLevel s j = .hiZ ∧ aoLevel s j = none := by
  simp [doLevel, aoLevel, h]

/-- The supplies noted as good and AUTH_PRI sampled (R440, R586). -/
def supplyBack (s : State) (pri : Bool) : State := fset (fset s MEAS_BRSTAT_FSUP 1) MEAS_AUTHSTAT_PRI (b2n pri)

theorem supplyRecovery_bad {s : State} (hd : Config.fieldDie s.variant = true) (h : fieldGood s = false) (pri : Bool) :
    supplyRecovery s pri = startClaim (supplyBack s pri) := by simp [supplyRecovery, hd, h, supplyBack]

theorem fieldGood_supplyBack (s : State) (pri : Bool) : fieldGood (supplyBack s pri) = true := by
  rw [fieldGood, supplyBack, fon_fset_apart (by decide), fon_fset_one (by decide)]

theorem fon_supplyBack {f : Fld} (hp : fieldsApart MEAS_AUTHSTAT_PRI f = true) (hf : fieldsApart MEAS_BRSTAT_FSUP f = true) (s : State)
    (pri : Bool) : fon (supplyBack s pri) f = fon s f := by
  rw [supplyBack, fon_fset_apart hp, fon_fset_apart hf]

theorem supplyRecovery_supply (s : State) (pri : Bool) : fieldGood (startClaim (supplyBack s pri)) = true := by
  rw [fieldGood, fon_startClaim (by decide)]
  exact fieldGood_supplyBack s pri

theorem supplyRecovery_pri (s : State) (pri : Bool) : fon (startClaim (supplyBack s pri)) MEAS_AUTHSTAT_PRI = pri := by
  rw [fon_startClaim (by decide), supplyBack, fon_fset_bit (by decide)]

/-- With the supplies back a claim that waited for them begins (R443). -/
theorem supplyRecovery_claim (s : State) (pri : Bool) : fon (startClaim (supplyBack s pri)) MEAS_AUTHSTAT_CLAIM =
    (fon s MEAS_AUTHSTAT_CLAIM || (fon s MEAS_AUTHSTAT_LINE && !fon s MEAS_AUTHSTAT_TWINCL && bridgeUp s)) := by
  have hup : bridgeUp (supplyBack s pri) = bridgeUp s := fon_supplyBack (by decide) (by decide) s pri
  rw [startClaim_claim, fieldGood_supplyBack, hup, Bool.and_true, fon_supplyBack (by decide) (by decide),
    fon_supplyBack (by decide) (by decide), fon_supplyBack (by decide) (by decide)]

theorem supplyRecovery_only (s : State) (pri : Bool) : PagesOnly s (startClaim (supplyBack s pri)) := by
  have hback : PagesOnly s (supplyBack s pri) := pagesOnly_trans (fset_only s _ _) (fset_only _ _ _)
  unfold startClaim
  split
  · exact pagesOnly_trans hback (fset_only _ _ _)
  · exact hback

end Sys2Proof.Machine
end

section
/-! SUPPORT. Accesses to registers leave the cores alone: every read, and a write of the field-die part (R101–R104, R420). -/

namespace Sys2Proof.Machine

/-! ### Reads -/

theorem cores_raise (s : State) (b k : Nat) : (raise s b k).cores = s.cores := (raise_only s b k).cores
theorem cores_capture (s : State) (b code addr : Nat) (r : Requester) : (capture s b code addr r).cores = s.cores :=
  (capture_only s b code addr r).cores

/-- Of two states with the same cores, whichever is taken. -/
theorem cores_ite {c : Prop} [Decidable c] {s t u : State} (ht : t.cores = s.cores) (hu : u.cores = s.cores) :
    (if c then t else u).cores = s.cores := by
  split
  · exact ht
  · exact hu

theorem cores_fset (s : State) (f : Fld) (v : Nat) : (fset s f v).cores = s.cores := rfl
theorem cores_setPair (s : State) (lo hi v : Nat) : (setPair s lo hi v).cores = s.cores := rfl
theorem cores_updChan (s : State) (n : Nat) (f : ChanS → ChanS) : (updChan s n f).cores = s.cores := rfl
theorem cores_updEnc (s : State) (e : Nat) (f : EncS → EncS) : (updEnc s e f).cores = s.cores := rfl

/-- Registers set in turn. -/
theorem cores_foldl_setReg (a : Nat → Nat) (v : Nat → W32) (l : List Nat) (s : State) :
    (l.foldl (fun st k => setReg st (a k) (v k)) s).cores = s.cores := by
  induction l generalizing s with
  | nil => rfl
  | cons k r ih => exact (ih _).trans (setReg_cores s (a k) (v k))

theorem cores_encstatRead (s : State) (e : Nat) : (encstatRead s e).1.cores = s.cores := by
  unfold encstatRead
  split <;> rfl

theorem cores_trngRead (s : State) : (trngRead s).1.cores = s.cores := by
  unfold trngRead
  split <;> rfl

theorem cores_challengeRead (s : State) : (challengeRead s).1.cores = s.cores :=
  cores_ite rfl (cores_foldl_setReg KEY_DUCHAL (fun k => Config.random (s.free + k)) (upTo 4) s)

theorem cores_cwdLeft (s : State) : (cwdLeft s).1.cores = s.cores := by
  unfold cwdLeft
  dsimp only
  split <;> rfl

theorem cores_trdata (s : State) (k : Nat) : (trdata s k).1.cores = s.cores := cores_ite rfl rfl

/-- What a read answers, if it answers, it answers with the cores of `s`. -/
def Spares (s : State) (o : Option (State × W32)) : Prop := ∀ r, o = some r → r.1.cores = s.cores

theorem spares_none (s : State) : Spares s none := fun _ h => nomatch h
theorem spares_some {s : State} {r : State × W32} (h : r.1.cores = s.cores) : Spares s (some r) := fun _ e => Option.some.inj e ▸ h
theorem spares_same (s : State) (w : W32) : Spares s (some (s, w)) := spares_some rfl
theorem spares_ite {c : Prop} [Decidable c] {s : State} {o p : Option (State × W32)} (ho : Spares s o) (hp : Spares s p) :
    Spares s (if c then o else p) := by
  split
  · exact ho
  · exact hp

/-- A computed register is computed from the state, or draws free values. -/
theorem spares_liveRead (s : State) (a : Nat) (is : List Nat) : Spares s (liveRead s a is) := by
  have hno := spares_none s
  have hsame (w : W32) := spares_same s w
  unfold liveRead
  refine spares_ite (hsame _) ?_
  split
  · exact spares_ite (hsame _) (spares_ite (hsame _) (spares_ite (hsame _) hno))
  · exact spares_ite (hsame _) hno
  · exact spares_ite (hsame _) hno
  · exact spares_ite (hsame _) hno
  · exact spares_ite (spares_some rfl) (spares_ite (spares_some (cores_encstatRead s _)) hno)
  · exact spares_ite (hsame _) hno
  · exact spares_ite (hsame _) (spares_ite (hsame _) hno)
  · exact spares_ite (hsame _) hno
  · exact spares_ite (spares_some (cores_trngRead s)) (spares_ite (spares_some (cores_challengeRead s)) hno)
  · exact spares_ite (spares_some (cores_cwdLeft s)) hno
  · exact spares_ite (hsame _) (spares_ite (hsame _) (spares_ite (spares_some (cores_trdata s _)) hno))
  · exact hno

theorem cores_pageRead (s : State) (a : Nat) (t : RegRow) (is : List Nat) : (pageRead s a t is).1.cores = s.cores := by
  unfold pageRead
  split
  · next r h => exact spares_liveRead s a is r h
  · rfl

theorem cores_highHalf (s : State) (a : Nat) : (highHalf s a).1.cores = s.cores := by
  unfold highHalf
  split
  · exact cores_pageRead s a _ _
  · rfl

theorem cores_readRow (s : State) (a : Nat) (t : RegRow) (is : List Nat) (src : Src) : (readRow s a t is src).1.cores = s.cores := by
  unfold readRow
  split
  · rfl
  split
  · rfl
  split
  · exact cores_pageRead s a t is
  · rfl
  · exact (cores_highHalf _ _).trans (cores_pageRead s a t is)

theorem cores_readWindow (s : State) (a : Nat) (src : Src) : (readWindow s a src).1.cores = s.cores := by
  unfold readWindow
  split
  · rfl
  split
  · rfl
  split
  · rfl
  split
  · exact cores_capture s _ _ _ _
  split
  · exact cores_capture s _ _ _ _
  · exact cores_readRow s a _ _ src

theorem cores_regRead32 (s : State) (a : Nat) (src : Src) : (regRead32 s a src).1.cores = s.cores := by
  have h := cores_readWindow s a src
  unfold regRead32
  generalize readWindow s a src = q at h
  exact h

/-! ### Writes of the field-die part -/

theorem cores_noteReserved (s : State) (q : RegWrite) : (noteReserved s q).cores = s.cores := cores_ite (cores_capture s _ _ _ _) rfl

theorem cores_storeWrite (s : State) (q : RegWrite) : (storeWrite s q).cores = s.cores := by
  unfold storeWrite
  dsimp only
  split <;> rfl

theorem cores_plainWrite (s : State) (q : RegWrite) : (plainWrite s q).cores = s.cores :=
  (cores_noteReserved _ q).trans (cores_storeWrite s q)

theorem cores_reject (s : State) (q : RegWrite) (code : Nat) : (reject s q code).cores = s.cores := cores_capture s _ _ _ _

theorem cores_checkedWrite (s : State) (q : RegWrite) (code : Nat) : (checkedWrite s q code).cores = s.cores :=
  cores_ite (cores_plainWrite s q) (cores_reject s q code)

theorem cores_commandLevels (s : State) (f : W32 → W32) : (commandLevels s f).cores = s.cores := cores_ite rfl rfl

theorem cores_trigList (t : Nat) (l : List Nat) (s : State) : (trigList t l s).1.cores = s.cores := by
  induction l generalizing s with
  | nil => rfl
  | cons n r ih =>
    have hchan : (trigChan s n t).1.cores = s.cores := by
      unfold trigChan
      dsimp only
      split
      · rfl
      split
      · exact cores_raise s 9 5
      · rfl
    exact (ih _).trans hchan

theorem cores_trigger (s : State) (mask t : Nat) : (trigger s mask t).1.cores = s.cores := by
  unfold trigger
  split
  · rfl
  · exact cores_trigList t _ s

/-- A write of a channel's configuration may discard its triggers. -/
theorem cores_chanWrite (s : State) (q : RegWrite) (n : Nat) (c d : Prop) [Decidable c] [Decidable d] (f g : ChanS → ChanS) :
    (if c then updChan (plainWrite s q) n f else if d then updChan (plainWrite s q) n g else plainWrite s q).cores = s.cores := by
  refine cores_ite ?_ (cores_ite ?_ (cores_plainWrite s q)) <;> rw [cores_updChan, cores_plainWrite]

theorem cores_fieldWrite (s : State) (q : RegWrite) : (fieldWrite s q).cores = s.cores := by
  have hchecked (code : Nat) := cores_checkedWrite s q code
  have hlevels (f : W32 → W32) := cores_commandLevels s f
  unfold fieldWrite
  dsimp only
  refine cores_ite (cores_ite (cores_reject s q _) (cores_chanWrite s q _ _ _ _ _)) ?_
  refine cores_ite (cores_ite ?_ (hchecked _)) ?_
  · rw [cores_fset, cores_setPair, cores_updEnc, hchecked]
  refine cores_ite (hlevels _) (cores_ite (hlevels _) (cores_ite (hlevels _) ?_))
  refine cores_ite (hchecked _) (cores_ite (hchecked _) (cores_ite (hchecked _) (cores_ite (hchecked _) ?_)))
  refine cores_ite ?_ (cores_plainWrite s q)
  rw [cores_noteReserved, cores_trigger]

theorem pageWrite_field {s : State} {q : RegWrite} (hb : blkOf q.a = 0x09) (ho : 0x1000 ≤ offOf q.a) (hup : bridgeUp s = true) :
    pageWrite s q = fieldWrite s q := by
  simp [pageWrite, hb, hasEv2, measWrite, ho, hup, show offOf q.a ≠ 0x104 by omega, show offOf q.a ≠ 0x108 by omega]

theorem cores_absentCode (s : State) (b : Nat) : (absentCode s b).1.cores = s.cores := by
  unfold absentCode
  split <;> rfl

theorem onFieldDie_place {a : Nat} (h : onFieldDie a = true) : blkOf a = 9 ∧ 0x1000 ≤ offOf a := by
  simp only [onFieldDie, Bool.and_eq_true, decide_eq_true_eq] at h
  unfold blkOf offOf
  omega

theorem cores_fieldPage {s : State} {q : RegWrite} (h : onFieldDie q.a = true) (hup : bridgeUp s = true) :
    (blockWrite s q).cores = s.cores := by
  obtain ⟨hb, ho⟩ := onFieldDie_place h
  rw [blockWrite_page (by omega), pageWrite_field hb ho hup]
  exact cores_fieldWrite s q

theorem cores_writeRow_field {s : State} {a : Nat} (h : onFieldDie a = true) (hup : bridgeUp s = true) (t : RegRow) (is : List Nat)
    (v : W32) (src : Src) : (writeRow s a t is v src).cores = s.cores := by
  unfold writeRow
  split
  · exact cores_fieldPage h hup
  · rfl
  · exact cores_fieldPage h hup

/-- A write of the field-die part behind a bridge that is up leaves the cores alone. -/
theorem cores_regWrite32_field {s : State} {a : Nat} (h : onFieldDie a = true) (hup : bridgeUp s = true) (v : W32) (src : Src) :
    (regWrite32 s a v src).cores = s.cores := by
  unfold regWrite32
  refine cores_ite (fabricError_only s _ _ _ _).cores ?_
  split
  · rfl
  · refine cores_ite ?_ (cores_ite (cores_capture s _ _ _ _) (cores_ite (cores_capture s _ _ _ _) (cores_writeRow_field h hup _ _ v src)))
    have habsent := cores_absentCode s (blkOf a)
    generalize absentCode s (blkOf a) = r at habsent
    exact (cores_capture r.1 _ _ _ _).trans habsent

end Sys2Proof.Machine
end

section
/-! SUPPORT. What the field die answers to the accesses of a core: a store in its buffer, and a load that waits (R101, R217, R420). -/

namespace Sys2Proof.Machine
open Sys2Proof.Laws

/-! ### A core with nothing to take up again -/

/-- A core that holds no bundle and owes no acknowledgement. -/
structure Idle (s : State) (n : Nat) : Prop where
  here : n < s.cores.length
  unheld : (core s n).held = none
  noAcks : (core s n).tlbAcks = []

theorem updCore_tlbAcks {s : State} {n : Nat} (h : Idle s n) {f : Core → List (Nat × List Nat × Bool)} (hf : f (core s n) = []) :
    updCore s n (fun c => { c with tlbAcks := f c }) = s := by
  refine updCore_id h.here ?_
  rw [hf, ← h.noAcks]

theorem sendAcks_idle {s : State} {n : Nat} (h : Idle s n) (k : Nat) : sendAcks (k + 1) s n = s := by
  have hdue : dueAcks s n = [] := by simp [dueAcks, h.noAcks]
  unfold sendAcks
  simp only [hdue, ackTlb, List.foldl_nil]
  exact updCore_tlbAcks h (by simp [h.noAcks])

theorem retry_idle {s : State} {n : Nat} (h : Idle s n) : retry s n = s := by
  have hres : resume s n = s := by simp [resume, h.unheld]
  rw [retry, hres, sendAcks_idle h]

theorem ackEntry_idle {s : State} {n : Nat} (h : Idle s n) (id : Nat) : ackEntry s n id = s :=
  updCore_tlbAcks h (by simp [h.noAcks])

/-- An entry that no bundle waits for and that completed well is freed (R217). -/
theorem endEntry_idle {s : State} {n : Nat} (h : Idle s n) {e : StoreEntry} (hs : e.sync = none) :
    endEntry s n e 0 = updCore s n (fun c => { c with sb := c.sb.filter (fun x => x.id != e.id) }) := by
  have hc := core_updCore_same (f := fun c : Core => { c with sb := c.sb.filter (fun x => x.id != e.id) }) h.here
  have hfree : Idle (updCore s n (fun c => { c with sb := c.sb.filter (fun x => x.id != e.id) })) n :=
    ⟨by rw [cores_length_updCore]; exact h.here, by rw [hc]; exact h.unheld, by rw [hc]; exact h.noAcks⟩
  simp only [endEntry, hs, if_true]
  rw [ackEntry_idle hfree, retry_idle hfree]

/-! ### A store -/

/-- The bytes that the mask of an aligned 32-bit store selects. -/
theorem byteMask_word : ∀ k < 4, maskLow (byteMask (4 * k) 4) = 4 * k ∧ maskCount (byteMask (4 * k) 4) = 4 := by decide

/-- A 32-bit entry for a register of the field die is a write of that register (R101). -/
theorem performOutside_field {s : State} {e : StoreEntry} {k : Nat} (hk : k < 4) (hm : e.mask = byteMask (4 * k) 4) (hc : e.cap = false)
    (hp : Config.present s.variant 9 = true) (ha : onFieldDie (e.word * 16 + 4 * k) = true) (n : Nat) :
    performOutside s n e =
      regWrite32 s (e.word * 16 + 4 * k) (BitVec.ofNat 32 (bits e.data.toNat (32 * k + 31) (32 * k))) (.core n) := by
  obtain ⟨hlow, hcount⟩ := byteMask_word k hk
  obtain ⟨hblk, -⟩ := onFieldDie_place ha
  have hbits : 8 * (4 * k + 4) - 1 = 32 * k + 31 ∧ 8 * (4 * k) = 32 * k := by omega
  simp only [onFieldDie, Bool.and_eq_true, decide_eq_true_eq] at ha
  have hflash : inFlash (e.word * 16 + 4 * k) = false := by simp [inFlash]; omega
  have hrom : inRom (e.word * 16 + 4 * k) = false := by simp [inRom]; omega
  have hwin : inWindows (e.word * 16 + 4 * k) = true := by simp [inWindows]; omega
  have hal : (e.word * 16 + 4 * k) % 4 = 0 := by omega
  simp [performOutside, physWrite, hm, hlow, hcount, hc, hflash, hrom, hwin, hblk, hp, hal, hbits]

theorem fieldStore_found {s : State} {n : Nat} {e : StoreEntry} (h : (core s n).sb.find? (fun e => e.sent && fieldEntry s e) = some e) :
    fieldStore s n = endEntry (performOutside s n e) n e 0 := by simp only [fieldStore, h]

/-- What makes an entry one for the field die: its register is there, and the bridge is up (R420). -/
theorem fieldEntry_facts {s : State} {e : StoreEntry} (h : fieldEntry s e = true) :
    Config.present s.variant 9 = true ∧ onFieldDie (e.word * 16 + maskLow e.mask) = true ∧ bridgeUp s = true := by
  simp only [fieldEntry, inFieldPart, Bool.and_eq_true] at h
  obtain ⟨⟨⟨hp, hlo⟩, hhi⟩, hup⟩ := h
  exact ⟨hp, by simp only [onFieldDie, hlo, hhi, Bool.and_self], hup⟩

/-- The field die answers a 32-bit store: the register is written and the entry leaves the buffer (R217, R420). -/
theorem fieldStore_writes {s : State} {n k : Nat} {e : StoreEntry} (h : Idle s n) (hk : k < 4)
    (hf : (core s n).sb.find? (fun e => e.sent && fieldEntry s e) = some e) (hm : e.mask = byteMask (4 * k) 4) (hc : e.cap = false)
    (hs : e.sync = none) :
    (core (fieldStore s n) n).sb = (core s n).sb.filter (fun x => x.id != e.id) ∧ (fieldStore s n).regs =
      (regWrite32 s (e.word * 16 + 4 * k) (BitVec.ofNat 32 (bits e.data.toNat (32 * k + 31) (32 * k))) (.core n)).regs := by
  have hsent := List.find?_some hf
  rw [Bool.and_eq_true] at hsent
  obtain ⟨hp, ha, hup⟩ := fieldEntry_facts hsent.2
  rw [hm, (byteMask_word k hk).1] at ha
  have hcores := cores_regWrite32_field ha hup (BitVec.ofNat 32 (bits e.data.toNat (32 * k + 31) (32 * k))) (.core n)
  rw [fieldStore_found hf, performOutside_field hk hm hc hp ha]
  generalize regWrite32 s (e.word * 16 + 4 * k) (BitVec.ofNat 32 (bits e.data.toNat (32 * k + 31) (32 * k))) (.core n) = u at hcores
  have hcore : core u n = core s n := by rw [core, hcores, core]
  have hu : Idle u n := ⟨hcores ▸ h.here, hcore ▸ h.unheld, hcore ▸ h.noAcks⟩
  rw [endEntry_idle hu hs, core_updCore_same hu.here, hcore]
  exact ⟨rfl, rfl⟩

/-! ### A load -/

/-- The access that a held LDW, alone in its bundle, makes (R162). -/
theorem loadAccess_ldw (s : State) (h : Syl) (rd cs : CReg) (am : Addr) (n : Nat) (hd : Held) :
    loadAccess (viewOf s n (.ldw h rd cs am)) hd ⟨rd, cs, am, 4, true, false⟩ =
      checkAccess s n hd.walks (curRegs s n).space.toNat (stRING (status s n)) (readC s n cs.toNat) .load none
        (effAddr (capCursor (readC s n cs.toNat)) am 4) 4 := rfl

/-- The field die answers the load that core `n` waits for (R420): the bundle is taken up again with the word. -/
theorem fieldAnswer_word {s : State} {h : Syl} {rd cs : CReg} {am : Addr} {hd : Held} {p : Piece} (hw : Whole h (.ldw h rd cs am))
    (hc : condOn s h = true) (hh : (core s h.core).held = some hd) (hwhy : hd.why = .field) (ht : hd.target = [])
    (hws : hd.words = encodeSyl (.ldw h rd cs am))
    (ha : loadAccess (viewOf s h.core (.ldw h rd cs am)) hd ⟨rd, cs, am, 4, true, false⟩ = .go [p]) :
    fieldAnswer s h.core = retry (updCore (regRead32 s p.pa (.core h.core)).1 h.core
      (fun c => { c with held := some { hd with answer := some (regRead32 s p.pa (.core h.core)).2, begun := true } })) h.core := by
  obtain ⟨x, hx, hxi, hv⟩ := alone_slot (Encode.ldw h rd cs am h hw.syl hw.wf) hc
  have hb : mkBundle h.core (pcAddr s h.core) (encodeSyl (.ldw h rd cs am)) = soleBundle s h.core (.ldw h rd cs am) := rfl
  simp [fieldAnswer, hh, hwhy, ht, hws, hb, hx, hxi, hv, loadForm, ha]

/-- The bundle that waited for the field die goes on with the word read (R420). -/
theorem fieldRead_answers {s : State} {h : Syl} {rd cs : CReg} {am : Addr} {p : Piece} (hn : h.core < s.cores.length)
    (hw : Whole h (.ldw h rd cs am)) (hc : condOn s h = true)
    (hh : (core s h.core).held = some { freshHeld (encodeSyl (.ldw h rd cs am)) with why := .field })
    (ha : checkAccess s h.core [] (curRegs s h.core).space.toNat (stRING (status s h.core)) (readC s h.core cs.toNat) .load none
      (effAddr (capCursor (readC s h.core cs.toNat)) am 4) 4 = .go [p]) :
    ∃ u, fieldAnswer s h.core = retry u h.core ∧ u.regs = (regRead32 s p.pa (.core h.core)).1.regs ∧
      (core u h.core).held = some { freshHeld (encodeSyl (.ldw h rd cs am)) with
        why := .field, answer := some (regRead32 s p.pa (.core h.core)).2, begun := true } := by
  have hlt : h.core < (regRead32 s p.pa (.core h.core)).1.cores.length := by rw [cores_regRead32]; exact hn
  refine ⟨_, fieldAnswer_word hw hc hh rfl rfl rfl ((loadAccess_ldw s h rd cs am h.core _).trans ha), setCore_regs _ _ _, ?_⟩
  rw [core_updCore_same hlt]

/-- Settles O32: the front end's operations one after another with their frames, and the accesses through the cores that they keep. -/
theorem fieldDie : Obligations.FieldDie := by
  unfold Obligations.FieldDie
  intro s n k h rd cs am p e pri c i a hfree hdie
  refine ⟨?_, ?_, fun hup => ?_, fun hgood => ?_, fun hbad => ?_, ?_, ?_⟩
  · refine ⟨_, (exec_bridgeFrame hfree hdie true).trans (by rw [bridgeFrame_good hdie]), bridgeUp_goodFrame s, claim_goodFrame s,
      goodFrame_regs s, fun x hb ha => goodFrame_keeps s x (by simp [hb, ha])⟩
  · exact ⟨_, exec_bridgeFrame hfree hdie false, bridgeFrame_bad hdie⟩
  · obtain ⟨hdown, hcount⟩ := bridgeLoss_brstat hup
    obtain ⟨ho0, ho1⟩ := bridgeLoss_outputs hup
    obtain ⟨hclaim, hdrive⟩ := bridgeLoss_pins hup
    obtain ⟨hvalid, htrigs⟩ := bridgeLoss_measurements hup
    exact ⟨_, exec_bridgeLoss hfree hdie, hdown, ho0, ho1, hclaim, hdrive, hvalid, hcount, bridgeLoss_state hup, htrigs⟩
  · obtain ⟨hdrive, hclaim⟩ := supplyFault_pins hgood
    obtain ⟨ho0, ho1⟩ := supplyFault_outputs hgood
    have hoff := supplyFault_supply hgood
    exact ⟨_, exec_fieldSupplyFault hfree hdie, hoff, hdrive, hclaim, ho0, ho1, fun j _ => (outputs_unpowered hoff j).1,
      fun j _ => (outputs_unpowered hoff j).2, supplyFault_state hgood⟩
  · exact ⟨_, (exec_fieldSupplyRecovery hfree hdie pri).trans (by rw [supplyRecovery_bad hdie hbad]), supplyRecovery_supply s pri,
      supplyRecovery_pri s pri, supplyRecovery_claim s pri, supplyRecovery_only s pri⟩
  · intro hcore hn hw hc hh ha
    subst hcore
    obtain ⟨u, hret, hregs, hheld⟩ := fieldRead_answers hn hw hc hh ha
    exact ⟨_, u, exec_fieldRegisterAccess hfree hdie h.core false, hret, hregs, hheld⟩
  · intro hn hk hf hm hc hs hh hacks
    obtain ⟨hsb, hregs⟩ := fieldStore_writes ⟨hn, hh, hacks⟩ hk hf hm hc hs
    exact ⟨_, exec_fieldRegisterAccess hfree hdie n true, hsb, hregs⟩

end Sys2Proof.Machine
end
